-- ==== Sys2Proof/Word.lean ====
section
/-! DEFINITION. The word types, their plainest arithmetic, and the two plain containers of the model:
a table keyed by numbers and the list of 32 lane values. -/

namespace Sys2Proof

/-- A byte, the smallest addressable unit (00 R2). -/
abbrev Byte := BitVec 8
/-- A lane word (01 R14). -/
abbrev Word := BitVec 32
/-- A uniform register (05 R108). -/
abbrev DWord := BitVec 64
/-- A device virtual address (03 R69). -/
abbrev VAddr := BitVec 52
/-- One bit per lane of a warp (02 R24). -/
abbrev Mask := BitVec 32

/-- A table: pairs of a number and a value, numbers strictly rising. -/
abbrev Tab (α : Type) := List (Nat × α)

namespace Tab

/-- The entry of key `k`, if there is one. -/
def get? {α : Type} : Tab α → Nat → Option α
  | [], _ => none
  | (j, a) :: t, k => if j = k then some a else get? t k

/-- The entry of key `k`, or `d` where the table lists none. -/
def getD {α : Type} (t : Tab α) (k : Nat) (d : α) : α := (get? t k).getD d

/-- The table with entry `k` set. -/
def set {α : Type} : Tab α → Nat → α → Tab α
  | [], k, a => [(k, a)]
  | (j, b) :: t, k, a =>
    if k < j then (k, a) :: (j, b) :: t
    else if j = k then (k, a) :: t
    else (j, b) :: set t k a

/-- The table without entry `k`. -/
def erase {α : Type} (t : Tab α) (k : Nat) : Tab α := t.filter (fun p => p.1 != k)

/-- The table with every entry mapped. -/
def mapVal {α β : Type} (t : Tab α) (f : Nat → α → β) : Tab β := t.map (fun p => (p.1, f p.1 p.2))

end Tab

/-- The 32 lane numbers of a warp (02 R24). -/
def lanes : List Nat :=
  [0, 1, 2, 3, 4, 5, 6, 7, 8, 9, 10, 11, 12, 13, 14, 15, 16, 17, 18, 19, 20, 21, 22, 23, 24, 25, 26, 27, 28, 29, 30, 31]

/-- A mask from a predicate on lane numbers. -/
def maskOf (f : Nat → Bool) : Mask :=
  lanes.foldl (fun m l => if f l then m ||| (1#32 <<< l) else m) 0#32

/-- Bit `l` of a lane mask. -/
def Mask.has (m : Mask) (l : Nat) : Bool := BitVec.getLsbD m l

/-- The lanes of a mask in ascending order. -/
def Mask.list (m : Mask) : List Nat := lanes.filter (fun l => Mask.has m l)

/-- The number of lanes of a mask. -/
def Mask.count (m : Mask) : Nat := (Mask.list m).length

/-- The lane vector with value `f l` in lane `l`. -/
def laneVec {α : Type} (f : Nat → α) : List α := lanes.map f

/-- The bits [hi:lo] of a number (00 R1). -/
def bitsOf (n hi lo : Nat) : Nat := (n / 2 ^ lo) % 2 ^ (hi + 1 - lo)

/-- x[n-1:0] as a two's-complement integer (03 R77 `sext`). -/
def sextNat (x n : Nat) : Int :=
  if n = 0 then 0
  else
    let y := x % 2 ^ n
    if y < 2 ^ (n - 1) then (y : Int) else (y : Int) - (2 : Int) ^ n

/-- The n-bit pattern of an integer modulo 2^n (03 R77 `wrap`). -/
def wrapInt (x : Int) (n : Nat) : Nat := (x % ((2 : Int) ^ n)).toNat

/-- An integer clamped to the signed n-bit range (03 R77 `sat_s`). -/
def satS (x : Int) (n : Nat) : Int :=
  if x < -(2 : Int) ^ (n - 1) then -(2 : Int) ^ (n - 1)
  else if x > (2 : Int) ^ (n - 1) - 1 then (2 : Int) ^ (n - 1) - 1 else x

/-- An integer clamped to the natural n-bit range (03 R77 `sat_n`). -/
def satN (x : Int) (n : Nat) : Int :=
  if x < 0 then 0 else if x > (2 : Int) ^ n - 1 then (2 : Int) ^ n - 1 else x

/-- A value as `n` bytes, the least significant first (00 R2). -/
def toBytes (v n : Nat) : List Byte :=
  match n with
  | 0 => []
  | n + 1 => BitVec.ofNat 8 v :: toBytes (v / 256) n

/-- The value of bytes read with the least significant first (00 R2). -/
def ofBytes : List Byte → Nat
  | [] => 0
  | b :: t => b.toNat + 256 * ofBytes t

/-- `x` rounded up to a multiple of `n`. -/
def roundUp (x n : Nat) : Nat := if n = 0 then x else (x + n - 1) / n * n

end Sys2Proof
end

