-- ==== Sys2Proof/Config.lean ====
section
/-! DEFINITION. What is fixed for the part, and the free values: opaque constants that no proof can see into. -/

namespace Sys2Proof.Config

/-- Cores of the package (01 R11). -/
def numCores : Nat := 192
/-- Cores of a die (01 R11). -/
def coresPerDie : Nat := 48
/-- Cores of a quadrant (01 R11). -/
def coresPerQuadrant : Nat := 12
/-- The longest instruction, in bytes (03 R55). -/
def maxInstrBytes : Nat := 20

/-- A choice that the specification leaves to the part: which free run of granules a tile takes, and its BANKS
(16 R394). Applied to the counter `State.free` (log 4). -/
opaque freeChoice : Nat → Nat

/-- The set of an L2 slice that a line of an ASID falls in, modulo 4,096: 10 R253 gives the number of sets and not the index (log 44). -/
opaque l2Set : Nat → Nat → Nat

/-- Frebevan's root public key, which the mask ROM of D0 holds (18 R429). -/
opaque rootKey : Nat × Nat

/-- The private identity key that boot derives from D0's physically unclonable source (18 R437). -/
opaque identityKey : Nat

/-- The part's serial number, from its certificate (18 R438). -/
opaque serial : Nat

/-- The lines of a core's instruction cache: 256 KiB of 128 bytes (01 R13). -/
def icacheLines : Nat := 2048

end Sys2Proof.Config
end

