-- ==== Sys2Proof/Syntax.lean ====
section
/-! DEFINITION. Syntax: operands, the base and extended layouts, the grips' RISC-V instructions, what an event carries,
and Instr, with one constructor for every row of the opcode table. -/

namespace Sys2Proof

/-- The special ID operands (02 R26, Table 2). -/
inductive SpecialId where
  | idlane | idquad | idwarp | idslot | idgroup | idclus | idgrid | idcore | iditem | idnwarp | idngrp | idnclus
  deriving DecidableEq, Repr

/-- A full11 operand code (03 R60, Table 6). An immediate holds its nine-bit two's-complement value; `rsv` is one of the
reserved codes, which raises IL-OPND. -/
inductive Opnd where
  | v (n : BitVec 8) | s (n : BitVec 6) | c (k : BitVec 3) | la | lb | litLo | litHi | lit64
  | id (k : SpecialId) | imm (i : BitVec 9) | rsv (code : BitVec 10)
  deriving DecidableEq, Repr

/-- A source: its operand and its dead mark (03 R60, R62). -/
structure Src where
  op : Opnd
  dead : Bool
  deriving DecidableEq, Repr

/-- A short7 operand code (03 R59, Table 5). An immediate holds code - 0x60, that is its value plus 16; `rsv` is a reserved code. -/
inductive Op7 where
  | v (n : BitVec 6) | c (k : BitVec 3) | la | lb | lit | s (n : BitVec 4) | imm (i : BitVec 5)
  | rsv (code : BitVec 7)
  deriving DecidableEq, Repr

/-- A guard: `neg` is bit 3 and `p` bits [2:0] of GUARD (03 R65). -/
structure Guard where
  neg : Bool
  p : BitVec 3
  deriving DecidableEq, Repr

/-- GUARD = 0b0111, "always" (03 R65). -/
def Guard.always : Guard := { neg := false, p := 7#3 }

/-- An extended instruction without its OPC and MINOR, which the constructor says (03 R57, Table 4).
A field that holds code 0 holds the operand `v 0`. `lit` is the trailing literal (LEN = 0b11), and `dstDead` bit [10]
of DST. Every word of the layout is one Ext: the checks of Table 7 are made when the instruction issues. -/
structure Ext where
  bnd : Bool
  mods : BitVec 10
  mods2 : BitVec 6
  mods3 : BitVec 6
  guard : Guard
  dst : Opnd
  dstDead : Bool
  a : Src
  b : Src
  c : Src
  cfen : Bool
  cfslot : BitVec 3
  lit : Option DWord
  deriving DecidableEq, Repr

/-- B-BR (03 R56, Table 3). -/
structure BBr where
  bnd : Bool
  off : BitVec 22
  deriving DecidableEq, Repr

/-- B-ALU (03 R56, Table 3). -/
structure BAlu where
  bnd : Bool
  k : Bool
  dst : Op7
  a : Op7
  b : Op7
  lit : Option DWord
  deriving DecidableEq, Repr

/-- B-IMM (03 R56, Table 3). -/
structure BImm where
  bnd : Bool
  imm : BitVec 8
  dst : Op7
  a : Op7
  lit : Option DWord
  deriving DecidableEq, Repr

/-- B-MEM (03 R56, Table 3). -/
structure BMem where
  bnd : Bool
  off : BitVec 8
  addr : Op7
  data : Op7
  lit : Option DWord
  deriving DecidableEq, Repr

/-- The register-register operations of RV64IM (14 R351); `w` marks the word forms. -/
inductive RvOp where
  | add | sub | sll | slt | sltu | xor | srl | sra | or | and
  | mul | mulh | mulhsu | mulhu | div | divu | rem | remu
  deriving DecidableEq, Repr

/-- Branch conditions of RV64I. -/
inductive RvBranch where
  | beq | bne | blt | bge | bltu | bgeu
  deriving DecidableEq, Repr

/-- Atomic memory operations of RV64A. -/
inductive RvAmo where
  | lr | sc | swap | add | xor | and | or | min | max | minu | maxu
  deriving DecidableEq, Repr

/-- CSR operations of Zicsr. -/
inductive RvCsr where
  | rw | rs | rc
  deriving DecidableEq, Repr

/-- A grip's standard instruction: RV64IMA, Zicsr and machine mode (14 R351). Compressed words decode to the same terms.
`raw` is a word that the grip raises an illegal-instruction exception for. -/
inductive Rv where
  | lui (rd : BitVec 5) (imm : BitVec 20)
  | auipc (rd : BitVec 5) (imm : BitVec 20)
  | jal (rd : BitVec 5) (off : BitVec 21)
  | jalr (rd rs1 : BitVec 5) (off : BitVec 12)
  | branch (c : RvBranch) (rs1 rs2 : BitVec 5) (off : BitVec 13)
  | load (size : BitVec 2) (uns : Bool) (rd rs1 : BitVec 5) (off : BitVec 12)
  | store (size : BitVec 2) (rs1 rs2 : BitVec 5) (off : BitVec 12)
  | opImm (op : RvOp) (w : Bool) (rd rs1 : BitVec 5) (imm : BitVec 12)
  | op (op : RvOp) (w : Bool) (rd rs1 rs2 : BitVec 5)
  | amo (op : RvAmo) (dbl aq rl : Bool) (rd rs1 rs2 : BitVec 5)
  | fence (pred succ : BitVec 4)
  | csr (op : RvCsr) (immForm : Bool) (rd rs1 : BitVec 5) (num : BitVec 12)
  | ecall | ebreak | mret | wfi
  | illegal (word : BitVec 32)
  deriving DecidableEq, Repr

/-- Who waits on a tag (10 R261, R262). -/
inductive TagWaiter where
  | warp (slot : Nat)
  | grip (g : Nat)
  deriving DecidableEq, Repr

/-- A MACHINE error: its scope and unit and the group or core it struck (09 R242, R243). -/
structure MachineError where
  scope : Nat
  unit : BitVec 8
  core : Nat
  gid : Nat
  addr : DWord
  deriving DecidableEq, Repr

/-- An atomic element waiting to be performed (11 R282; 13 R317, R331). -/
inductive AtomicRef where
  /-- contribution `idx` of the list a core has drained and not yet performed -/
  | contribution (core idx : Nat)
  /-- element `j` of the command in an engine context -/
  | element (core engine ctx j : Nat)
  deriving DecidableEq, Repr

/-- A protected unit of storage (10 R263, Table 6). Addresses are byte offsets in the store. -/
inductive StoreUnit where
  | register (core slot reg lane : Nat)
  | latch (core sched which lane : Nat)
  | cacheTag (core slot k : Nat)
  | cacheData (core slot k : Nat)
  | scratch (core addr : Nat)
  | tile (core addr : Nat)
  | weight (core addr : Nat)
  | acc (core addr : Nat)
  | icache (core line : Nat)
  | gripInstr (core g addr : Nat)
  | gripData (core g addr : Nat)
  | staging (die addr : Nat)
  | l2Home (die asid line word : Nat)
  | l2Guest (die asid line word : Nat)
  | hbm (sector : Nat)
  deriving DecidableEq, Repr

/-- What a read of a protected unit finds (10 R265). -/
inductive ScrubFound where
  | clean | corrected | uncorrectable
  deriving DecidableEq, Repr

/-- A port that spends tokens (17 R422, R423). -/
inductive PortRef where
  | core (c : Nat)
  | coll (die : Nat)
  deriving DecidableEq, Repr

/-- Collective `k` on a group tag (15 R363). -/
structure CollKey where
  tag : BitVec 16
  k : Nat
  deriving DecidableEq, Repr

/-- An inbound request (15 R371, Table 6): the port it arrived on, its stream, number, target address, and what it asks for; `bad`
lists the bytes of its data that carry the mark of an uncorrectable error. -/
structure Packet where
  port : Nat
  src : BitVec 12
  tc : BitVec 2
  q : BitVec 32
  asid : BitVec 16
  va : VAddr
  data : List Byte
  bad : List Nat
  len : Nat
  /-- atomic operation, size in bytes, natural comparison, compare value (KIND 2 and 3 data, AMO) -/
  rop : Option Nat
  size : Nat
  nat : Bool
  cmp : Nat
  deriving DecidableEq, Repr

/-- An inbound collective packet (15 R363, R371): its stream and number, a peer member's core, the cores of its scope entry (R360) and its
parameters, up to 256 bytes of its source from byte `off`, and whether the member has failed. The specification gives the packet no layout (log 19). -/
structure CollPacket where
  port : Nat
  src : BitVec 12
  tc : BitVec 2
  q : BitVec 32
  core : Nat
  cores : List Nat
  key : CollKey
  header : DWord
  count : BitVec 32
  root : BitVec 32
  nmem : Nat
  off : Nat
  data : List Byte
  failed : Bool
  deriving DecidableEq, Repr

/-- The answer to one request (15 R376, R381). -/
inductive AckKind where
  | done | data (bytes : List Byte) (bad : List Nat) | old (value : DWord)
  | remoteNack | remoteFault | nackPoison
  deriving DecidableEq, Repr

/-- What the initiator receives on a stream: ACK(n), a hint, and an answer to request `q` (15 R376, R382). -/
structure Ack where
  dev : BitVec 12
  tc : BitVec 2
  upTo : BitVec 32
  hint : Bool
  answer : Option (BitVec 32 × AckKind)
  deriving DecidableEq, Repr

/-- States of an OnaocLink (18 R439). -/
inductive LinkState where
  | down | train | mgmt | up
  deriving DecidableEq, Repr

/-- What boot finds outside the part's digital rules: HBM4 training, and whether the identity key is the certificate's (18 R434,
R437). -/
structure BootOutcome where
  trainingOk : Bool
  identityOk : Bool
  deriving DecidableEq, Repr

/-- A device-memory access of the companion processor (10 R259): a write when `data` is there, else a read of `len` bytes. -/
structure CompanionAccess where
  link : Nat
  asid : BitVec 16
  va : VAddr
  len : Nat
  data : Option (List Byte)
  deriving DecidableEq, Repr


/-- The steps of the part: one constructor for every row of the opcode table. A row with an instruction word
carries the word's fields; a row that is an event of another agent carries the agent it happens to. -/
inductive Instr where
  /-- BRA_BR: Base-form unconditional branch to PC plus a 22-bit signed word offset. (R158) -/
  | braBr (b : BBr)
  /-- BRA_EXT: Extended-form unconditional branch with its offset taken from SRCB. (R158) -/
  | braExt (x : Ext)
  /-- BRP: Whole-warp branch taken when the .any or .all test of the guard holds over the non-helper active lanes. (R158) -/
  | brp (x : Ext)
  /-- BRX: Divergent branch that pushes one split-stack entry and sends the lanes whose guard is set to the target. (R160) -/
  | brx (x : Ext)
  /-- JOIN_ALU: Base-form JOIN that pops, swaps to the other path or merges at the top split-stack entry. (R37) -/
  | joinAlu (b : BAlu)
  /-- JOIN_EXT: Extended-form JOIN. (R37) -/
  | joinExt (x : Ext)
  /-- CALL_BR: Base-form call that writes the return address to s15 and branches by OFF22. (R158) -/
  | callBr (b : BBr)
  /-- CALL_EXT: Extended-form call with a uniform link register named in DST. (R158) -/
  | callExt (x : Ext)
  /-- CALLI_ALU: Base-form indirect call through a uniform target register, writing the link register. (R158) -/
  | calliAlu (b : BAlu)
  /-- CALLI_EXT: Extended-form indirect call. (R158) -/
  | calliExt (x : Ext)
  /-- RET_ALU: Base-form return to the address held in a uniform register. (R158) -/
  | retAlu (b : BAlu)
  /-- RET_EXT: Extended-form return. (R158) -/
  | retExt (x : Ext)
  /-- JMPI_ALU: Base-form indirect jump to the address held in a uniform register. (R158) -/
  | jmpiAlu (b : BAlu)
  /-- JMPI_EXT: Extended-form indirect jump. (R158) -/
  | jmpiExt (x : Ext)
  /-- EXIT_ALU: Base-form EXIT that moves the selected active lanes to exited and resumes or ends the warp under R39. (R161) -/
  | exitAlu (b : BAlu)
  /-- EXIT_EXT: Extended-form EXIT, whose guard selects the lanes that exit. (R161) -/
  | exitExt (x : Ext)
  /-- RECAST: Refills candidate lanes with items from the group's casting queue, or goes to the exit target when the queue is closed and empty. (R162) -/
  | recast (x : Ext)
  /-- YIELD_ALU: Base-form YIELD that ends the run and gives the scheduler to other ready warps. (R163) -/
  | yieldAlu (b : BAlu)
  /-- YIELD_EXT: Extended-form YIELD. (R163) -/
  | yieldExt (x : Ext)
  /-- NOP_ALU: Base-form no-operation that only counts towards the run. (R164) -/
  | nopAlu (b : BAlu)
  /-- NOP_EXT: Extended-form no-operation. (R164) -/
  | nopExt (x : Ext)
  /-- BKPT_IMM: Base-form breakpoint that raises BKPT with an 8-bit code when the guard holds in some lane. (R165) -/
  | bkptImm (b : BImm)
  /-- BKPT_EXT: Extended-form breakpoint with its code taken from SRCB. (R165) -/
  | bkptExt (x : Ext)
  /-- TRAP_IMM: Base-form deliberate trap that raises TRAP with an 8-bit code. (R165) -/
  | trapImm (b : BImm)
  /-- TRAP_EXT: Extended-form deliberate trap. (R165) -/
  | trapExt (x : Ext)
  /-- SVC_IMM: Base-form supervisor call that always raises SVC with an 8-bit code. (R165) -/
  | svcImm (b : BImm)
  /-- SVC_EXT: Extended-form supervisor call. (R165) -/
  | svcExt (x : Ext)
  /-- IADD_ALU: Base-form 32-bit wrapping integer add. (R142) -/
  | iaddAlu (b : BAlu)
  /-- IADD_IMM: Integer add with an 8-bit signed immediate, under immediate major 0x43. (R478) -/
  | iaddImm (b : BImm)
  /-- IADD_EXT: Extended-form integer add with width, signedness and saturation modifiers. (R142) -/
  | iaddExt (x : Ext)
  /-- ISUB_ALU: Base-form integer subtract. (R142) -/
  | isubAlu (b : BAlu)
  /-- ISUB_IMM: Integer subtract with an immediate, under major 0x44. (R478) -/
  | isubImm (b : BImm)
  /-- ISUB_EXT: Extended-form integer subtract. (R142) -/
  | isubExt (x : Ext)
  /-- IADDC: Add or subtract with carry-in and carry-out predicates. (R143) -/
  | iaddc (x : Ext)
  /-- IMUL_ALU: Base-form integer multiply giving the low word. (R142) -/
  | imulAlu (b : BAlu)
  /-- IMUL_IMM: Integer multiply by an immediate, under major 0x45. (R478) -/
  | imulImm (b : BImm)
  /-- IMUL_EXT: Extended-form integer multiply. (R142) -/
  | imulExt (x : Ext)
  /-- IMULH_ALU: Base-form integer multiply giving the high word. (R142) -/
  | imulhAlu (b : BAlu)
  /-- IMULH_IMM: High-word multiply by an immediate, under major 0x46. (R478) -/
  | imulhImm (b : BImm)
  /-- IMULH_EXT: Extended-form high-word multiply. (R142) -/
  | imulhExt (x : Ext)
  /-- IMAD: Integer multiply-add with saturation applied only to the final sum. (R142) -/
  | imad (x : Ext)
  /-- IMADW: 32 by 32 multiply plus a 64-bit addend, giving a 64-bit result. (R142) -/
  | imadw (x : Ext)
  /-- ISHL_ALU: Base-form shift left. (R144) -/
  | ishlAlu (b : BAlu)
  /-- ISHL_IMM: Shift left by an immediate, under major 0x47. (R478) -/
  | ishlImm (b : BImm)
  /-- ISHL_EXT: Extended-form shift left. (R144) -/
  | ishlExt (x : Ext)
  /-- ISHR_ALU: Base-form logical shift right. (R144) -/
  | ishrAlu (b : BAlu)
  /-- ISHR_IMM: Logical shift right by an immediate, under major 0x48. (R478) -/
  | ishrImm (b : BImm)
  /-- ISHR_EXT: Extended-form logical shift right. (R144) -/
  | ishrExt (x : Ext)
  /-- ISAR_ALU: Base-form arithmetic shift right. (R144) -/
  | isarAlu (b : BAlu)
  /-- ISAR_IMM: Arithmetic shift right by an immediate, under major 0x49. (R478) -/
  | isarImm (b : BImm)
  /-- ISAR_EXT: Extended-form arithmetic shift right. (R144) -/
  | isarExt (x : Ext)
  /-- IROT_ALU: Base-form rotate left. (R144) -/
  | irotAlu (b : BAlu)
  /-- IROT_IMM: Rotate by an immediate, under major 0x4A. (R478) -/
  | irotImm (b : BImm)
  /-- IROT_EXT: Extended-form rotate, left or right. (R144) -/
  | irotExt (x : Ext)
  /-- AND_ALU: Base-form bitwise AND. (R144) -/
  | andAlu (b : BAlu)
  /-- AND_IMM: Bitwise AND with an immediate, under major 0x4B. (R478) -/
  | andImm (b : BImm)
  /-- AND_EXT: Extended-form bitwise AND. (R144) -/
  | andExt (x : Ext)
  /-- OR_ALU: Base-form bitwise OR. (R144) -/
  | orAlu (b : BAlu)
  /-- OR_IMM: Bitwise OR with an immediate, under major 0x4C. (R478) -/
  | orImm (b : BImm)
  /-- OR_EXT: Extended-form bitwise OR. (R144) -/
  | orExt (x : Ext)
  /-- XOR_ALU: Base-form bitwise XOR. (R144) -/
  | xorAlu (b : BAlu)
  /-- XOR_IMM: Bitwise XOR with an immediate, under major 0x4D. (R478) -/
  | xorImm (b : BImm)
  /-- XOR_EXT: Extended-form bitwise XOR. (R144) -/
  | xorExt (x : Ext)
  /-- ANDN_ALU: Base-form a AND NOT b. (R144) -/
  | andnAlu (b : BAlu)
  /-- ANDN_IMM: a AND NOT an immediate, under major 0x4E. (R478) -/
  | andnImm (b : BImm)
  /-- ANDN_EXT: Extended-form a AND NOT b. (R144) -/
  | andnExt (x : Ext)
  /-- LMIX: Three-input bitwise function selected by an 8-bit table. (R144) -/
  | lmix (x : Ext)
  /-- BFX: Extracts a bit field, with sign extension or zero extension. (R145) -/
  | bfx (x : Ext)
  /-- BFI: Inserts a bit field into a value. (R145) -/
  | bfi (x : Ext)
  /-- IMIN_ALU: Base-form integer minimum. (R142) -/
  | iminAlu (b : BAlu)
  /-- IMIN_IMM: Integer minimum with an immediate, under major 0x4F. (R478) -/
  | iminImm (b : BImm)
  /-- IMIN_EXT: Extended-form integer minimum. (R142) -/
  | iminExt (x : Ext)
  /-- IMAX_ALU: Base-form integer maximum. (R142) -/
  | imaxAlu (b : BAlu)
  /-- IMAX_IMM: Integer maximum with an immediate, under major 0x5A. (R478) -/
  | imaxImm (b : BImm)
  /-- IMAX_EXT: Extended-form integer maximum. (R142) -/
  | imaxExt (x : Ext)
  /-- IABS_ALU: Base-form integer absolute value. (R142) -/
  | iabsAlu (b : BAlu)
  /-- IABS_EXT: Extended-form integer absolute value with optional saturation. (R142) -/
  | iabsExt (x : Ext)
  /-- ISEL: Selects srcA or srcB per lane by a predicate. (R146) -/
  | isel (x : Ext)
  /-- IDOT4: Four-way byte dot product accumulated into a 32-bit value. (R142) -/
  | idot4 (x : Ext)
  /-- LEA: Forms a 64-bit address from a base plus a shifted index. (R147) -/
  | lea (x : Ext)
  /-- IADD64_ALU: Base-form 64-bit integer add. (R142) -/
  | iadd64Alu (b : BAlu)
  /-- IADD64_IMM: 64-bit add of an immediate, under major 0x5B. (R478) -/
  | iadd64Imm (b : BImm)
  /-- IADD64_EXT: Extended-form 64-bit add. (R142) -/
  | iadd64Ext (x : Ext)
  /-- LDI_ALU: Base-form move of any source into a register. (R148) -/
  | ldiAlu (b : BAlu)
  /-- LDI_EXT: Extended-form move, including a 64-bit literal load. (R148) -/
  | ldiExt (x : Ext)
  /-- CLZ: Counts leading zero bits. (R144) -/
  | clz (x : Ext)
  /-- CTZ: Counts trailing zero bits. (R144) -/
  | ctz (x : Ext)
  /-- POPC: Counts the one bits. (R144) -/
  | popc (x : Ext)
  /-- BREV: Reverses the bit order. (R144) -/
  | brev (x : Ext)
  /-- ISET: Integer compare combined with a predicate, written to a predicate. (R149) -/
  | iset (x : Ext)
  /-- PSET: Three-input predicate logic selected by a table. (R150) -/
  | pset (x : Ext)
  /-- PMOV: Moves values between predicates, registers and edge masks, in the form selected by FORM. (R151) -/
  | pmov (x : Ext)
  /-- PCNT: Counts the active non-helper lanes whose predicate holds, into a uniform register. (R152) -/
  | pcnt (x : Ext)
  /-- VTOS: Copies one lane's value into a uniform register. (R153) -/
  | vtos (x : Ext)
  /-- STOV: Writes an arithmetic progression across the lanes. (R154) -/
  | stov (x : Ext)
  /-- ELECT: Chooses the lowest eligible lane, writing its index and a one-hot predicate. (R155) -/
  | elect (x : Ext)
  /-- FADD_ALU: Base-form FP32 add. (R169) -/
  | faddAlu (b : BAlu)
  /-- FADD_IMM: FP32 add of an integer immediate, under major 0x5C. (R478) -/
  | faddImm (b : BImm)
  /-- FADD_EXT: Extended-form FP32 add with rounding and source modifiers. (R169) -/
  | faddExt (x : Ext)
  /-- FSUB_ALU: Base-form FP32 subtract. (R169) -/
  | fsubAlu (b : BAlu)
  /-- FSUB_IMM: FP32 subtract of an immediate, under major 0x5D. (R478) -/
  | fsubImm (b : BImm)
  /-- FSUB_EXT: Extended-form FP32 subtract. (R169) -/
  | fsubExt (x : Ext)
  /-- FMUL_ALU: Base-form FP32 multiply. (R169) -/
  | fmulAlu (b : BAlu)
  /-- FMUL_IMM: FP32 multiply by an immediate, under major 0x5E. (R478) -/
  | fmulImm (b : BImm)
  /-- FMUL_EXT: Extended-form FP32 multiply. (R169) -/
  | fmulExt (x : Ext)
  /-- FFMA: FP32 fused multiply-add, rounded once. (R169) -/
  | ffma (x : Ext)
  /-- FMIN_ALU: Base-form FP32 minimum. (R170) -/
  | fminAlu (b : BAlu)
  /-- FMIN_IMM: FP32 minimum with an immediate, under major 0x5F. (R478) -/
  | fminImm (b : BImm)
  /-- FMIN_EXT: Extended-form FP32 minimum. (R170) -/
  | fminExt (x : Ext)
  /-- FMAX_ALU: Base-form FP32 maximum. (R170) -/
  | fmaxAlu (b : BAlu)
  /-- FMAX_IMM: FP32 maximum with an immediate, under major 0x2D. (R478) -/
  | fmaxImm (b : BImm)
  /-- FMAX_EXT: Extended-form FP32 maximum. (R170) -/
  | fmaxExt (x : Ext)
  /-- FSET: FP32 compare combined with a predicate, written to a predicate. (R171) -/
  | fset (x : Ext)
  /-- FCLASS: Writes a one-hot class mask of a binary32 value. (R172) -/
  | fclass (x : Ext)
  /-- FRCP: Correctly rounded reciprocal. (R173) -/
  | frcp (x : Ext)
  /-- FRSQ: Correctly rounded reciprocal square root. (R173) -/
  | frsq (x : Ext)
  /-- FSQRT: Correctly rounded square root. (R173) -/
  | fsqrt (x : Ext)
  /-- FEXP2: Correctly rounded 2 to the power x. (R173) -/
  | fexp2 (x : Ext)
  /-- FLOG2: Correctly rounded base-2 logarithm. (R173) -/
  | flog2 (x : Ext)
  /-- FSIN: Correctly rounded sine of pi times x. (R173) -/
  | fsin (x : Ext)
  /-- FCOS: Correctly rounded cosine of pi times x. (R173) -/
  | fcos (x : Ext)
  /-- FTANH: Correctly rounded hyperbolic tangent. (R173) -/
  | ftanh (x : Ext)
  /-- DADD_ALU: Base-form binary64 add. (R174) -/
  | daddAlu (b : BAlu)
  /-- DADD_EXT: Extended-form binary64 add. (R174) -/
  | daddExt (x : Ext)
  /-- DMUL_ALU: Base-form binary64 multiply. (R174) -/
  | dmulAlu (b : BAlu)
  /-- DMUL_EXT: Extended-form binary64 multiply. (R174) -/
  | dmulExt (x : Ext)
  /-- DFMA: Binary64 fused multiply-add. (R174) -/
  | dfma (x : Ext)
  /-- PKADD_ALU: Base-form packed 16-bit add. (R175) -/
  | pkaddAlu (b : BAlu)
  /-- PKADD_EXT: Extended-form packed 16-bit add. (R175) -/
  | pkaddExt (x : Ext)
  /-- PKMUL_ALU: Base-form packed 16-bit multiply. (R175) -/
  | pkmulAlu (b : BAlu)
  /-- PKMUL_EXT: Extended-form packed 16-bit multiply. (R175) -/
  | pkmulExt (x : Ext)
  /-- PKFMA: Packed 16-bit fused multiply-add. (R175) -/
  | pkfma (x : Ext)
  /-- CVT: Converts between IEEE and integer types. (R176) -/
  | cvt (x : Ext)
  /-- CVTQ: Packs 32 binary32 values into a BQn block, or unpacks one. (R180) -/
  | cvtq (x : Ext)
  /-- BQDOT: Block-by-block BQn dot product, each block product rounded to binary32. (R181) -/
  | bqdot (x : Ext)
  /-- BQSCL: Computes the shared BQn exponent of 32 values into a scale byte. (R179) -/
  | bqscl (x : Ext)
  /-- QSWZ: Swizzles values within each quad. (R182) -/
  | qswz (x : Ext)
  /-- QBC: Broadcasts one lane of each quad. (R182) -/
  | qbc (x : Ext)
  /-- QDX: Horizontal FP32 difference within each quad. (R182) -/
  | qdx (x : Ext)
  /-- QDY: Vertical FP32 difference within each quad. (R182) -/
  | qdy (x : Ext)
  /-- LXCH: Exchanges values between the lanes of a segment. (R185) -/
  | lxch (x : Ext)
  /-- QRM: Warp-wide vote on a predicate, or its participant mask. (R186) -/
  | qrm (x : Ext)
  /-- PEER: Finds the participants that hold equal bit patterns. (R187) -/
  | peer (x : Ext)
  /-- WFOLD: Folds a value across the participants in a fixed tree order. (R188) -/
  | wfold (x : Ext)
  /-- PREFIX: Inclusive or exclusive running fold across the participants. (R188) -/
  | prefixFold (x : Ext)
  /-- ISECT: Intersects two ascending lists held across the lanes. (R189) -/
  | isect (x : Ext)
  /-- MMA2: Posts a matrix command with 2-bit B mantissas to the matrix queue. (R193) -/
  | mma2 (x : Ext)
  /-- MMA3: Posts a matrix command with 3-bit B mantissas. (R193) -/
  | mma3 (x : Ext)
  /-- MMA4: Posts a matrix command with 4-bit B mantissas. (R193) -/
  | mma4 (x : Ext)
  /-- MMA5: Posts a matrix command with 5-bit B mantissas. (R193) -/
  | mma5 (x : Ext)
  /-- MMA6: Posts a matrix command with 6-bit B mantissas. (R193) -/
  | mma6 (x : Ext)
  /-- MMA7: Posts a matrix command with 7-bit B mantissas. (R193) -/
  | mma7 (x : Ext)
  /-- MMA8: Posts a matrix command with 8-bit B mantissas. (R193) -/
  | mma8 (x : Ext)
  /-- MMAW: Posts a wide-mode two-pass matrix command. (R200) -/
  | mmaw (x : Ext)
  /-- WBLD: Posts a copy of bytes from scratchpad or a tile into the weight share. (R204) -/
  | wbld (x : Ext)
  /-- WBINV: Marks a range of the weight share empty, in matrix-queue order. (R205) -/
  | wbinv (x : Ext)
  /-- ACLR: Clears a run of accumulators to +0. (R206) -/
  | aclr (x : Ext)
  /-- ARD: Reads accumulator rows into vector registers. (R206) -/
  | ard (x : Ext)
  /-- AWR: Writes vector registers into accumulator rows. (R206) -/
  | awr (x : Ext)
  /-- SCAN: Posts a selective state-space recurrence to the scan queue. (R208) -/
  | scan (x : Ext)
  /-- SCANST: Posts a bit-exact copy of a state tile to the scan queue. (R213) -/
  | scanst (x : Ext)
  /-- MFS: Reads a system register into a uniform register, clearing its RC fields. (R216) -/
  | mfs (x : Ext)
  /-- MTS: Writes a system register that has no row of its own. (R217) -/
  | mts (x : Ext)
  /-- SSCMD_SPILL: Write of SPILL to SSCMD, moving up to 8 bottom split-stack entries to scratchpad. (R225) -/
  | sscmdSpill (x : Ext)
  /-- SSCMD_FILL: Write of FILL to SSCMD, restoring up to 8 spilled entries below the bottom of the stack. (R225) -/
  | sscmdFill (x : Ext)
  /-- SSCMD_POP: Write of POP to SSCMD, moving the top entry into SSLO and SSHI. (R225) -/
  | sscmdPop (x : Ext)
  /-- SSCMD_PUSH: Write of PUSH to SSCMD, pushing SSLO and SSHI as the new top entry. (R225) -/
  | sscmdPush (x : Ext)
  /-- ERET: Drains the store queue, restores state from the trap frame and returns from handler state. (R233) -/
  | eret (x : Ext)
  /-- HALT: Ends a handler warp for good after a context save. (R237) -/
  | halt (x : Ext)
  /-- CLRERR: Clears ERR, NFAIL and the first-failure fields of GROUPSTAT. (R235) -/
  | clrerr (x : Ext)
  /-- TLBFLUSH: Removes an ASID's translations and drops or invalidates its cached lines. (R408) -/
  | tlbflush (x : Ext)
  /-- TLBSYNC: Waits in place until every earlier flush and retirement has finished. (R409) -/
  | tlbsync (x : Ext)
  /-- ASIDRET: Starts the retirement of an ASID and writes a status. (R410) -/
  | asidret (x : Ext)
  /-- SGWR: Writes a scope-group entry from a scratchpad image and waits until every die holds it. (R399) -/
  | sgwr (x : Ext)
  /-- TTRD: Reads a tile-table entry into two uniform registers. (R395) -/
  | ttrd (x : Ext)
  /-- BWSET: Sets a bandwidth-share weight on one die or on every die. (R406) -/
  | bwset (x : Ext)
  /-- LDS_MEM: Base-form scratchpad or register-window load. (R289) -/
  | ldsMem (b : BMem)
  /-- LDS_EXT: Extended-form load with an access size. (R289) -/
  | ldsExt (x : Ext)
  /-- STS_MEM: Base-form store that enters the store queue. (R289) -/
  | stsMem (b : BMem)
  /-- STS_EXT: Extended-form store with an access size. (R289) -/
  | stsExt (x : Ext)
  /-- LDSF_MEM: Base-form load that waits for full tags and empties them. (R291) -/
  | ldsfMem (b : BMem)
  /-- LDSF_EXT: Extended-form full/empty load. (R291) -/
  | ldsfExt (x : Ext)
  /-- STSE_MEM: Base-form store that waits for empty tags and fills them. (R291) -/
  | stseMem (b : BMem)
  /-- STSE_EXT: Extended-form empty/full store. (R291) -/
  | stseExt (x : Ext)
  /-- LDSP: Loads a word and its tag in one access. (R292) -/
  | ldsp (x : Ext)
  /-- TAGS: Sets the tags of the covered words to full. (R293) -/
  | tags (x : Ext)
  /-- TAGC: Sets the tags of the covered words to empty. (R293) -/
  | tagc (x : Ext)
  /-- ATS: Shared atomic on scratchpad that returns the old value. (R294) -/
  | ats (x : Ext)
  /-- ATSN: Shared atomic on scratchpad that returns nothing. (R294) -/
  | atsn (x : Ext)
  /-- TALLOC: Binds a tile handle to new storage and writes a status. (R300) -/
  | talloc (x : Ext)
  /-- TFREE: Unbinds a tile handle. (R301) -/
  | tfree (x : Ext)
  /-- TLD: Loads tile rows into vector registers. (R302) -/
  | tld (x : Ext)
  /-- TST: Stores vector registers into tile rows. (R302) -/
  | tst (x : Ext)
  /-- FENCE: Waits in place until the warp's store queue has drained. (R296) -/
  | fence (x : Ext)
  /-- ICINV: Invalidates the instruction caches of the covered warps and waits until they finish. (R297) -/
  | icinv (x : Ext)
  /-- CPOST: Drains the store queue and posts a slate to the copy queue, blocking while it is full. (R320) -/
  | cpost (x : Ext)
  /-- RED: Adds per-lane reductions to the scheduler's atomic buffer. (R330) -/
  | red (x : Ext)
  /-- AMO: Posts one atomic element whose old value returns to a uniform register. (R333) -/
  | amo (x : Ext)
  /-- REDFLUSH: Drains the group's atomic-buffer entries and completes on a timeline. (R332) -/
  | redflush (x : Ext)
  /-- CFENCE: Places a release, acquire or full fence mark on the group's next command. (R334) -/
  | cfence (x : Ext)
  /-- CPSTAT: Reads copy-queue state, or the state of one numbered command. (R329) -/
  | cpstat (x : Ext)
  /-- COLL: Posts one collective to the die's collective engine. (R362) -/
  | coll (x : Ext)
  /-- CGRP: Reads the member count and own member index of a scope entry. (R361) -/
  | cgrp (x : Ext)
  /-- FXWIN: Reads a fabric window entry with its current stall hint. (R374) -/
  | fxwin (x : Ext)
  /-- TSKPOST: Expands a delta record into a base block and posts the task to a target core. (R345) -/
  | tskpost (x : Ext)
  /-- LAUNCH: Appends a call sheet to a device-owned launch queue. (R342) -/
  | launch (x : Ext)
  /-- ITEMPUT: Appends items to the group's casting queue and may close it. (R350) -/
  | itemput (x : Ext)
  /-- WAITC: Waits until the warp's outstanding-operation counters are at or below their limits. (R414) -/
  | waitc (x : Ext)
  /-- TLWAIT: Waits until a timeline reaches a target or is held by a failed command. (R416) -/
  | tlwait (x : Ext)
  /-- TLRD: Reads a timeline value, or in a handler sets it. (R417) -/
  | tlrd (x : Ext)
  /-- BALLOC: Allocates a named barrier, or in a handler rewrites one. (R419) -/
  | balloc (x : Ext)
  /-- BFREE: Frees a named barrier and advances its phase. (R419) -/
  | bfree (x : Ext)
  /-- BARV: Queues an arrival of weight 1 at a barrier and returns the phase token. (R420) -/
  | barv (x : Ext)
  /-- BARVW: Queues a weighted arrival at a barrier and returns the phase token. (R420) -/
  | barvw (x : Ext)
  /-- BWAIT: Waits until a barrier's phase has moved past a token. (R421) -/
  | bwait (x : Ext)
  /-- ECRD: Reads an event counter. (R427) -/
  | ecrd (x : Ext)
  /-- ECSEL: Selects an event counter's source and may clear it. (R426) -/
  | ecsel (x : Ext)
  /-- G_POST: Grip drains its store queue and posts a slate image from scratchpad, waiting for an entry. (R355) -/
  | gPost (rd rs1 : BitVec 5)
  /-- G_TLWAIT: Grip waits on a timeline and acquires. (R355) -/
  | gTlwait (rd rs1 rs2 : BitVec 5)
  /-- G_TLRD: Grip reads a timeline and acquires. (R355) -/
  | gTlrd (rd rs1 : BitVec 5)
  /-- G_LDF: Grip full/empty load of a scratchpad word. (R355) -/
  | gLdf (rd rs1 : BitVec 5)
  /-- G_STE: Grip empty/full store of a scratchpad word. (R355) -/
  | gSte (rs1 rs2 : BitVec 5)
  /-- G_ITEM: Grip appends one item to the casting queue. (R355) -/
  | gItem (rd rs1 : BitVec 5)
  /-- G_ITEM_CLOSE: Grip appends one item and closes the casting queue. (R355) -/
  | gItemClose (rd rs1 : BitVec 5)
  /-- G_TASK: Grip posts a task as TSKPOST does. (R355) -/
  | gTask (rd rs1 rs2 : BitVec 5)
  /-- G_BARV: Grip queues an arrival at a group barrier. (R355) -/
  | gBarv (rd rs1 : BitVec 5)
  /-- G_EVT: Grip adds an amount to the grip-event source of the event counters. (R355) -/
  | gEvt (rs1 : BitVec 5)
  /-- G_EVT_END: Grip ends itself. (R355) -/
  | gEvtEnd (rs1 : BitVec 5)
  /-- G_EVT_FAIL: Grip fails itself with a code. (R357) -/
  | gEvtFail (rs1 : BitVec 5)
  /-- GRIP_STANDARD_INSTRUCTION: Grip executes a standard RV64IMAC or Zicsr instruction. (R351) -/
  | gripStandardInstruction (r : Rv) (short : Bool)
  /-- TRAP_ENTRY: After the store queue drains, the warp writes its trap frame and enters the handler. (R227) -/
  | trapEntry (core slot : Nat)
  /-- TAGWAIT: A tag wait that reaches TAGLIM times 256 cycles raises TAGWAIT. (R262) -/
  | tagwait (core : Nat) (who : TagWaiter)
  /-- MACHINE: An uncontainable hardware error stops a group, a core or the package by scope. (R243) -/
  | machine (m : MachineError)
  /-- BREAKPOINT_HIT: An enabled breakpoint address matches before issue and freezes the scheduler or raises BKPT. (R240) -/
  | breakpointHit (core sched n : Nat)
  /-- DBGCTL_RESUME: Writing RESUME restarts every frozen scheduler, optionally for one step. (R241) -/
  | dbgctlResume (core : Nat) (value : DWord)
  /-- SCHEDULER_SELECT: A scheduler chooses the warp whose run issues next. (R34) -/
  | schedulerSelect (core sched : Nat)
  /-- STORE_QUEUE_PERFORM: The head entry of a warp's store queue is performed at its coherence point. (R270) -/
  | storeQueuePerform (core slot : Nat)
  /-- GRIP_STORE_PERFORM: The head entry of a grip's store queue is performed. (R272) -/
  | gripStorePerform (core grip : Nat)
  /-- LOAD_LAND: A load, LDSP or ATS result lands in its destination lanes. (R289) -/
  | loadLand (core slot idx : Nat) (which : Mask)
  /-- TILE_ACCESS_LAND: A TLD or ARD lands, or a TST or AWR is performed. (R302) -/
  | tileAccessLand (core slot idx : Nat)
  /-- TAG_WAIT_SATISFIED: A waiting LDSF, STSE or grip tag access finds its words ready and acts on them. (R261) -/
  | tagWaitSatisfied (core : Nat) (who : TagWaiter)
  /-- WAITC_RETURN: A waiting WAITC finds every counter at or below its limit and returns. (R414) -/
  | waitcReturn (core slot : Nat)
  /-- TLWAIT_RETURN: A waiting TLWAIT returns when the timeline reaches its target or is held by a failure. (R416) -/
  | tlwaitReturn (core slot : Nat)
  /-- BWAIT_RETURN: A waiting BWAIT returns once the barrier's phase has moved. (R421) -/
  | bwaitReturn (core slot : Nat)
  /-- RECAST_WAKE: A RECAST blocked on an empty open queue takes arriving items or sees the queue close. (R350) -/
  | recastWake (core slot : Nat)
  /-- CPOST_ACCEPT: A CPOST blocked on a full copy queue takes a freed entry. (R320) -/
  | cpostAccept (core slot : Nat)
  /-- MMA_ACCEPT: An MMA blocked on a full matrix queue takes a freed entry. (R193) -/
  | mmaAccept (core slot : Nat)
  /-- FENCE_DRAINED: A waiting FENCE finds the store queue drained and lets the warp continue. (R296) -/
  | fenceDrained (core slot : Nat)
  /-- ICINV_DONE: Every covered core has finished invalidating, and ICINV completes. (R297) -/
  | icinvDone (core slot : Nat)
  /-- SGWR_DONE: Every die holds the new scope entry, and SGWR completes. (R399) -/
  | sgwrDone (core slot : Nat)
  /-- TLBSYNC_DONE: Every earlier flush has finished, and TLBSYNC returns. (R409) -/
  | tlbsyncDone (core slot : Nat)
  /-- ATOMIC_ELEMENT_PERFORM: An atomic or contribution is performed indivisibly at the home slice or base die. (R282) -/
  | atomicElementPerform (who : AtomicRef)
  /-- WRITE_THROUGH_ACK: The home die acknowledges a guest write-through, unpinning the guest line. (R276) -/
  | writeThroughAck (die asid line : Nat)
  /-- SCRUB_PASS: A scrub period expires and the memory is read, corrected and written back. (R265) -/
  | scrubPass (u : StoreUnit) (found : ScrubFound)
  /-- COPY_DISPATCH: A free engine context takes the oldest copy-queue entry that may start. (R307) -/
  | copyDispatch (core engine ctx : Nat)
  /-- COPY_FAULT_SUSPEND: A translation with V = 0 suspends the command, which enters rehearsal. (R323) -/
  | copyFaultSuspend (core engine ctx : Nat)
  /-- FAULT_BATCH_POST: The engine places a fault batch in the die's fault queue once there is room. (R324) -/
  | faultBatchPost (core engine ctx : Nat)
  /-- COPY_COMPLETE: A copy command finishes, writes a fault record if it failed, arrives at its barrier and updates its timeline. (R307) -/
  | copyComplete (core engine ctx : Nat)
  /-- MATRIX_UNIT_START: The matrix array starts its next MMA or scan-chunk work unit. (R199) -/
  | matrixUnitStart (core : Nat)
  /-- MATRIX_COMMAND_COMPLETE: An MMA writes its outputs, or none, and its timeline observes completion. (R198) -/
  | matrixCommandComplete (core : Nat)
  /-- GAFFER_WINDOW: A new 128-cycle gaffer window starts with a fresh step budget. (R207) -/
  | gafferWindow (core : Nat)
  /-- WBLD_RUN: A WBLD at the head of the matrix queue starts copying into the weight share. (R204) -/
  | wbldRun (core : Nat)
  /-- WBLD_COMPLETE: A WBLD's bytes become loaded and its timeline observes completion. (R204) -/
  | wbldComplete (core : Nat)
  /-- WBINV_EFFECT: A WBINV empties its range once earlier commands have finished reading it. (R205) -/
  | wbinvEffect (core : Nat)
  /-- SCAN_START: The scan unit starts the next SCAN or SCANST in scan-queue order. (R211) -/
  | scanStart (core : Nat)
  /-- SCAN_COMPLETE: A SCAN writes HS, its record if asked, and then completes on its timeline. (R212) -/
  | scanComplete (core : Nat)
  /-- SCANST_COMPLETE: A SCANST's copy is written and its timeline observes completion. (R213) -/
  | scanstComplete (core : Nat)
  /-- TOKEN_REFILL: Every 1,024 cycles a port sets its class buckets from BWTAB and the demand. (R423) -/
  | tokenRefill (port : PortRef)
  /-- PORT_SEND: A port sends one waiting request, round-robin over the classes with tokens. (R424) -/
  | portSend (port : PortRef)
  /-- PRIORITY_AGING: A pending cluster's effective priority rises by one every 2^20 cycles of waiting. (R46) -/
  | priorityAging (idx : Nat)
  /-- TIME_SLICE_END: A group's slice counter reaches TSLICE times 2^16 and it is pre-empted or renewed. (R49) -/
  | timeSliceEnd (core gid : Nat)
  /-- CLUSTER_PLACEMENT: A pending cluster is placed when all its groups fit on cores of one quadrant. (R44) -/
  | clusterPlacement (idx : Nat)
  /-- PREEMPTION: A trigger stops every warp of a group, which enters the context-save handler. (R236) -/
  | preemption (core gid : Nat)
  /-- GROUP_HALT_RELEASE: Once every warp has halted and every command completed, the group's resources are released and HALTED is written. (R237) -/
  | groupHaltRelease (core gid : Nat)
  /-- RESTORE_PLACEMENT: A group waiting for restore is placed on a core where its slots and resources are free. (R239) -/
  | restorePlacement (idx core : Nat)
  /-- GROUP_RETIREMENT: A group whose warps have exited and whose work has completed retires and releases its resources. (R52) -/
  | groupRetirement (core gid : Nat)
  /-- LAUNCH_ENTRY_TAKE: The launch unit reads a launch-queue entry and begins placing it. (R340) -/
  | launchEntryTake (asid queue : Nat)
  /-- GRID_END: When a grid or sheet ends, STATUS and DONE are written and HEAD advances. (R340) -/
  | gridEnd (gridId : Nat)
  /-- TASK_ARRIVAL: A task reaches its target core and is entered in the dependence table. (R347) -/
  | taskArrival (core idx : Nat)
  /-- TASK_PLACEMENT: A task whose dependences are satisfied is placed on its core. (R347) -/
  | taskPlacement (core entry : Nat)
  /-- COLLECTIVE_MATCHED: Once every member has posted, a collective starts. (R363) -/
  | collectiveMatched (key : CollKey)
  /-- COLL_MEMBER_COMPLETE: A member's COLL completes or fails and signals its completion. (R366) -/
  | collMemberComplete (die ctx : Nat)
  /-- GATEWAY_COMBINE: A gateway holding every contribution of its die folds them and sends one partial. (R369) -/
  | gatewayCombine (key : CollKey) (src dst : Nat)
  /-- MULTICAST_PACKET_ARRIVAL: A gateway buffers a multicast packet and forwards it to each branch. (R370) -/
  | multicastPacketArrival (src dst : Nat)
  /-- WRITE_PACKET: An inbound WRITE request is handled by its sequence number. (R376) -/
  | writePacket (p : Packet)
  /-- READ_PACKET: An inbound READ request is handled by its sequence number. (R376) -/
  | readPacket (p : Packet)
  /-- ATOMIC_PACKET: An inbound ATOMIC request is performed once or answered from the result cache. (R376) -/
  | atomicPacket (p : Packet)
  /-- FLAG_PACKET: An inbound FLAG increments the flag after the put's data is acknowledged. (R283) -/
  | flagPacket (p : Packet)
  /-- COLL_PACKET: An inbound collective packet is handed to the peer's collective engine. (R371) -/
  | collPacket (p : CollPacket)
  /-- ACK_RECEIVED: The initiator receives a cumulative acknowledgement or answer for a stream. (R376) -/
  | ackReceived (a : Ack)
  /-- STALL_HINT_EXPIRY: A stall hint expires 65,536 cycles after the last hinted acknowledgement. (R382) -/
  | stallHintExpiry (dev tc : Nat)
  /-- LINK_DOWN: A port detects a link down and the initiator replays over the second route. (R377) -/
  | linkDown (port : Nat)
  /-- ACK_TIMEOUT: A stream gets no acknowledgement for 20,000 ns and its route fails. (R377) -/
  | ackTimeout (dev tc : Nat)
  /-- ROUTE_RETRY: With both routes failed, each is retried every 20,000 ns. (R377) -/
  | routeRetry (dev : Nat)
  /-- FABRIC_TIMEOUT: A packet unacknowledged past the initiator's limit fails its command with TIMEOUT. (R378) -/
  | fabricTimeout (core engine ctx : Nat)
  /-- ASID_FREED: A retiring ASID's entries and lines are removed and its STATE becomes free. (R410) -/
  | asidFreed (asid : Nat)
  /-- COLD_RESET: Power-up or MRST_N loses all on-chip state and HBM4 contents. (R433) -/
  | coldReset
  /-- WARM_RESET: WRST_N resets everything except HBM4 held in self-refresh. (R433) -/
  | warmReset
  /-- RESETCTL_WARM: A sideband write of RESETCTL.WARM requests a warm reset. (R444) -/
  | resetctlWarm
  /-- BOOTCTL_START: BOOTCTL.START sets STATE 0x1 and empties the boot buffer. (R434) -/
  | bootctlStart
  /-- BOOTBUF_WRITE: A BOOTBUF write appends 8 bytes to D0's boot buffer. (R444) -/
  | bootbufWrite (value : DWord)
  /-- BOOTCTL_GO: BOOTCTL.GO makes the boot ROM verify, configure, train HBM4, derive identity and release the cores. (R434) -/
  | bootctlGo (outcome : BootOutcome)
  /-- LINK_STATE_CHANGE: An OnaocLink moves among DOWN, TRAIN, MGMT and UP. (R439) -/
  | linkStateChange (link : Nat) (dest : LinkState)
  /-- SIDEBAND_REGISTER_WRITE: A sideband write of a register that has no row of its own. (R440) -/
  | sidebandRegisterWrite (link : Nat) (addr value : DWord)
  /-- ERRSTAT_READ: A read of ERRSTAT clears its RC counters. (R223) -/
  | errstatRead (core : Nat)
  /-- LQD0_WRITE: A launch-queue descriptor write, taking whole effect only while EN is 0. (R339) -/
  | lqd0Write (asid queue : Nat) (value : DWord)
  /-- LQD1_TAIL_WRITE: A TAIL write appends ring entries unless it would overfill the ring. (R339) -/
  | lqd1TailWrite (asid queue : Nat) (value : DWord)
  /-- DIEMEM_WRITE: A DIEMEM write repartitions L2 ways only while no ASID is live or retiring. (R253) -/
  | diememWrite (die : Nat) (value : DWord)
  /-- BWTAB_WRITE: A BWTAB write, refused when the weights sum above 256. (R405) -/
  | bwtabWrite (die : Nat) (value : DWord)
  /-- FQCTL_HEAD_WRITE: The driver advances the fault-ring HEAD, freeing room for waiting batches. (R447) -/
  | fqctlHeadWrite (die : Nat) (value : DWord)
  /-- EQCTL_HEAD_WRITE: The driver advances the event-ring HEAD. (R447) -/
  | eqctlHeadWrite (die : Nat) (value : DWord)
  /-- ISLOP_WRITE: An island operating-point request changes the island clock and voltage. (R431) -/
  | islopWrite (island : Nat) (value : DWord)
  /-- ASID_BIND: Sideband command binding a free ASID to a context block and root. (R392) -/
  | asidBind (link : Nat)
  /-- ASID_REROOT: Sideband command rewriting ROOT and MERGED of a live ASID. (R392) -/
  | asidReroot (link : Nat)
  /-- TLB_FLUSH: Sideband command acting as TLBFLUSH followed by TLBSYNC. (R408) -/
  | tlbFlush (link : Nat)
  /-- ASID_RETIRE: Sideband command acting as ASIDRET and finishing when the ASID is free. (R410) -/
  | asidRetire (link : Nat)
  /-- FAULT_VERDICT: Sideband command resuming or failing a suspended copy command. (R325) -/
  | faultVerdict (link : Nat)
  /-- GROUP_RELEASE: Sideband command releasing a held group and reporting its grid failed. (R446) -/
  | groupRelease (link : Nat)
  /-- RESTORE: Sideband command checking a save area and queuing a halted group for placement. (R239) -/
  | restore (link : Nat)
  /-- PREEMPT: Sideband command requesting pre-emption of the matched groups. (R446) -/
  | preempt (link : Nat)
  /-- STREAM_RESET: Sideband command resetting an Aupin stream. (R379) -/
  | streamReset (link : Nat)
  /-- WINDOW_SYNC: Sideband command making rewritten window entries take effect. (R403) -/
  | windowSync (link : Nat)
  /-- SCOPE_WRITE: Sideband command writing a scope-group entry as SGWR does. (R446) -/
  | scopeWrite (link : Nat)
  /-- TASK_NAME: Sideband command binding or unbinding a task name. (R346) -/
  | taskName (link : Nat)
  /-- ATTEST: Sideband command writing a signed attestation report for a nonce, with the secret number that the part chooses for its
  signature. (R438) -/
  | attest (link : Nat) (secret : Nat)
  /-- CORE_RELEASE: Sideband command releasing a core held after a scope-1 MACHINE. (R446) -/
  | coreRelease (link : Nat)
  /-- SIDEBAND_COMMAND_FINISH: A running sideband command finishes and SBRES shows its status. (R445) -/
  | sidebandCommandFinish (link : Nat)
  /-- THERMAL_THRESHOLD: A sensor crosses a threshold and the part takes its thermal action. (R441) -/
  | thermalThreshold (sensor : Nat) (temp : BitVec 16)
  /-- THERMAL_UNDO: After 10 ms at least 5 °C below a threshold, one action is undone. (R441) -/
  | thermalUndo (sensor : Nat) (temp : BitVec 16)
  /-- JTAG_EXTEST: TAP instruction EXTEST, effective only during cold reset. (R442) -/
  | jtagExtest (pins : List Bool)
  /-- JTAG_IDCODE: TAP instruction IDCODE reading 0x1960_0E2B. (R442) -/
  | jtagIdcode
  /-- JTAG_SAMPLE_PRELOAD: TAP instruction SAMPLE/PRELOAD on the boundary register. (R442) -/
  | jtagSamplePreload (pins : List Bool)
  /-- JTAG_BYPASS: TAP instruction BYPASS, also taken by every unassigned code. (R442) -/
  | jtagBypass (code : BitVec 4)
  /-- COMPANION_DEVICE_MEMORY_ACCESS: A read or write of device memory by the companion processor arrives on an OnaocLink by ASID and VA and is served at the home L2 of each line. (R259) -/
  | companionDeviceMemoryAccess (a : CompanionAccess)
  /-- LINK_ABSENCE_TIMEOUT: A command that needs companion memory fails with TIMEOUT once 1 ms of OnaocLink absence has elapsed. (R439) -/
  | linkAbsenceTimeout (core engine ctx : Nat)
  deriving DecidableEq, Repr

end Sys2Proof
end

