-- ==== Sys2Proof/WellFormed.lean ====
section
/-! DEFINITION. Well-formedness of a term: each code has one spelling, and an event names a unit that exists.
The checks that the hardware makes (03 Table 7) are not here: they are traps of the instruction. -/

namespace Sys2Proof

/-- `rsv` spells only the codes that 03 Table 6 and 02 Table 2 reserve. -/
def Opnd.wf (o : Opnd) : Bool :=
  match o with
  | .rsv w => (decide (0x14D ≤ w.toNat) && decide (w.toNat < 0x150)) || (decide (0x15C ≤ w.toNat) && decide (w.toNat < 0x200))
  | _ => true

/-- `rsv` spells only the codes that 03 Table 5 reserves. -/
def Op7.wf (o : Op7) : Bool :=
  match o with
  | .rsv w => decide (0x4B ≤ w.toNat) && decide (w.toNat < 0x50)
  | _ => true

/-- Every operand code has one spelling. -/
def Ext.wf (x : Ext) : Bool := x.dst.wf && x.a.op.wf && x.b.op.wf && x.c.op.wf

/-- Every operand code has one spelling. -/
def BAlu.wf (b : BAlu) : Bool := b.dst.wf && b.a.wf && b.b.wf

/-- Every operand code has one spelling. -/
def BImm.wf (b : BImm) : Bool := b.dst.wf && b.a.wf

/-- Every operand code has one spelling. -/
def BMem.wf (b : BMem) : Bool := b.addr.wf && b.data.wf

/-- An inbound packet's port is one of the package's (01 R19). -/
def Packet.wf (p : Packet) : Bool := decide (p.port < 18)
/-- An atomic packet's elements have 4 or 8 bytes and lie aligned (11 R282). -/
def Packet.sized (p : Packet) : Bool := (p.size == 4 || p.size == 8) && p.va.toNat % p.size == 0

/-- A protected unit lies within its memory (01 Table 1; 10 Tables 1 and 6). -/
def StoreUnit.wf (u : StoreUnit) : Bool :=
  match u with
  | .register core slot reg lane => decide (core < 192) && decide (slot < 64) && decide (reg < 256) && decide (lane < 32)
  | .latch core sched which lane => decide (core < 192) && decide (sched < 4) && decide (which < 2) && decide (lane < 32)
  | .cacheTag core slot k => decide (core < 192) && decide (slot < 64) && decide (k < 8)
  | .cacheData core slot k => decide (core < 192) && decide (slot < 64) && decide (k < 8)
  | .scratch core addr => decide (core < 192) && decide (addr < 2 ^ 18)
  | .tile core addr => decide (core < 192) && decide (addr < 2 ^ 20)
  | .weight core addr => decide (core < 192) && decide (addr < 2 ^ 19)
  | .acc core addr => decide (core < 192) && decide (addr < 2 ^ 18)
  | .icache core _ => decide (core < 192)
  | .gripInstr core g addr => decide (core < 192) && decide (g < 2) && decide (addr < 2 ^ 15)
  | .gripData core g addr => decide (core < 192) && decide (g < 2) && decide (addr < 2 ^ 14)
  | .staging die addr => decide (die < 4) && decide (addr < 2 ^ 25)
  | .l2Home die asid _ word => decide (die < 4) && decide (asid < 65536) && decide (word < 16)
  | .l2Guest die asid _ word => decide (die < 4) && decide (asid < 65536) && decide (word < 16)
  | .hbm sector => decide (sector < 2 ^ 34)

/-- A port is one of the package's (17 R422, R423). -/
def PortRef.wf (p : PortRef) : Bool :=
  match p with
  | .core c => decide (c < 192)
  | .coll die => decide (die < 4)

/-- An atomic element belongs to a core of the package. -/
def AtomicRef.wf (a : AtomicRef) : Bool :=
  match a with
  | .contribution core _ => decide (core < 192)
  | .element core engine ctx _ => decide (core < 192) && decide (engine < 2) && decide (ctx < 8)

/-- An MTS that writes the immediate `k` to SSCMD: it is spelt by the operation's own constructor (09 R217, R225). -/
def Ext.isSscmd (x : Ext) (k : Nat) : Bool := x.mods == 8#10 && x.a.op == .imm (BitVec.ofNat 9 k)

/-- Well-formed instructions and events. -/
def Instr.wf (i : Instr) : Bool :=
  match i with
  | .braBr _ => true
  | .braExt x => x.wf
  | .brp x => x.wf
  | .brx x => x.wf
  | .joinAlu b => b.wf
  | .joinExt x => x.wf
  | .callBr _ => true
  | .callExt x => x.wf
  | .calliAlu b => b.wf
  | .calliExt x => x.wf
  | .retAlu b => b.wf
  | .retExt x => x.wf
  | .jmpiAlu b => b.wf
  | .jmpiExt x => x.wf
  | .exitAlu b => b.wf
  | .exitExt x => x.wf
  | .recast x => x.wf
  | .yieldAlu b => b.wf
  | .yieldExt x => x.wf
  | .nopAlu b => b.wf
  | .nopExt x => x.wf
  | .bkptImm b => b.wf
  | .bkptExt x => x.wf
  | .trapImm b => b.wf
  | .trapExt x => x.wf
  | .svcImm b => b.wf
  | .svcExt x => x.wf
  | .iaddAlu b => b.wf
  | .iaddImm b => b.wf
  | .iaddExt x => x.wf
  | .isubAlu b => b.wf
  | .isubImm b => b.wf
  | .isubExt x => x.wf
  | .iaddc x => x.wf
  | .imulAlu b => b.wf
  | .imulImm b => b.wf
  | .imulExt x => x.wf
  | .imulhAlu b => b.wf
  | .imulhImm b => b.wf
  | .imulhExt x => x.wf
  | .imad x => x.wf
  | .imadw x => x.wf
  | .ishlAlu b => b.wf
  | .ishlImm b => b.wf
  | .ishlExt x => x.wf
  | .ishrAlu b => b.wf
  | .ishrImm b => b.wf
  | .ishrExt x => x.wf
  | .isarAlu b => b.wf
  | .isarImm b => b.wf
  | .isarExt x => x.wf
  | .irotAlu b => b.wf
  | .irotImm b => b.wf
  | .irotExt x => x.wf
  | .andAlu b => b.wf
  | .andImm b => b.wf
  | .andExt x => x.wf
  | .orAlu b => b.wf
  | .orImm b => b.wf
  | .orExt x => x.wf
  | .xorAlu b => b.wf
  | .xorImm b => b.wf
  | .xorExt x => x.wf
  | .andnAlu b => b.wf
  | .andnImm b => b.wf
  | .andnExt x => x.wf
  | .lmix x => x.wf
  | .bfx x => x.wf
  | .bfi x => x.wf
  | .iminAlu b => b.wf
  | .iminImm b => b.wf
  | .iminExt x => x.wf
  | .imaxAlu b => b.wf
  | .imaxImm b => b.wf
  | .imaxExt x => x.wf
  | .iabsAlu b => b.wf
  | .iabsExt x => x.wf
  | .isel x => x.wf
  | .idot4 x => x.wf
  | .lea x => x.wf
  | .iadd64Alu b => b.wf
  | .iadd64Imm b => b.wf
  | .iadd64Ext x => x.wf
  | .ldiAlu b => b.wf
  | .ldiExt x => x.wf
  | .clz x => x.wf
  | .ctz x => x.wf
  | .popc x => x.wf
  | .brev x => x.wf
  | .iset x => x.wf
  | .pset x => x.wf
  | .pmov x => x.wf
  | .pcnt x => x.wf
  | .vtos x => x.wf
  | .stov x => x.wf
  | .elect x => x.wf
  | .faddAlu b => b.wf
  | .faddImm b => b.wf
  | .faddExt x => x.wf
  | .fsubAlu b => b.wf
  | .fsubImm b => b.wf
  | .fsubExt x => x.wf
  | .fmulAlu b => b.wf
  | .fmulImm b => b.wf
  | .fmulExt x => x.wf
  | .ffma x => x.wf
  | .fminAlu b => b.wf
  | .fminImm b => b.wf
  | .fminExt x => x.wf
  | .fmaxAlu b => b.wf
  | .fmaxImm b => b.wf
  | .fmaxExt x => x.wf
  | .fset x => x.wf
  | .fclass x => x.wf
  | .frcp x => x.wf
  | .frsq x => x.wf
  | .fsqrt x => x.wf
  | .fexp2 x => x.wf
  | .flog2 x => x.wf
  | .fsin x => x.wf
  | .fcos x => x.wf
  | .ftanh x => x.wf
  | .daddAlu b => b.wf
  | .daddExt x => x.wf
  | .dmulAlu b => b.wf
  | .dmulExt x => x.wf
  | .dfma x => x.wf
  | .pkaddAlu b => b.wf
  | .pkaddExt x => x.wf
  | .pkmulAlu b => b.wf
  | .pkmulExt x => x.wf
  | .pkfma x => x.wf
  | .cvt x => x.wf
  | .cvtq x => x.wf
  | .bqdot x => x.wf
  | .bqscl x => x.wf
  | .qswz x => x.wf
  | .qbc x => x.wf
  | .qdx x => x.wf
  | .qdy x => x.wf
  | .lxch x => x.wf
  | .qrm x => x.wf
  | .peer x => x.wf
  | .wfold x => x.wf
  | .prefixFold x => x.wf
  | .isect x => x.wf
  | .mma2 x => x.wf
  | .mma3 x => x.wf
  | .mma4 x => x.wf
  | .mma5 x => x.wf
  | .mma6 x => x.wf
  | .mma7 x => x.wf
  | .mma8 x => x.wf
  | .mmaw x => x.wf
  | .wbld x => x.wf
  | .wbinv x => x.wf
  | .aclr x => x.wf
  | .ard x => x.wf
  | .awr x => x.wf
  | .scan x => x.wf
  | .scanst x => x.wf
  | .mfs x => x.wf
  | .mts x => x.wf && !(x.isSscmd 1 || x.isSscmd 2 || x.isSscmd 3 || x.isSscmd 4)
  | .sscmdSpill x => x.wf && x.isSscmd 1
  | .sscmdFill x => x.wf && x.isSscmd 2
  | .sscmdPop x => x.wf && x.isSscmd 3
  | .sscmdPush x => x.wf && x.isSscmd 4
  | .eret x => x.wf
  | .halt x => x.wf
  | .clrerr x => x.wf
  | .tlbflush x => x.wf
  | .tlbsync x => x.wf
  | .asidret x => x.wf
  | .sgwr x => x.wf
  | .ttrd x => x.wf
  | .bwset x => x.wf
  | .ldsMem b => b.wf
  | .ldsExt x => x.wf
  | .stsMem b => b.wf
  | .stsExt x => x.wf
  | .ldsfMem b => b.wf
  | .ldsfExt x => x.wf
  | .stseMem b => b.wf
  | .stseExt x => x.wf
  | .ldsp x => x.wf
  | .tags x => x.wf
  | .tagc x => x.wf
  | .ats x => x.wf
  | .atsn x => x.wf
  | .talloc x => x.wf
  | .tfree x => x.wf
  | .tld x => x.wf
  | .tst x => x.wf
  | .fence x => x.wf
  | .icinv x => x.wf
  | .cpost x => x.wf
  | .red x => x.wf
  | .amo x => x.wf
  | .redflush x => x.wf
  | .cfence x => x.wf
  | .cpstat x => x.wf
  | .coll x => x.wf
  | .cgrp x => x.wf
  | .fxwin x => x.wf
  | .tskpost x => x.wf
  | .launch x => x.wf
  | .itemput x => x.wf
  | .waitc x => x.wf
  | .tlwait x => x.wf
  | .tlrd x => x.wf
  | .balloc x => x.wf
  | .bfree x => x.wf
  | .barv x => x.wf
  | .barvw x => x.wf
  | .bwait x => x.wf
  | .ecrd x => x.wf
  | .ecsel x => x.wf
  | .gPost _ _ => true
  | .gTlwait _ _ _ => true
  | .gTlrd _ _ => true
  | .gLdf _ _ => true
  | .gSte _ _ => true
  | .gItem _ _ => true
  | .gItemClose _ _ => true
  | .gTask _ _ _ => true
  | .gBarv _ _ => true
  | .gEvt _ => true
  | .gEvtEnd _ => true
  | .gEvtFail _ => true
  | .gripStandardInstruction _ _ => true
  | .trapEntry core slot => decide (core < 192) && decide (slot < 64)
  | .tagwait core _ => decide (core < 192)
  | .machine m => decide (m.scope < 3) && decide (m.core < 192)
  | .breakpointHit core sched n => decide (core < 192) && decide (sched < 4) && decide (n < 4)
  | .dbgctlResume core _ => decide (core < 192)
  | .schedulerSelect core sched => decide (core < 192) && decide (sched < 4)
  | .storeQueuePerform core slot => decide (core < 192) && decide (slot < 64)
  | .gripStorePerform core grip => decide (core < 192) && decide (grip < 2)
  | .loadLand core slot _ _ => decide (core < 192) && decide (slot < 64)
  | .tileAccessLand core slot _ => decide (core < 192) && decide (slot < 64)
  | .tagWaitSatisfied core _ => decide (core < 192)
  | .waitcReturn core slot => decide (core < 192) && decide (slot < 64)
  | .tlwaitReturn core slot => decide (core < 192) && decide (slot < 64)
  | .bwaitReturn core slot => decide (core < 192) && decide (slot < 64)
  | .recastWake core slot => decide (core < 192) && decide (slot < 64)
  | .cpostAccept core slot => decide (core < 192) && decide (slot < 64)
  | .mmaAccept core slot => decide (core < 192) && decide (slot < 64)
  | .fenceDrained core slot => decide (core < 192) && decide (slot < 64)
  | .icinvDone core slot => decide (core < 192) && decide (slot < 64)
  | .sgwrDone core slot => decide (core < 192) && decide (slot < 64)
  | .tlbsyncDone core slot => decide (core < 192) && decide (slot < 64)
  | .atomicElementPerform who => who.wf
  | .writeThroughAck die asid _ => decide (die < 4) && decide (asid < 65536)
  | .scrubPass u _ => u.wf
  | .copyDispatch core engine ctx => decide (core < 192) && decide (engine < 2) && decide (ctx < 8)
  | .copyFaultSuspend core engine ctx => decide (core < 192) && decide (engine < 2) && decide (ctx < 8)
  | .faultBatchPost core engine ctx => decide (core < 192) && decide (engine < 2) && decide (ctx < 8)
  | .copyComplete core engine ctx => decide (core < 192) && decide (engine < 2) && decide (ctx < 8)
  | .matrixUnitStart core => decide (core < 192)
  | .matrixCommandComplete core => decide (core < 192)
  | .gafferWindow core => decide (core < 192)
  | .wbldRun core => decide (core < 192)
  | .wbldComplete core => decide (core < 192)
  | .wbinvEffect core => decide (core < 192)
  | .scanStart core => decide (core < 192)
  | .scanComplete core => decide (core < 192)
  | .scanstComplete core => decide (core < 192)
  | .tokenRefill port => port.wf
  | .portSend port => port.wf
  | .priorityAging _ => true
  | .timeSliceEnd core _ => decide (core < 192)
  | .clusterPlacement _ => true
  | .preemption core _ => decide (core < 192)
  | .groupHaltRelease core _ => decide (core < 192)
  | .restorePlacement _ core => decide (core < 192)
  | .groupRetirement core _ => decide (core < 192)
  | .launchEntryTake asid queue => decide (asid < 65536) && decide (queue < 8)
  | .gridEnd _ => true
  | .taskArrival core _ => decide (core < 192)
  | .taskPlacement core entry => decide (core < 192) && decide (entry < 64)
  | .collectiveMatched _ => true
  | .collMemberComplete die ctx => decide (die < 4) && decide (ctx < 64)
  | .gatewayCombine _ src dst => decide (src < 4) && decide (dst < 4)
  | .multicastPacketArrival src dst => decide (src < 4) && decide (dst < 4)
  | .writePacket p => p.wf && decide (p.data.length ≤ 256) && (p.rop.isNone || (p.sized && p.data.length % p.size == 0))
  | .readPacket p => p.wf && decide (p.len ≤ 256)
  | .atomicPacket p => p.wf && p.rop.isSome && p.sized && p.data.length == p.size
  | .flagPacket p => p.wf && p.va.toNat % 8 == 0
  | .collPacket p => decide (p.port < 18) && decide (p.core < 192) && decide (p.data.length ≤ 256)
  | .ackReceived _ => true
  | .stallHintExpiry dev tc => decide (dev < 4096) && decide (tc < 4)
  | .linkDown port => decide (port < 18)
  | .ackTimeout dev tc => decide (dev < 4096) && decide (tc < 4)
  | .routeRetry dev => decide (dev < 4096)
  | .fabricTimeout core engine ctx => decide (core < 192) && (decide (engine < 2) && decide (ctx < 8) || engine == 2 && decide (ctx < 64))
  | .asidFreed asid => decide (asid < 65536)
  | .coldReset => true
  | .warmReset => true
  | .resetctlWarm => true
  | .bootctlStart => true
  | .bootbufWrite _ => true
  | .bootctlGo _ => true
  | .linkStateChange link _ => decide (link < 2)
  | .sidebandRegisterWrite link _ _ => decide (link < 2)
  | .errstatRead core => decide (core < 192)
  | .lqd0Write asid queue _ => decide (asid < 65536) && decide (queue < 8)
  | .lqd1TailWrite asid queue _ => decide (asid < 65536) && decide (queue < 8)
  | .diememWrite die _ => decide (die < 4)
  | .bwtabWrite die _ => decide (die < 4)
  | .fqctlHeadWrite die _ => decide (die < 4)
  | .eqctlHeadWrite die _ => decide (die < 4)
  | .islopWrite island _ => decide (island < 48)
  | .asidBind link => decide (link < 2)
  | .asidReroot link => decide (link < 2)
  | .tlbFlush link => decide (link < 2)
  | .asidRetire link => decide (link < 2)
  | .faultVerdict link => decide (link < 2)
  | .groupRelease link => decide (link < 2)
  | .restore link => decide (link < 2)
  | .preempt link => decide (link < 2)
  | .streamReset link => decide (link < 2)
  | .windowSync link => decide (link < 2)
  | .scopeWrite link => decide (link < 2)
  | .taskName link => decide (link < 2)
  | .attest link _ => decide (link < 2)
  | .coreRelease link => decide (link < 2)
  | .sidebandCommandFinish link => decide (link < 2)
  | .thermalThreshold sensor _ => decide (sensor < 60)
  | .thermalUndo sensor _ => decide (sensor < 60)
  | .jtagExtest _ => true
  | .jtagIdcode => true
  | .jtagSamplePreload _ => true
  | .jtagBypass _ => true
  | .companionDeviceMemoryAccess a => decide (a.link < 2)
  | .linkAbsenceTimeout core engine ctx => decide (core < 192) && decide (engine < 2) && decide (ctx < 8)

/-- The proposition of `Instr.wf`. -/
abbrev Instr.WellFormed (i : Instr) : Prop := i.wf = true

end Sys2Proof
end

