-- ==== Sys2Proof/Decode.lean ====
section
/-! DEFINITION. Decoding of a warp's words and of a grip's words, total, and the encoder beside it. The decoder gives the
instruction that 03 Table 7 names under its orders 2 and 3, or none (IL-OPC); the later checks of Table 7 belong to the
instruction's meaning. -/

namespace Sys2Proof

/-! ## Operand codes -/

/-- The special ID of code 0x150 + `k` (02 Table 2). -/
def SpecialId.ofIndex (k : Nat) : Option SpecialId :=
  match k with
  | 0 => some .idlane | 1 => some .idquad | 2 => some .idwarp | 3 => some .idslot | 4 => some .idgroup | 5 => some .idclus
  | 6 => some .idgrid | 7 => some .idcore | 8 => some .iditem | 9 => some .idnwarp | 10 => some .idngrp | 11 => some .idnclus
  | _ => none

/-- The code of a special ID (02 Table 2). -/
def SpecialId.code (k : SpecialId) : BitVec 10 :=
  match k with
  | .idlane => 0x150 | .idquad => 0x151 | .idwarp => 0x152 | .idslot => 0x153 | .idgroup => 0x154 | .idclus => 0x155
  | .idgrid => 0x156 | .idcore => 0x157 | .iditem => 0x158 | .idnwarp => 0x159 | .idngrp => 0x15A | .idnclus => 0x15B

/-- The operand of a full11 code (03 Table 6). -/
def Opnd.ofCode (k : BitVec 10) : Opnd :=
  let n := k.toNat
  if n < 0x100 then .v (BitVec.ofNat 8 n)
  else if n < 0x140 then .s (BitVec.ofNat 6 n)
  else if n < 0x148 then .c (BitVec.ofNat 3 n)
  else if n = 0x148 then .la
  else if n = 0x149 then .lb
  else if n = 0x14A then .litLo
  else if n = 0x14B then .litHi
  else if n = 0x14C then .lit64
  else if 0x200 ≤ n then .imm (BitVec.ofNat 9 (n + 0x100))
  else if 0x150 ≤ n then
    match SpecialId.ofIndex (n - 0x150) with
    | some i => .id i
    | none => .rsv k
  else .rsv k

/-- The full11 code of an operand (03 Table 6). -/
def Opnd.code (o : Opnd) : BitVec 10 :=
  match o with
  | .v n => BitVec.ofNat 10 n.toNat
  | .s n => BitVec.ofNat 10 (0x100 + n.toNat)
  | .c k => BitVec.ofNat 10 (0x140 + k.toNat)
  | .la => 0x148
  | .lb => 0x149
  | .litLo => 0x14A
  | .litHi => 0x14B
  | .lit64 => 0x14C
  | .id k => k.code
  | .imm i => BitVec.ofNat 10 (0x200 + (i.toNat + 0x100) % 0x200)
  | .rsv k => k

/-- The operand of a short7 code (03 Table 5). -/
def Op7.ofCode (k : BitVec 7) : Op7 :=
  let n := k.toNat
  if n < 0x40 then .v (BitVec.ofNat 6 n)
  else if n < 0x48 then .c (BitVec.ofNat 3 n)
  else if n = 0x48 then .la
  else if n = 0x49 then .lb
  else if n = 0x4A then .lit
  else if n < 0x50 then .rsv k
  else if n < 0x60 then .s (BitVec.ofNat 4 n)
  else .imm (BitVec.ofNat 5 n)

/-- The short7 code of an operand (03 Table 5). -/
def Op7.code (o : Op7) : BitVec 7 :=
  match o with
  | .v n => BitVec.ofNat 7 n.toNat
  | .c k => BitVec.ofNat 7 (0x40 + k.toNat)
  | .la => 0x48
  | .lb => 0x49
  | .lit => 0x4A
  | .s n => BitVec.ofNat 7 (0x50 + n.toNat)
  | .imm i => BitVec.ofNat 7 (0x60 + i.toNat)
  | .rsv k => k

/-! ## Fields of the layouts -/

/-- A guard field (03 R65). -/
def Guard.ofBits (g : BitVec 4) : Guard := { neg := g.getLsbD 3, p := g.extractLsb' 0 3 }

/-- The guard field of a guard. -/
def Guard.bits (g : Guard) : BitVec 4 := BitVec.ofBool g.neg ++ g.p

/-- A source field: its dead mark and its code (03 R60). -/
def Src.ofBits (f : BitVec 11) : Src := { op := Opnd.ofCode (f.extractLsb' 0 10), dead := f.getLsbD 10 }

/-- The field of a source. -/
def Src.bits (s : Src) : BitVec 11 := BitVec.ofBool s.dead ++ s.op.code

/-- The fields of an extended instruction's three words (03 Table 4). -/
def extOf (w0 w1 w2 : Word) (lit : Option DWord) : Ext :=
  { bnd := w0.getLsbD 2
    mods := w0.extractLsb' 22 10
    mods2 := w1.extractLsb' 26 6
    mods3 := w2.extractLsb' 26 6
    guard := Guard.ofBits (w1.extractLsb' 0 4)
    dst := Opnd.ofCode (w1.extractLsb' 4 10)
    dstDead := w1.getLsbD 14
    a := Src.ofBits (w1.extractLsb' 15 11)
    b := Src.ofBits (w2.extractLsb' 0 11)
    c := Src.ofBits (w2.extractLsb' 11 11)
    cfen := w2.getLsbD 25
    cfslot := w2.extractLsb' 22 3
    lit := lit }

/-- A literal's two words, the low one first (03 R55). -/
def litWords (l : Option DWord) : List Word :=
  match l with
  | none => []
  | some d => [d.extractLsb' 0 32, d.extractLsb' 32 32]

/-- Word 0's fields [9:0]: OPC, BND and LEN (03 Table 1). -/
def headBits (major : Nat) (bnd ext lit : Bool) : BitVec 10 :=
  BitVec.ofNat 7 major ++ BitVec.ofBool bnd ++ BitVec.ofBool ext ++ BitVec.ofBool lit

/-- The words of an extended instruction (03 Table 4). -/
def extWords (major minor : Nat) (x : Ext) : List Word :=
  (x.mods ++ BitVec.ofNat 12 minor ++ headBits major x.bnd true x.lit.isSome) ::
  (x.mods2 ++ x.a.bits ++ BitVec.ofBool x.dstDead ++ x.dst.code ++ x.guard.bits) ::
  (x.mods3 ++ BitVec.ofBool x.cfen ++ x.cfslot ++ x.c.bits ++ x.b.bits) :: litWords x.lit

/-- B-BR (03 Table 3). -/
def bbrOf (w : Word) : BBr := { bnd := w.getLsbD 2, off := w.extractLsb' 10 22 }

/-- The word of a B-BR instruction. -/
def bbrWords (major : Nat) (b : BBr) : List Word := [b.off ++ headBits major b.bnd false false]

/-- B-ALU (03 Table 3). -/
def baluOf (w : Word) (lit : Option DWord) : BAlu :=
  { bnd := w.getLsbD 2, k := w.getLsbD 31, dst := Op7.ofCode (w.extractLsb' 10 7), a := Op7.ofCode (w.extractLsb' 17 7),
    b := Op7.ofCode (w.extractLsb' 24 7), lit := lit }

/-- The words of a B-ALU instruction. -/
def baluWords (major : Nat) (b : BAlu) : List Word :=
  (BitVec.ofBool b.k ++ b.b.code ++ b.a.code ++ b.dst.code ++ headBits major b.bnd false b.lit.isSome) :: litWords b.lit

/-- B-IMM (03 Table 3). -/
def bimmOf (w : Word) (lit : Option DWord) : BImm :=
  { bnd := w.getLsbD 2, imm := w.extractLsb' 24 8, dst := Op7.ofCode (w.extractLsb' 10 7),
    a := Op7.ofCode (w.extractLsb' 17 7), lit := lit }

/-- The words of a B-IMM instruction. -/
def bimmWords (major : Nat) (b : BImm) : List Word :=
  (b.imm ++ b.a.code ++ b.dst.code ++ headBits major b.bnd false b.lit.isSome) :: litWords b.lit

/-- B-MEM (03 Table 3). -/
def bmemOf (w : Word) (lit : Option DWord) : BMem :=
  { bnd := w.getLsbD 2, off := w.extractLsb' 24 8, addr := Op7.ofCode (w.extractLsb' 17 7),
    data := Op7.ofCode (w.extractLsb' 10 7), lit := lit }

/-- The words of a B-MEM instruction. -/
def bmemWords (major : Nat) (b : BMem) : List Word :=
  (b.off ++ b.addr.code ++ b.data.code ++ headBits major b.bnd false b.lit.isSome) :: litWords b.lit

/-- An MTS, or the SSCMD operation that it writes as an immediate (09 R225). -/
def mtsOf (x : Ext) : Instr :=
  if x.isSscmd 1 then .sscmdSpill x
  else if x.isSscmd 2 then .sscmdFill x
  else if x.isSscmd 3 then .sscmdPop x
  else if x.isSscmd 4 then .sscmdPush x
  else .mts x

/-! ## The grips' RISC-V words (14 R351, R355) -/

/-- The fields of an R-type word. -/
def rType (opc f3 f7 : Nat) (rd rs1 rs2 : BitVec 5) : Word :=
  BitVec.ofNat 7 f7 ++ rs2 ++ rs1 ++ BitVec.ofNat 3 f3 ++ rd ++ BitVec.ofNat 7 opc

/-- An I-type word. -/
def iType (opc f3 : Nat) (rd rs1 : BitVec 5) (imm : BitVec 12) : Word :=
  imm ++ rs1 ++ BitVec.ofNat 3 f3 ++ rd ++ BitVec.ofNat 7 opc

/-- The funct3 and funct7 of a register operation of RV64IM. -/
def RvOp.functs (op : RvOp) : Nat × Nat :=
  match op with
  | .add => (0, 0) | .sub => (0, 0x20) | .sll => (1, 0) | .slt => (2, 0) | .sltu => (3, 0) | .xor => (4, 0) | .srl => (5, 0)
  | .sra => (5, 0x20) | .or => (6, 0) | .and => (7, 0) | .mul => (0, 1) | .mulh => (1, 1) | .mulhsu => (2, 1)
  | .mulhu => (3, 1) | .div => (4, 1) | .divu => (5, 1) | .rem => (6, 1) | .remu => (7, 1)

/-- The register operation of funct3 and funct7; `w` keeps the word forms that exist. -/
def RvOp.ofFuncts (w : Bool) (f3 f7 : Nat) : Option RvOp :=
  match f7, f3 with
  | 0, 0 => some .add
  | 0x20, 0 => some .sub
  | 0, 1 => some .sll
  | 0, 2 => if w then none else some .slt
  | 0, 3 => if w then none else some .sltu
  | 0, 4 => if w then none else some .xor
  | 0, 5 => some .srl
  | 0x20, 5 => some .sra
  | 0, 6 => if w then none else some .or
  | 0, 7 => if w then none else some .and
  | 1, 0 => some .mul
  | 1, 1 => if w then none else some .mulh
  | 1, 2 => if w then none else some .mulhsu
  | 1, 3 => if w then none else some .mulhu
  | 1, 4 => some .div
  | 1, 5 => some .divu
  | 1, 6 => some .rem
  | 1, 7 => some .remu
  | _, _ => none

/-- The funct3 of a branch condition. -/
def RvBranch.funct (c : RvBranch) : Nat :=
  match c with
  | .beq => 0 | .bne => 1 | .blt => 4 | .bge => 5 | .bltu => 6 | .bgeu => 7

/-- The funct5 of an atomic. -/
def RvAmo.funct (op : RvAmo) : Nat :=
  match op with
  | .lr => 2 | .sc => 3 | .swap => 1 | .add => 0 | .xor => 4 | .and => 0xC | .or => 8 | .min => 0x10 | .max => 0x14
  | .minu => 0x18 | .maxu => 0x1C

/-- The word of a standard instruction in its 32-bit form. -/
def encodeRv (r : Rv) : Word :=
  match r with
  | .lui rd imm => imm ++ rd ++ 0x37#7
  | .auipc rd imm => imm ++ rd ++ 0x17#7
  | .jal rd off =>
    BitVec.ofBool (off.getLsbD 20) ++ off.extractLsb' 1 10 ++ BitVec.ofBool (off.getLsbD 11) ++ off.extractLsb' 12 8 ++ rd ++ 0x6F#7
  | .jalr rd rs1 off => iType 0x67 0 rd rs1 off
  | .branch c rs1 rs2 off =>
    BitVec.ofBool (off.getLsbD 12) ++ off.extractLsb' 5 6 ++ rs2 ++ rs1 ++ BitVec.ofNat 3 c.funct ++ off.extractLsb' 1 4 ++
      BitVec.ofBool (off.getLsbD 11) ++ 0x63#7
  | .load size uns rd rs1 off => off ++ rs1 ++ BitVec.ofBool uns ++ size ++ rd ++ 0x03#7
  | .store size rs1 rs2 off => off.extractLsb' 5 7 ++ rs2 ++ rs1 ++ 0#1 ++ size ++ off.extractLsb' 0 5 ++ 0x23#7
  | .opImm op w rd rs1 imm => iType (if w then 0x1B else 0x13) op.functs.1 rd rs1 imm
  | .op op w rd rs1 rs2 => rType (if w then 0x3B else 0x33) op.functs.1 op.functs.2 rd rs1 rs2
  | .amo op dbl aq rl rd rs1 rs2 =>
    BitVec.ofNat 5 op.funct ++ BitVec.ofBool aq ++ BitVec.ofBool rl ++ rs2 ++ rs1 ++ 1#2 ++ BitVec.ofBool dbl ++ rd ++ 0x2F#7
  | .fence pred succ => 0#4 ++ pred ++ succ ++ 0#5 ++ 0#3 ++ 0#5 ++ 0x0F#7
  | .csr op immForm rd rs1 num =>
    num ++ rs1 ++ BitVec.ofBool immForm ++ (match op with | .rw => 1#2 | .rs => 2#2 | .rc => 3#2) ++ rd ++ 0x73#7
  | .ecall => 0x00000073
  | .ebreak => 0x00100073
  | .mret => 0x30200073
  | .wfi => 0x10500073
  | .illegal word => word

/-- An OP-IMM or OP-IMM-32 word: a shift's high immediate bits are its funct. -/
def rvOpImm (w : Bool) (f3 : Nat) (rd rs1 : BitVec 5) (imm : BitVec 12) (word : Word) : Rv :=
  let hi := if w then (imm.extractLsb' 5 7).toNat else 2 * (imm.extractLsb' 6 6).toNat
  match f3 with
  | 0 => .opImm .add w rd rs1 imm
  | 1 => if hi = 0 then .opImm .sll w rd rs1 imm else .illegal word
  | 5 => if hi = 0 then .opImm .srl w rd rs1 imm else if hi = 0x20 then .opImm .sra w rd rs1 imm else .illegal word
  | 2 => if w then .illegal word else .opImm .slt w rd rs1 imm
  | 3 => if w then .illegal word else .opImm .sltu w rd rs1 imm
  | 4 => if w then .illegal word else .opImm .xor w rd rs1 imm
  | 6 => if w then .illegal word else .opImm .or w rd rs1 imm
  | _ => if w then .illegal word else .opImm .and w rd rs1 imm

/-- An AMO word of RV64A. -/
def rvAmo (word : Word) (f3 f5 : Nat) (aq rl : Bool) (rd rs1 rs2 : BitVec 5) : Rv :=
  if f3 = 2 ∨ f3 = 3 then
    let d := f3 == 3
    match f5 with
    | 2 => if rs2 = 0 then .amo .lr d aq rl rd rs1 rs2 else .illegal word
    | 3 => .amo .sc d aq rl rd rs1 rs2
    | 1 => .amo .swap d aq rl rd rs1 rs2
    | 0 => .amo .add d aq rl rd rs1 rs2
    | 4 => .amo .xor d aq rl rd rs1 rs2
    | 0xC => .amo .and d aq rl rd rs1 rs2
    | 8 => .amo .or d aq rl rd rs1 rs2
    | 0x10 => .amo .min d aq rl rd rs1 rs2
    | 0x14 => .amo .max d aq rl rd rs1 rs2
    | 0x18 => .amo .minu d aq rl rd rs1 rs2
    | 0x1C => .amo .maxu d aq rl rd rs1 rs2
    | _ => .illegal word
  else .illegal word

/-- The standard instruction of a 32-bit word. FENCE.I and every word that no rule names are illegal (14 R351). -/
def rvOf (word : Word) : Rv :=
  let rd := word.extractLsb' 7 5
  let rs1 := word.extractLsb' 15 5
  let rs2 := word.extractLsb' 20 5
  let f3 := (word.extractLsb' 12 3).toNat
  let f7 := (word.extractLsb' 25 7).toNat
  let imm := word.extractLsb' 20 12
  match (word.extractLsb' 0 7).toNat with
  | 0x37 => .lui rd (word.extractLsb' 12 20)
  | 0x17 => .auipc rd (word.extractLsb' 12 20)
  | 0x6F => .jal rd (BitVec.ofBool (word.getLsbD 31) ++ word.extractLsb' 12 8 ++ BitVec.ofBool (word.getLsbD 20) ++ word.extractLsb' 21 10 ++ 0#1)
  | 0x67 => if f3 = 0 then .jalr rd rs1 imm else .illegal word
  | 0x63 =>
    let off := BitVec.ofBool (word.getLsbD 31) ++ BitVec.ofBool (word.getLsbD 7) ++ word.extractLsb' 25 6 ++ word.extractLsb' 8 4 ++ 0#1
    match f3 with
    | 0 => .branch .beq rs1 rs2 off
    | 1 => .branch .bne rs1 rs2 off
    | 4 => .branch .blt rs1 rs2 off
    | 5 => .branch .bge rs1 rs2 off
    | 6 => .branch .bltu rs1 rs2 off
    | 7 => .branch .bgeu rs1 rs2 off
    | _ => .illegal word
  | 0x03 => if f3 = 7 then .illegal word else .load (word.extractLsb' 12 2) (word.getLsbD 14) rd rs1 imm
  | 0x23 => if f3 < 4 then .store (word.extractLsb' 12 2) rs1 rs2 (word.extractLsb' 25 7 ++ word.extractLsb' 7 5) else .illegal word
  | 0x13 => rvOpImm false f3 rd rs1 imm word
  | 0x1B => rvOpImm true f3 rd rs1 imm word
  | 0x33 => match RvOp.ofFuncts false f3 f7 with
    | some op => .op op false rd rs1 rs2
    | none => .illegal word
  | 0x3B => match RvOp.ofFuncts true f3 f7 with
    | some op => .op op true rd rs1 rs2
    | none => .illegal word
  | 0x2F => rvAmo word f3 (word.extractLsb' 27 5).toNat (word.getLsbD 26) (word.getLsbD 25) rd rs1 rs2
  | 0x0F => if f3 = 0 then .fence (word.extractLsb' 24 4) (word.extractLsb' 20 4) else .illegal word
  | 0x73 =>
    match f3 with
    | 0 => if word = 0x00000073 then .ecall else if word = 0x00100073 then .ebreak else if word = 0x30200073 then .mret
      else if word = 0x10500073 then .wfi else .illegal word
    | 1 => .csr .rw false rd rs1 imm
    | 2 => .csr .rs false rd rs1 imm
    | 3 => .csr .rc false rd rs1 imm
    | 5 => .csr .rw true rd rs1 imm
    | 6 => .csr .rs true rd rs1 imm
    | 7 => .csr .rc true rd rs1 imm
    | _ => .illegal word
  | _ => .illegal word

/-- A register x8 to x15 of a compressed word. -/
def rvcReg (f : BitVec 3) : BitVec 5 := 1#2 ++ f

/-- The standard instruction of a compressed word (RV64C without floating point). -/
def rvcOf (h : BitVec 16) : Rv :=
  let bad : Rv := .illegal (h.setWidth 32)
  let rd := h.extractLsb' 7 5
  let rs2 := h.extractLsb' 2 5
  let rdp := rvcReg (h.extractLsb' 2 3)
  let rs1p := rvcReg (h.extractLsb' 7 3)
  let bit := fun n => BitVec.ofBool (h.getLsbD n)
  let imm6 : BitVec 12 := (bit 12 ++ h.extractLsb' 2 5).signExtend 12
  let sh : BitVec 12 := (bit 12 ++ h.extractLsb' 2 5).setWidth 12
  match (h.extractLsb' 0 2).toNat, (h.extractLsb' 13 3).toNat with
  | 0, 0 =>
    let imm : BitVec 12 := (h.extractLsb' 7 4 ++ h.extractLsb' 11 2 ++ bit 5 ++ bit 6 ++ 0#2).setWidth 12
    if imm = 0 then bad else .opImm .add false rdp 2 imm
  | 0, 2 => .load 2 false rdp rs1p ((bit 5 ++ h.extractLsb' 10 3 ++ bit 6 ++ 0#2).setWidth 12)
  | 0, 3 => .load 3 false rdp rs1p ((h.extractLsb' 5 2 ++ h.extractLsb' 10 3 ++ 0#3).setWidth 12)
  | 0, 6 => .store 2 rs1p rdp ((bit 5 ++ h.extractLsb' 10 3 ++ bit 6 ++ 0#2).setWidth 12)
  | 0, 7 => .store 3 rs1p rdp ((h.extractLsb' 5 2 ++ h.extractLsb' 10 3 ++ 0#3).setWidth 12)
  | 1, 0 => .opImm .add false rd rd imm6
  | 1, 1 => if rd = 0 then bad else .opImm .add true rd rd imm6
  | 1, 2 => .opImm .add false rd 0 imm6
  | 1, 3 =>
    if rd = 2 then
      let imm : BitVec 12 := (bit 12 ++ h.extractLsb' 3 2 ++ bit 5 ++ bit 2 ++ bit 6 ++ 0#4).signExtend 12
      if imm = 0 then bad else .opImm .add false 2 2 imm
    else if imm6 = 0 then bad else .lui rd (imm6.signExtend 20)
  | 1, 4 =>
    match (h.extractLsb' 10 2).toNat with
    | 0 => .opImm .srl false rs1p rs1p sh
    | 1 => .opImm .sra false rs1p rs1p (sh ||| 0x400)
    | 2 => .opImm .and false rs1p rs1p imm6
    | _ =>
      match h.getLsbD 12, (h.extractLsb' 5 2).toNat with
      | false, 0 => .op .sub false rs1p rs1p rdp
      | false, 1 => .op .xor false rs1p rs1p rdp
      | false, 2 => .op .or false rs1p rs1p rdp
      | false, _ => .op .and false rs1p rs1p rdp
      | true, 0 => .op .sub true rs1p rs1p rdp
      | true, 1 => .op .add true rs1p rs1p rdp
      | true, _ => bad
  | 1, 5 => .jal 0 ((bit 12 ++ bit 8 ++ h.extractLsb' 9 2 ++ bit 6 ++ bit 7 ++ bit 2 ++ bit 11 ++ h.extractLsb' 3 3 ++ 0#1).signExtend 21)
  | 1, 6 => .branch .beq rs1p 0 ((bit 12 ++ h.extractLsb' 5 2 ++ bit 2 ++ h.extractLsb' 10 2 ++ h.extractLsb' 3 2 ++ 0#1).signExtend 13)
  | 1, 7 => .branch .bne rs1p 0 ((bit 12 ++ h.extractLsb' 5 2 ++ bit 2 ++ h.extractLsb' 10 2 ++ h.extractLsb' 3 2 ++ 0#1).signExtend 13)
  | 2, 0 => .opImm .sll false rd rd sh
  | 2, 2 => if rd = 0 then bad else .load 2 false rd 2 ((h.extractLsb' 2 2 ++ bit 12 ++ h.extractLsb' 4 3 ++ 0#2).setWidth 12)
  | 2, 3 => if rd = 0 then bad else .load 3 false rd 2 ((h.extractLsb' 2 3 ++ bit 12 ++ h.extractLsb' 5 2 ++ 0#3).setWidth 12)
  | 2, 4 =>
    match h.getLsbD 12 with
    | false => if rs2 = 0 then (if rd = 0 then bad else .jalr 0 rd 0) else .op .add false rd 0 rs2
    | true => if rs2 = 0 then (if rd = 0 then .ebreak else .jalr 1 rd 0) else .op .add false rd rd rs2
  | 2, 6 => .store 2 2 rs2 ((h.extractLsb' 7 2 ++ h.extractLsb' 9 4 ++ 0#2).setWidth 12)
  | 2, 7 => .store 3 2 rs2 ((h.extractLsb' 7 3 ++ h.extractLsb' 10 3 ++ 0#3).setWidth 12)
  | _, _ => bad

/-- The instruction of a grip's custom-0 or custom-1 word (14 Table 9), or none. -/
def gripCustom (word : Word) : Option Instr :=
  let rd := word.extractLsb' 7 5
  let rs1 := word.extractLsb' 15 5
  let rs2 := word.extractLsb' 20 5
  let f3 := (word.extractLsb' 12 3).toNat
  let f7 := (word.extractLsb' 25 7).toNat
  match (word.extractLsb' 0 7).toNat, f3, f7 with
  | 0x0B, 0, 0 => if rs2 = 0 then some (.gPost rd rs1) else none
  | 0x0B, 1, 0 => some (.gTlwait rd rs1 rs2)
  | 0x0B, 2, 0 => if rs2 = 0 then some (.gTlrd rd rs1) else none
  | 0x0B, 3, 0 => if rs2 = 0 then some (.gLdf rd rs1) else none
  | 0x0B, 4, 0 => if rd = 0 then some (.gSte rs1 rs2) else none
  | 0x2B, 0, 0 => if rs2 = 0 then some (.gItem rd rs1) else none
  | 0x2B, 0, 1 => if rs2 = 0 then some (.gItemClose rd rs1) else none
  | 0x2B, 1, 0 => some (.gTask rd rs1 rs2)
  | 0x2B, 2, 0 => if rs2 = 0 then some (.gBarv rd rs1) else none
  | 0x2B, 3, 0 => if rd = 0 ∧ rs2 = 0 then some (.gEvt rs1) else none
  | 0x2B, 3, 1 => if rd = 0 ∧ rs2 = 0 then some (.gEvtEnd rs1) else none
  | 0x2B, 3, 2 => if rd = 0 ∧ rs2 = 0 then some (.gEvtFail rs1) else none
  | _, _, _ => none

/-- The instruction that a grip fetches: a compressed word, a custom word, or a standard one. -/
def decodeGrip (word : Word) : Instr :=
  if word.extractLsb' 0 2 = 3 then
    match gripCustom word with
    | some i => i
    | none => .gripStandardInstruction (rvOf word) false
  else .gripStandardInstruction (rvcOf (word.extractLsb' 0 16)) true

/-! ## The opcode map -/

/-- The instruction of an extended word: its major, its minor, its fields (03 Tables 14 and 15). A write of an immediate
operation to SSCMD is spelt by its own constructor (09 R225). -/
def ofExt (major minor : Nat) (x : Ext) : Option Instr :=
  match major with
  | 1 => if minor = 0 then some (.braExt x) else none
  | 2 => if minor = 0 then some (.brp x) else none
  | 3 => if minor = 0 then some (.brx x) else none
  | 4 => if minor = 0 then some (.joinExt x) else none
  | 5 => if minor = 0 then some (.callExt x) else none
  | 6 => if minor = 0 then some (.calliExt x) else none
  | 7 => if minor = 0 then some (.retExt x) else none
  | 8 => if minor = 0 then some (.jmpiExt x) else none
  | 9 => if minor = 0 then some (.exitExt x) else none
  | 10 => if minor = 0 then some (.recast x) else none
  | 11 => if minor = 0 then some (.yieldExt x) else none
  | 12 => if minor = 0 then some (.nopExt x) else none
  | 13 => if minor = 0 then some (.bkptExt x) else none
  | 14 => if minor = 0 then some (.trapExt x) else none
  | 15 => if minor = 0 then some (.svcExt x) else none
  | 16 => if minor = 0 then some (.iaddExt x) else none
  | 17 => if minor = 0 then some (.isubExt x) else none
  | 18 => if minor = 0 then some (.iaddc x) else none
  | 19 => if minor = 0 then some (.imulExt x) else none
  | 20 => if minor = 0 then some (.imulhExt x) else none
  | 21 => if minor = 0 then some (.imad x) else none
  | 22 => if minor = 0 then some (.imadw x) else none
  | 23 => if minor = 0 then some (.ishlExt x) else none
  | 24 => if minor = 0 then some (.ishrExt x) else none
  | 25 => if minor = 0 then some (.isarExt x) else none
  | 26 => if minor = 0 then some (.irotExt x) else none
  | 27 => if minor = 0 then some (.andExt x) else none
  | 28 => if minor = 0 then some (.orExt x) else none
  | 29 => if minor = 0 then some (.xorExt x) else none
  | 30 => if minor = 0 then some (.andnExt x) else none
  | 31 => if minor = 0 then some (.lmix x) else none
  | 32 => if minor = 0 then some (.bfx x) else none
  | 33 => if minor = 0 then some (.bfi x) else none
  | 34 => if minor = 0 then some (.iminExt x) else none
  | 35 => if minor = 0 then some (.imaxExt x) else none
  | 36 => if minor = 0 then some (.iabsExt x) else none
  | 37 => if minor = 0 then some (.isel x) else none
  | 38 => if minor = 0 then some (.idot4 x) else none
  | 39 => if minor = 0 then some (.lea x) else none
  | 40 => if minor = 0 then some (.iadd64Ext x) else none
  | 41 => if minor = 0 then some (.ldiExt x) else none
  | 42 => if minor = 0 then some (.clz x) else if minor = 1 then some (.ctz x) else if minor = 2 then some (.popc x) else if minor = 3 then some (.brev x) else none
  | 43 => if minor = 0 then some (.iset x) else if minor = 1 then some (.pset x) else if minor = 2 then some (.pmov x) else if minor = 3 then some (.pcnt x) else none
  | 44 => if minor = 0 then some (.vtos x) else if minor = 1 then some (.stov x) else if minor = 2 then some (.elect x) else none
  | 48 => if minor = 0 then some (.faddExt x) else none
  | 49 => if minor = 0 then some (.fsubExt x) else none
  | 50 => if minor = 0 then some (.fmulExt x) else none
  | 51 => if minor = 0 then some (.ffma x) else none
  | 52 => if minor = 0 then some (.fminExt x) else none
  | 53 => if minor = 0 then some (.fmaxExt x) else none
  | 54 => if minor = 0 then some (.fset x) else none
  | 55 => if minor = 0 then some (.fclass x) else none
  | 56 => if minor = 0 then some (.frcp x) else if minor = 1 then some (.frsq x) else if minor = 2 then some (.fsqrt x) else if minor = 3 then some (.fexp2 x) else if minor = 4 then some (.flog2 x) else if minor = 5 then some (.fsin x) else if minor = 6 then some (.fcos x) else if minor = 7 then some (.ftanh x) else none
  | 57 => if minor = 0 then some (.daddExt x) else none
  | 58 => if minor = 0 then some (.dmulExt x) else none
  | 59 => if minor = 0 then some (.dfma x) else none
  | 60 => if minor = 0 then some (.pkaddExt x) else none
  | 61 => if minor = 0 then some (.pkmulExt x) else none
  | 62 => if minor = 0 then some (.pkfma x) else none
  | 63 => if minor = 0 then some (.cvt x) else none
  | 64 => if minor = 0 then some (.cvtq x) else none
  | 65 => if minor = 0 then some (.bqdot x) else none
  | 66 => if minor = 0 then some (.bqscl x) else none
  | 80 => if minor = 0 then some (.qswz x) else none
  | 81 => if minor = 0 then some (.qbc x) else none
  | 82 => if minor = 0 then some (.qdx x) else none
  | 83 => if minor = 0 then some (.qdy x) else none
  | 84 => if minor = 0 then some (.lxch x) else none
  | 85 => if minor = 0 then some (.qrm x) else none
  | 86 => if minor = 0 then some (.peer x) else none
  | 87 => if minor = 0 then some (.wfold x) else none
  | 88 => if minor = 0 then some (.prefixFold x) else none
  | 89 => if minor = 0 then some (.isect x) else none
  | 96 => if minor = 2 then some (.mma2 x) else if minor = 3 then some (.mma3 x) else if minor = 4 then some (.mma4 x) else if minor = 5 then some (.mma5 x) else if minor = 6 then some (.mma6 x) else if minor = 7 then some (.mma7 x) else if minor = 8 then some (.mma8 x) else if minor = 16 then some (.mmaw x) else none
  | 97 => if minor = 0 then some (.wbld x) else if minor = 1 then some (.wbinv x) else none
  | 98 => if minor = 0 then some (.aclr x) else if minor = 1 then some (.ard x) else if minor = 2 then some (.awr x) else none
  | 99 => if minor = 0 then some (.scan x) else if minor = 1 then some (.scanst x) else none
  | 104 => if minor = 0 then some (.mfs x) else none
  | 105 => if minor = 0 then some (mtsOf x) else none
  | 106 => if minor = 0 then some (.eret x) else if minor = 1 then some (.halt x) else if minor = 2 then some (.clrerr x) else none
  | 107 => if minor = 0 then some (.tlbflush x) else if minor = 1 then some (.tlbsync x) else if minor = 2 then some (.asidret x) else if minor = 3 then some (.sgwr x) else if minor = 4 then some (.ttrd x) else if minor = 5 then some (.bwset x) else none
  | 112 => if minor = 0 then some (.ldsExt x) else none
  | 113 => if minor = 0 then some (.stsExt x) else none
  | 114 => if minor = 0 then some (.ldsfExt x) else none
  | 115 => if minor = 0 then some (.stseExt x) else none
  | 116 => if minor = 0 then some (.ldsp x) else if minor = 1 then some (.tags x) else if minor = 2 then some (.tagc x) else none
  | 117 => if minor = 0 then some (.ats x) else if minor = 1 then some (.atsn x) else none
  | 118 => if minor = 0 then some (.talloc x) else if minor = 1 then some (.tfree x) else if minor = 2 then some (.tld x) else if minor = 3 then some (.tst x) else none
  | 119 => if minor = 0 then some (.fence x) else if minor = 1 then some (.icinv x) else none
  | 120 => if minor = 0 then some (.cpost x) else none
  | 121 => if minor = 0 then some (.red x) else if minor = 1 then some (.amo x) else if minor = 2 then some (.redflush x) else none
  | 122 => if minor = 0 then some (.cfence x) else if minor = 1 then some (.cpstat x) else none
  | 123 => if minor = 0 then some (.coll x) else if minor = 1 then some (.cgrp x) else if minor = 2 then some (.fxwin x) else none
  | 124 => if minor = 0 then some (.tskpost x) else if minor = 1 then some (.launch x) else none
  | 125 => if minor = 0 then some (.itemput x) else none
  | 126 => if minor = 0 then some (.waitc x) else if minor = 1 then some (.tlwait x) else if minor = 2 then some (.tlrd x) else if minor = 3 then some (.balloc x) else if minor = 4 then some (.bfree x) else if minor = 5 then some (.barv x) else if minor = 6 then some (.bwait x) else if minor = 7 then some (.barvw x) else if minor = 8 then some (.ecrd x) else if minor = 9 then some (.ecsel x) else none
  | _ => none

/-- The instruction of a base word with its literal (03 Table 14; immediate majors 03 Table 17). -/
def ofBase (major : Nat) (w : Word) (lit : Option DWord) : Option Instr :=
  match major with
  | 1 => match lit with
    | none => some (.braBr (bbrOf w))
    | some _ => none
  | 4 => some (.joinAlu (baluOf w lit))
  | 5 => match lit with
    | none => some (.callBr (bbrOf w))
    | some _ => none
  | 6 => some (.calliAlu (baluOf w lit))
  | 7 => some (.retAlu (baluOf w lit))
  | 8 => some (.jmpiAlu (baluOf w lit))
  | 9 => some (.exitAlu (baluOf w lit))
  | 11 => some (.yieldAlu (baluOf w lit))
  | 12 => some (.nopAlu (baluOf w lit))
  | 13 => some (.bkptImm (bimmOf w lit))
  | 14 => some (.trapImm (bimmOf w lit))
  | 15 => some (.svcImm (bimmOf w lit))
  | 16 => some (.iaddAlu (baluOf w lit))
  | 17 => some (.isubAlu (baluOf w lit))
  | 19 => some (.imulAlu (baluOf w lit))
  | 20 => some (.imulhAlu (baluOf w lit))
  | 23 => some (.ishlAlu (baluOf w lit))
  | 24 => some (.ishrAlu (baluOf w lit))
  | 25 => some (.isarAlu (baluOf w lit))
  | 26 => some (.irotAlu (baluOf w lit))
  | 27 => some (.andAlu (baluOf w lit))
  | 28 => some (.orAlu (baluOf w lit))
  | 29 => some (.xorAlu (baluOf w lit))
  | 30 => some (.andnAlu (baluOf w lit))
  | 34 => some (.iminAlu (baluOf w lit))
  | 35 => some (.imaxAlu (baluOf w lit))
  | 36 => some (.iabsAlu (baluOf w lit))
  | 40 => some (.iadd64Alu (baluOf w lit))
  | 41 => some (.ldiAlu (baluOf w lit))
  | 45 => some (.fmaxImm (bimmOf w lit))
  | 48 => some (.faddAlu (baluOf w lit))
  | 49 => some (.fsubAlu (baluOf w lit))
  | 50 => some (.fmulAlu (baluOf w lit))
  | 52 => some (.fminAlu (baluOf w lit))
  | 53 => some (.fmaxAlu (baluOf w lit))
  | 57 => some (.daddAlu (baluOf w lit))
  | 58 => some (.dmulAlu (baluOf w lit))
  | 60 => some (.pkaddAlu (baluOf w lit))
  | 61 => some (.pkmulAlu (baluOf w lit))
  | 67 => some (.iaddImm (bimmOf w lit))
  | 68 => some (.isubImm (bimmOf w lit))
  | 69 => some (.imulImm (bimmOf w lit))
  | 70 => some (.imulhImm (bimmOf w lit))
  | 71 => some (.ishlImm (bimmOf w lit))
  | 72 => some (.ishrImm (bimmOf w lit))
  | 73 => some (.isarImm (bimmOf w lit))
  | 74 => some (.irotImm (bimmOf w lit))
  | 75 => some (.andImm (bimmOf w lit))
  | 76 => some (.orImm (bimmOf w lit))
  | 77 => some (.xorImm (bimmOf w lit))
  | 78 => some (.andnImm (bimmOf w lit))
  | 79 => some (.iminImm (bimmOf w lit))
  | 90 => some (.imaxImm (bimmOf w lit))
  | 91 => some (.iadd64Imm (bimmOf w lit))
  | 92 => some (.faddImm (bimmOf w lit))
  | 93 => some (.fsubImm (bimmOf w lit))
  | 94 => some (.fmulImm (bimmOf w lit))
  | 95 => some (.fminImm (bimmOf w lit))
  | 112 => some (.ldsMem (bmemOf w lit))
  | 113 => some (.stsMem (bmemOf w lit))
  | 114 => some (.ldsfMem (bmemOf w lit))
  | 115 => some (.stseMem (bmemOf w lit))
  | _ => none

/-- The words of a warp instruction; an event and a grip instruction have none here. -/
def encode (i : Instr) : List Word :=
  match i with
  | .braBr b => bbrWords 1 b
  | .braExt x => extWords 1 0 x
  | .brp x => extWords 2 0 x
  | .brx x => extWords 3 0 x
  | .joinAlu b => baluWords 4 b
  | .joinExt x => extWords 4 0 x
  | .callBr b => bbrWords 5 b
  | .callExt x => extWords 5 0 x
  | .calliAlu b => baluWords 6 b
  | .calliExt x => extWords 6 0 x
  | .retAlu b => baluWords 7 b
  | .retExt x => extWords 7 0 x
  | .jmpiAlu b => baluWords 8 b
  | .jmpiExt x => extWords 8 0 x
  | .exitAlu b => baluWords 9 b
  | .exitExt x => extWords 9 0 x
  | .recast x => extWords 10 0 x
  | .yieldAlu b => baluWords 11 b
  | .yieldExt x => extWords 11 0 x
  | .nopAlu b => baluWords 12 b
  | .nopExt x => extWords 12 0 x
  | .bkptImm b => bimmWords 13 b
  | .bkptExt x => extWords 13 0 x
  | .trapImm b => bimmWords 14 b
  | .trapExt x => extWords 14 0 x
  | .svcImm b => bimmWords 15 b
  | .svcExt x => extWords 15 0 x
  | .iaddAlu b => baluWords 16 b
  | .iaddImm b => bimmWords 67 b
  | .iaddExt x => extWords 16 0 x
  | .isubAlu b => baluWords 17 b
  | .isubImm b => bimmWords 68 b
  | .isubExt x => extWords 17 0 x
  | .iaddc x => extWords 18 0 x
  | .imulAlu b => baluWords 19 b
  | .imulImm b => bimmWords 69 b
  | .imulExt x => extWords 19 0 x
  | .imulhAlu b => baluWords 20 b
  | .imulhImm b => bimmWords 70 b
  | .imulhExt x => extWords 20 0 x
  | .imad x => extWords 21 0 x
  | .imadw x => extWords 22 0 x
  | .ishlAlu b => baluWords 23 b
  | .ishlImm b => bimmWords 71 b
  | .ishlExt x => extWords 23 0 x
  | .ishrAlu b => baluWords 24 b
  | .ishrImm b => bimmWords 72 b
  | .ishrExt x => extWords 24 0 x
  | .isarAlu b => baluWords 25 b
  | .isarImm b => bimmWords 73 b
  | .isarExt x => extWords 25 0 x
  | .irotAlu b => baluWords 26 b
  | .irotImm b => bimmWords 74 b
  | .irotExt x => extWords 26 0 x
  | .andAlu b => baluWords 27 b
  | .andImm b => bimmWords 75 b
  | .andExt x => extWords 27 0 x
  | .orAlu b => baluWords 28 b
  | .orImm b => bimmWords 76 b
  | .orExt x => extWords 28 0 x
  | .xorAlu b => baluWords 29 b
  | .xorImm b => bimmWords 77 b
  | .xorExt x => extWords 29 0 x
  | .andnAlu b => baluWords 30 b
  | .andnImm b => bimmWords 78 b
  | .andnExt x => extWords 30 0 x
  | .lmix x => extWords 31 0 x
  | .bfx x => extWords 32 0 x
  | .bfi x => extWords 33 0 x
  | .iminAlu b => baluWords 34 b
  | .iminImm b => bimmWords 79 b
  | .iminExt x => extWords 34 0 x
  | .imaxAlu b => baluWords 35 b
  | .imaxImm b => bimmWords 90 b
  | .imaxExt x => extWords 35 0 x
  | .iabsAlu b => baluWords 36 b
  | .iabsExt x => extWords 36 0 x
  | .isel x => extWords 37 0 x
  | .idot4 x => extWords 38 0 x
  | .lea x => extWords 39 0 x
  | .iadd64Alu b => baluWords 40 b
  | .iadd64Imm b => bimmWords 91 b
  | .iadd64Ext x => extWords 40 0 x
  | .ldiAlu b => baluWords 41 b
  | .ldiExt x => extWords 41 0 x
  | .clz x => extWords 42 0 x
  | .ctz x => extWords 42 1 x
  | .popc x => extWords 42 2 x
  | .brev x => extWords 42 3 x
  | .iset x => extWords 43 0 x
  | .pset x => extWords 43 1 x
  | .pmov x => extWords 43 2 x
  | .pcnt x => extWords 43 3 x
  | .vtos x => extWords 44 0 x
  | .stov x => extWords 44 1 x
  | .elect x => extWords 44 2 x
  | .faddAlu b => baluWords 48 b
  | .faddImm b => bimmWords 92 b
  | .faddExt x => extWords 48 0 x
  | .fsubAlu b => baluWords 49 b
  | .fsubImm b => bimmWords 93 b
  | .fsubExt x => extWords 49 0 x
  | .fmulAlu b => baluWords 50 b
  | .fmulImm b => bimmWords 94 b
  | .fmulExt x => extWords 50 0 x
  | .ffma x => extWords 51 0 x
  | .fminAlu b => baluWords 52 b
  | .fminImm b => bimmWords 95 b
  | .fminExt x => extWords 52 0 x
  | .fmaxAlu b => baluWords 53 b
  | .fmaxImm b => bimmWords 45 b
  | .fmaxExt x => extWords 53 0 x
  | .fset x => extWords 54 0 x
  | .fclass x => extWords 55 0 x
  | .frcp x => extWords 56 0 x
  | .frsq x => extWords 56 1 x
  | .fsqrt x => extWords 56 2 x
  | .fexp2 x => extWords 56 3 x
  | .flog2 x => extWords 56 4 x
  | .fsin x => extWords 56 5 x
  | .fcos x => extWords 56 6 x
  | .ftanh x => extWords 56 7 x
  | .daddAlu b => baluWords 57 b
  | .daddExt x => extWords 57 0 x
  | .dmulAlu b => baluWords 58 b
  | .dmulExt x => extWords 58 0 x
  | .dfma x => extWords 59 0 x
  | .pkaddAlu b => baluWords 60 b
  | .pkaddExt x => extWords 60 0 x
  | .pkmulAlu b => baluWords 61 b
  | .pkmulExt x => extWords 61 0 x
  | .pkfma x => extWords 62 0 x
  | .cvt x => extWords 63 0 x
  | .cvtq x => extWords 64 0 x
  | .bqdot x => extWords 65 0 x
  | .bqscl x => extWords 66 0 x
  | .qswz x => extWords 80 0 x
  | .qbc x => extWords 81 0 x
  | .qdx x => extWords 82 0 x
  | .qdy x => extWords 83 0 x
  | .lxch x => extWords 84 0 x
  | .qrm x => extWords 85 0 x
  | .peer x => extWords 86 0 x
  | .wfold x => extWords 87 0 x
  | .prefixFold x => extWords 88 0 x
  | .isect x => extWords 89 0 x
  | .mma2 x => extWords 96 2 x
  | .mma3 x => extWords 96 3 x
  | .mma4 x => extWords 96 4 x
  | .mma5 x => extWords 96 5 x
  | .mma6 x => extWords 96 6 x
  | .mma7 x => extWords 96 7 x
  | .mma8 x => extWords 96 8 x
  | .mmaw x => extWords 96 16 x
  | .wbld x => extWords 97 0 x
  | .wbinv x => extWords 97 1 x
  | .aclr x => extWords 98 0 x
  | .ard x => extWords 98 1 x
  | .awr x => extWords 98 2 x
  | .scan x => extWords 99 0 x
  | .scanst x => extWords 99 1 x
  | .mfs x => extWords 104 0 x
  | .mts x => extWords 105 0 x
  | .sscmdSpill x => extWords 105 0 x
  | .sscmdFill x => extWords 105 0 x
  | .sscmdPop x => extWords 105 0 x
  | .sscmdPush x => extWords 105 0 x
  | .eret x => extWords 106 0 x
  | .halt x => extWords 106 1 x
  | .clrerr x => extWords 106 2 x
  | .tlbflush x => extWords 107 0 x
  | .tlbsync x => extWords 107 1 x
  | .asidret x => extWords 107 2 x
  | .sgwr x => extWords 107 3 x
  | .ttrd x => extWords 107 4 x
  | .bwset x => extWords 107 5 x
  | .ldsMem b => bmemWords 112 b
  | .ldsExt x => extWords 112 0 x
  | .stsMem b => bmemWords 113 b
  | .stsExt x => extWords 113 0 x
  | .ldsfMem b => bmemWords 114 b
  | .ldsfExt x => extWords 114 0 x
  | .stseMem b => bmemWords 115 b
  | .stseExt x => extWords 115 0 x
  | .ldsp x => extWords 116 0 x
  | .tags x => extWords 116 1 x
  | .tagc x => extWords 116 2 x
  | .ats x => extWords 117 0 x
  | .atsn x => extWords 117 1 x
  | .talloc x => extWords 118 0 x
  | .tfree x => extWords 118 1 x
  | .tld x => extWords 118 2 x
  | .tst x => extWords 118 3 x
  | .fence x => extWords 119 0 x
  | .icinv x => extWords 119 1 x
  | .cpost x => extWords 120 0 x
  | .red x => extWords 121 0 x
  | .amo x => extWords 121 1 x
  | .redflush x => extWords 121 2 x
  | .cfence x => extWords 122 0 x
  | .cpstat x => extWords 122 1 x
  | .coll x => extWords 123 0 x
  | .cgrp x => extWords 123 1 x
  | .fxwin x => extWords 123 2 x
  | .tskpost x => extWords 124 0 x
  | .launch x => extWords 124 1 x
  | .itemput x => extWords 125 0 x
  | .waitc x => extWords 126 0 x
  | .tlwait x => extWords 126 1 x
  | .tlrd x => extWords 126 2 x
  | .balloc x => extWords 126 3 x
  | .bfree x => extWords 126 4 x
  | .barv x => extWords 126 5 x
  | .barvw x => extWords 126 7 x
  | .bwait x => extWords 126 6 x
  | .ecrd x => extWords 126 8 x
  | .ecsel x => extWords 126 9 x
  | .trapEntry _ _ => []
  | .tagwait _ _ => []
  | .machine _ => []
  | .breakpointHit _ _ _ => []
  | .dbgctlResume _ _ => []
  | .schedulerSelect _ _ => []
  | .storeQueuePerform _ _ => []
  | .gripStorePerform _ _ => []
  | .loadLand _ _ _ _ => []
  | .tileAccessLand _ _ _ => []
  | .tagWaitSatisfied _ _ => []
  | .waitcReturn _ _ => []
  | .tlwaitReturn _ _ => []
  | .bwaitReturn _ _ => []
  | .recastWake _ _ => []
  | .cpostAccept _ _ => []
  | .mmaAccept _ _ => []
  | .fenceDrained _ _ => []
  | .icinvDone _ _ => []
  | .sgwrDone _ _ => []
  | .tlbsyncDone _ _ => []
  | .atomicElementPerform _ => []
  | .writeThroughAck _ _ _ => []
  | .scrubPass _ _ => []
  | .copyDispatch _ _ _ => []
  | .copyFaultSuspend _ _ _ => []
  | .faultBatchPost _ _ _ => []
  | .copyComplete _ _ _ => []
  | .matrixUnitStart _ => []
  | .matrixCommandComplete _ => []
  | .gafferWindow _ => []
  | .wbldRun _ => []
  | .wbldComplete _ => []
  | .wbinvEffect _ => []
  | .scanStart _ => []
  | .scanComplete _ => []
  | .scanstComplete _ => []
  | .tokenRefill _ => []
  | .portSend _ => []
  | .priorityAging _ => []
  | .timeSliceEnd _ _ => []
  | .clusterPlacement _ => []
  | .preemption _ _ => []
  | .groupHaltRelease _ _ => []
  | .restorePlacement _ _ => []
  | .groupRetirement _ _ => []
  | .launchEntryTake _ _ => []
  | .gridEnd _ => []
  | .taskArrival _ _ => []
  | .taskPlacement _ _ => []
  | .collectiveMatched _ => []
  | .collMemberComplete _ _ => []
  | .gatewayCombine _ _ _ => []
  | .multicastPacketArrival _ _ => []
  | .writePacket _ => []
  | .readPacket _ => []
  | .atomicPacket _ => []
  | .flagPacket _ => []
  | .collPacket _ => []
  | .ackReceived _ => []
  | .stallHintExpiry _ _ => []
  | .linkDown _ => []
  | .ackTimeout _ _ => []
  | .routeRetry _ => []
  | .fabricTimeout _ _ _ => []
  | .asidFreed _ => []
  | .coldReset => []
  | .warmReset => []
  | .resetctlWarm => []
  | .bootctlStart => []
  | .bootbufWrite _ => []
  | .bootctlGo _ => []
  | .linkStateChange _ _ => []
  | .sidebandRegisterWrite _ _ _ => []
  | .errstatRead _ => []
  | .lqd0Write _ _ _ => []
  | .lqd1TailWrite _ _ _ => []
  | .diememWrite _ _ => []
  | .bwtabWrite _ _ => []
  | .fqctlHeadWrite _ _ => []
  | .eqctlHeadWrite _ _ => []
  | .islopWrite _ _ => []
  | .asidBind _ => []
  | .asidReroot _ => []
  | .tlbFlush _ => []
  | .asidRetire _ => []
  | .faultVerdict _ => []
  | .groupRelease _ => []
  | .restore _ => []
  | .preempt _ => []
  | .streamReset _ => []
  | .windowSync _ => []
  | .scopeWrite _ => []
  | .taskName _ => []
  | .attest _ _ => []
  | .coreRelease _ => []
  | .sidebandCommandFinish _ => []
  | .thermalThreshold _ _ => []
  | .thermalUndo _ _ => []
  | .jtagExtest _ => []
  | .jtagIdcode => []
  | .jtagSamplePreload _ => []
  | .jtagBypass _ => []
  | .companionDeviceMemoryAccess _ => []
  | .linkAbsenceTimeout _ _ _ => []
  | .gripStandardInstruction r _ => [encodeRv r]
  | .gPost rd rs1 => [rType 0x0B 0 0 rd rs1 0]
  | .gTlwait rd rs1 rs2 => [rType 0x0B 1 0 rd rs1 rs2]
  | .gTlrd rd rs1 => [rType 0x0B 2 0 rd rs1 0]
  | .gLdf rd rs1 => [rType 0x0B 3 0 rd rs1 0]
  | .gSte rs1 rs2 => [rType 0x0B 4 0 0 rs1 rs2]
  | .gItem rd rs1 => [rType 0x2B 0 0 rd rs1 0]
  | .gItemClose rd rs1 => [rType 0x2B 0 1 rd rs1 0]
  | .gTask rd rs1 rs2 => [rType 0x2B 1 0 rd rs1 rs2]
  | .gBarv rd rs1 => [rType 0x2B 2 0 rd rs1 0]
  | .gEvt rs1 => [rType 0x2B 3 0 0 rs1 0]
  | .gEvtEnd rs1 => [rType 0x2B 3 1 0 rs1 0]
  | .gEvtFail rs1 => [rType 0x2B 3 2 0 rs1 0]

/-- Whether an instruction is a grip's (14 R351, R355). -/
def Instr.isGrip (i : Instr) : Bool :=
  match i with
  | .gPost _ _ => true
  | .gTlwait _ _ _ => true
  | .gTlrd _ _ => true
  | .gLdf _ _ => true
  | .gSte _ _ => true
  | .gItem _ _ => true
  | .gItemClose _ _ => true
  | .gTask _ _ _ => true
  | .gBarv _ _ => true
  | .gEvt _ => true
  | .gEvtEnd _ => true
  | .gEvtFail _ => true
  | .gripStandardInstruction _ _ => true
  | _ => false

/-- The byte length of an instruction from its word 0 (03 Table 2). -/
def lenOf (w0 : Word) : Nat :=
  match (w0.extractLsb' 0 2).toNat with
  | 0 => 4
  | 1 => 12
  | 2 => 12
  | _ => 20

/-- The instruction of a warp's words; none is IL-OPC (03 Table 7, orders 2 and 3). Words beyond its length are not read. -/
def decode (ws : List Word) : Option Instr :=
  match ws with
  | [] => none
  | w0 :: rest =>
    let major := (w0.extractLsb' 3 7).toNat
    let minor := (w0.extractLsb' 10 12).toNat
    match (w0.extractLsb' 0 2).toNat, rest with
    | 0, _ => ofBase major w0 none
    | 1, l0 :: l1 :: _ => ofBase major w0 (some (l1 ++ l0))
    | 2, w1 :: w2 :: _ => ofExt major minor (extOf w0 w1 w2 none)
    | 3, w1 :: w2 :: l0 :: l1 :: _ => ofExt major minor (extOf w0 w1 w2 (some (l1 ++ l0)))
    | _, _ => none

/-- The 32-bit words of bytes, each with its low byte first (00 R2). -/
def wordsOf : List Byte → List Word
  | b0 :: b1 :: b2 :: b3 :: t => (b3 ++ b2 ++ b1 ++ b0) :: wordsOf t
  | _ => []

/-- The instruction of a warp's bytes. -/
def decodeBytes (bs : List Byte) : Option Instr := decode (wordsOf bs)

/-- Whether a row's word is a grip's: its opcode is custom-0 or custom-1 of RISC-V, whose bits [1:0] are 0b11, and no word
follows that a warp's LEN = 0b11 would need (14 R355). -/
def isGripWord (nbits w : Nat) : Bool :=
  decide (nbits ≤ 32) && (gripCustom (BitVec.ofNat 32 w)).isSome

/-- The instruction that the part's decoders read from a row's bits: words at the lowest address first, zeros above. -/
def decodeTableWord (nbits w : Nat) : Option Instr :=
  if isGripWord nbits w then some (decodeGrip (BitVec.ofNat 32 w))
  else decodeBytes (toBytes (w % 2 ^ nbits) Config.maxInstrBytes)

end Sys2Proof
end

