-- ==== Sys2Proof/Machine/Flags.lean ====
section
/-! DEFINITION. Number formats and arithmetic: IEEE formats, rounding and exception flags (04 R85 to R89), conversions
(R95), block formats (R90 to R96), the transcendental functions (07 R173), and the zero-sign rules. A result is a pair of
its bits and its flags: NV 16, DZ 8, OF 4, UF 2, NX 1 (04 Table 3). -/

namespace Sys2Proof.Machine

/-- An IEEE format: exponent and fraction bits (04 Table 1). -/
structure Fmt where
  eb : Nat
  fb : Nat
  deriving DecidableEq, Repr

/-- binary64. -/
def Fmt.f64 : Fmt := { eb := 11, fb := 52 }
/-- binary32. -/
def Fmt.f32 : Fmt := { eb := 8, fb := 23 }
/-- binary16. -/
def Fmt.f16 : Fmt := { eb := 5, fb := 10 }
/-- bfloat16. -/
def Fmt.bf16 : Fmt := { eb := 8, fb := 7 }

/-- The width of a format in bits. -/
def Fmt.width (f : Fmt) : Nat := 1 + f.eb + f.fb
/-- The bits of +infinity. -/
def Fmt.inf (f : Fmt) : Nat := (2 ^ f.eb - 1) * 2 ^ f.fb
/-- The bit of the sign. -/
def Fmt.signBit (f : Fmt) : Nat := 2 ^ (f.eb + f.fb)
/-- The canonical NaN (04 Table 1). -/
def Fmt.nan (f : Fmt) : Nat := f.inf + 2 ^ (f.fb - 1)
/-- The poison NaN (04 Table 1). -/
def Fmt.poison (f : Fmt) : Nat := f.inf + 3 * 2 ^ (f.fb - 2)
/-- The exponent of the least subnormal: a value is a multiple of 2^qmin. -/
def Fmt.qmin (f : Fmt) : Int := 2 - (2 : Int) ^ (f.eb - 1) - f.fb

/-- Rounding modes by code (04 Table 2). -/
abbrev RMode := Nat

/-- A value as a number: a finite one is (-1)^neg * m * 2^q. -/
inductive Fp where
  | fin (neg : Bool) (m : Nat) (q : Int)
  | inf (neg : Bool)
  | nan (signalling poison : Bool)
  deriving DecidableEq, Repr

/-- The value of a pattern (04 R85, R86). -/
def Fmt.unpack (f : Fmt) (x : Nat) : Fp :=
  let neg := decide (x / f.signBit % 2 = 1)
  let mag := x % f.signBit
  let e := mag / 2 ^ f.fb
  let fr := mag % 2 ^ f.fb
  if e = 2 ^ f.eb - 1 then
    if fr = 0 then .inf neg
    else .nan (decide (fr < 2 ^ (f.fb - 1))) (decide (mag = f.poison))
  else if e = 0 then .fin neg fr f.qmin
  else .fin neg (2 ^ f.fb + fr) (f.qmin + e - 1)

/-- A sign applied to a magnitude pattern. -/
def Fmt.signed (f : Fmt) (neg : Bool) (mag : Nat) : Nat := if neg then mag + f.signBit else mag

/-- Whether a mode rounds the magnitude up, given the bit kept last, and how the rest compares with half (0 below, 1 half,
2 above). -/
def roundsUp (mode : RMode) (neg odd : Bool) (half : Nat) : Bool :=
  match mode with
  | 0 => decide (half = 2) || (decide (half = 1) && odd)
  | 1 => false
  | 2 => !neg
  | _ => neg

/-- `m * 2^-sh` rounded to an integer, and whether it was inexact. -/
def roundShift (mode : RMode) (neg : Bool) (m sh : Nat) : Nat × Bool :=
  let keep := m / 2 ^ sh
  let rem := m % 2 ^ sh
  if rem = 0 then (keep, false)
  else
    let half := if 2 * rem < 2 ^ sh then 0 else if 2 * rem = 2 ^ sh then 1 else 2
    (if roundsUp mode neg (keep % 2 == 1) half then keep + 1 else keep, true)

/-- What a finite result beyond the largest finite value becomes (04 Table 2). -/
def Fmt.overflow (f : Fmt) (mode : RMode) (neg : Bool) : Nat :=
  let toInf := match mode with | 0 => true | 1 => false | 2 => !neg | _ => neg
  f.signed neg (if toInf then f.inf else f.inf - 1)

/-- `round_ieee` of a finite value m * 2^q, plus less than one unit of q when `sticky` (04 R87, R88). -/
def Fmt.round (f : Fmt) (mode : RMode) (neg : Bool) (m0 : Nat) (q0 : Int) (sticky : Bool) : Nat × Nat :=
  if m0 = 0 && !sticky then (f.signed neg 0, 0)
  else
    let m := 4 * m0 + (if sticky then 1 else 0)
    let q := q0 - 2
    let e : Int := (Nat.log2 m : Int) + q
    let qn := e - f.fb
    let qt := if qn < f.qmin then f.qmin else qn
    let r : Nat × Bool := if qt ≤ q then (m * 2 ^ (q - qt).toNat, false)
      else if (Nat.log2 m : Int) + 3 < qt - q then ((if roundsUp mode neg false 0 then 1 else 0), true)
      else roundShift mode neg m (qt - q).toNat
    let mag := (qt - f.qmin).toNat * 2 ^ f.fb + r.1
    let rn : Nat := if qn ≤ q then 0 else (roundShift mode neg m (qn - q).toNat).1
    let tiny := decide (qn + 1 < f.qmin) || (decide (qn < f.qmin) && !(decide (rn = 2 ^ (f.fb + 1))))
    if mag ≥ f.inf then (f.overflow mode neg, 5)
    else (f.signed neg mag, (if r.2 then 1 else 0) + (if tiny && r.2 then 2 else 0))

/-- The exact sum of two finite values: sign, magnitude and exponent. -/
def exactAdd (n1 : Bool) (m1 : Nat) (q1 : Int) (n2 : Bool) (m2 : Nat) (q2 : Int) : Bool × Nat × Int :=
  let q := if q1 ≤ q2 then q1 else q2
  let a : Int := (m1 * 2 ^ (q1 - q).toNat : Nat)
  let b : Int := (m2 * 2 ^ (q2 - q).toNat : Nat)
  let t := (if n1 then -a else a) + (if n2 then -b else b)
  (decide (t < 0), t.natAbs, q)

/-- The sign of an exact zero sum (04 R88): −0 when both are −0, else −0 in `rdn` and +0 otherwise. -/
def zeroSumNeg (mode : RMode) (n1 n2 : Bool) : Bool := (n1 && n2) || decide (mode = 3)

/-- The NaN result of operands of which one is NaN, or of an invalid operation (04 R86). -/
def Fmt.nanOut (f : Fmt) (xs : List Fp) (invalid : Bool) : Nat × Nat :=
  let poison := xs.any (fun x => match x with | .nan _ p => p | _ => false)
  let snan := xs.any (fun x => match x with | .nan s _ => s | _ => false)
  if poison then (f.poison, if invalid then 16 else 0)
  else (f.nan, if invalid || snan then 16 else 0)

/-- Whether a value is NaN. -/
def Fp.isNan (x : Fp) : Bool := match x with | .nan _ _ => true | _ => false

/-- Whether a value is poison (04 R86). -/
def Fp.isPoison (x : Fp) : Bool := match x with | .nan _ p => p | _ => false

/-- Whether a value is a signalling NaN that is not poison. -/
def Fp.isSnan (x : Fp) : Bool := match x with | .nan s p => s && !p | _ => false

/-- The sum of two values, rounded once (04 R86 to R88). -/
def Fmt.addFp (f : Fmt) (mode : RMode) (a b : Fp) : Nat × Nat :=
  if a.isNan || b.isNan then f.nanOut [a, b] false
  else
    match a, b with
    | .inf n1, .inf n2 => if n1 = n2 then (f.signed n1 f.inf, 0) else f.nanOut [] true
    | .inf n, _ => (f.signed n f.inf, 0)
    | _, .inf n => (f.signed n f.inf, 0)
    | .fin n1 m1 q1, .fin n2 m2 q2 =>
      let t := exactAdd n1 m1 q1 n2 m2 q2
      if t.2.1 = 0 then (f.signed (zeroSumNeg mode n1 n2) 0, 0) else f.round mode t.1 t.2.1 t.2.2 false
    | _, _ => f.nanOut [] true

/-- The exact product of two values that are not NaN; none when it is 0 times infinity. -/
def mulFp (a b : Fp) : Option Fp :=
  match a, b with
  | .fin n1 m1 q1, .fin n2 m2 q2 => some (.fin (n1 != n2) (m1 * m2) (q1 + q2))
  | .inf n1, .fin n2 m2 _ => if m2 = 0 then none else some (.inf (n1 != n2))
  | .fin n1 m1 _, .inf n2 => if m1 = 0 then none else some (.inf (n1 != n2))
  | .inf n1, .inf n2 => some (.inf (n1 != n2))
  | x, _ => some x

/-- The product, rounded once. -/
def Fmt.mul (f : Fmt) (mode : RMode) (a b : Fp) : Nat × Nat :=
  if a.isNan || b.isNan then f.nanOut [a, b] false
  else
    match mulFp a b with
    | none => f.nanOut [] true
    | some (.inf n) => (f.signed n f.inf, 0)
    | some (.fin n m q) => f.round mode n m q false
    | some x => f.nanOut [x] false

/-- a * b + c rounded once (07 R169): a product 0 times infinity sets NV whatever c is. -/
def Fmt.fma (f : Fmt) (mode : RMode) (a b c : Fp) : Nat × Nat :=
  if a.isNan || b.isNan then f.nanOut [a, b, c] false
  else
    match mulFp a b with
    | none => f.nanOut [c] true
    | some p => f.addFp mode p c

/-- The order of two values that are not NaN, −0 below +0: whether `a` is below `b` (07 R170). -/
def Fp.below (a b : Fp) : Bool :=
  match a, b with
  | .inf n, .inf n' => n && !n'
  | .inf n, _ => n
  | _, .inf n => !n
  | .fin n1 m1 q1, .fin n2 m2 q2 =>
    let t := exactAdd n1 m1 q1 (!n2) m2 q2
    if t.2.1 = 0 then n1 && !n2 else t.1
  | _, _ => false

/-- Whether two values that are not NaN are equal as numbers. -/
def Fp.numEq (a b : Fp) : Bool :=
  match a, b with
  | .inf n, .inf n' => n == n'
  | .fin n1 m1 q1, .fin n2 m2 q2 => decide ((exactAdd n1 m1 q1 (!n2) m2 q2).2.1 = 0)
  | _, _ => false

/-- Whether `a` is less than `b` as numbers, neither being NaN. -/
def Fp.numLt (a b : Fp) : Bool := a.below b && !(a.numEq b)

/-- FMIN, or FMAX when `big`, on patterns (07 R170). -/
def Fmt.minMax (f : Fmt) (big : Bool) (xa xb : Nat) : Nat × Nat :=
  let a := f.unpack xa
  let b := f.unpack xb
  let fl := if a.isSnan || b.isSnan then 16 else 0
  if a.isPoison || b.isPoison then (f.poison, 0)
  else if a.isNan && b.isNan then (f.nan, fl)
  else if a.isNan then (xb, fl)
  else if b.isNan then (xa, fl)
  else if (if big then b.below a else a.below b) then (xa, fl) else (xb, fl)

/-- Whether a pattern is subnormal. -/
def Fmt.subnormal (f : Fmt) (x : Nat) : Bool :=
  let mag := x % f.signBit
  decide (mag ≠ 0) && decide (mag < 2 ^ f.fb)

/-- A source as the FTZ, magnitude and negate modifiers give it (07 R168). -/
def Fmt.source (f : Fmt) (ftz abs neg : Bool) (x : Nat) : Nat :=
  let x1 := if ftz && f.subnormal x then x / f.signBit * f.signBit else x
  let x2 := if abs then x1 % f.signBit else x1
  if neg then (if x2 < f.signBit then x2 + f.signBit else x2 - f.signBit) else x2

/-- A result as FTZ leaves it (07 R168). -/
def Fmt.finish (f : Fmt) (ftz : Bool) (r : Nat × Nat) : Nat × Nat :=
  if ftz && f.subnormal r.1 then (r.1 / f.signBit * f.signBit, r.2 ||| 3) else r

/-! ## Conversions (04 R95; 07 R176, R177) -/

/-- A value of one format rounded into another. -/
def Fmt.convert (dst : Fmt) (mode : RMode) (x : Fp) : Nat × Nat :=
  match x with
  | .nan _ _ => dst.nanOut [x] false
  | .inf n => (dst.signed n dst.inf, 0)
  | .fin n m q => dst.round mode n m q false

/-- A finite value rounded to an integer, and whether that changed it. -/
def toInt (mode : RMode) (neg : Bool) (m : Nat) (q : Int) : Int × Bool :=
  let r : Nat × Bool := if 0 ≤ q then (m * 2 ^ q.toNat, false) else roundShift mode neg m (-q).toNat
  (if neg then -(r.1 : Int) else (r.1 : Int), r.2)

/-- Conversion to an integer of `w` bits: the pattern, the flags, and whether the input was poison (04 Table 5). -/
def toIntN (mode : RMode) (w : Nat) (nat : Bool) (x : Fp) : Nat × Nat × Bool :=
  let lo : Int := if nat then 0 else -(2 : Int) ^ (w - 1)
  let hi : Int := if nat then (2 : Int) ^ w - 1 else (2 : Int) ^ (w - 1) - 1
  match x with
  | .nan _ p => if p then (0, 0, true) else (0, 16, false)
  | .inf n => (wrapInt (if n then lo else hi) w, 16, false)
  | .fin n m q =>
    if 200 < q ∧ m ≠ 0 then (wrapInt (if n then lo else hi) w, 16, false)
    else
      let r := toInt mode n m q
      if r.1 < lo then (wrapInt lo w, 16, false)
      else if r.1 > hi then (wrapInt hi w, 16, false)
      else (wrapInt r.1 w, if r.2 then 1 else 0, false)

/-- An integer rounded into a format. -/
def Fmt.ofInt (f : Fmt) (mode : RMode) (x : Int) : Nat × Nat := f.round mode (decide (x < 0)) x.natAbs 0 false

/-- A floating value rounded to an integral value of its own format (07 R177). -/
def Fmt.integral (f : Fmt) (mode : RMode) (bits : Nat) : Nat × Nat :=
  match f.unpack bits with
  | .fin n m q =>
    if 0 ≤ q then (bits, 0)
    else
      let r := toInt mode n m q
      (if r.1 = 0 then f.signed n 0 else (f.ofInt 0 r.1).1, if r.2 then 1 else 0)
  | .inf _ => (bits, 0)
  | x => f.nanOut [x] false

/-! ## Roots and transcendental functions (07 R173) -/

/-- 1 / x for a finite x that is not 0. -/
def Fmt.recip (f : Fmt) (mode : RMode) (neg : Bool) (m : Nat) (q : Int) : Nat × Nat :=
  let k := 2 * f.fb + 8 + Nat.log2 m
  let d := 2 ^ k / m
  f.round mode neg d (-(k : Int) - q) (decide (2 ^ k % m ≠ 0))

/-- The square root of a positive finite value. -/
def Fmt.sqrt (f : Fmt) (mode : RMode) (m : Nat) (q : Int) : Nat × Nat :=
  let odd := decide (q % 2 ≠ 0)
  let m1 := (if odd then 2 * m else m) * 2 ^ (2 * (f.fb + 8))
  let q1 := (if odd then q - 1 else q) - 2 * (f.fb + 8)
  let r := Nat.sqrt m1
  f.round mode false r (q1 / 2) (decide (r * r ≠ m1))

/-- 1 / sqrt x for a positive finite value: the square root of 2^k / m with its remainder. -/
def Fmt.rsqrt (f : Fmt) (m : Nat) (q : Int) : Nat × Nat :=
  let odd := decide (q % 2 ≠ 0)
  let m1 := if odd then 2 * m else m
  let q1 := if odd then q - 1 else q
  let k := 2 * (2 * f.fb + 16 + Nat.log2 m1)
  let d := 2 ^ k / m1
  let r := Nat.sqrt d
  f.round 0 false r (-((k / 2 : Nat) : Int) - q1 / 2) (!(decide (r * r = d) && decide (2 ^ k % m1 = 0)))

/-- Fraction bits of the fixed-point evaluation below. -/
def fxBits : Nat := 700

/-- pi * 2^700, rounded down. -/
def piFx : Nat := 0x3243F6A8885A308D313198A2E03707344A4093822299F31D0082EFA98EC4E6C89452821E638D01377BE5466CF34E90C6CC0AC29B7C97C50DD3F84D5B5B54709179216D5D98979FB1BD1310BA698DFB5AC2FFD72DBD01ADFB

/-- ln 2 * 2^700, rounded down. -/
def ln2Fx : Nat := 0xB17217F7D1CF79ABC9E3B39803F2F6AF40F343267298B62D8A0D175B8BAAFA2BE7B876206DEBAC98559552FB4AFA1B10ED2EAE35C138214427573B291169B8253E96CA16224AE8C51ACBDA11317C387EB9EA9BC3B136603

/-- The sum of y^k / k! for k from `k` on, `t` being the term before: all at 700 fraction bits. -/
def expTerms (y : Nat) : Nat → Nat → Nat → Nat
  | 0, _, _ => 0
  | fuel + 1, k, t =>
    let t1 := t * y / 2 ^ fxBits / k
    if t1 = 0 then 0 else t1 + expTerms y fuel (k + 1) t1

/-- e^y − 1 at 700 fraction bits, for y below 1. -/
def expm1Fx (y : Nat) : Nat := expTerms y 160 1 (2 ^ fxBits)

/-- The terms of the sine series after the first: t * y^2 / (k (k+1)), alternating. -/
def sinTerms (y2 : Nat) : Nat → Nat → Nat → Bool → Int
  | 0, _, _, _ => 0
  | fuel + 1, k, t, neg =>
    let t1 := t * y2 / 2 ^ fxBits / (k * (k + 1))
    if t1 = 0 then 0 else (if neg then -(t1 : Int) else (t1 : Int)) + sinTerms y2 fuel (k + 2) t1 (!neg)

/-- sin y at 700 fraction bits, for y from 0 to pi/2. -/
def sinFx (y : Nat) : Nat := ((y : Int) + sinTerms (y * y / 2 ^ fxBits) 120 2 y true).toNat

/-- The terms z^(k) / k of the series of atanh z for odd k. -/
def atanhTerms (z2 : Nat) : Nat → Nat → Nat → Nat
  | 0, _, _ => 0
  | fuel + 1, k, t => if t = 0 then 0 else t / k + atanhTerms z2 fuel (k + 2) (t * z2 / 2 ^ fxBits)

/-- ln (m / 2^700) for m / 2^700 from 1 to 2. -/
def lnFx (m : Nat) : Nat :=
  let z := (m - 2 ^ fxBits) * 2 ^ fxBits / (m + 2 ^ fxBits)
  2 * atanhTerms (z * z / 2 ^ fxBits) 240 1 z

/-- 2^x, rounded to nearest even. -/
def Fmt.exp2 (f : Fmt) (neg : Bool) (m : Nat) (q : Int) : Nat × Nat :=
  if (Nat.log2 m : Int) + q > 10 then
    if neg then f.round 0 false 1 (-4000) false else f.round 0 false 1 4000 false
  else
    let v : Nat := m * 2 ^ (q + fxBits).toNat
    let x : Int := if neg then -(v : Int) else (v : Int)
    let n := x / (2 : Int) ^ fxBits
    let r := (x % (2 : Int) ^ fxBits).toNat
    if r = 0 then f.round 0 false 1 n false
    else f.round 0 false (2 ^ fxBits + expm1Fx (r * ln2Fx / 2 ^ fxBits)) (n - fxBits) true

/-- log2 of a positive finite value, rounded to nearest even. -/
def Fmt.log2 (f : Fmt) (m : Nat) (q : Int) : Nat × Nat :=
  let l := Nat.log2 m
  let e : Int := (l : Int) + q
  if m = 2 ^ l then f.ofInt 0 e
  else
    let fr := lnFx (m * 2 ^ (fxBits - l)) * 2 ^ fxBits / ln2Fx
    let t : Int := e * (2 : Int) ^ fxBits + fr
    if t < 0 then f.round 0 true (t.natAbs - 1) (-(fxBits : Int)) true else f.round 0 false t.natAbs (-(fxBits : Int)) true

/-- The magnitude of sin (pi h / 2^700) for h / 2^700 from 0 to 1/2, rounded with a sign; h is not 0 and not 1/2. -/
def Fmt.sinHalf (f : Fmt) (neg : Bool) (h : Nat) : Nat × Nat :=
  f.round 0 neg (sinFx (h * piFx / 2 ^ fxBits)) (-(fxBits : Int)) true

/-- sin (pi x) for a finite x that is not 0, to nearest even (07 Table 3). -/
def Fmt.sinpi (f : Fmt) (neg : Bool) (m : Nat) (q : Int) : Nat × Nat :=
  if 0 ≤ q then (f.signed neg 0, 0)
  else
    let one := 2 ^ fxBits
    let v := m * 2 ^ (q + fxBits).toNat % (2 * one)
    let h := v % one
    if h = 0 then (f.signed neg 0, 0)
    else
      let sneg := neg != decide (v ≥ one)
      if 2 * h = one then f.round 0 sneg 1 0 false
      else f.sinHalf sneg (if 2 * h > one then one - h else h)

/-- cos (pi x) for a finite x, to nearest even (07 Table 3). -/
def Fmt.cospi (f : Fmt) (m : Nat) (q : Int) : Nat × Nat :=
  if m = 0 then f.round 0 false 1 0 false
  else
    let one := 2 ^ fxBits
    let v := if 1 ≤ q then 0 else m * 2 ^ (q + fxBits).toNat % (2 * one)
    let w := if v > one then 2 * one - v else v
    if w = 0 then f.round 0 false 1 0 false
    else if w = one then f.round 0 true 1 0 false
    else if 2 * w = one then (0, 0)
    else if 2 * w < one then f.sinHalf false (one / 2 - w) else f.sinHalf true (w - one / 2)

/-- tanh x for a finite x that is not 0, to nearest even. -/
def Fmt.tanh (f : Fmt) (neg : Bool) (m : Nat) (q : Int) : Nat × Nat :=
  let one := 2 ^ fxBits
  if (Nat.log2 m : Int) + q ≥ 5 then f.round 0 neg (2 ^ 64 - 1) (-64) true
  else
    let y := 2 * m * 2 ^ (q + fxBits).toNat
    let em1 : Nat :=
      if 2 * y < one then expm1Fx y
      else
        let n := y / ln2Fx
        2 ^ n * (one + expm1Fx (y - n * ln2Fx)) - one
    f.round 0 neg (em1 * one / (em1 + 2 * one)) (-(fxBits : Int)) true

/-- The transcendental functions by minor opcode (07 Table 3). -/
def Fmt.transcendental (f : Fmt) (fn : Nat) (mode : RMode) (x : Nat) : Nat × Nat :=
  match f.unpack x with
  | .nan s p => f.nanOut [.nan s p] false
  | .inf n =>
    match fn with
    | 0 => (f.signed n 0, 0)
    | 1 => if n then f.nanOut [] true else (0, 0)
    | 2 => if n then f.nanOut [] true else (f.inf, 0)
    | 3 => if n then (0, 0) else (f.inf, 0)
    | 4 => if n then f.nanOut [] true else (f.inf, 0)
    | 7 => f.round 0 n 1 0 false
    | _ => f.nanOut [] true
  | .fin n m q =>
    if m = 0 then
      match fn with
      | 0 => (f.signed n f.inf, 8)
      | 1 => (f.signed n f.inf, 8)
      | 3 => f.round 0 false 1 0 false
      | 4 => (f.signed true f.inf, 8)
      | 6 => f.round 0 false 1 0 false
      | _ => (f.signed n 0, 0)
    else
      match fn with
      | 0 => f.recip mode n m q
      | 1 => if n then f.nanOut [] true else f.rsqrt m q
      | 2 => if n then f.nanOut [] true else f.sqrt mode m q
      | 3 => f.exp2 n m q
      | 4 => if n then f.nanOut [] true else f.log2 m q
      | 5 => f.sinpi n m q
      | 6 => f.cospi m q
      | _ => f.tanh n m q

/-! ## Block formats (04 R90 to R96) -/

/-- An element of a BQn block: e the shared exponent, m the n-bit mantissa pattern (04 R90). -/
def bqValue (n e m : Nat) : Fp :=
  if e = 0xFF then .nan false (decide (m % 2 ^ n ≠ 0))
  else
    let v := sextNat m n
    .fin (decide (v < 0)) v.natAbs ((e : Int) - 127 - ((n : Int) - 1))

/-- E(x) of 04 R96: floor(log2 |x|), 127 for an infinity; none for zero. -/
def bqExp (x : Fp) : Option Int :=
  match x with
  | .inf _ => some 127
  | .fin _ m q => if m = 0 then none else some ((Nat.log2 m : Int) + q)
  | .nan _ _ => none

/-- The shared exponent of a block of values (04 R96). -/
def bqScale (xs : List Fp) : Nat :=
  if xs.any Fp.isNan then 0xFF
  else
    match xs.filterMap bqExp with
    | [] => 0
    | h :: t =>
      let emax := t.foldl max h
      (min (max (emax + 128) 0) 0xFE).toNat

/-- The mantissa of one element and its flags (04 R96). -/
def bqMant (n e : Nat) (x : Fp) : Int × Nat :=
  match x with
  | .inf neg => (if neg then -(2 : Int) ^ (n - 1) else (2 : Int) ^ (n - 1) - 1, 5)
  | .fin neg m q =>
    let r := toInt 0 neg m (q + ((n : Int) - 1) + 127 - e)
    let s := satS r.1 n
    (s, (if s ≠ r.1 then 5 else 0) ||| (if r.2 then 1 else 0))
  | .nan _ _ => (0, 0)

/-- A block of 32 values converted to BQn: e, the mantissas as integers, the flags (04 R96). -/
def bqPack (n : Nat) (xs : List Fp) : Nat × List Int × Nat :=
  if xs.any Fp.isPoison then (0xFF, xs.map (fun x => if x.isPoison then 1 else 0), 0)
  else if xs.any Fp.isNan then (0xFF, xs.map (fun _ => 0), if xs.any Fp.isSnan then 16 else 0)
  else
    let e := bqScale xs
    let ms := xs.map (bqMant n e)
    (e, ms.map Prod.fst, ms.foldl (fun t m => t ||| m.2) 0)

/-- Scale codes of a stream decoded from nibbles: (e, malformed) of each of `k` blocks (04 R91, R92). `prev` none at the
start of the stream. Missing nibbles read 0. -/
def bqScales : Nat → Option Nat → List Nat → List (Nat × Bool)
  | 0, _, _ => []
  | k + 1, prev, codes =>
    match codes with
    | 8 :: lo :: hi :: t => (lo + 16 * hi, false) :: bqScales k (some (lo + 16 * hi)) t
    | 8 :: t => (0, true) :: bqScales k (some 0xFF) (t.drop 2)
    | d :: t =>
      match prev with
      | none => (0xFF, true) :: bqScales k (some 0xFF) t
      | some p =>
        let e := (p : Int) + sextNat d 4
        if e < 0 ∨ 0xFF < e then (0xFF, true) :: bqScales k (some 0xFF) t
        else (e.toNat, false) :: bqScales k (some e.toNat) t
    | [] => (0xFF, true) :: bqScales k (some 0xFF) []

/-- The nibbles of bytes, the lower first (04 R91). -/
def nibbles (bs : List Byte) : List Nat := bs.flatMap (fun b => [b.toNat % 16, b.toNat / 16])

/-- The canonical scale codes of a stream (04 R93). -/
def bqCodes : Option Nat → List Nat → List Nat
  | _, [] => []
  | prev, e :: t =>
    match prev with
    | none => 8 :: e % 16 :: e / 16 :: bqCodes (some e) t
    | some p =>
      let d : Int := (e : Int) - p
      if -7 ≤ d ∧ d ≤ 7 then wrapInt d 4 :: bqCodes (some e) t
      else 8 :: e % 16 :: e / 16 :: bqCodes (some e) t

/-- Nibbles packed into bytes, a final odd one padded with 0. -/
def packNibbles : List Nat → List Byte
  | [] => []
  | [a] => [BitVec.ofNat 8 a]
  | a :: b :: t => BitVec.ofNat 8 (a + 16 * b) :: packNibbles t

/-- The 32 mantissa patterns of a block of 32n bits (04 R91). -/
def bqMants (n : Nat) (bytes : List Byte) : List Nat :=
  let v := ofBytes bytes
  (List.range 32).map (fun k => v / 2 ^ (k * n) % 2 ^ n)

/-- The field width of BQn in a register (04 R94). -/
def bqWidth (n : Nat) : Nat := if n ≤ 2 then 2 else if n ≤ 4 then 4 else 8

end Sys2Proof.Machine
end

