-- ==== Sys2Proof/Machine/State.lean ====
section
/-! DEFINITION. State: everything the specification gives the part, as plain data, and the state right after reset.
The fields agenda, cur, free and out are the model's own (logs 3, 4 and 9). -/

namespace Sys2Proof.Machine

/-- Why the machine stops. -/
inductive Fault where
  /-- Raised by every warp or grip instruction when no warp or grip is acting, which no step does. Safe. -/
  | noActor
  /-- Raised by step when a turn names a core, die, scheduler or grip that the package does not have. Safe. -/
  | noSuchUnit
  deriving DecidableEq, Repr

/-- Why an instruction has no meaning here. -/
inductive Refusal where
  /-- Raised by an arm of exec whose instruction has no meaning yet. Safe. -/
  | notModelled (mnemonic : String)
  deriving DecidableEq, Repr

/-- A byte memory: addresses strictly rising, and no listed byte equal to 0, which an unlisted address reads as (log 1). -/
abbrev Memory := List Host.Cell

/-- A synchronous trap: its cause (09 Table 14) and TVAL. -/
structure Trap where
  cause : Nat
  tval : DWord
  deriving DecidableEq, Repr

/-- An entry of the split stack (02 R36). -/
structure SplitEntry where
  pc : VAddr
  mask : Mask
  w : Bool
  deriving DecidableEq, Repr

/-- An operand-cache slot (05 R117). -/
structure CacheSlot where
  tag : Byte
  tagSet : Bool
  valid : Bool
  data : List Word
  deriving DecidableEq, Repr

/-- A latch of a scheduler (05 R112). -/
structure Latch where
  val : List DWord
  valid : Bool
  wide : Bool
  deriving DecidableEq, Repr

/-- One lane of a shared atomic (12 R294). -/
structure AtomLane where
  lane : Nat
  addr : Nat
  operand : Nat
  cmp : Nat
  deriving DecidableEq, Repr

/-- What an entry of a store queue does when it is performed (11 R270). -/
inductive SqBody where
  /-- a store: local addresses with their bytes, a later pair over an earlier one (12 R289) -/
  | store (bytes : List (Nat × Byte))
  /-- a shared atomic of `size` bytes; the load it answers, if any, or a grip's rd (11 R272; 12 R294, R295) -/
  | atomic (op size : Nat) (nat : Bool) (lns : List AtomLane) (load : Option Nat)
  /-- an arrival at a barrier (17 R418) -/
  | arrive (bar weight : Nat)
  /-- an LR, or with `store` an SC, of a grip at a local address, for register `rd` (11 R272; 14 R351) -/
  | resv (store : Bool) (size rd addr val : Nat)
  deriving DecidableEq, Repr

/-- A store-queue entry; `counted` marks the entries of counter `st` (17 R413). -/
structure SqEntry where
  seq : Nat
  counted : Bool
  body : SqBody
  deriving DecidableEq, Repr

/-- A lane of an outstanding load: its address, and what it read once it has been performed, with the mark of an
uncorrectable error (11 R270; 12 R290). -/
structure LaneLoad where
  lane : Nat
  ea : Nat
  got : Option (Nat × Bool)
  deriving DecidableEq, Repr

/-- What an entry among the outstanding loads is. -/
inductive LoadKind where
  | lds | ldsp (pd : Nat) | ldsf | ats | tags | tagc
  deriving DecidableEq, Repr

/-- An outstanding load (11 R270). `seq` is the store-queue position at its issue; `bad` the lowest lane address
that met an uncorrectable error (12 R290). -/
structure LoadOp where
  id : Nat
  kind : LoadKind
  helpers : Mask
  dst : Nat
  size : Nat
  sext : Bool
  seq : Nat
  lns : List LaneLoad
  bad : Option (Nat × Nat)
  deriving DecidableEq, Repr

/-- An outstanding tile or accumulator access (08 R206; 12 R302); ACLR is one access for each accumulator. -/
inductive TileKind where
  | tld | tst | ard | awr | aclr
  deriving DecidableEq, Repr

/-- A tile's storage as an operation captured it at its order point (12 R301, R303). `rstride` is in bytes. -/
structure TileRef where
  lvl : Bool
  fmt : Nat
  rows : Nat
  cols : Nat
  rstride : Nat
  base : Nat
  gen : Nat
  deriving DecidableEq, Repr

/-- One outstanding TLD, TST, ARD, AWR or ACLR. `handle` is the physical accumulator of the last three; `regs` holds the data
of TST and AWR, by register and lane; `seen` the words that a TLD has read, or a TST written, so far, by register and lane (11 R267,
R268). -/
structure TileOp where
  id : Nat
  kind : TileKind
  tile : TileRef
  handle : Nat
  row : Nat
  woff : Nat
  count : Nat
  dst : Nat
  mask : Mask
  helpers : Mask
  regs : List (List Word)
  ticket : Nat
  seen : Tab (Nat × Bool)
  deriving DecidableEq, Repr

/-- An instruction that a warp waits in: blocked under 02 R31 or waiting in place under R32. `start` is the cycle in which a
tag wait began (10 R262); `tag` holds whether LDSF or STSE needs full words, and their size; `lns` their lanes as read at
issue (12 R291); `flushes` how many flushes and retirements came before a TLBSYNC (16 R409). -/
structure Waiting where
  instr : Instr
  len : Nat
  start : Nat
  tag : Option (Bool × Nat)
  lns : List AtomLane
  flushes : Nat
  deriving DecidableEq, Repr

/-- What an interlock waits for (03 R75; 06 R141, R159): a vector register, a uniform register, a predicate, an edge mask, a cache slot, a
latch, or the words at a PC that has moved. -/
inductive RegName where
  | v (n : Nat)
  | s (n : Nat)
  | p (n : Nat)
  | m (n : Nat)
  | cache (n : Nat)
  | la
  | lb
  | pc
  deriving DecidableEq, Repr

/-- A resident warp (02 R24, R28; 05 R106; 09 R215). A vector register is live when `v` lists it. -/
structure Warp where
  gid : Nat
  widx : Nat
  ngran : Nat
  pc : VAddr
  runStart : VAddr
  runPos : Nat
  handler : Bool
  active : Mask
  idle : Mask
  exited : Mask
  split : List SplitEntry
  v : Tab (List Word)
  s : Tab DWord
  p : Tab Mask
  m : Tab (BitVec 128)
  iditem : Tab DWord
  cache : Tab CacheSlot
  ld : Nat
  st : Nat
  cp : Nat
  tl : Nat
  storeQ : List SqEntry
  sqSeq : Nat
  loads : List LoadOp
  loadId : Nat
  tiles : List TileOp
  tcause : Byte
  tpc : DWord
  tval : DWord
  trunpc : DWord
  tframe : BitVec 18
  splCount : BitVec 12
  splLimit : BitVec 12
  splBase : BitVec 18
  sslo : VAddr
  sshiW : Bool
  sshiMask : Mask
  waiting : Option Waiting
  pend : Option Trap
  preempt : Bool
  halted : Bool
  bpSkip : Bool
  /-- latches that the warp takes with it to its next run: restored by ERET, or kept while it blocks (05 R115) -/
  relatch : Option (Latch × Latch)
  since : Nat
  /-- the cycle from which the warp waits to issue its next instruction (02 R32, R34) -/
  issueFrom : Nat
  /-- results of fixed latency that are on their way, with the cycle that produces each (03 R74, R75; 06 R141) -/
  due : List (RegName × Nat)
  regPoison : List (Nat × Nat)
  tagPoison : List Nat
  deriving DecidableEq, Repr

/-- A named barrier (17 R418). -/
structure Barrier where
  phase : BitVec 16
  expected : Nat
  arrived : Nat
  deriving DecidableEq, Repr

/-- A timeline: VALUE, the next number, the status of each command above VALUE that has ended (17 R415), and P of the ended commands
with elements (13 R329). -/
structure Timeline where
  value : Nat
  next : Nat
  ended : Tab Nat
  counts : Tab Nat
  deriving DecidableEq, Repr

/-- A tile-table entry (16 R394). `rstride` is in 128-byte units. -/
structure TileEntry where
  gen : Nat
  name : Nat
  task : Bool
  banks : Nat
  base : Nat
  bound : Bool
  lvl : Bool
  fmt : Nat
  rows : Nat
  cols : Nat
  rstride : Nat
  deriving DecidableEq, Repr

/-- A kernel-table entry as its sixteen dwords (16 R400). -/
abbrev KernelEntry := List DWord

/-- A fence mark waiting for the group's next command (13 R334, R335): `acq`, `rel` and whether it is wide. -/
structure FenceMark where
  acq : Bool
  rel : Bool
  wide : Bool
  deriving DecidableEq, Repr

/-- A REDFLUSH in flight (13 R332). -/
structure Flush where
  tl : Nat
  seq : Nat
  pc : DWord
  wide : Bool
  cscope : Nat
  slot : Nat
  cid : Nat
  waits : List Nat
  failed : Option (Nat × DWord)
  deriving DecidableEq, Repr

/-- A placed group (02 R42 to R53). -/
structure Group where
  asid : Nat
  kid : Nat
  kernel : KernelEntry
  gridId : Nat
  taskIdx : Option Nat
  idgrid : Nat
  idgroup : Nat
  idclus : Nat
  nWarps : Nat
  nGroups : Nat
  nClusters : Nat
  basePrio : Nat
  deadchk : Bool
  args : List DWord
  scrBase : Nat
  scrSize : Nat
  accs : List Nat
  wunits : List Nat
  tileBase : Nat
  nTile : Nat
  nBar : Nat
  nTl : Nat
  tslice : Nat
  slice : Nat
  fpEn : BitVec 5
  fpFlags : BitVec 5
  clen : BitVec 2
  thresh : BitVec 16
  nfail : Nat
  fstat : Nat
  ftl : Nat
  fseq : Nat
  fatal : Bool
  asyncen : Bool
  err : Bool
  bars : Tab Barrier
  tls : Tab Timeline
  recs : Nat
  castOpen : Bool
  castQ : List DWord
  /-- how many of the last items of castQ were accepted in this cycle (14 R350) -/
  castNew : Nat
  /-- the peers whose stall hints lower the group past the end of a command, each with the slots of the waiting warps and the cycle in which
  each one's run ended (02 R47) -/
  low : List (Nat × List (Nat × Nat))
  flushes : List Flush
  drained : List Nat
  redFail : Option (Nat × DWord)
  mark : Option FenceMark
  marks : List (Nat × FenceMark)
  stopped : Bool
  restoring : Bool
  saving : Bool
  reported : Bool
  deriving DecidableEq, Repr

/-- A scheduler of a core (02 R32 to R35; 09 R226). `cur` is the warp whose run is issuing or issued last; `hit` marks that a breakpoint
hit its next instruction, `stepOne` that it issues one instruction, without a comparison, and freezes again (09 R241). -/
structure Scheduler where
  cur : Option Nat
  midRun : Bool
  runs : Nat
  yielded : Bool
  la : Latch
  lb : Latch
  frozen : Bool
  hit : Bool
  stepOne : Bool
  lposn : List (Nat × Nat)
  deriving DecidableEq, Repr

/-- An older value of a word of device memory, which an instruction fetch may still return (03 R73): its place among those
overwritten. -/
structure OldWord where
  asid : Nat
  word : Nat
  val : Word
  num : Nat
  deriving DecidableEq, Repr

/-- A line of the instruction cache: its address, ASID and 32-bit words (03 R73). -/
structure ILine where
  asid : Nat
  line : Nat
  words : List Word
  deriving DecidableEq, Repr

/-- An AMO as captured (13 R333). -/
structure AmoArgs where
  op : Nat
  size : Nat
  nat : Bool
  win : Bool
  tc : Nat
  addr : DWord
  operand : Nat
  cmp : Nat
  slot : Nat
  reg : Nat
  scope : Nat
  deriving DecidableEq, Repr

/-- What a command of the copy queue asks for: a slate (13 R308) or an AMO (13 R333). -/
inductive CmdWhat where
  | slate (regs : List DWord)
  | amo (a : AmoArgs)
  deriving DecidableEq, Repr

/-- A command accepted by the copy queue (13 R306). `cid` is its acceptance number on the core; `src` and `dst` tiles as captured at acceptance. -/
structure Cmd where
  cid : Nat
  gid : Nat
  asid : Nat
  tl : Nat
  seq : Nat
  pc : DWord
  poster : Nat
  eng : Nat
  wide : Bool
  what : CmdWhat
  src : Option TileRef
  dst : Option TileRef
  dstTaskRead : Bool
  deriving DecidableEq, Repr

/-- A unit that an engine has read and not yet written, as its destination takes it: its bytes, and which of them carry the mark of
an uncorrectable error (13 R312, R321). For a CAS, the compare value's bytes come before the new value's. -/
structure Elem where
  bytes : List Byte
  bad : List Nat
  deriving DecidableEq, Repr

/-- Where a command stands in its context (13 R321 to R325). -/
inductive CtxPhase where
  | running
  /-- in rehearsal: the page entries collected so far, and the next unit to look at -/
  | rehearsal (pages : List DWord) (next : Nat)
  /-- the batch waits for room in the fault queue -/
  | batchReady (pages : List DWord)
  /-- the batch has been placed and awaits a verdict -/
  | awaiting
  /-- failed with a status at unit `u` and an address of a space -/
  | failed (status : Nat) (u : Nat) (addr : DWord) (space : Nat)
  deriving DecidableEq, Repr

/-- An engine context (13 R305, R307). The `pre` first units are all written; `vals` have been read and not yet written; `wr` are
units beyond `pre` written. `poisonAt` is the lowest element that met an error, with its address and space. For window space, the
first `sent` units have gone out as packets, with `sentOff` bytes of the next, `sentOn` counts packets by stream, `flag` is 0, 1 (FLAG sent) or 2 (answered), and
`windows` holds the entries used (16 R403). `grants` requests have passed the network port, `asked` one more waits there; `result` is
the old value of an AMO; `parts` are what has been read of units that are not whole yet: unit, first byte, data. `idx` are the rows of
the index list that have been read, none where the entry met an error (13 R315); `done` the items of units that are only partly
written, by unit and number; `paid` the items, of reads or of writes, that a request which passed the port also carries; `olds` the old
values of atomic elements still to be returned (13 R317); `stop` the VA at which the command is suspended. -/
structure EngCtx where
  cmd : Option Cmd
  phase : CtxPhase
  pre : Nat
  vals : Tab Elem
  wr : List Nat
  poisonAt : Option (Nat × DWord × Nat)
  batch : Nat
  fseq : Option Nat
  sent : Nat
  sentOff : Nat
  sentOn : Tab Nat
  flag : Nat
  windows : Tab (Nat × Nat)
  grants : Nat
  asked : Bool
  result : Option Nat
  parts : List (Nat × Nat × Elem)
  idx : Tab (Option Int)
  done : List (Nat × Nat)
  paid : List (Bool × Nat × Nat)
  olds : Tab Nat
  stop : Nat
  deriving DecidableEq, Repr

/-- A RED contribution: a buffer entry, or what a drain has sent (13 R331). -/
structure RedEntry where
  slot : Nat
  gid : Nat
  asid : Nat
  va : DWord
  op : Nat
  size : Nat
  nat : Bool
  val : Nat
  deriving DecidableEq, Repr

/-- A contribution sent by a drain and not yet performed: its acceptance number on the core; the groups whose values it combines;
whether its port has sent it; whether it comes from the drain at a group's last EXIT. -/
structure Contribution where
  id : Nat
  gids : List Nat
  entry : RedEntry
  sent : Bool
  last : Bool
  deriving DecidableEq, Repr

/-- A write-through still to be performed or acknowledged (11 R276). `bad` marks poisoned data. -/
structure WThrough where
  core : Nat
  gid : Nat
  cid : Nat
  unit : Nat
  off : Nat
  bytes : List Byte
  bad : Bool
  deriving DecidableEq, Repr

/-- A matrix-queue entry (08 R190). -/
inductive MatWhat where
  /-- MMA2 to MMA8 and MMAW: nB, wide A, parameter block, row mask, column mask, tile, accumulator tickets -/
  | mma (nb : Nat) (aWide : Bool) (blk : List DWord) (rm cm : BitVec 128) (tile : TileRef) (tickets : List (Nat × Nat))
  | wbld (space : Bool) (src : Nat) (tile : Option TileRef) (dst len : Nat)
  | wbinv (off len : Nat)
  deriving DecidableEq, Repr

/-- A command of the matrix queue (08 R190, R205). -/
structure MatCmd where
  gid : Nat
  tl : Nat
  seq : Nat
  pc : DWord
  slot : Nat
  posted : Nat
  what : MatWhat
  deriving DecidableEq, Repr

/-- A scan-queue entry (08 R208, R213). -/
inductive ScanWhat where
  | scan (blk : List DWord) (rm cm : BitVec 128) (chunk : Nat) (tiles : List TileRef)
  | scanst (src dst : TileRef)
  deriving DecidableEq, Repr

/-- A command of the scan queue. -/
structure ScanCmd where
  gid : Nat
  tl : Nat
  seq : Nat
  pc : DWord
  slot : Nat
  posted : Nat
  /-- it writes through h0 to h7 of a task, and fails (14 R346) -/
  deny : Bool
  what : ScanWhat
  deriving DecidableEq, Repr

/-- The running matrix command: its step cycles left, or the lines of 64 bytes that a WBLD has left to copy; the cycle of the last of
them; the words of its source that it has read ahead of the others, with the mark of an uncorrectable error (08 R197, R204). A WBLD that
has read all holds the weight bytes by address, their poisoned units, its status, and the space and address that it failed at. -/
structure MatRun where
  steps : Nat
  last : Nat
  seen : Tab (Nat × Bool)
  weights : List (Nat × Byte)
  bad : List Nat
  status : Nat
  fail : Option (Nat × Nat)
  deriving DecidableEq, Repr

/-- An MMA past its last step, in cycle `last`: the accumulator words that it will write, and its status (08 R198, R199). -/
structure MatBack where
  cmd : MatCmd
  last : Nat
  writes : List (Nat × Nat)
  status : Nat
  deriving DecidableEq, Repr

/-- Where the running scan command stands: the state by 128 p + s, the steps done, its status; whether a chunk is on the array, since
when the next waits for it, and the chunk's step cycles left; the cycles that it has left on the scan lanes, and the cycle of its last
step, or of SCANST's last word; the input words read ahead of the others (08 R211); the words of HY and HS still to write, each with the
cycle from which it may be seen; and the words that SCANST has still to copy, as source and destination. -/
structure ScanRun where
  h : Tab Word
  t : Nat
  status : Nat
  onArray : Bool
  since : Nat
  steps : Nat
  lanes : Nat
  last : Nat
  seen : Tab (Nat × Bool)
  outs : List (Nat × Nat × Nat)
  moves : List (Nat × Nat)
  deriving DecidableEq, Repr

/-- A generation of a task name (14 R346, R347; 16 R396). -/
structure NameGen where
  name : Nat
  gen : Nat
  entry : TileEntry
  deriving DecidableEq, Repr

/-- A task in entry `entry` of the dependence table (16 R396): state 1 waiting, 2 placed, 3 retired with generations held. -/
structure Task where
  num : Nat
  entry : Nat
  state : Nat
  rcd : List DWord
  asid : Nat
  poster : Nat
  reads : List (Nat × Nat)
  writes : List (Nat × Nat)
  waits : List Nat
  kernel : KernelEntry
  gid : Nat
  prio : Nat
  waited : Nat
  deriving DecidableEq, Repr

/-- A task on its way to its target core (14 R345, R347). -/
structure TaskMsg where
  rcd : List DWord
  asid : Nat
  poster : Nat
  rank : Nat
  deriving DecidableEq, Repr

/-- A grip (14 R351 to R359). `run` 0 stopped, 1 running, 2 ended, 3 failed. `wtag` is the word that a tag access waits for, and
whether it needs it full; `wstart` the cycle in which the wait began; `struck` the grip address at which an atomic of its queue met an
uncorrectable error whose exception it has still to take (log 18). -/
structure Grip where
  gid : Option Nat
  run : Nat
  pc : DWord
  x : Tab DWord
  istore : Memory
  dstore : Memory
  mstatus : DWord
  mtvec : DWord
  mscratch : DWord
  mepc : DWord
  mcause : DWord
  mtval : DWord
  mcycle : DWord
  minstret : DWord
  storeQ : List SqEntry
  sqSeq : Nat
  resv : Option (Nat × Nat)
  wtag : Option (Nat × Bool)
  wstart : Nat
  poison : List Nat
  ipoison : List Nat
  fetchFault : Bool
  struck : Option Nat
  deriving DecidableEq, Repr

/-- A port that spends tokens (17 R422 to R424): eight buckets, the rotation, one more than the period of 1,024 cycles that it was
last refilled in, whether it has sent a request in this cycle, and waiting requests by class. A request
names its engine and context, or (2, id) for contribution id, or (3, ctx) for a collective context. -/
structure Port where
  buckets : List Nat
  rot : Nat
  epoch : Nat
  used : Bool
  waiting : List (Nat × Nat × Nat)
  deriving DecidableEq, Repr

/-- An event counter (17 R425): VALUE as the cycles before this one left it, SOURCE, the source that it counts in this cycle, and how
many of its events this cycle has had (R426, R427). -/
structure EvCtr where
  value : BitVec 48
  source : Byte
  counting : Byte
  now : Nat
  deriving DecidableEq, Repr

/-- A core (01 R13). -/
structure Core where
  warps : Tab Warp
  groups : Tab Group
  scheds : Tab Scheduler
  scratch : Memory
  full : List Nat
  scratchPoison : List Nat
  tileMem : Memory
  tilePoison : List Nat
  tileOwner : Tab Nat
  tileTable : Tab TileEntry
  weight : Memory
  loaded : List Nat
  weightPoison : List Nat
  acc : Memory
  accPoison : List Nat
  accOrder : Tab (List Nat)
  ticket : Nat
  icache : List ILine
  /-- the overwritten words that came before the last ICINV that covers the core (03 R73) -/
  icSeq : Nat
  taglim : BitVec 16
  swap : Bool
  budget : Nat
  budgetNext : Nat
  gafUsed : Nat
  gafWin : Nat
  arrayIdle : Bool
  gafstl : BitVec 48
  cycle : DWord
  cecnt : Nat
  uecnt : Nat
  errUnit : Byte
  mchk : Bool
  dbgAsid : BitVec 16
  dbgAsiden : Bool
  bpen : BitVec 4
  alls : Bool
  trapbp : Bool
  stepBit : Bool
  bpa : Tab VAddr
  copyQ : List Cmd
  ctxs : Tab EngCtx
  cid : Nat
  red : Tab (List RedEntry)
  contribs : List Contribution
  matQ : List MatCmd
  matRun : Option MatRun
  matBack : List MatBack
  scanQ : List ScanCmd
  scanRun : Option ScanRun
  lastArray : Bool
  tasks : List Task
  taskNum : Nat
  taskNames : Tab TileEntry
  gens : List NameGen
  grips : Tab Grip
  tagQ : List TagWaiter
  /-- the words whose tags an event of this cycle has changed (10 R261) -/
  tagged : List Nat
  evctrs : Tab EvCtr
  port : Port
  held : Bool
  collCount : Tab Nat
  /-- the units of the core that come before `order` have had their turns of this cycle (12 R303; 10 R261; log 46) -/
  order : Nat
  /-- the same for the tasks that the dependence table accepts in this cycle (14 R347) -/
  tskRank : Nat
  deriving DecidableEq, Repr

/-- A home line (10 R252; 16 R389). `poison` lists 64-bit units 0 to 15. -/
structure HomeLine where
  asid : Nat
  line : Nat
  sector : Nat
  w : Bool
  tv : Bool
  dirty : Bool
  data : List Byte
  poison : List Nat
  deriving DecidableEq, Repr

/-- A guest line (11 R276, R277). It is pinned while `wts` is not empty; `sent` marks the head as performed at home; `drop` names the
first flush that drops it once it is no longer pinned (16 R408, R409). -/
structure GuestLine where
  asid : Nat
  line : Nat
  gen : BitVec 16
  data : List Byte
  poison : List Nat
  wts : List WThrough
  sent : Bool
  drop : Option Nat
  deriving DecidableEq, Repr

/-- A context of a collective engine (15 R362, R363). `phase`: 0 posted, 1 begun, 2 matched, 3 its source read, 4 its destination
written; `src` the source as read; `status` the failure, at address `addr` of `space`. `told` counts the packets sent to each
peer device; `grants` requests have passed the port, `asked` one more waits there. Until they are whole, `reads` are the elements of the
source that have been read, `wrote` those of the destination that have been written; `paid` are the lines, of reads or of writes, whose
request has passed the port. -/
structure CollCtx where
  core : Nat
  gid : Nat
  asid : Nat
  cid : Nat
  tl : Nat
  seq : Nat
  pc : DWord
  slot : Nat
  blk : List DWord
  key : CollKey
  members : List (Nat × Nat)
  wide : Bool
  srcTile : Option TileRef
  dstTile : Option TileRef
  dstTaskRead : Bool
  phase : Nat
  src : Option Elem
  status : Nat
  addr : DWord
  space : Nat
  told : Tab Nat
  fseq : Option Nat
  grants : Nat
  asked : Bool
  reads : Tab Elem
  wrote : List Nat
  paid : List (Bool × Nat)
  deriving DecidableEq, Repr

/-- A partial that the gateway of die `src` sent to die `dst` for a collective among `members` (15 R369): the folded elements, in
the format of the fold. -/
structure Partial where
  key : CollKey
  members : List (Nat × Nat)
  src : Nat
  dst : Nat
  data : List Nat
  deriving DecidableEq, Repr

/-- A multicast packet in flight or in a gateway's buffer (15 R370): its branches still to be accepted, each a VA, and which bytes of
the data go there. -/
structure McPacket where
  src : Nat
  dst : Nat
  asid : Nat
  data : Elem
  vas : List (Nat × Nat × Nat)
  core : Nat
  gid : Nat
  cid : Nat
  unit : Nat
  buffered : Bool
  deriving DecidableEq, Repr

/-- An event or fault ring (18 R447). -/
structure Ring where
  base : DWord
  log2n : Nat
  head : BitVec 32
  tail : BitVec 32
  deriving DecidableEq, Repr

/-- A compute die. -/
structure Die where
  scrubh : Byte
  stagew : Nat
  guestw : Nat
  weights : List Nat
  home : List HomeLine
  guest : List GuestLine
  gen : BitVec 16
  staging : Memory
  stagePoison : List Nat
  stageOwner : Tab Nat
  eq : Ring
  fq : Ring
  evctrs : Tab EvCtr
  coll : Tab CollCtx
  collPort : Port
  partials : List Partial
  mcast : List McPacket
  deriving DecidableEq, Repr

/-- A translation cached in a TLB (16 R389): ASID, VA[51:16] (or VA[51:34] of a 16 GiB leaf) and the leaf. -/
structure TlbEntry where
  asid : Nat
  big : Bool
  vpn : Nat
  leaf : DWord
  deriving DecidableEq, Repr

/-- A pointer cached in a walk cache (16 R389), with the form of the tables that it comes from (R392). -/
structure WalkEntry where
  asid : Nat
  merged : Bool
  level : Nat
  prefixBits : Nat
  base : Nat
  deriving DecidableEq, Repr

/-- A stack's base die and HBM4 (10 R255; 16 R389; 18 R441). -/
structure Stack where
  tlb : List TlbEntry
  walk : List WalkEntry
  refresh2 : Bool
  halfBw : Bool
  deriving DecidableEq, Repr

/-- A call sheet that has been taken and waits for a slot of its die (14 R340): its record, index and VA, and its queue's priority then. -/
structure TakenSheet where
  node : List DWord
  idx : Nat
  va : Nat
  prio : Nat
  deriving DecidableEq, Repr

/-- A hardware launch queue (14 R339). -/
structure LaunchQueue where
  en : Bool
  owner : Bool
  prio : Nat
  log2n : Nat
  base : Nat
  tail : BitVec 32
  head : BitVec 32
  taken : BitVec 32
  blocked : Bool
  /-- the entry last taken, a call sheet that waits for a slot of its die (14 R340) -/
  sheet : Option TakenSheet
  deriving DecidableEq, Repr

/-- An entry of the ASID state table (16 R391): state 0 free, 1 live, 2 retiring; `ret` is 0, or from the
acceptance of its retirement to its next binding one more than the number of that among the flushes and retirements of the part (16
R409, R410). -/
structure AsidEntry where
  state : Nat
  merged : Bool
  root : Nat
  ctx : Nat
  ret : Nat
  deriving DecidableEq, Repr

/-- Where a grid record came from (14 R336). -/
inductive GridSrc where
  | ring (asid queue idx : Nat)
  | sheet (sheet node : Nat)
  deriving DecidableEq, Repr

/-- A grid in progress (14 R337, R340): `state` as STATUS.STATE; `resident` counts its placed groups; `gids` lists every
number that its groups were placed under; `told` marks that its last STATUS has been written. -/
structure Grid where
  src : GridSrc
  recVa : Nat
  doneVa : Nat
  asid : Nat
  kid : Nat
  kernel : KernelEntry
  nWarps : Nat
  nGroups : Nat
  nClusters : Nat
  dies : List Nat
  deadchk : Bool
  cast : Bool
  args : List DWord
  prio : Nat
  state : Nat
  reason : Nat
  placed : Nat
  resident : Nat
  halted : Nat
  nfg : Nat
  gids : List Nat
  told : Bool
  deriving DecidableEq, Repr

/-- A pending cluster (02 R44, R46): the next cluster of a grid for one die, or a group that waits for restore
(09 R239) with the link whose command asked, its slots and its save area. -/
structure Pending where
  gridId : Nat
  die : Nat
  next : Nat
  waited : Nat
  age : Nat
  restore : Option (Nat × Nat × List (Nat × Nat) × Nat × List Nat)
  deriving DecidableEq, Repr

/-- A halted group (09 R237). -/
structure Halted where
  gridId : Nat
  asid : Nat
  idgrid : Nat
  idgroup : Nat
  idclus : Nat
  cast : Bool
  asked : Bool
  deriving DecidableEq, Repr

/-- A call sheet being walked (14 R341): `nodes` as read, `rem` counts, `st` of each node (0 not started); `told` marks that its last
STATUS has been written. -/
structure Sheet where
  die : Nat
  asid : Nat
  queue : Nat
  idx : Nat
  recVa : Nat
  doneVa : Nat
  prio : Nat
  base : Nat
  nodes : List (List DWord)
  rem : List Nat
  st : List Nat
  bad : Bool
  failedNode : Bool
  told : Bool
  deriving DecidableEq, Repr

/-- A request packet (15 Table 6). -/
inductive Request where
  | write (p : Packet) | read (p : Packet) | atomic (p : Packet) | flag (p : Packet) | coll (p : CollPacket)
  deriving DecidableEq, Repr

/-- A packet kept in a retry buffer (15 R371, R375): its number, the context, command, first unit and number of units it belongs
to (engine 2: a context of the collective engine of the core's die), the first byte that it carries of those units, its kind (0 WRITE,
1 READ, 2 ATOMIC, 3 FLAG, 4 COLL), its flits, the uncore cycle in which it was first sent, and the request itself. The answer to a
`stale` READ is not used (13 R325). -/
structure OutPacket where
  q : BitVec 32
  core : Nat
  eng : Nat
  ctx : Nat
  cid : Nat
  unit : Nat
  count : Nat
  off : Nat
  kind : Nat
  flits : Nat
  born : Nat
  body : Request
  stale : Bool
  deriving DecidableEq, Repr

/-- An initiator stream (15 R375). `hintAt` and `ackAt` are the uncore cycles of the last hinted acknowledgement and of the last
acknowledgement, replay or first packet; `drawn` counts the numbers drawn since the last reset (15 R379). `owner` is the command (core,
engine, context, acceptance number) that has sent some of its packets and not yet all: its numbers are consecutive (log 15). -/
structure Stream where
  next : BitVec 32
  unacked : List OutPacket
  hint : Bool
  hintAt : Nat
  ackAt : Nat
  drawn : Nat
  owner : Option (Nat × Nat × Nat × Nat)
  deriving DecidableEq, Repr

/-- A result in an atomic result cache (15 R375). -/
inductive CacheResult where
  | old (v : DWord) | poison
  deriving DecidableEq, Repr

/-- A target stream (15 R375, R376, R379); `performed` counts the numbers performed since its last reset;
with `fresh` the next packet to come sets NEXT. -/
structure Target where
  fresh : Bool
  next : BitVec 32
  performed : Nat
  held : List Request
  cache : Tab (BitVec 32 × CacheResult)
  deriving DecidableEq, Repr

/-- A route-table entry (16 R404); with both routes failed, `alt` marks that the second was tried last and `tried` the uncore cycle
of that try (15 R377). -/
structure Route where
  primary : Nat
  second : Nat
  pf : Bool
  sf : Bool
  alt : Bool
  tried : Nat
  deriving DecidableEq, Repr

/-- The command registers of a link (18 R445). -/
structure Sideband where
  args : List DWord
  busy : Bool
  code : Nat
  status : Nat
  /-- what the running command still waits for: groups to halt as (core, gid), and the flushes up to its own (16 R409) -/
  waits : List (Nat × Nat)
  flushes : Nat
  deriving DecidableEq, Repr

/-- An island's operating points (18 R431, R441), and how far its clock is into its next cycle, in sixty-sixths of that cycle at P0. -/
structure Island where
  req : Nat
  limit : Nat
  phase : Nat
  deriving DecidableEq, Repr

/-- The states of the test access port's controller (18 R442; IEEE 1149.1, log 50). -/
inductive TapState where
  | testLogicReset | runTestIdle
  | selectDr | captureDr | shiftDr | exit1Dr | pauseDr | exit2Dr | updateDr
  | selectIr | captureIr | shiftIr | exit1Ir | pauseIr | exit2Ir | updateIr
  deriving DecidableEq, Repr

/-- The test access port (18 R442): its controller; the instruction, 0 EXTEST, 1 IDCODE, 2 SAMPLE/PRELOAD, 15 BYPASS; the shift stages of
the instruction register and of the data register in use, the bit next to leave first; the boundary register. -/
structure Tap where
  state : TapState
  irShift : List Bool
  dr : List Bool
  ir : BitVec 4
  boundary : List Bool
  driven : Bool
  deriving DecidableEq, Repr

/-- A response that waits for a credit of its port's class (15 R371): ACK of a source's stream, with its answers. -/
structure Reply where
  port : Nat
  tc : Nat
  src : Nat
  answers : List (BitVec 32 × AckKind)
  deriving DecidableEq, Repr

/-- The package. `dry` lists the ports and classes without request credits, `dryResp` those without response credits, and `owed` the
responses that wait for one (15 R371); `inbuf` tells how full the inbound buffer of a
port's class is: 1 above three quarters, 2 full (15 R382; 18 R436); `booting` is the outcome of the boot whose training has begun (18
R434); `compWait` are the companion processor's writes that are not acknowledged, each a link and a number (11 R281); `flushNum` counts
the flushes and retirements (16 R409). -/
structure Package where
  bootState : Nat
  boots : Byte
  idok : Bool
  bootBuf : List DWord
  coldHeld : Bool
  devid : BitVec 12
  ftimeout : BitVec 32
  islands : Tab Island
  sensors : Tab (BitVec 16)
  /-- since which uncore cycle a sensor has been 5 °C below the threshold of its highest action (18 R441) -/
  cool : Tab Nat
  tripped : Bool
  routes : Tab Route
  asids : Tab AsidEntry
  lqs : Tab LaunchQueue
  hbm : Memory
  hbmPoison : List Nat
  comp : Memory
  hstacks : Tab Stack
  links : Tab LinkState
  linksLost : Nat
  sb : Tab Sideband
  streams : Tab Stream
  targets : Tab Target
  seqs : Tab (BitVec 32)
  grids : Tab Grid
  nextGrid : Nat
  nextGid : Nat
  pending : List Pending
  pendNum : Nat
  halted : List Halted
  sheets : Tab Sheet
  nextSheet : Nat
  arriving : List (Nat × TaskMsg)
  peerColl : List CollPacket
  dry : List (Nat × Nat)
  dryResp : List (Nat × Nat)
  owed : List Reply
  inbuf : Tab Nat
  booting : Option BootOutcome
  compWait : List (Nat × Nat)
  flushNum : Nat
  frozen : Bool
  macRecord : List DWord
  svn : Word
  blobHash : List Byte
  recHash : List Byte
  oldWords : List OldWord
  oldNum : Nat
  tap : Tap
  deriving DecidableEq, Repr

/-- Who executes the instruction that exec is given (log 3). -/
inductive Actor where
  | none
  | warp (core slot : Nat)
  | grip (core g : Nat)
  deriving DecidableEq, Repr

/-- An event of the opcode table that the part brings about by itself, in a turn of the natural round. -/
inductive Own where
  | trapEntry (core slot : Nat)
  | storeQueuePerform (core slot : Nat)
  | loadLand (core slot idx : Nat) (which : Mask)
  | tileAccessLand (core slot idx : Nat)
  | waitcReturn (core slot : Nat)
  | tlwaitReturn (core slot : Nat)
  | bwaitReturn (core slot : Nat)
  | recastWake (core slot : Nat)
  | cpostAccept (core slot : Nat)
  | mmaAccept (core slot : Nat)
  | fenceDrained (core slot : Nat)
  | icinvDone (core slot : Nat)
  | sgwrDone (core slot : Nat)
  | tlbsyncDone (core slot : Nat)
  | tagWaitSatisfied (core : Nat) (who : TagWaiter)
  | tagwait (core : Nat) (who : TagWaiter)
  | gripStorePerform (core grip : Nat)
  | schedulerSelect (core sched : Nat)
  | copyDispatch (core engine ctx : Nat)
  | copyFaultSuspend (core engine ctx : Nat)
  | faultBatchPost (core engine ctx : Nat)
  | copyComplete (core engine ctx : Nat)
  | linkAbsenceTimeout (core engine ctx : Nat)
  | fabricTimeout (core engine ctx : Nat)
  | atomicElementPerform (who : AtomicRef)
  | gafferWindow (core : Nat)
  | tokenRefill (port : PortRef)
  | portSend (port : PortRef)
  | matrixUnitStart (core : Nat)
  | matrixCommandComplete (core : Nat)
  | wbldRun (core : Nat)
  | wbldComplete (core : Nat)
  | wbinvEffect (core : Nat)
  | scanStart (core : Nat)
  | scanComplete (core : Nat)
  | scanstComplete (core : Nat)
  | preemption (core gid : Nat)
  | timeSliceEnd (core gid : Nat)
  | groupHaltRelease (core gid : Nat)
  | groupRetirement (core gid : Nat)
  | taskArrival (core idx : Nat)
  | taskPlacement (core entry : Nat)
  | writeThroughAck (die asid line : Nat)
  | collectiveMatched (key : CollKey)
  | gatewayCombine (key : CollKey) (src dst : Nat)
  | collMemberComplete (die ctx : Nat)
  | multicastPacketArrival (src dst : Nat)
  | clusterPlacement (idx : Nat)
  | priorityAging (idx : Nat)
  | restorePlacement (idx core : Nat)
  | launchEntryTake (asid queue : Nat)
  | gridEnd (gridId : Nat)
  | asidFreed (asid : Nat)
  | stallHintExpiry (dev tc : Nat)
  | ackTimeout (dev tc : Nat)
  | routeRetry (dev : Nat)
  | sidebandCommandFinish (link : Nat)
  deriving DecidableEq, Repr

/-- What a turn does. `event` runs a row of the opcode table that is an event; the others have no row. -/
inductive Act where
  /-- a scheduler issues the next instruction of its current warp (02 R32) -/
  | issue (core sched : Nat)
  /-- the words of a warp's next instruction are fetched (02 R33; 03 R73) -/
  | fetch (core slot : Nat)
  /-- a grip executes its next instruction (14 R351) -/
  | grip (core g : Nat)
  | event (i : Instr)
  | own (e : Own)
  /-- an engine context reads, or writes, item `i` of unit `u` of its command (11 R267; 13 R321) -/
  | copyRead (core engine ctx u i : Nat)
  | copyWrite (core engine ctx u i : Nat)
  /-- a collective context reads element `e` of its member's source, or writes element `e` of its destination (11 R267; 15 R366) -/
  | collRead (die ctx e : Nat)
  | collWrite (die ctx e : Nat)
  /-- a flush that waited for a fence mark alone ends once the mark lets it (13 R332, R334) -/
  | flushEnd (core gid : Nat)
  /-- requests held at a target stream are tried again (11 R283; 15 R376) -/
  | serve (src tc : Nat)
  /-- the link partner of an Aupin port takes back, or gives, the request credits of a class (15 R371; log 26) -/
  | credit (port tc : Nat) (has : Bool)
  /-- the same for responses: a credit given sends the oldest response that waits for one (15 R371) -/
  | respCredit (port tc : Nat) (has : Bool)
  /-- the first number that an initiator uses on a stream after its reset (15 R379; log 26) -/
  | streamFirst (src tc : Nat) (q : BitVec 32)
  /-- a call sheet whose last STATUS has been performed ends (14 R340) -/
  | sheetEnd (id : Nat)
  /-- the inbound buffer of a port's class fills or empties (15 R382; 18 R436; log 26) -/
  | inbuf (port tc level : Nat)
  /-- the companion processor stores to its own memory (10 R247, R258) -/
  | compStore (addr : Nat) (bytes : List Byte)
  /-- firmware reads or writes HBM4 by physical address through the companion processor's link (16 R383, R393; 18 R436) -/
  | companionPhys (pa len : Nat) (data : Option (List Byte))
  /-- the companion processor's oldest write on a link is acknowledged (11 R281) -/
  | linkAck (link : Nat)
  /-- training ends, and boot goes on (18 R434) -/
  | bootFinish
  /-- one step of rehearsal (13 R323) -/
  | rehearse (core engine ctx : Nat)
  /-- the head write-through of a guest line reaches its home slice (11 R276) -/
  | throughHome (die asid line : Nat)
  /-- a branch accepts a buffered multicast packet (15 R370) -/
  | branch (src dst va : Nat)
  /-- a step of a running SCAN of the recurrent form (08 R211) -/
  | scanStep (core : Nat)
  /-- a running matrix or scan command reads word `w` of its source ahead of the others (08 R197, R204, R211) -/
  | unitRead (core : Nat) (scan : Bool) (w : Nat)
  /-- a TLD reads the word of register `r`, lane `l` ahead of the others (11 R267; 12 R302) -/
  | tileRead (core slot idx r l : Nat)
  /-- a running SCAN writes one word of HY or HS, or all that are due; a SCANST copies one word, or all (08 R211, R213) -/
  | scanWrite (core : Nat) (which : Option Nat)
  | scanMove (core : Nat) (which : Option Nat)
  /-- evictions that the specification allows at any time (10 R253; 16 R389; 03 R73) -/
  | evictHome (die asid line : Nat)
  | evictGuest (die asid line : Nat)
  | evictTlb (stack idx : Nat)
  | evictWalk (stack idx : Nat)
  | evictCode (core asid line : Nat)
  /-- the clock of an island off P0 takes another alignment to the uncore clock (18 R431; log 8) -/
  | slip (island n : Nat)
  /-- a sideband read (18 R440, R444) -/
  | sbRead (link : Nat) (addr : DWord)
  /-- an error that the next access to a unit meets, other than a scrub (10 R263) -/
  | unitError (u : StoreUnit) (found : ScrubFound)
  /-- one clock of the test access port: TMS and TDI, and what the pins carry (18 R442; log 50) -/
  | tck (tms tdi : Bool) (pins : List Bool)
  /-- firmware writes the wrap dump (09 R246) -/
  | wrapDump
  deriving DecidableEq, Repr

/-- A turn: how many uncore cycles pass before it, and what it does (log 8). -/
structure Turn where
  dt : Nat
  act : Act
  deriving DecidableEq, Repr

/-- What the part last sent out to a peer or the companion processor: ACK(n) with answers to numbered packets, or data read; the
requests that it put on its Aupin ports in the last turn (15 R371); the HINT bit of ACK (15 R382); and the companion processor's
writes that it acknowledged, by number (11 R281). -/
structure Out where
  acked : Option (BitVec 32)
  answers : List (BitVec 32 × AckKind)
  data : List Byte
  refused : Bool
  sent : List (Nat × Request)
  hint : Bool
  acks : List Nat
  deriving DecidableEq, Repr

/-- The state of the part. `ucycle` is UCYCLE, which every die reads (18 R432); the units of the cores that come before `order` have had
their turns of this uncore cycle (17 R426; 18 R440; log 46). -/
structure State where
  agenda : List Turn
  cur : Actor
  free : Nat
  out : Out
  ucycle : DWord
  order : Nat
  pkg : Package
  dies : Tab Die
  cores : Tab Core
  deriving DecidableEq, Repr

/-! ## Reset -/

/-- A clear latch (05 R112). -/
def Latch.clear : Latch := { val := [], valid := false, wide := false }

/-- A scheduler at reset: no warp, latches invalid. -/
def Scheduler.reset : Scheduler :=
  { cur := none, midRun := false, runs := 0, yielded := false, la := Latch.clear, lb := Latch.clear, frozen := false, hit := false,
    stepOne := false, lposn := [] }

/-- An engine context at reset: free. -/
def EngCtx.reset : EngCtx :=
  { cmd := none, phase := .running, pre := 0, vals := [], wr := [], poisonAt := none, batch := 0, fseq := none, sent := 0, sentOff := 0,
    sentOn := [], flag := 0, windows := [], grants := 0, asked := false, result := none, parts := [], idx := [], done := [], paid := [], olds := [], stop := 0 }

/-- A grip at reset: attached to no group. -/
def Grip.reset : Grip :=
  { gid := none, run := 0, pc := 0, x := [], istore := [], dstore := [], mstatus := 0x1800#64, mtvec := 0, mscratch := 0,
    mepc := 0, mcause := 0, mtval := 0, mcycle := 0, minstret := 0, storeQ := [], sqSeq := 0, resv := none, wtag := none,
    wstart := 0, poison := [], ipoison := [], fetchFault := false, struck := none }

/-- A port at reset: empty buckets, nothing waiting. -/
def Port.reset : Port := { buckets := [0, 0, 0, 0, 0, 0, 0, 0], rot := 0, epoch := 0, used := false, waiting := [] }

/-- An event counter at reset (17 R425). -/
def EvCtr.reset : EvCtr := { value := 0, source := 0, counting := 0, now := 0 }

/-- A core at reset (09 R222, R223, R226). -/
def Core.reset : Core :=
  { warps := [], groups := [], scheds := [], scratch := [], full := [], scratchPoison := [], tileMem := [], tilePoison := [],
    tileOwner := [], tileTable := [], weight := [], loaded := [], weightPoison := [], acc := [], accPoison := [],
    accOrder := [], ticket := 0, icache := [], icSeq := 0, taglim := 0x0100, swap := false, budget := 0x80, budgetNext := 0x80,
    gafUsed := 0, gafWin := 0, arrayIdle := true, gafstl := 0, cycle := 0, cecnt := 0, uecnt := 0, errUnit := 0, mchk := false, dbgAsid := 0,
    dbgAsiden := false, bpen := 0, alls := false, trapbp := false, stepBit := false, bpa := [], copyQ := [], ctxs := [],
    cid := 0, red := [], contribs := [], matQ := [], matRun := none, matBack := [], scanQ := [], scanRun := none,
    lastArray := false, tasks := [], taskNum := 0, taskNames := [], gens := [], grips := [], tagQ := [], tagged := [], evctrs := [],
    port := Port.reset, held := false, collCount := [], order := 0, tskRank := 0 }

/-- A core that nothing has touched since reset: its CYCLE has advanced with the uncore clock, as its island has stayed at P0 (18 R432). -/
def Core.idle (u : DWord) : Core := { Core.reset with cycle := u }

/-- A ring at reset (18 R444); BASE, HEAD and TAIL are DESIGN CHOICE 0 (log 2). -/
def Ring.reset : Ring := { base := 0, log2n := 0, head := 0, tail := 0 }

/-- A die at reset (10 R253; 16 R405). G is DESIGN CHOICE 0 (log 2). -/
def Die.reset : Die :=
  { scrubh := 0x18, stagew := 0, guestw := 4, weights := [0x20, 0x20, 0x20, 0x20, 0x20, 0x20, 0x20, 0x20], home := [],
    guest := [], gen := 0, staging := [], stagePoison := [], stageOwner := [], eq := Ring.reset, fq := Ring.reset,
    evctrs := [], coll := [], collPort := Port.reset, partials := [], mcast := [] }

/-- A stack at reset. -/
def Stack.reset : Stack := { tlb := [], walk := [], refresh2 := false, halfBw := false }

/-- A launch queue at reset (14 Table 4). -/
def LaunchQueue.reset : LaunchQueue :=
  { en := false, owner := false, prio := 0, log2n := 4, base := 0, tail := 0, head := 0, taken := 0, blocked := false, sheet := none }

/-- An ASID entry at reset: free (16 R391). -/
def AsidEntry.reset : AsidEntry := { state := 0, merged := false, root := 0, ctx := 0, ret := 0 }

/-- A route at reset (16 Table 13). -/
def Route.reset : Route := { primary := 0x1F, second := 0x1F, pf := false, sf := false, alt := false, tried := 0 }

/-- A link's command registers at reset (18 Table 11); SBARG is DESIGN CHOICE 0 (log 2). -/
def Sideband.reset : Sideband := { args := [0, 0, 0, 0, 0, 0, 0, 0], busy := false, code := 0, status := 0, waits := [], flushes := 0 }

/-- An initiator stream at reset; its counter is DESIGN CHOICE 0 (log 2). -/
def Stream.reset : Stream := { next := 0, unacked := [], hint := false, hintAt := 0, ackAt := 0, drawn := 0, owner := none }

/-- A target stream at reset; NEXT is DESIGN CHOICE 0 (log 2). -/
def Target.reset : Target := { fresh := false, next := 0, performed := 0, held := [], cache := [] }

/-- An island at reset (18 Table 2): P0, no limit. -/
def Island.reset : Island := { req := 0, limit := 0, phase := 0 }

/-- The TAP at reset: DESIGN CHOICE IDCODE and an empty boundary register (log 2). -/
def Tap.reset : Tap := { state := .testLogicReset, irShift := [], dr := [], ir := 1, boundary := [], driven := false }

/-- The package at reset (18 R432, R434, R444). -/
def Package.reset : Package :=
  { bootState := 0, boots := 0, idok := false, bootBuf := [], coldHeld := false, devid := 0xFFF, ftimeout := 1000000,
    islands := [], sensors := [], cool := [], tripped := false, routes := [], asids := [], lqs := [], hbm := [], hbmPoison := [],
    comp := [], hstacks := [], links := [], linksLost := 0, sb := [], streams := [], targets := [], seqs := [], grids := [], nextGrid := 0,
    nextGid := 0, pending := [], pendNum := 0, halted := [], sheets := [], nextSheet := 0, arriving := [], peerColl := [], dry := [], dryResp := [], owed := [], inbuf := [], booting := none, compWait := [], flushNum := 0,
    frozen := false, macRecord := [], svn := 0, blobHash := [], recHash := [],
    oldWords := [], oldNum := 1, tap := Tap.reset }

/-- Nothing sent out yet. -/
def Out.reset : Out := { acked := none, answers := [], data := [], refused := false, sent := [], hint := false, acks := [] }

/-- The machine right after reset. A table that lists no entry holds the reset entry. -/
def State.reset : State :=
  { agenda := [], cur := .none, free := 0, out := Out.reset, ucycle := 0, order := 0, pkg := Package.reset, dies := [], cores := [] }

end Sys2Proof.Machine
end

