-- ==== Sys2Proof/Machine/Ops.lean ====
section
/-! DEFINITION. The named operations over the state: memory, cores, groups and warps, local addresses, the store queue,
events, failures, MACHINE errors, taking a trap and returning from one. -/

namespace Sys2Proof.Machine

/-! ## Byte memory -/

namespace Memory

/-- The byte at an address; an unlisted one reads 0 (log 1). -/
def read : Memory → Nat → Byte
  | [], _ => 0
  | (a, b) :: t, k => if a = k then b else read t k

/-- One byte written, in canonical form. -/
def write : Memory → Nat → Byte → Memory
  | [], k, v => if v = 0 then [] else [(k, v)]
  | (a, b) :: t, k, v =>
    if k < a then (if v = 0 then (a, b) :: t else (k, v) :: (a, b) :: t)
    else if a = k then (if v = 0 then t else (k, v) :: t)
    else (a, b) :: write t k v

/-- `n` bytes from an address. -/
def readN (m : Memory) (a n : Nat) : List Byte := (List.range n).map (fun i => read m (a + i))

/-- The little-endian value of `n` bytes. -/
def readV (m : Memory) (a n : Nat) : Nat := ofBytes (readN m a n)

/-- Bytes written from an address upward. -/
def writeN : Memory → Nat → List Byte → Memory
  | m, _, [] => m
  | m, a, b :: t => writeN (write m a b) (a + 1) t

/-- A value written as `n` bytes. -/
def writeV (m : Memory) (a n v : Nat) : Memory := writeN m a (toBytes v n)

/-- Every byte of [a, a + n) becomes 0. -/
def clear (m : Memory) (a n : Nat) : Memory := m.filter (fun p => decide (p.1 < a) || decide (a + n ≤ p.1))

/-- Every listed address of `m` is at least `lo`, addresses rise, and no listed byte is 0. -/
def wfFrom : Nat → Memory → Bool
  | _, [] => true
  | lo, (a, b) :: t => decide (lo ≤ a) && decide (b ≠ 0) && wfFrom (a + 1) t

/-- The canonical form. -/
def wf (m : Memory) : Bool := wfFrom 0 m

end Memory

/-! ## Parts of the state -/

/-- Core `c`. -/
def State.core (s : State) (c : Nat) : Core := Tab.getD s.cores c (Core.idle s.ucycle)
/-- The state with core `c` replaced. -/
def State.setCore (s : State) (c : Nat) (k : Core) : State := { s with cores := Tab.set s.cores c k }
/-- The state with core `c` changed. -/
def State.modCore (s : State) (c : Nat) (f : Core → Core) : State := s.setCore c (f (s.core c))
/-- Die `d`. -/
def State.die (s : State) (d : Nat) : Die := Tab.getD s.dies d Die.reset
/-- The state with die `d` replaced. -/
def State.setDie (s : State) (d : Nat) (k : Die) : State := { s with dies := Tab.set s.dies d k }
/-- The state with die `d` changed. -/
def State.modDie (s : State) (d : Nat) (f : Die → Die) : State := s.setDie d (f (s.die d))
/-- The state with the package changed. -/
def State.modPkg (s : State) (f : Package → Package) : State := { s with pkg := f s.pkg }
/-- The warp in slot `w` of core `c`. -/
def State.warp? (s : State) (c w : Nat) : Option Warp := Tab.get? (s.core c).warps w
/-- The state with the warp in slot `w` of core `c` replaced. -/
def State.setWarp (s : State) (c w : Nat) (x : Warp) : State :=
  s.modCore c (fun k => { k with warps := Tab.set k.warps w x })
/-- The state with that warp changed, if there is one. -/
def State.modWarp (s : State) (c w : Nat) (f : Warp → Warp) : State :=
  match s.warp? c w with
  | none => s
  | some x => s.setWarp c w (f x)
/-- Group `g` of core `c`. -/
def State.group? (s : State) (c g : Nat) : Option Group := Tab.get? (s.core c).groups g
/-- The state with group `g` of core `c` replaced. -/
def State.setGroup (s : State) (c g : Nat) (x : Group) : State :=
  s.modCore c (fun k => { k with groups := Tab.set k.groups g x })
/-- The state with that group changed, if it is there. -/
def State.modGroup (s : State) (c g : Nat) (f : Group → Group) : State :=
  match s.group? c g with
  | none => s
  | some x => s.setGroup c g (f x)
/-- Scheduler `k` of a core. -/
def Core.sched (k : Core) (i : Nat) : Scheduler := Tab.getD k.scheds i Scheduler.reset
/-- A core with scheduler `i` replaced. -/
def Core.setSched (k : Core) (i : Nat) (x : Scheduler) : Core := { k with scheds := Tab.set k.scheds i x }
/-- The state with scheduler `i` of core `c` changed. -/
def State.modSched (s : State) (c i : Nat) (f : Scheduler → Scheduler) : State :=
  s.modCore c (fun k => k.setSched i (f (k.sched i)))
/-- Grip `g` of a core: 0 the loader, 1 the storer. -/
def Core.grip (k : Core) (g : Nat) : Grip := Tab.getD k.grips g Grip.reset
/-- The state with grip `g` of core `c` changed. -/
def State.modGrip (s : State) (c g : Nat) (f : Grip → Grip) : State :=
  s.modCore c (fun k => { k with grips := Tab.set k.grips g (f (k.grip g)) })
/-- Context `x` of engine `e` of a core. -/
def Core.ctx (k : Core) (e x : Nat) : EngCtx := Tab.getD k.ctxs (8 * e + x) EngCtx.reset
/-- The state with that context changed. -/
def State.modCtx (s : State) (c e x : Nat) (f : EngCtx → EngCtx) : State :=
  s.modCore c (fun k => { k with ctxs := Tab.set k.ctxs (8 * e + x) (f (k.ctx e x)) })
/-- The die of a core (01 R11). -/
def dieOf (c : Nat) : Nat := c / Config.coresPerDie
/-- The scheduler of a warp ID (02 Table 2). -/
def schedOf (slot : Nat) : Nat := slot / 16
/-- Stack `k`. -/
def State.stack (s : State) (k : Nat) : Stack := Tab.getD s.pkg.hstacks k Stack.reset
/-- The state with stack `k` changed. -/
def State.modStack (s : State) (k : Nat) (f : Stack → Stack) : State :=
  s.modPkg (fun p => { p with hstacks := Tab.set p.hstacks k (f (Tab.getD p.hstacks k Stack.reset)) })

/-! ## Kernel-table entries (16 R400) -/

/-- Dword `i` of a kernel-table entry. -/
def KernelEntry.dword (e : KernelEntry) (i : Nat) : Nat := (e.getD i 0).toNat
/-- KHDR bits [hi:lo]. -/
def KernelEntry.hdr (e : KernelEntry) (hi lo : Nat) : Nat := bitsOf (e.dword 0) hi lo
/-- The VA of the first code byte. -/
def KernelEntry.codeVa (e : KernelEntry) : Nat := bitsOf (e.dword 1) 51 0
/-- The byte offset of the first instruction. -/
def KernelEntry.entry (e : KernelEntry) : Nat := bitsOf (e.dword 2) 63 32
/-- The length of the registered code in bytes. -/
def KernelEntry.codeLen (e : KernelEntry) : Nat := bitsOf (e.dword 2) 31 0
/-- The local address of the trap frames. -/
def KernelEntry.fbase (e : KernelEntry) : Nat := bitsOf (e.dword 3) 17 0
/-- The PA of the trap vector table. -/
def KernelEntry.vectors (e : KernelEntry) : Nat := bitsOf (e.dword 4) 51 9 * 512
/-- KHDR.SYS. -/
def KernelEntry.sys (e : KernelEntry) : Bool := e.hdr 61 61 == 1
/-- KHDR.PRE. -/
def KernelEntry.pre (e : KernelEntry) : Bool := e.hdr 62 62 == 1
/-- KHDR.GRIPS. -/
def KernelEntry.gripsOn (e : KernelEntry) : Bool := e.hdr 60 60 == 1
/-- SPLLIM. -/
def KernelEntry.spllim (e : KernelEntry) : Nat := bitsOf (e.dword 8) 43 32
/-- SPLBASE. -/
def KernelEntry.splbase (e : KernelEntry) : Nat := bitsOf (e.dword 8) 17 0

/-! ## Counters of events and of errors -/

/-- An event counter after `n` events of source `code` in this cycle (17 R425). -/
def EvCtr.bump (x : EvCtr) (code n : Nat) : EvCtr :=
  if x.counting.toNat = code ∧ code ≠ 0 then { x with now := x.now + n } else x

/-- An event counter at the end of a cycle: VALUE takes the cycle's events, and the next cycle counts SOURCE (17 R425 to R427). -/
def EvCtr.roll (x : EvCtr) : EvCtr := { x with value := x.value + BitVec.ofNat 48 x.now, counting := x.source, now := 0 }

/-- `n` events of source `code` on a core (17 R428). -/
def Core.count (k : Core) (code n : Nat) : Core := { k with evctrs := Tab.mapVal k.evctrs (fun _ x => x.bump code n) }

/-- `n` events of source `code` on core `c` (17 R428). -/
def State.countCore (s : State) (c code n : Nat) : State := s.modCore c (fun k => k.count code n)

/-- `n` events of source `code` on die `d` (17 R428). -/
def State.countDie (s : State) (d code n : Nat) : State :=
  s.modDie d (fun k => { k with evctrs := Tab.mapVal k.evctrs (fun _ x => x.bump code n) })

/-- An error corrected in a core's memories (09 R223; 10 R263). -/
def State.corrected (s : State) (c : Nat) : State :=
  (s.modCore c (fun k => { k with cecnt := min 0xFFFF (k.cecnt + 1) })).countCore c 0x20 1

/-- An uncorrectable error in unit `u` of a core (09 R223). -/
def Core.uncorrectable (k : Core) (u : Nat) : Core := { k with uecnt := min 0xFF (k.uecnt + 1), errUnit := BitVec.ofNat 8 u }.count 0x21 1

/-- An uncorrectable error in unit `u` of core `c`. -/
def State.uncorrectable (s : State) (c u : Nat) : State := s.modCore c (fun k => k.uncorrectable u)

/-! ## HBM4 by physical address, and the rings -/

/-- Bytes written to HBM4: a sector that they cover whole loses its poison (10 R264). -/
def State.writePhys (s : State) (pa : Nat) (bs : List Byte) : State :=
  s.modPkg (fun p => { p with
    hbm := Memory.writeN p.hbm pa bs
    hbmPoison := p.hbmPoison.filter (fun t => !(decide (pa ≤ 32 * t) && decide (32 * t + 32 ≤ pa + bs.length))) })

/-- Whether [pa, pa + n) touches a poisoned sector. -/
def State.physPoison (s : State) (pa n : Nat) : Bool :=
  s.pkg.hbmPoison.any (fun t => decide (32 * t < pa + n) && decide (pa < 32 * t + 32))

/-- A value of `n` bytes in HBM4. -/
def State.readPhys (s : State) (pa n : Nat) : Nat := Memory.readV s.pkg.hbm pa n

/-- Whether PA[51:39] is 0 and the offset lies within its stack (10 R255); the reserved 1 GiB of S0 is refused to page
tables (R436). -/
def paOk (pa : Nat) : Bool :=
  decide (pa < 2 ^ 39) && decide (pa % 2 ^ 36 < 0xC00000000) && !(decide (0xBC0000000 ≤ pa) && decide (pa < 0xC00000000))

/-- Whether a ring has room for one more (18 R447). -/
def Ring.hasRoom (r : Ring) : Bool := decide (r.log2n ≠ 0) && decide ((r.tail - r.head).toNat < 2 ^ r.log2n)

/-- An event record (09 R244, R245): the source's SEQ advances; a record that finds no room is dropped and counted. -/
def State.event (s : State) (die source kind asid coreId idgrid d0 d1 : Nat) : State :=
  let sq := (Tab.getD s.pkg.seqs source 0#32)
  let s1 := s.modPkg (fun p => { p with seqs := Tab.set p.seqs source (sq + 1) })
  let r := (s1.die die).eq
  if r.hasRoom then
    let pa := r.base.toNat / 32 * 32 + 32 * (r.tail.toNat % 2 ^ r.log2n)
    let w0 := kind * 2 ^ 56 + source * 2 ^ 44 + sq.toNat
    let w1 := asid * 2 ^ 48 + coreId * 2 ^ 40 + idgrid
    let s2 := s1.writePhys pa (toBytes w0 8 ++ toBytes w1 8 ++ toBytes d0 8 ++ toBytes d1 8)
    s2.modDie die (fun d => { d with eq := { d.eq with tail := d.eq.tail + 1 } })
  else s1.countDie die 0x4F 1

/-- The source number of a die unit (09 R244). -/
def dieSource (d u : Nat) : Nat := 0x100 + 0x40 * d + u

/-! ## Local addresses (10 R248, R249; 05 R126, R127) -/

/-- What a local address names. -/
inductive Local where
  | scratch (phys : Nat)
  | window (slot reg lane byte : Nat)
  deriving DecidableEq, Repr

/-- The place of one local byte of a group, if it lies in its scratchpad or in the window. -/
def localPlace (g : Group) (a : Nat) : Option Local :=
  if a < g.scrSize then some (.scratch (g.scrBase + a))
  else if 0x1000000 ≤ a ∧ a < 0x1200000 then
    some (.window (bitsOf a 20 15) (bitsOf a 14 7) (bitsOf a 6 2) (bitsOf a 1 0))
  else none

/-- Whether an access of `n` bytes at local address `a` is allowed; `win` whether it may use the window. -/
def localOk (k : Core) (gid : Nat) (g : Group) (a n : Nat) (win : Bool) : Bool :=
  decide (a % n = 0) &&
  (decide (a + n ≤ g.scrSize) ||
   (win && decide (0x1000000 ≤ a) && decide (a + n ≤ 0x1200000) &&
    (match Tab.get? k.warps (bitsOf a 20 15) with
     | none => false
     | some w => decide (w.gid = gid) && decide (bitsOf a 14 7 < 8 * w.ngran))))

/-- The zero register value, 32 lanes of 0. -/
def zeroLanes : List Word := lanes.map (fun _ => 0#32)

/-- A register as an instruction or the window reads it: 0 in every lane when it is not live (05 R123). -/
def Warp.reg (w : Warp) (n : Nat) : List Word := Tab.getD w.v n zeroLanes

/-- Whether a register is live (05 R123). -/
def Warp.live (w : Warp) (n : Nat) : Bool := (Tab.get? w.v n).isSome

/-- Data-valid cleared in every slot that mirrors register `n` (05 R118). -/
def Warp.dropCache (w : Warp) (n : Nat) : Warp :=
  { w with cache := Tab.mapVal w.cache (fun _ x => if x.tagSet && decide (x.tag.toNat = n) then { x with valid := false } else x) }

/-- Register `n` written by a fixed-latency instruction: live, and mirrored in its slots (05 R118, R123). -/
def Warp.putReg (w : Warp) (n : Nat) (v : List Word) : Warp :=
  { w with
    v := Tab.set w.v n v
    cache := Tab.mapVal w.cache (fun _ x => if x.tagSet && decide (x.tag.toNat = n) then { x with data := v } else x) }

/-- Register `n` changed by anything else: live, data-valid of its slots cleared (05 R118). -/
def Warp.landReg (w : Warp) (n : Nat) (v : List Word) : Warp := { w.dropCache n with v := Tab.set w.v n v }

/-- One byte of a word replaced. -/
def setByte (x : Word) (i : Nat) (b : Byte) : Word :=
  BitVec.ofNat 32 (x.toNat - bitsOf x.toNat (8 * i + 7) (8 * i) * 2 ^ (8 * i) + b.toNat * 2 ^ (8 * i))

/-- A lane's poison mark removed. -/
def Warp.unpoison (w : Warp) (n l : Nat) : Warp := { w with regPoison := w.regPoison.filter (fun p => !(p == (n, l))) }

/-- One byte of the register window written (05 R128): a register that was not live first becomes 0, in good words. -/
def Warp.windowByte (w : Warp) (reg lane byte : Nat) (b : Byte) : Warp :=
  let v := w.reg reg
  { w.landReg reg (List.set v lane (setByte (v.getD lane 0) byte b)) with
    regPoison := if w.live reg then w.regPoison else w.regPoison.filter (fun p => p.1 != reg) }

/-- One local byte of a group as memory holds it. -/
def localByte (k : Core) (g : Group) (a : Nat) : Byte :=
  match localPlace g a with
  | some (.scratch p) => Memory.read k.scratch p
  | some (.window slot reg lane byte) =>
    match Tab.get? k.warps slot with
    | none => 0
    | some w => BitVec.ofNat 8 (bitsOf ((w.reg reg).getD lane 0).toNat (8 * byte + 7) (8 * byte))
  | none => 0

/-- Whether the word of a local byte is poisoned (10 R264; 05 R130). -/
def localPoison (k : Core) (g : Group) (a : Nat) : Bool :=
  match localPlace g a with
  | some (.scratch p) => k.scratchPoison.contains (p / 4)
  | some (.window slot reg lane _) =>
    match Tab.get? k.warps slot with
    | none => false
    | some w => w.regPoison.contains (reg, lane)
  | none => false

/-- One local byte written. -/
def localPut (k : Core) (g : Group) (a : Nat) (b : Byte) : Core :=
  match localPlace g a with
  | some (.scratch p) => { k with scratch := Memory.write k.scratch p b }
  | some (.window slot reg lane byte) =>
    match Tab.get? k.warps slot with
    | none => k
    | some w => { k with warps := Tab.set k.warps slot (w.windowByte reg lane byte b) }
  | none => k

/-- The poison mark of the word at local address `a` removed. -/
def localUnpoison (k : Core) (g : Group) (a : Nat) : Core :=
  match localPlace g a with
  | some (.scratch p) => { k with scratchPoison := k.scratchPoison.filter (fun t => !(t == p / 4)) }
  | some (.window slot reg lane _) =>
    match Tab.get? k.warps slot with
    | none => k
    | some w => { k with warps := Tab.set k.warps slot (w.unpoison reg lane) }
  | none => k

/-- Grip reservations on the words of a write are lost (14 R351). -/
def dropResv (k : Core) (phys n : Nat) : Core :=
  { k with grips := Tab.mapVal k.grips (fun _ x =>
      match x.resv with
      | some (a, m) => if a < phys + n ∧ phys < a + m then { x with resv := none } else x
      | none => x) }

/-- Local bytes written in one event, a later pair over an earlier one. A word that they cover whole loses its poison
(10 R264); reservations on the words are lost. -/
def localWrite (k : Core) (g : Group) (bytes : List (Nat × Byte)) : Core :=
  let addrs := bytes.map Prod.fst
  let k1 := bytes.foldl (fun k p => localPut k g p.1 p.2) k
  let whole := (addrs.filter (fun a => decide (a % 4 = 0))).filter
    (fun a => addrs.contains (a + 1) && addrs.contains (a + 2) && addrs.contains (a + 3))
  let k2 := whole.foldl (fun k a => localUnpoison k g a) k1
  addrs.foldl (fun k a => match localPlace g a with
    | some (.scratch p) => dropResv k p 1
    | _ => k) k2

/-- Consecutive bytes with their addresses. -/
def withAddrs (a : Nat) (bs : List Byte) : List (Nat × Byte) :=
  match bs with
  | [] => []
  | b :: t => (a, b) :: withAddrs (a + 1) t

/-- `n` local bytes. -/
def localRead (k : Core) (g : Group) (a n : Nat) : List Byte := (List.range n).map (fun i => localByte k g (a + i))

/-- The physical words that [a, a + n) of a group's scratchpad covers. -/
def wordsCovered (g : Group) (a n : Nat) : List Nat :=
  (List.range ((a + n + 3) / 4 - a / 4)).map (fun i => g.scrBase / 4 + a / 4 + i)

/-- A number added to a strictly rising list. -/
def insertNat : List Nat → Nat → List Nat
  | [], x => [x]
  | y :: t, x => if x < y then x :: y :: t else if x = y then y :: t else y :: insertNat t x

/-- Tags of words set full, or empty (10 R260); no further event changes them in this cycle (R261). -/
def setTags (k : Core) (ws : List Nat) (full : Bool) : Core :=
  { k with tagged := ws ++ k.tagged, full := if full then ws.foldl insertNat k.full else k.full.filter (fun x => !(ws.contains x)) }

/-! ## Atomic operations (12 Table 3) -/

/-- The new value of an integer atomic of `w` bits: `o` the old value, `b` the operand, `c` the compare value. -/
def atomInt (op w : Nat) (nat : Bool) (o b c : Nat) : Nat :=
  let lt := if nat then decide (o % 2 ^ w < b % 2 ^ w) else decide (sextNat o w < sextNat b w)
  match op with
  | 0 => (o + b) % 2 ^ w
  | 1 => if lt then o else b
  | 2 => if lt then b else o
  | 3 => o &&& b
  | 4 => o ||| b
  | 5 => o ^^^ b
  | 6 => b
  | 7 => if o = c then b else o
  | 8 => if o ≥ b then 0 else o + 1
  | 9 => if o = 0 ∨ o > b then b else o - 1
  | _ => o

/-- The new value of an atomic of `w` bits: code 0xA adds binary32 values under `rne`, any other is an integer one. -/
def atomNew (op w : Nat) (nat : Bool) (o b c : Nat) : Nat :=
  if op = 0xA then (Fmt.f32.addFp 0 (Fmt.f32.unpack o) (Fmt.f32.unpack b)).1 else atomInt op w nat o b c

/-- The pattern that a lane word receives in place of poisoned data (05 R130; 12 R290), over `n` bytes. -/
def poisonPattern (n : Nat) : Nat := if n = 8 then 0x7FE000007FE00000 else 0x7FE00000

/-! ## Barriers (17 R418) -/

/-- An arrival of weight `w` at a barrier; a free one discards it. -/
def Barrier.arrive (b : Barrier) (w : Nat) : Barrier :=
  if b.expected = 0 then b
  else { b with phase := b.phase + BitVec.ofNat 16 ((b.arrived + w) / b.expected), arrived := (b.arrived + w) % b.expected }

/-- A free barrier in phase 0. -/
def Barrier.reset : Barrier := { phase := 0, expected := 0, arrived := 0 }

/-- Barrier `i` of a group. -/
def Group.bar (g : Group) (i : Nat) : Barrier := Tab.getD g.bars i Barrier.reset

/-- An arrival at barrier `i` of group `gid`, with its completed phases counted. -/
def State.arrive (s : State) (c gid i w : Nat) : State :=
  match s.group? c gid with
  | none => s
  | some g =>
    let b := g.bar i
    let done := if b.expected = 0 then 0 else (b.arrived + w) / b.expected
    (s.setGroup c gid { g with bars := Tab.set g.bars i (b.arrive w) }).countCore c 0x27 done

/-! ## Store queues (11 R270, R272) -/

/-- One lane of a shared atomic on a core: the new core, the old value, and whether its word was poisoned. A poisoned
word is left as it stands. -/
def atomLane (g : Group) (op n : Nat) (nat : Bool) (k : Core) (l : AtomLane) : Core × Nat × Bool :=
  let old := ofBytes (localRead k g l.addr n)
  if (List.range n).any (fun i => localPoison k g (l.addr + i)) then (k, poisonPattern n, true)
  else (localWrite k g (withAddrs l.addr (toBytes (atomNew op (8 * n) nat old l.operand l.cmp) n)), old, false)

/-- The lanes of a shared atomic in ascending order (12 R295): the core and each lane's old value. -/
def atomLanes (g : Group) (op n : Nat) (nat : Bool) : List AtomLane → Core → Core × List (Nat × Nat × Bool)
  | [], k => (k, [])
  | l :: t, k =>
    let r := atomLane g op n nat k l
    let rest := atomLanes g op n nat t r.1
    (rest.1, (l.lane, r.2.1, r.2.2) :: rest.2)

/-- The lowest affected lane of a load, helpers apart (12 R290). -/
def LoadOp.noteBad (o : LoadOp) : LoadOp :=
  match o.lns.find? (fun t => !o.helpers.has t.lane && (match t.got with | some (_, b) => b | none => false)) with
  | none => o
  | some t =>
    match o.bad with
    | some (l, a) => if t.lane < l then { o with bad := some (t.lane, t.ea) } else { o with bad := some (l, a) }
    | none => { o with bad := some (t.lane, t.ea) }

/-- The old values of an ATS given to its outstanding load. -/
def LoadOp.answer (o : LoadOp) (olds : List (Nat × Nat × Bool)) : LoadOp :=
  LoadOp.noteBad { o with lns := o.lns.map (fun l =>
      match olds.find? (fun p => p.1 == l.lane) with
      | some p => { l with got := some (p.2.1, p.2.2) }
      | none => l) }

/-- What an entry of a store queue does when it is performed: the state, and the old values of an atomic. -/
def State.performBody (s : State) (c gid : Nat) (b : SqBody) : State × List (Nat × Nat × Bool) :=
  match s.group? c gid with
  | none => (s, [])
  | some g =>
    match b with
    | .store bytes => (s.setCore c (localWrite (s.core c) g bytes), [])
    | .atomic op n nat lns _ =>
      let r := atomLanes g op n nat lns (s.core c)
      let s1 := s.setCore c r.1
      (if r.2.any (fun p => p.2.2) then s1.uncorrectable c 0x04 else s1, r.2)
    | .arrive bar w => (s.arrive c gid bar w, [])
    | .resv _ _ _ _ _ => (s, [])

/-- The head of warp `slot`'s store queue is performed and leaves it (11 R270). -/
def State.performHead (s : State) (c slot : Nat) : State :=
  match s.warp? c slot with
  | none => s
  | some w =>
    match w.storeQ with
    | [] => s
    | e :: rest =>
      let r := s.performBody c w.gid e.body
      r.1.modWarp c slot (fun x => { x with
        storeQ := rest
        st := if e.counted then x.st - 1 else x.st
        loads := match e.body with
          | .atomic _ _ _ _ (some id) => x.loads.map (fun o => if o.id = id then o.answer r.2 else o)
          | _ => x.loads })

/-- The first `n` entries performed. -/
def State.performN (s : State) (c slot : Nat) : Nat → State
  | 0 => s
  | n + 1 => (s.performHead c slot).performN c slot n

/-- Draining: every queued entry is performed (11 R271). -/
def State.drain (s : State) (c slot : Nat) : State :=
  match s.warp? c slot with
  | none => s
  | some w => s.performN c slot w.storeQ.length

/-- An entry put at the tail of a warp's store queue. -/
def Warp.enqueue (w : Warp) (counted : Bool) (b : SqBody) : Warp :=
  { w with storeQ := w.storeQ ++ [{ seq := w.sqSeq, counted := counted, body := b }], sqSeq := w.sqSeq + 1,
           st := if counted then w.st + 1 else w.st }

/-! ## Lane states and runs -/

/-- The lanes that a split stack holds (02 R28). -/
def Warp.suspended (w : Warp) : Mask := w.split.foldl (fun m e => m ||| e.mask) 0

/-- The helper lanes: idle or exited, in a quad with an active lane (02 R29). -/
def Warp.helpers (w : Warp) : Mask :=
  maskOf (fun l =>
    (w.idle.has l || w.exited.has l) &&
    (w.active.has (l / 4 * 4) || w.active.has (l / 4 * 4 + 1) || w.active.has (l / 4 * 4 + 2) || w.active.has (l / 4 * 4 + 3)))

/-- Predicate `n` in lane `l`; p7 is all ones (05 R109). -/
def Warp.pred (w : Warp) (n l : Nat) : Bool := if n = 7 then true else (Tab.getD w.p n 0#32).has l

/-- The guard of lane `l` (03 R65). -/
def Warp.guard (w : Warp) (g : Guard) (l : Nat) : Bool := w.pred g.p.toNat l != g.neg

/-- A uniform register; s63 reads 0 (05 R108). -/
def Warp.sreg (w : Warp) (n : Nat) : DWord := if n = 63 then 0 else Tab.getD w.s n 0

/-- A uniform register written; s63 discards it. -/
def Warp.putS (w : Warp) (n : Nat) (v : DWord) : Warp := if n = 63 then w else { w with s := Tab.set w.s n v }

/-- A predicate written in the lanes of a mask; p7 ignores it (05 R109). -/
def Warp.putPred (w : Warp) (n : Nat) (ls bits : Mask) : Warp :=
  if n = 7 then w else { w with p := Tab.set w.p n ((Tab.getD w.p n 0 &&& ~~~ls) ||| (bits &&& ls)) }

/-- An edge mask; all ones where nothing was written (05 R110). -/
def Warp.edge (w : Warp) (n : Nat) : BitVec 128 := Tab.getD w.m n (BitVec.allOnes 128)

/-- Both latches of a scheduler invalid. -/
def Scheduler.clearLatches (k : Scheduler) : Scheduler := { k with la := Latch.clear, lb := Latch.clear }

/-- The latches that warp `slot` would read, or take with it when it stops (05 R115). -/
def Core.latches (k : Core) (slot : Nat) (w : Warp) : Latch × Latch :=
  match w.relatch with
  | some p => p
  | none =>
    let q := k.sched (schedOf slot)
    if q.cur = some slot ∧ q.midRun then (q.la, q.lb) else (Latch.clear, Latch.clear)

/-- The run of warp `slot` leaves its scheduler: the scheduler selects again (02 R32, R34), and a hit on the instruction that stood
next is forgotten, while a single step is still to be made (09 R241). -/
def State.leaveSched (s : State) (c slot : Nat) : State :=
  s.modSched c (schedOf slot) (fun q => if q.cur = some slot then { q with midRun := false, hit := false } else q)

/-- Data-valid cleared in all eight slots, tags kept (05 R120). -/
def Warp.clearCache (w : Warp) : Warp := { w with cache := Tab.mapVal w.cache (fun _ x => { x with valid := false }) }

/-! ## Failures of commands and groups (09 R234; 13 R328) -/

/-- GROUPSTAT after a failed command (09 R219, R234). -/
def Group.fail (g : Group) (status tl seq : Nat) : Group :=
  { g with err := true, nfail := min 0xFFFF (g.nfail + 1),
           fstat := if g.nfail = 0 then status else g.fstat, ftl := if g.nfail = 0 then tl else g.ftl,
           fseq := if g.nfail = 0 then seq % 2 ^ 32 else g.fseq }

/-- A fault record (13 Table 10): seven dwords, the last two zero; a record that does not fit is skipped. -/
def State.faultRecord (s : State) (c gid seq : Nat) (pc : DWord) (e : Nat) (addr : DWord) (word4 : Nat) : State :=
  match s.group? c gid with
  | none => s
  | some g =>
    let base := g.kernel.fbase + 0x400 * g.nWarps + 64 * (g.recs % 8)
    let bytes := toBytes seq 8 ++ toBytes pc.toNat 8 ++ toBytes e 8 ++ toBytes addr.toNat 8 ++ toBytes word4 8 ++
      toBytes g.recs 8 ++ toBytes 0 16
    let s1 := if base + 64 ≤ g.scrSize then s.setCore c (localWrite (s.core c) g (withAddrs base bytes)) else s
    s1.modGroup c gid (fun g => { g with recs := g.recs + 1 })

/-- Timeline `n` of a group (17 R415). -/
def Group.tl (g : Group) (n : Nat) : Timeline := Tab.getD g.tls n { value := 0, next := 1, ended := [], counts := [] }

/-- VALUE raised over every following number that has ended with status OK (17 R415). -/
def Timeline.raise : Nat → Timeline → Timeline
  | 0, t => t
  | n + 1, t =>
    match Tab.get? t.ended (t.value + 1) with
    | some 0 => Timeline.raise n { t with value := t.value + 1, ended := Tab.erase t.ended (t.value + 1) }
    | _ => t

/-- Command `seq` ends with a status, and P (17 R415; 13 R329). -/
def Timeline.finish (t : Timeline) (seq status p : Nat) : Timeline :=
  let t1 := { t with ended := Tab.set t.ended seq status, counts := if p = 0 then t.counts else Tab.set t.counts seq p }
  Timeline.raise t1.ended.length t1

/-- Whether command VALUE + 1 has failed (17 R416, R417). -/
def Timeline.blocked (t : Timeline) : Bool :=
  match Tab.get? t.ended (t.value + 1) with
  | some st => decide (st ≠ 0)
  | none => false

/-- The next number of a timeline is taken (13 R306). -/
def State.takeSeq (s : State) (c gid tl : Nat) : State × Nat :=
  match s.group? c gid with
  | none => (s, 0)
  | some g =>
    let t := g.tl tl
    (s.setGroup c gid { g with tls := Tab.set g.tls tl { t with next := t.next + 1 } }, t.next)

/-- The timeline observes the end of a command. -/
def State.endSeq (s : State) (c gid tl seq status p : Nat) : State :=
  s.modGroup c gid (fun g => { g with tls := Tab.set g.tls tl ((g.tl tl).finish seq status p) })

/-- The order of a completion (13 R307): fault record and GROUPSTAT of a failure, barrier arrival, timeline. `e` is E of a failure, and
N of a command that completed. -/
def State.complete (s : State) (c gid tl seq status : Nat) (pc : DWord) (e : Nat) (addr : DWord) (word4 : Nat)
    (bar : Option Nat) : State :=
  let s1 := if status = 0 then s
    else (s.faultRecord c gid seq pc e addr (word4 + status * 2 ^ 56 + tl * 2 ^ 52)).modGroup c gid (fun g => g.fail status tl seq)
  let s2 := match bar with
    | none => s1
    | some b => s1.arrive c gid b 1
  s2.endSeq c gid tl seq status e

/-! ## Traps (09 R227 to R233) -/

/-- The slots of a group's warps on a core. -/
def Core.slotsOf (k : Core) (gid : Nat) : List Nat := (k.warps.filter (fun p => decide (p.2.gid = gid))).map Prod.fst

/-- Bits of the set tags of the operand cache. -/
def Warp.ctagv (w : Warp) : Nat := (w.cache.filter (fun p => p.2.tagSet)).foldl (fun t p => t + 2 ^ p.1) 0

/-- The dword of the slot tags. -/
def Warp.ctags (w : Warp) : Nat :=
  (w.cache.filter (fun p => p.2.tagSet)).foldl (fun t p => t + p.2.tag.toNat * 2 ^ (8 * p.1)) 0

/-- A latch as the save area holds it: zeros when it is not valid (05 R136). -/
def Latch.bytes (x : Latch) : List Byte :=
  lanes.flatMap (fun l => toBytes (if x.valid then (x.val.getD l 0).toNat else 0) 8)

/-- The bytes of a trap frame (09 Tables 11 and 12). A latch lane with a parity error is saved as the word that is stored, and its mark does
not come back with ERET (DESIGN CHOICE, log 41). -/
def frameBytes (k : Core) (slot : Nat) (w : Warp) (cause : Nat) (tval : DWord) (bpskip : Bool) : List Byte :=
  let lt := k.latches slot w
  let bit := fun (b : Bool) (n : Nat) => if b then 2 ^ n else 0
  let fhdr := cause * 2 ^ 56 + w.runPos * 2 ^ 51 + bit lt.1.valid 50 + bit lt.2.valid 49 + bit lt.1.wide 48 +
    bit lt.2.wide 47 + w.ctagv * 2 ^ 39 + bit bpskip 38
  toBytes fhdr 8 ++ toBytes w.pc.toNat 8 ++ toBytes tval.toNat 8 ++ toBytes w.runStart.toNat 8 ++ toBytes w.ctags 8 ++
  toBytes (w.idle.toNat * 2 ^ 32 + w.active.toNat) 8 ++ toBytes w.exited.toNat 8 ++
  toBytes (w.sreg 60).toNat 8 ++ toBytes (w.sreg 61).toNat 8 ++ toBytes (w.sreg 62).toNat 8 ++ toBytes 0 48 ++
  lt.1.bytes ++ lt.2.bytes ++ lanes.flatMap (fun l => toBytes (Tab.getD w.iditem l 0).toNat 8) ++ toBytes 0 128

/-- Whether a frame at `w.tframe` lies wholly within the group's scratchpad (09 R228). -/
def frameFits (g : Group) (w : Warp) : Bool := decide (w.tframe.toNat + 0x400 ≤ g.scrSize)

/-- The frame written, and TCAUSE, TPC, TVAL and TRUNPC with it (09 R227 step 4). -/
def State.writeFrame (s : State) (c slot cause : Nat) (tval : DWord) (bpskip : Bool) : State :=
  match s.warp? c slot with
  | none => s
  | some w =>
    match s.group? c w.gid with
    | none => s
    | some g =>
      let bytes := frameBytes (s.core c) slot w cause tval bpskip
      (s.setCore c (localWrite (s.core c) g (withAddrs w.tframe.toNat bytes))).modWarp c slot (fun x =>
        { x with tcause := BitVec.ofNat 8 cause, tpc := x.pc.setWidth 64, tval := tval, trunpc := x.runStart.setWidth 64 })

/-- A waiter taken off the list of tag waits. -/
def Core.unwait (k : Core) (who : TagWaiter) : Core := { k with tagQ := k.tagQ.filter (fun t => t != who) }

/-- A warp that a scope-0 MACHINE stops: its frame with cause 0x3F, and nothing further issues (09 R243). -/
def State.machineWarp (s : State) (c slot : Nat) (tval : DWord) : State :=
  match s.warp? c slot with
  | none => s
  | some w =>
    match s.group? c w.gid with
    | none => s
    | some g =>
      let s1 := if frameFits g w then s.writeFrame c slot 0x3F tval false else s
      ((s1.modWarp c slot (fun x => { x with waiting := none, pend := none, halted := true })).leaveSched c slot).modCore c
        (fun k => k.unwait (.warp slot))

/-- A MACHINE error at group scope (09 R232, R243): `unit` 0 is a program condition. -/
def State.machineGroup (s : State) (c gid scope unit : Nat) (addr : Nat) : State :=
  match s.group? c gid with
  | none => s
  | some g =>
    let tval := BitVec.ofNat 64 (scope * 256 + unit)
    let s1 := ((s.core c).slotsOf gid).foldl (fun t i => t.machineWarp c i tval) s
    let s2 := s1.modGroup c gid (fun g => { g with fatal := true, stopped := true })
    let s3 := s2.modCore c (fun k => { k with mchk := true })
    s3.event (dieOf c) c 0x02 g.asid c g.idgrid (scope * 256 + unit) addr

/-- The vector of a cause: none when it is 0 or malformed (16 R402), or in a poisoned sector (10 R264; DESIGN CHOICE, log 41). -/
def State.vector (s : State) (g : Group) (cause : Nat) : Option VAddr :=
  let v := s.readPhys (g.kernel.vectors + 8 * cause) 8
  if v = 0 ∨ v % 4 ≠ 0 ∨ 2 ^ 52 ≤ v ∨ s.physPoison (g.kernel.vectors + 8 * cause) 8 then none else some (BitVec.ofNat 52 v)

/-- The warp in handler state at a vector, with a new run (09 R227 step 5). -/
def Warp.enterHandler (w : Warp) (pc : VAddr) : Warp :=
  { w.clearCache with handler := true, active := BitVec.allOnes 32, idle := 0, exited := 0, pc := pc, runStart := pc,
                      runPos := 0, waiting := none, relatch := none, bpSkip := false }

/-- The cycle in which the run of a warp ended: now for a run that issues, else when it did end (02 R34). -/
def State.runEnd (s : State) (c slot : Nat) (w : Warp) : Nat :=
  let q := (s.core c).sched (schedOf slot)
  if q.midRun && q.cur == some slot then (s.core c).cycle.toNat else w.since

/-- What a warp waits for after a trap's entry or its return: every result has landed, and 24 cycles pass before the next issue (09 R227,
R233). -/
def State.trapDelay (s : State) (c : Nat) : List (RegName × Nat) := [(.pc, (s.core c).cycle.toNat + 24)]

/-- Taking a trap (09 R227): the store queue drains, the frame is written, the handler begins. In handler state, with a
frame that does not fit, or with a bad vector, it becomes MACHINE at group scope (R232). The warp already stands at the
stop point: `pc`, `runStart` and `runPos` are those of the instruction at TPC. -/
def State.takeTrap (s : State) (c slot : Nat) (t : Trap) (bpskip : Bool) : State :=
  let s1 := ((s.drain c slot).countCore c 0x28 1).modCore c (fun k => k.unwait (.warp slot))
  match s1.warp? c slot with
  | none => s1
  | some w =>
    match s1.group? c w.gid with
    | none => s1
    | some g =>
      if w.handler then s1.machineGroup c w.gid 0 0 0
      else if !(frameFits g w) then s1.machineGroup c w.gid 0 0 w.tframe.toNat
      else
        let s2 := s1.writeFrame c slot t.cause t.tval bpskip
        match s2.vector g t.cause with
        | none => s2.machineGroup c w.gid 0 0 0
        | some pc =>
          let s3 := s2.modWarp c slot (fun x => { x.enterHandler pc with since := s2.runEnd c slot x, due := s2.trapDelay c })
          (s3.modSched c (schedOf slot) (fun q => if q.cur = some slot then q.clearLatches else q)).leaveSched c slot

/-- A dword of the frame of a warp. -/
def frameDword (k : Core) (g : Group) (w : Warp) (off : Nat) : Nat := ofBytes (localRead k g (w.tframe.toNat + off) 8)

/-- A latch read back from a frame. -/
def frameLatch (k : Core) (g : Group) (w : Warp) (off : Nat) (valid wide : Bool) : Latch :=
  { val := if valid then lanes.map (fun l => BitVec.ofNat 64 (frameDword k g w (off + 8 * l))) else [], valid := valid, wide := wide }

/-- Whether the lane masks of a frame and the suspended lanes are disjoint and cover the warp (05 R136; 09 R233). -/
def masksOk (active idle exited susp : Mask) : Bool :=
  (active &&& idle) == 0 && (active &&& exited) == 0 && (active &&& susp) == 0 && (idle &&& exited) == 0 &&
  (idle &&& susp) == 0 && (exited &&& susp) == 0 && (active ||| idle ||| exited ||| susp) == BitVec.allOnes 32

/-- The warp as a frame restores it (09 R233 steps 2 to 4). Rewriting the tags ends a tag's parity error (DEDUCED, log 42). With RUNPOS 0
the return point starts a run of its own, else the interrupted run goes on from the frame's TRUNPC (R230; DEDUCED, log 42). -/
def Warp.restore (w : Warp) (k : Core) (g : Group) : Warp :=
  let fhdr := frameDword k g w 0
  let tags := frameDword k g w 0x20
  let lm := frameDword k g w 0x28
  let bit := fun n => decide (bitsOf fhdr n n = 1)
  let w1 := ((w.putS 60 (BitVec.ofNat 64 (frameDword k g w 0x38))).putS 61 (BitVec.ofNat 64 (frameDword k g w 0x40))).putS 62
    (BitVec.ofNat 64 (frameDword k g w 0x48))
  { w1 with
    active := BitVec.ofNat 32 lm, idle := BitVec.ofNat 32 (lm / 2 ^ 32), exited := BitVec.ofNat 32 (frameDword k g w 0x30)
    iditem := lanes.map (fun l => (l, BitVec.ofNat 64 (frameDword k g w (0x280 + 8 * l))))
    cache := (List.range 8).map (fun i => (i, { tag := BitVec.ofNat 8 (tags / 2 ^ (8 * i)), tagSet := bit (39 + i), valid := false, data := [] }))
    relatch := some (frameLatch k g w 0x80 (bit 50) (bit 48), frameLatch k g w 0x180 (bit 49) (bit 47))
    tagPoison := []
    handler := false, pc := BitVec.ofNat 52 (frameDword k g w 8)
    runStart := BitVec.ofNat 52 (frameDword k g w (if bitsOf fhdr 55 51 = 0 then 8 else 0x18))
    runPos := bitsOf fhdr 55 51, bpSkip := bit 38 }

/-- The lanes of the entries that the SPLIT-OVF handler has spilled to scratchpad: they count as suspended (02 R38, R39;
09 R224; DEDUCED, log 13). -/
def spilledLanes (k : Core) (g : Group) (w : Warp) : Mask :=
  (List.range w.splCount.toNat).foldl (fun m i => m ||| BitVec.ofNat 32 (ofBytes (localRead k g (w.splBase.toNat + 16 * i + 8) 4))) 0

/-- Whether a frame passes the checks of 09 R233. -/
def frameGood (k : Core) (g : Group) (w : Warp) : Bool :=
  let lm := frameDword k g w 0x28
  let tpc := frameDword k g w 8
  masksOk (BitVec.ofNat 32 lm) (BitVec.ofNat 32 (lm / 2 ^ 32)) (BitVec.ofNat 32 (frameDword k g w 0x30))
    (w.suspended ||| spilledLanes k g w) &&
  decide (tpc % 4 = 0) && decide (tpc < 2 ^ 52) && decide (bitsOf (frameDword k g w 0) 55 51 ≤ 24)

/-- Whether a frame of a warp holds a poisoned word (09 Table 15: group MACHINE). -/
def framePoisoned (k : Core) (g : Group) (w : Warp) : Bool :=
  (List.range 256).any (fun i => localPoison k g (w.tframe.toNat + 4 * i))

/-- Returning from a trap (09 R233): the queue drains, the frame is read and restored; a frame that fails a check is
MACHINE at group scope. A pre-emption that waited for this ERET is taken by the event PREEMPTION. -/
def State.returnFromTrap (s : State) (c slot : Nat) : State :=
  let s1 := s.drain c slot
  match s1.warp? c slot with
  | none => s1
  | some w =>
    match s1.group? c w.gid with
    | none => s1
    | some g =>
      let k := s1.core c
      if !(frameFits g w) then s1.machineGroup c w.gid 0 0 w.tframe.toNat
      else if framePoisoned k g w then (s1.uncorrectable c 0x04).machineGroup c w.gid 0 0x04 w.tframe.toNat
      else if !(frameGood k g w) then s1.machineGroup c w.gid 0 0 0
      else (s1.setWarp c slot { w.restore k g with since := k.cycle.toNat, due := s1.trapDelay c }).leaveSched c slot

end Sys2Proof.Machine
end

