-- ==== Sys2Proof/Machine/Reduce.lean ====
section
/-! DEFINITION. The reduction buffers: combining and draining RED entries (13 R330, R331; 11 Table 16). -/

namespace Sys2Proof.Machine

/-- Whether two entries have equal (ASID, VA, OP, SZ, NAT). -/
def RedEntry.sameKey (a b : RedEntry) : Bool :=
  a.asid == b.asid && a.va == b.va && a.op == b.op && a.size == b.size && a.nat == b.nat

/-- A value combined into an entry (13 R331). -/
def RedEntry.combine (e : RedEntry) (v : Nat) : RedEntry := { e with val := atomNew e.op (8 * e.size) e.nat e.val v 0 }

/-- The entries of a buffer in order of their warp slots. -/
def bySlot (es : List RedEntry) : List RedEntry := (List.range 16).flatMap (fun i => es.filter (fun e => e.slot % 16 == i))

/-- One more entry of a drain: combined into the contribution of its key, or a new one. -/
def addContribution (last : Bool) : List Contribution → Nat → RedEntry → List Contribution × Nat
  | [], id, e => ([{ id := id, gids := [e.gid], entry := e, sent := false, last := last }], id + 1)
  | c :: t, id, e =>
    if c.entry.sameKey e then ({ c with entry := c.entry.combine e.val, gids := insertNat c.gids e.gid } :: t, id)
    else
      let r := addContribution last t id e
      (c :: r.1, r.2)

/-- The contributions of a drain, in the order of 11 Table 16, and the next free number. -/
def drainEntries (last : Bool) (id : Nat) (es : List RedEntry) : List Contribution × Nat :=
  es.foldl (fun r e => addContribution last r.1 r.2 e) ([], id)

/-- Entries of a buffer. -/
def Core.redOf (k : Core) (sched : Nat) : List RedEntry := Tab.getD k.red sched []

/-- The fence mark that waits for a group's next command stands on acceptance number `cid` (13 R334). -/
def Group.arm (g : Group) (cid : Nat) : Group :=
  match g.mark with
  | none => g
  | some m => { g with mark := none, marks := g.marks ++ [(cid, m)] }

/-- A drain of the entries that `p` selects, over schedulers 0 to 3: each contribution is posted, and waits at the core's network
port in class 0 (17 R422). -/
def State.drainRed (s : State) (c : Nat) (last : Bool) (p : Nat → RedEntry → Bool) : State :=
  s.modCore c (fun k =>
    let es := [0, 1, 2, 3].flatMap (fun q => bySlot ((k.redOf q).filter (p q)))
    let r := drainEntries last k.cid es
    { k with
      red := [0, 1, 2, 3].map (fun q => (q, (k.redOf q).filter (fun e => !(p q e))))
      contribs := k.contribs ++ r.1
      cid := r.2
      groups := Tab.mapVal k.groups (fun gid g => if r.1.any (fun x => x.gids.contains gid) then g.arm k.cid else g)
      port := { k.port with waiting := k.port.waiting ++ r.1.map (fun x => (0, 2, x.id)) } })

/-- A contribution that no REDFLUSH waits for fails: ERR is set, and its record names poster 0x42 and KIND 2 (13 R331). -/
def State.redFailed (s : State) (c gid status : Nat) (addr : DWord) : State :=
  (s.faultRecord c gid 0 0 0 addr (status * 2 ^ 56 + 2 * 2 ^ 48 + 0x42 * 2 ^ 37)).modGroup c gid (fun g => g.fail status 0 0)

/-- The drain when a group's last warp exits (13 R331); an earlier failure that no REDFLUSH can report now counts with it. -/
def State.drainAtExit (s : State) (c gid : Nat) : State :=
  let s1 := s.drainRed c true (fun _ e => e.gid == gid)
  match (s1.group? c gid).bind Group.redFail with
  | some f => (s1.redFailed c gid f.1 f.2).modGroup c gid (fun g => { g with redFail := none })
  | none => s1

/-- Whether every warp of a group has exited (02 R39, R52). -/
def Core.allExited (k : Core) (gid : Nat) : Bool :=
  k.warps.all (fun p => !(decide (p.2.gid = gid)) || p.2.exited == BitVec.allOnes 32)

/-- What follows the exit of a warp: when it was its group's last, the group's buffered entries drain. -/
def State.warpExited (s : State) (c gid : Nat) : State :=
  if (s.core c).allExited gid then s.drainAtExit c gid else s

end Sys2Proof.Machine
end

