-- ==== Sys2Proof/Machine/GripState.lean ====
section
/-! DEFINITION. A grip's exceptions and failures, and its save record (14 R356 to R359). -/

namespace Sys2Proof.Machine

/-- A register of a grip; x0 reads 0. -/
def Grip.reg (k : Grip) (r : Nat) : DWord := if r = 0 then 0 else Tab.getD k.x r 0

/-- A register of a grip written; x0 discards it. -/
def Grip.putReg (k : Grip) (r : Nat) (v : DWord) : Grip := if r = 0 then k else { k with x := Tab.set k.x r v }

/-- A grip fails (14 R357): it stops, its fault record is written and GROUPSTAT changes. -/
def State.gripFail (s : State) (c g e : Nat) (addr : DWord) : State :=
  let k := (s.core c).grip g
  let s1 := (s.modGrip c g (fun x => { x with run := 3, resv := none, wtag := none })).modCore c (fun k => k.unwait (.grip g))
  match k.gid with
  | none => s1
  | some gid =>
    let s2 := s1.faultRecord c gid 0 k.pc e addr (0x20 * 2 ^ 56 + (0x40 + g) * 2 ^ 37)
    s2.modGroup c gid (fun x => x.fail 0x20 0 0)

/-- mstatus after an exception: MPIE takes MIE, MIE is 0, MPP reads 0b11. -/
def trapStatus (m : DWord) : DWord := BitVec.ofNat 64 (0x1800 + bitsOf m.toNat 3 3 * 128)

/-- mstatus after mret: MIE takes MPIE, MPIE is 1. -/
def retStatus (m : DWord) : DWord := BitVec.ofNat 64 (0x1880 + bitsOf m.toNat 7 7 * 8)

/-- A grip takes an exception to mtvec; while mtvec is 0 it fails instead (14 R356, R357). -/
def State.gripExcept (s : State) (c g cause : Nat) (tval : Nat) : State :=
  let k := (s.core c).grip g
  let s1 := s.modGrip c g (fun x => { x with mcause := BitVec.ofNat 64 cause, mtval := BitVec.ofNat 64 tval, mepc := BitVec.ofNat 64 (x.pc.toNat / 2 * 2) })
  if k.mtvec = 0 then s1.gripFail c g cause (BitVec.ofNat 64 tval)
  else (s1.modGrip c g (fun x => { x with pc := x.mtvec, mstatus := trapStatus x.mstatus, wtag := none, resv := x.resv })).modCore c
    (fun k => k.unwait (.grip g))

/-! ## A grip's store queue (11 R272) -/

/-- A value of `n` bytes as a register receives it. -/
def gripValue (v n : Nat) (uns : Bool) : Nat := if uns then v else wrapInt (sextNat v (8 * n)) 64

/-- The registers that a grip's queued atomics will write. -/
def Grip.awaits (x : Grip) : List Nat :=
  x.storeQ.filterMap (fun e =>
    match e.body with
    | .atomic _ _ _ _ rd => rd
    | .resv _ _ rd _ _ => some rd
    | _ => none)

/-- A grip's atomic met an uncorrectable error at local address `a` when it was performed: the running grip takes POISON before its
next instruction (DEDUCED, log 18). -/
def State.gripStruck (s : State) (c g a : Nat) : State := s.modGrip c g (fun x => { x with struck := some (0x20000000 + a) })

/-- The POISON that a grip has still to take for an atomic of its queue, taken. -/
def State.gripTakeStruck (s : State) (c g : Nat) : State :=
  match ((s.core c).grip g).struck with
  | none => s
  | some a =>
    let s1 := s.modGrip c g (fun x => { x with struck := none })
    if ((s.core c).grip g).run = 1 then s1.gripExcept c g 27 a else s1

/-- An LR or SC performed at the head of its queue: LR reserves the word, SC writes it while it is reserved (14 R351). -/
def State.gripReserve (s : State) (c g : Nat) (gr : Group) (store : Bool) (n rd a v : Nat) : State :=
  let k := s.core c
  let key := gr.scrBase + a
  if store then
    let held := match (k.grip g).resv with
      | some (b, m) => decide (b ≤ key) && decide (key + n ≤ b + m)
      | none => false
    let s1 := if held then s.setCore c (localWrite k gr (withAddrs a (toBytes v n))) else s
    s1.modGrip c g (fun x => { x.putReg rd (if held then 0 else 1) with resv := none })
  else if (List.range n).any (fun i => localPoison k gr (a + i)) then (s.uncorrectable c 0x04).gripStruck c g a
  else s.modGrip c g (fun x => { x.putReg rd (BitVec.ofNat 64 (gripValue (ofBytes (localRead k gr a n)) n false)) with resv := some (key, n) })

/-- What a grip's atomic gives its register once it is performed. -/
def State.gripAnswer (s : State) (c g n : Nat) (rd : Nat) (lns : List AtomLane) (olds : List (Nat × Nat × Bool)) : State :=
  match olds, lns with
  | (_, old, bad) :: _, l :: _ =>
    if bad then s.gripStruck c g l.addr else s.modGrip c g (fun x => x.putReg rd (BitVec.ofNat 64 (gripValue old n false)))
  | _, _ => s

/-- The head of a grip's store queue is performed and leaves it (11 R272). -/
def State.gripPerformHead (s : State) (c g : Nat) : State :=
  let k := (s.core c).grip g
  match k.gid, k.storeQ with
  | some gid, e :: rest =>
    let pop := fun (s : State) => s.modGrip c g (fun x => { x with storeQ := rest })
    match e.body, s.group? c gid with
    | .atomic _ n _ lns rd, _ => let r := s.performBody c gid e.body; (pop r.1).gripAnswer c g n (rd.getD 0) lns r.2
    | .resv store n rd a v, some gr => (pop s).gripReserve c g gr store n rd a v
    | _, _ => pop (s.performBody c gid e.body).1
  | _, _ => s

/-- The first `n` entries of a grip's queue performed. -/
def State.gripPerformN (s : State) (c g : Nat) : Nat → State
  | 0 => s
  | n + 1 => (s.gripPerformHead c g).gripPerformN c g n

/-- A grip's queue drained. -/
def State.gripDrain (s : State) (c g : Nat) : State := s.gripPerformN c g ((s.core c).grip g).storeQ.length

/-! ## The save record (14 R358, R359) -/

/-- The save record of grip `g` in its group's scratchpad (14 R358). -/
def gripRecordBase (gr : Group) (g : Nat) : Nat := gr.scrSize - 0x8400 + 0x4200 * g

/-- The bytes of a grip's record. -/
def Grip.recordBytes (k : Grip) : List Byte :=
  Memory.readN k.dstore 0 0x4000 ++ toBytes k.pc.toNat 8 ++
  (List.range 31).flatMap (fun i => toBytes (k.reg (i + 1)).toNat 8) ++
  [k.mstatus, k.mtvec, k.mepc, k.mcause, k.mtval, k.mscratch, k.mcycle, k.minstret].flatMap (fun v => toBytes v.toNat 8) ++
  toBytes ((if k.run = 2 then 1 else 0) + (if k.run = 3 then 2 else 0)) 8 ++ toBytes 0 0xB8

/-- A grip stops for pre-emption: its queue drains, its record is written, its reservation is dropped (14 R359). -/
def State.gripSave (s : State) (c g : Nat) : State :=
  let s1 := (s.gripDrain c g).gripTakeStruck c g
  let k := (s1.core c).grip g
  match k.gid with
  | none => s1
  | some gid =>
    match s1.group? c gid with
    | none => s1
    | some gr =>
      let s2 := s1.modCore c (fun q => (localWrite q gr (withAddrs (gripRecordBase gr g) k.recordBytes)).unwait (.grip g))
      s2.modGrip c g (fun x => { x with run := if x.run = 1 then 0 else x.run, resv := none, wtag := none })

/-- A dword of a grip's record. -/
def recordDword (k : Core) (gr : Group) (g off : Nat) : DWord := BitVec.ofNat 64 (ofBytes (localRead k gr (gripRecordBase gr g + off) 8))

/-- A grip reads its record and resumes at its pc; an ended or failed one stays stopped (14 R359). A poisoned word of the record
poisons its unit of the data store. -/
def State.gripResume (s : State) (c g : Nat) : State :=
  let q := s.core c
  match (q.grip g).gid with
  | none => s
  | some gid =>
    match s.group? c gid with
    | none => s
    | some gr =>
      let d := recordDword q gr g
      let fl := (d 0x4140).toNat
      s.modGrip c g (fun x => { x with
        dstore := Memory.writeN [] 0 (localRead q gr (gripRecordBase gr g) 0x4000)
        poison := (List.range 0x800).filter (fun u => (List.range 8).any (fun i => localPoison q gr (gripRecordBase gr g + 8 * u + i)))
        pc := d 0x4000, x := (List.range 31).map (fun i => (i + 1, d (0x4008 + 8 * i)))
        mstatus := BitVec.ofNat 64 ((d 0x4100).toNat &&& 0x88 ||| 0x1800), mtvec := BitVec.ofNat 64 ((d 0x4108).toNat / 4 * 4), mepc := BitVec.ofNat 64 ((d 0x4110).toNat / 2 * 2)
        mcause := d 0x4118, mtval := d 0x4120, mscratch := d 0x4128, mcycle := d 0x4130, minstret := d 0x4138
        run := if fl % 2 = 1 then 2 else if fl / 2 % 2 = 1 then 3 else 1 })

/-- Both grips of a group. -/
def Core.gripsOf (k : Core) (gid : Nat) : List Nat := [0, 1].filter (fun g => (k.grip g).gid == some gid)

/-- The grips of a restored group resume at its first restore ERET (14 R359). -/
def State.gripsResume (s : State) (c gid : Nat) : State := ((s.core c).gripsOf gid).foldl (fun s g => s.gripResume c g) s

/-- The grips of a pre-empted group are stopped and saved. -/
def State.gripsSave (s : State) (c gid : Nat) : State := ((s.core c).gripsOf gid).foldl (fun s g => s.gripSave c g) s

end Sys2Proof.Machine
end

