-- ==== Sys2Proof/Machine/Operands.lean ====
section
/-! DEFINITION. Operand positions: what an instruction allows in each field (03 R58 to R67), the static checks of 03
Table 7 under orders 4 and 5, the base forms as extended ones (R58), and reading a source (R61, R114, R119, R123). -/

namespace Sys2Proof.Machine

/-- The classes of an operand (03 R61; 02 R27): `litHi` the literal 0x14B, `lit` the other two, `idLane` the IDs that vary per
lane. -/
inductive Cls where
  | vec | uni | cache | latch | lit | litHi | imm | idLane | idUni
  deriving DecidableEq, Repr

/-- How an immediate is read (03 R61). -/
inductive ImmKind where
  | int | fp (f : Fmt) | pair (f : Fmt)
  deriving DecidableEq, Repr

/-- A source position: the classes it takes, its width, and how it reads an immediate. -/
structure Pos where
  cls : List Cls
  w : Nat
  kind : ImmKind
  deriving DecidableEq, Repr

/-- Every class of a per-lane position. -/
def laneCls : List Cls := [.vec, .uni, .cache, .latch, .lit, .litHi, .imm, .idLane, .idUni]
/-- The classes of a position that takes one value for the warp (02 R27). -/
def uniCls : List Cls := [.uni, .lit, .litHi, .imm, .idUni]

/-- A per-lane integer position. -/
def Pos.lane (w : Nat) : Pos := { cls := laneCls, w := w, kind := .int }
/-- A per-lane floating-point position. -/
def Pos.fp (f : Fmt) : Pos := { cls := laneCls, w := if f = Fmt.f64 then 64 else 32, kind := .fp f }
/-- A per-lane packed position. -/
def Pos.pair (f : Fmt) : Pos := { cls := laneCls, w := 32, kind := .pair f }
/-- A position of one value for the warp. -/
def Pos.uni (w : Nat) : Pos := { cls := uniCls, w := w, kind := .int }
/-- A position of the classes given. -/
def Pos.of (cls : List Cls) (w : Nat) : Pos := { cls := cls, w := w, kind := .int }

/-- A destination: its classes, its width, and whether a uniform one may have per-lane sources (06 R140). -/
structure Dst where
  cls : List Cls
  w : Nat
  mixed : Bool
  deriving DecidableEq, Repr

/-- A vector register, `la`, or a uniform register (03 R63; 06 R140). -/
def Dst.any (w : Nat) : Dst := { cls := [.vec, .latch, .uni], w := w, mixed := false }
/-- A vector register or `la`. -/
def Dst.lane (w : Nat) : Dst := { cls := [.vec, .latch], w := w, mixed := false }
/-- A vector register of an instruction with a counter class (03 R63). -/
def Dst.vec (w : Nat) : Dst := { cls := [.vec], w := w, mixed := false }
/-- A uniform register of an instruction that acts once for the warp. -/
def Dst.uni : Dst := { cls := [.uni], w := 64, mixed := true }

/-- What an instruction allows: its modifier bits, whether a reserved code stands in a defined field (IL-RSV), whether it
takes any guard, whether it has a fixed latency, and its positions; `none` marks a field that it does not use. `srcs` is how
many consecutive registers SRCB names: 1, but for the range of TST and AWR (08 R206; 12 R302). -/
structure Shape where
  m : BitVec 10
  m2 : BitVec 6
  m3 : BitVec 6
  bad : Bool
  anyGuard : Bool
  fixed : Bool
  dst : Option Dst
  a : Option Pos
  b : Option Pos
  c : Option Pos
  srcs : Nat
  deriving DecidableEq, Repr

/-- An instruction with no fields at all, acting once for the warp. -/
def Shape.bare : Shape :=
  { m := 0, m2 := 0, m3 := 0, bad := false, anyGuard := false, fixed := false, dst := none, a := none, b := none, c := none,
    srcs := 1 }

/-- The width of a position; an unused one reads as 32. -/
def posWidth (p : Option Pos) : Nat := match p with | some q => q.w | none => 32

end Sys2Proof.Machine

namespace Sys2Proof
open Machine

/-- The class of an operand; none for a reserved code. -/
def Opnd.cls (o : Opnd) : Option Cls :=
  match o with
  | .v _ => some .vec
  | .s _ => some .uni
  | .c _ => some .cache
  | .la => some .latch
  | .lb => some .latch
  | .litLo => some .lit
  | .litHi => some .litHi
  | .lit64 => some .lit
  | .imm _ => some .imm
  | .id .idlane => some .idLane
  | .id .idquad => some .idLane
  | .id .iditem => some .idLane
  | .id _ => some .idUni
  | .rsv _ => none

/-- Whether an operand is of a class. -/
def Opnd.isCls (o : Opnd) (k : Cls) : Bool := o.cls == some k

/-- Whether an operand is a literal. -/
def Opnd.isLit (o : Opnd) : Bool := o.isCls .lit || o.isCls .litHi

/-- Field value 0: no dead mark and code 0x000. -/
def Src.zero : Src := { op := .v 0, dead := false }

/-- The fields of an extended instruction whose modifiers, guard and cache fill are the base form's (03 R58). -/
def Ext.base (bnd : Bool) (dst : Opnd) (a b c : Src) (lit : Option DWord) : Ext :=
  { bnd := bnd, mods := 0, mods2 := 0, mods3 := 0, guard := Guard.always, dst := dst, dstDead := false, a := a, b := b, c := c,
    cfen := false, cfslot := 0, lit := lit }

/-! ## Base forms as extended ones (03 R58) -/

/-- A short7 operand in a position of width `w` (03 Table 5). A reserved code 0x4B to 0x4F, for which Table 5 gives no full11
code, reads as the reserved code 0x16B to 0x16F in TVAL of IL-OPND (DESIGN CHOICE, log 41). -/
def Op7.full (o : Op7) (w : Nat) : Opnd :=
  match o with
  | .v n => .v (n.setWidth 8)
  | .c k => .c k
  | .la => .la
  | .lb => .lb
  | .lit => if w = 64 then .lit64 else .litLo
  | .s n => .s (n.setWidth 6)
  | .imm i => .imm (BitVec.ofNat 9 (i.toNat + 0x1F0))
  | .rsv k => .rsv (BitVec.ofNat 10 (0x160 + k.toNat % 16))

/-- The width of DST; an unused one reads as 32. -/
def Machine.Shape.dstWidth (sh : Shape) : Nat := match sh.dst with | some d => d.w | none => 32

/-- A source of a B-ALU form: K marks every used source that names a vector register. -/
def aluSrc (k : Bool) (p : Option Pos) (o : Op7) : Src :=
  let f := o.full (posWidth p)
  { op := f, dead := k && p.isSome && f.isCls .vec }

/-- The extended instruction that a B-ALU form means. -/
def BAlu.toExt (b : BAlu) (sh : Shape) : Ext :=
  Ext.base b.bnd (b.dst.full sh.dstWidth) (aluSrc b.k sh.a b.a) (aluSrc b.k sh.b b.b) Src.zero b.lit

/-- The extended instruction that a B-IMM form means: SRCB is IMM8 as an immediate. -/
def BImm.toExt (b : BImm) (sh : Shape) : Ext :=
  Ext.base b.bnd (b.dst.full sh.dstWidth) { op := b.a.full (posWidth sh.a), dead := false }
    { op := .imm (b.imm.signExtend 9), dead := false } Src.zero b.lit

/-- The extended instruction that a B-MEM form means: DATA is DST of a load and SRCB of a store. -/
def BMem.toExt (b : BMem) (load : Bool) (sh : Shape) : Ext :=
  let off : Src := { op := .imm (b.off.setWidth 9), dead := false }
  let addr : Src := { op := b.addr.full (posWidth sh.a), dead := false }
  if load then Ext.base b.bnd (b.data.full sh.dstWidth) addr Src.zero off b.lit
  else Ext.base b.bnd (.v 0) addr { op := b.data.full (posWidth sh.b), dead := false } off b.lit

/-- Whether K = 1 stands in a B-ALU form without a vector source (03 R62). -/
def BAlu.kBad (b : BAlu) (sh : Shape) : Bool :=
  b.k && !((sh.a.isSome && (b.a.full 32).isCls .vec) || (sh.b.isSome && (b.b.full 32).isCls .vec))

/-- Whether a literal code stands in a source or in DST. -/
def Ext.namesLit (x : Ext) : Bool := x.a.op.isLit || x.b.op.isLit || x.c.op.isLit || x.dst.isLit

end Sys2Proof

namespace Sys2Proof.Machine

/-! ## Static checks (03 Table 7, orders 4 and 5) -/

/-- Whether DST names a uniform register where the instruction allows one; where it allows none the register's class is refused first, at order
5, and GUARD is not held to 0b0111 (03 R65; DESIGN CHOICE, log 41). -/
def Shape.uniDst (sh : Shape) (x : Ext) : Bool :=
  match sh.dst with
  | some d => d.cls.contains .uni && x.dst.isCls .uni
  | none => false

/-- Whether a field that must be 0 is not. -/
def unusedBad (p : Option Pos) (f : Src) : Bool := p.isNone && f != Src.zero

/-- IL-RSV: 03 R62, R64, R65 and R67. -/
def rsvBad (sh : Shape) (x : Ext) : Bool :=
  sh.bad ||
  (x.mods &&& ~~~sh.m) != 0 || (x.mods2 &&& ~~~sh.m2) != 0 || (x.mods3 &&& ~~~sh.m3) != 0 ||
  (x.guard == { neg := true, p := 7#3 }) ||
  ((!sh.anyGuard || (sh.uniDst x && !(sh.dst.elim false Dst.mixed))) && x.guard != Guard.always) ||
  (!x.cfen && x.cfslot != 0) ||
  (sh.dst.isNone && (x.dst != .v 0 || x.dstDead)) ||
  unusedBad sh.a x.a || unusedBad sh.b x.b || unusedBad sh.c x.c ||
  (x.lit.isSome && !x.namesLit)

/-- TVAL of IL-OPND for operand `o` in position `p`: 0 DST, 1 A, 2 B, 3 C (09 Table 14). -/
def opndTval (o : Opnd) (p : Nat) : DWord := BitVec.ofNat 64 (o.code.toNat + 1024 * p)

/-- Trap IL-OPND for an operand in a position. -/
def ilOpnd (o : Opnd) (p : Nat) : Trap := { cause := 0x05, tval := opndTval o p }

/-- Whether a width is not allowed for an operand (03 R61, R107). -/
def widthBad (w : Warp) (o : Opnd) (width : Nat) : Bool :=
  match o with
  | .v n => if width = 64 then n.toNat % 2 == 1 || decide (8 * w.ngran ≤ n.toNat + 1) else decide (8 * w.ngran ≤ n.toNat)
  | .c _ => width == 64
  | .litLo => width == 64
  | .litHi => width == 64
  | .lit64 => width != 64
  | _ => false

/-- Whether a source is not allowed in its position; `uniOnly` when DST is uniform (03 R66). -/
def srcBad (w : Warp) (x : Ext) (uniOnly : Bool) (p : Pos) (f : Src) : Bool :=
  match f.op.cls with
  | none => true
  | some k =>
    !(p.cls.contains k) || (uniOnly && !(uniCls.contains k)) || (f.dead && k != .vec) || widthBad w f.op p.w ||
    (f.op.isLit && x.lit.isNone) ||
    (match f.op with
     | .c i => !(Tab.getD w.cache i.toNat { tag := 0, tagSet := false, valid := false, data := [] }).tagSet
     | _ => false)

/-- Whether DST is not allowed (03 R63, R64). -/
def dstBad (w : Warp) (sh : Shape) (x : Ext) (d : Dst) : Bool :=
  x.dstDead ||
  (match x.dst.cls with
   | none => true
   | some k =>
     !(d.cls.contains k) || x.dst == .lb || (k == .latch && !sh.fixed) || (k != .uni && widthBad w x.dst d.w))

/-- Whether CFEN = 1 is not allowed (03 R64). -/
def cfenBad (sh : Shape) (x : Ext) : Bool :=
  x.cfen && !(sh.fixed && x.dst.isCls .vec && (match sh.dst with | some d => d.w == 32 | none => false))

/-- IL-OPND of a source position. -/
def srcTrap (w : Warp) (x : Ext) (uniOnly : Bool) (p : Option Pos) (f : Src) (n : Nat) : Option Trap :=
  match p with
  | none => none
  | some q => if srcBad w x uniOnly q f then some (ilOpnd f.op n) else none

/-- IL-OPND: positions DST, A, B, C in this order (log 6). -/
def opndTrap (w : Warp) (sh : Shape) (x : Ext) : Option Trap :=
  let u := sh.uniDst x && !(sh.dst.elim false Dst.mixed)
  let d : Option Trap := match sh.dst with
    | some d => if dstBad w sh x d || cfenBad sh x then some (ilOpnd x.dst 0) else none
    | none => if cfenBad sh x then some (ilOpnd x.dst 0) else none
  d <|> srcTrap w x u sh.a x.a 1 <|> srcTrap w x u sh.b x.b 2 <|> srcTrap w x u sh.c x.c 3

/-! ## Reading sources -/

/-- The immediate's value (03 R60). -/
def immInt (i : BitVec 9) : Int := i.toInt

/-- An immediate as the position reads it (03 R61). The value in a 16-bit format stands in [15:0]; which half holds it the
specification does not say, so CVT with SHI = 1 reads +0 (DESIGN CHOICE, log 41). -/
def immVal (k : ImmKind) (w : Nat) (i : BitVec 9) : Nat :=
  match k with
  | .int => wrapInt (immInt i) w
  | .fp f => (f.ofInt 0 (immInt i)).1
  | .pair f => let h := (f.ofInt 0 (immInt i)).1; h + 65536 * h

/-- A special ID of a warp in lane `l` (02 Table 2). -/
def idVal (c slot : Nat) (g : Group) (w : Warp) (k : SpecialId) (l : Nat) : Nat :=
  match k with
  | .idlane => l
  | .idquad => l / 4
  | .idwarp => w.widx
  | .idslot => slot
  | .idgroup => g.idgroup
  | .idclus => g.idclus
  | .idgrid => g.idgrid
  | .idcore => c
  | .iditem => (Tab.getD w.iditem l 0).toNat
  | .idnwarp => g.nWarps
  | .idngrp => g.nGroups
  | .idnclus => g.nClusters

/-- A helper lane reads a word with an uncorrectable error as the poison NaN (05 R116, R130). -/
def poisonWord : Nat := 0x7FE00000

/-- A register word in a lane. -/
def Warp.word (w : Warp) (n l : Nat) : Nat :=
  if w.regPoison.contains (n, l) then poisonWord else ((w.reg n).getD l 0).toNat

/-- A register at a width in a lane (03 R61). -/
def Warp.vecVal (w : Warp) (n width l : Nat) : Nat := if width = 64 then w.word n l + 2 ^ 32 * w.word (n + 1) l else w.word n l

/-- Cache slot `k` of a warp. -/
def Warp.slot (w : Warp) (k : Nat) : CacheSlot := Tab.getD w.cache k { tag := 0, tagSet := false, valid := false, data := [] }

/-- A cache slot's word in a lane: what a read of its register returns, which a hit finds in the slot unless the register's word holds
an uncorrectable error (05 R119). -/
def Warp.cacheVal (w : Warp) (k l : Nat) : Nat :=
  let t := w.slot k
  if t.valid && !(w.regPoison.contains (t.tag.toNat, l)) then (t.data.getD l 0).toNat else w.word t.tag.toNat l

/-- A latch in a lane; each half of a poisoned one reads as the poison NaN (05 R114, R116). -/
def latchVal (x : Latch) (bad : List Nat) (width l : Nat) : Nat :=
  let v := if bad.contains l then poisonWord + 2 ^ 32 * poisonWord else (x.val.getD l 0).toNat
  if width = 64 then v else v % 2 ^ 32

/-- Lanes of a latch with a parity error: 0 `la`, 1 `lb`. -/
def Scheduler.badLanes (q : Scheduler) (which : Nat) : List Nat := (q.lposn.filter (fun p => p.1 == which)).map Prod.snd

/-- A source in a lane (03 R61, R77 `read_opnd`). -/
def readOpnd (k : Core) (c slot : Nat) (g : Group) (w : Warp) (x : Ext) (p : Pos) (o : Opnd) (l : Nat) : Nat :=
  match o with
  | .v n => w.vecVal n.toNat p.w l
  | .s n => if p.w = 64 then (w.sreg n.toNat).toNat else (w.sreg n.toNat).toNat % 2 ^ 32
  | .c i => w.cacheVal i.toNat l
  | .la => latchVal (k.latches slot w).1 ((k.sched (schedOf slot)).badLanes 0) p.w l
  | .lb => latchVal (k.latches slot w).2 ((k.sched (schedOf slot)).badLanes 1) p.w l
  | .litLo => (x.lit.getD 0).toNat % 2 ^ 32
  | .litHi => (x.lit.getD 0).toNat / 2 ^ 32
  | .lit64 => (x.lit.getD 0).toNat
  | .id i => idVal c slot g w i l % 2 ^ p.w
  | .imm i => immVal p.kind p.w i
  | .rsv _ => 0

/-- The registers that a source reads (05 R119, R123). -/
def readRegs (w : Warp) (p : Option Pos) (f : Src) : List Nat :=
  match p with
  | none => []
  | some q =>
    match f.op with
    | .v n => if q.w = 64 then [n.toNat, n.toNat + 1] else [n.toNat]
    | .c i => [(w.slot i.toNat).tag.toNat]
    | _ => []

/-- IL-LATCH of a source (05 R114). -/
def latchTrap (k : Core) (slot : Nat) (w : Warp) (p : Option Pos) (f : Src) : Option Trap :=
  match p with
  | none => none
  | some q =>
    let lt := k.latches slot w
    let bad := fun (x : Latch) => decide (w.runPos < 2) || !x.valid || (q.w == 64 && !x.wide)
    match f.op with
    | .la => if bad lt.1 then some { cause := 0x04, tval := 0x148 } else none
    | .lb => if bad lt.2 then some { cause := 0x04, tval := 0x149 } else none
    | _ => none

/-- The lowest lane that is not a helper and reads a word with an uncorrectable error in a source, if there is one (05 R116,
R121, R130). A cache slot reads as its register does, hit or miss (05 R119); an error of a slot's tag concerns no lane. A word marked in a register that is not
live raises POISON too (DESIGN CHOICE, log 41). -/
def poisonLane (k : Core) (slot : Nat) (w : Warp) (p : Option Pos) (f : Src) : Option Nat :=
  match p with
  | none => none
  | some q =>
    let h := w.helpers
    let ls := lanes.filter (fun l => !h.has l)
    match f.op with
    | .v n => ls.find? (fun l => w.regPoison.contains (n.toNat, l) || (q.w == 64 && w.regPoison.contains (n.toNat + 1, l)))
    | .c i =>
      if w.tagPoison.contains i.toNat then some 0
      else ls.find? (fun l => w.regPoison.contains ((w.slot i.toNat).tag.toNat, l))
    | .la => ls.find? (fun l => ((k.sched (schedOf slot)).badLanes 0).contains l)
    | .lb => ls.find? (fun l => ((k.sched (schedOf slot)).badLanes 1).contains l)
    | _ => none

/-- The registers of a range. -/
def regRange (o : Opnd) (count : Nat) : List Nat :=
  (List.range count).map (fun r => (match o with | .v n => n.toNat | _ => 0) + r)

/-- The lowest lane that is not a helper and has a word with an uncorrectable error in one of some registers (05 R130). -/
def rangeLane (w : Warp) (rs : List Nat) : Option Nat :=
  let h := w.helpers
  (lanes.filter (fun l => !h.has l)).find? (fun l => rs.any (fun n => w.regPoison.contains (n, l)))

/-- The registers that SRCB reads: a range of more than one, or those of its one operand. -/
def Shape.readsB (sh : Shape) (w : Warp) (f : Src) : List Nat :=
  if sh.srcs = 1 then readRegs w sh.b f else regRange f.op sh.srcs

/-- POISON of a source: TVAL holds the operand code and the lane (09 Table 14). -/
def poisonTrap (k : Core) (slot : Nat) (w : Warp) (p : Option Pos) (f : Src) : Option Trap :=
  match poisonLane k slot w p f with
  | none => none
  | some l => some { cause := 0x11, tval := BitVec.ofNat 64 (f.op.code.toNat + 1024 * l) }

/-- The unit of ERRSTAT that a poisoned source belongs to (09 Table 7). -/
def poisonUnit (w : Warp) (f : Src) : Nat :=
  match f.op with
  | .la => 0x02
  | .lb => 0x02
  | .c i => if w.tagPoison.contains i.toNat then 0x03 else 0x01
  | _ => 0x01

/-! ## Live bits, cache fills and destinations -/

/-- A register's live bit cleared (03 R77 `clear_live`; 05 R118, R123). -/
def Warp.kill (w : Warp) (n : Nat) : Warp :=
  { w.dropCache n with v := Tab.erase w.v n, regPoison := w.regPoison.filter (fun p => p.1 != n) }

/-- The dead mark of a source takes effect (03 R62, R78). -/
def Warp.deadMark (w : Warp) (p : Option Pos) (f : Src) : Warp :=
  match p, f.dead, f.op with
  | some q, true, .v n => if q.w = 64 then (w.kill n.toNat).kill (n.toNat + 1) else w.kill n.toNat
  | _, _, _ => w

/-- A miss of a cache source fills its slot with the values read (05 R119). -/
def Warp.fillMiss (w : Warp) (p : Option Pos) (f : Src) : Warp :=
  match p, f.op with
  | some _, .c i =>
    let t := w.slot i.toNat
    if t.valid then w
    else { w with cache := Tab.set w.cache i.toNat { t with valid := true, data := laneVec (fun l => BitVec.ofNat 32 (w.word t.tag.toNat l)) } }
  | _, _ => w

/-- A destination register set live without a write: lanes of one that was not live become 0, good words (05 R124, R128). -/
def Warp.setLive (w : Warp) (n : Nat) : Warp :=
  if w.live n then w else { w.landReg n zeroLanes with regPoison := w.regPoison.filter (fun p => p.1 != n) }

/-- Lane words of a register written by a fixed-latency instruction (03 R78; 05 R118, R123). -/
def Warp.writeWords (w : Warp) (n : Nat) (ls : Mask) (f : Nat → Nat) : Warp :=
  let old := w.reg n
  let all := !(w.live n)
  { w.putReg n (laneVec (fun l => if ls.has l then BitVec.ofNat 32 (f l) else old.getD l 0)) with
    regPoison := w.regPoison.filter (fun p => !(p.1 == n && (all || ls.has p.2))) }

/-- A vector register, or pair, written in the lanes of a mask. -/
def Warp.writeVec (w : Warp) (n width : Nat) (ls : Mask) (f : Nat → Nat) : Warp :=
  let w1 := w.writeWords n ls f
  if width = 64 then w1.writeWords (n + 1) ls (fun l => f l / 2 ^ 32) else w1

/-- The operand-cache fill of CFEN (05 R117). -/
def Warp.cfill (w : Warp) (slot n : Nat) : Warp :=
  { w with cache := Tab.set w.cache slot { tag := BitVec.ofNat 8 n, tagSet := true, valid := true, data := w.reg n }
           tagPoison := w.tagPoison.filter (· != slot) }

/-- The latches shift (05 R112): `la` takes a new value and `lb` the old `la`. -/
def Scheduler.shift (q : Scheduler) (v : List DWord) (wide : Bool) : Scheduler :=
  { q with lb := q.la, la := { val := v, valid := true, wide := wide },
           lposn := (q.lposn.filter (fun p => p.1 == 0)).map (fun p => (1, p.2)) }

end Sys2Proof.Machine
end

