-- ==== Sys2Proof/Machine/Issue.lean ====
section
/-! DEFINITION. Issue of one instruction of a warp: fetching and decoding its words (03 R69 to R73), the checks of 03
Table 7, the order of effects (R78), the end of a run (02 R30), waiting (02 R31, R32) and the traps before and after it
(09 R230, R231). Every warp instruction is one `Spec` run by `runSpec`. -/

namespace Sys2Proof.Machine

/-! ## Fetch (03 R69 to R73) -/

/-- The first byte after a group's registered code. -/
def Group.codeEnd (g : Group) : Nat := g.kernel.codeVa + g.kernel.codeLen

/-- Whether the word at `a` is registered code (03 R72). -/
def Group.isCode (g : Group) (a : Nat) : Bool := decide (g.kernel.codeVa ≤ a) && decide (a + 4 ≤ g.codeEnd)

/-- A code word as the core's instruction cache holds it, if its line is there. -/
def Core.codeWord (k : Core) (asid a : Nat) : Option Word :=
  match k.icache.find? (fun l => l.asid == asid && l.line == a / 128) with
  | none => none
  | some l => some (l.words.getD (a % 128 / 4) 0)

/-! ## Issue -/

/-- What an instruction's meaning sees: the state, the issuing warp, the fields, the lane masks of 02 R28 and R29, and
its sources' values by lane. -/
structure Issue where
  s : State
  c : Nat
  slot : Nat
  k : Core
  w : Warp
  g : Group
  x : Ext
  len : Nat
  /-- helper lanes (02 R29) -/
  hlp : Mask
  /-- lanes whose guard is 1 (03 R77 `guard`) -/
  grd : Mask
  /-- lanes that execute (03 R77 `executes`) -/
  run : Mask
  a : Nat → Nat
  b : Nat → Nat
  d : Nat → Nat

/-- What a meaning leaves for the end of its instruction. `out` is the value of DST by lane; `preds` lists predicates with
the lanes and the bits written; `claims` the destination registers of a counter class (05 R124). -/
structure Res where
  s : State
  out : Nat → Nat
  preds : List (Nat × Mask × Mask)
  flags : Nat
  poison : Option Nat
  next : Option VAddr
  after : Option Trap
  claims : List Nat

/-- The outcome of a meaning. -/
inductive Eff where
  /-- a trap before any effect -/
  | trap (t : Trap)
  | done (r : Res)
  /-- the meaning has already moved the warp -/
  | final (s : State)
  /-- the warp blocks in the instruction, with what its attempt has left (02 R31) -/
  | block (t : Waiting) (s : State)
  /-- the warp waits in place for something outside its scheduler (02 R32) -/
  | hold (t : Waiting) (s : State)
  /-- the instruction cannot issue yet and is issued again (02 R32) -/
  | stall

/-- An instruction of a warp: what its fields allow, checks before order 4 and at order 5 of 03 Table 7, whether it can
block (02 R31), whether it ends its run whatever BND holds (09 R233, R237), and its effect. -/
structure Spec where
  shape : Shape
  pre : Issue → Option Trap
  chk : Issue → Option Trap
  blocking : Bool
  ends : Bool
  body : Issue → Eff

/-- A spec with no checks of its own. -/
def Spec.plain (sh : Shape) (body : Issue → Eff) : Spec :=
  { shape := sh, pre := fun _ => none, chk := fun _ => none, blocking := false, ends := false, body := body }

/-- A blocking instruction's spec. -/
def Spec.blocks (sh : Shape) (chk : Issue → Option Trap) (body : Issue → Eff) : Spec :=
  { shape := sh, pre := fun _ => none, chk := chk, blocking := true, ends := false, body := body }

/-- The result of an instruction that leaves everything as it is. -/
def Issue.res (i : Issue) : Res :=
  { s := i.s, out := fun _ => 0, preds := [], flags := 0, poison := none, next := none, after := none, claims := [] }

/-- The result of an instruction that writes its destination by lane. -/
def Issue.out (i : Issue) (f : Nat → Nat) : Eff := .done { i.res with out := f }

/-- The result of an instruction that changes the state beside its destination. -/
def Issue.to (i : Issue) (s : State) : Eff := .done { i.res with s := s }

/-- The address of the next instruction (03 R77 `next_instr`). -/
def Issue.nextPc (i : Issue) : VAddr := i.w.pc + BitVec.ofNat 52 i.len

/-- Whether lane `l` executes and is not a helper. -/
def Issue.acts (i : Issue) (l : Nat) : Bool := i.run.has l && !i.hlp.has l

/-- A trap of this cause before any effect. -/
def raise (cause tval : Nat) : Option Trap := some { cause := cause, tval := BitVec.ofNat 64 tval }

/-- A source's value in a lane; an unused position reads 0. -/
def srcVal (k : Core) (c slot : Nat) (g : Group) (w : Warp) (x : Ext) (p : Option Pos) (f : Src) (l : Nat) : Nat :=
  match p with
  | none => 0
  | some q => readOpnd k c slot g w x q f.op l

/-- The issue of an instruction by a warp. -/
def mkIssue (s : State) (c slot : Nat) (w : Warp) (g : Group) (sh : Shape) (x : Ext) (len : Nat) : Issue :=
  let h := w.helpers
  let gm := maskOf (fun l => w.guard x.guard l)
  let k := s.core c
  { s := s, c := c, slot := slot, k := k, w := w, g := g, x := x, len := len, hlp := h, grd := gm, run := (w.active ||| h) &&& gm,
    a := srcVal k c slot g w x sh.a x.a, b := srcVal k c slot g w x sh.b x.b, d := srcVal k c slot g w x sh.c x.c }

/-! ## The checks of 03 Table 7 -/

/-- IL-RUN (02 R30, R31). -/
def runTrap (sp : Spec) (w : Warp) (x : Ext) : Option Trap :=
  if sp.blocking && !x.bnd then raise 0x03 0
  else if decide (24 ≤ w.runPos) && !x.bnd && !sp.ends then raise 0x03 1
  else none

/-- The lowest of some registers that is not live. -/
def deadReg (w : Warp) (rs : List Nat) : Option Nat := (rs.filter (fun n => !w.live n)).min?

/-- DEAD-READ (05 R123). -/
def deadTrap (w : Warp) (g : Group) (rs : List Nat) : Option Trap :=
  if g.deadchk then
    match deadReg w rs with
    | none => none
    | some n => raise 0x06 n
  else none

/-- The registers that an instruction's sources read. -/
def specReads (w : Warp) (sh : Shape) (x : Ext) : List Nat :=
  readRegs w sh.a x.a ++ sh.readsB w x.b ++ readRegs w sh.c x.c

/-- IL-LATCH of the sources. -/
def specLatch (k : Core) (slot : Nat) (w : Warp) (sh : Shape) (x : Ext) : Option Trap :=
  latchTrap k slot w sh.a x.a <|> latchTrap k slot w sh.b x.b <|> latchTrap k slot w sh.c x.c

/-- The trap of 03 Table 7 that an instruction raises, if any: orders 4 to 8. `kBad` is R62's rule about K. -/
def checkTrap (sp : Spec) (kBad : Bool) (i : Issue) : Option Trap :=
  sp.pre i <|>
  (if kBad || rsvBad sp.shape i.x then raise 0x02 0 else none) <|>
  opndTrap i.w sp.shape i.x <|> sp.chk i <|> runTrap sp i.w i.x <|>
  specLatch i.k i.slot i.w sp.shape i.x <|> deadTrap i.w i.g (specReads i.w sp.shape i.x)

/-- POISON of a range of source registers: the lowest lane with an error in any of them (05 R130; 12 R302). -/
def rangePoison (w : Warp) (f : Src) (count : Nat) : Option (Trap × Nat) :=
  (rangeLane w (regRange f.op count)).map (fun l => ({ cause := 0x11, tval := BitVec.ofNat 64 (f.op.code.toNat + 1024 * l) }, 0x01))

/-- POISON of the sources, with the unit that ERRSTAT counts (05 R116, R121, R130). Where several sources hold an error, the first
in the order A, B, C is named (DESIGN CHOICE, log 41). -/
def specPoison (sp : Spec) (i : Issue) : Option (Trap × Nat) :=
  let one := fun (p : Option Pos) (f : Src) => (poisonTrap i.k i.slot i.w p f).map (fun t => (t, poisonUnit i.w f))
  one sp.shape.a i.x.a <|> (if sp.shape.srcs = 1 then one sp.shape.b i.x.b else rangePoison i.w i.x.b sp.shape.srcs) <|> one sp.shape.c i.x.c

/-! ## The end of an instruction -/

/-- A trap at the instruction that the warp's PC names; a wait ends. -/
def State.trapHere (s : State) (c slot : Nat) (t : Trap) : State := s.takeTrap c slot t false

/-- A trap of checks that read the scratchpad: POISON counts the uncorrectable error that they met (09 R223, R242). -/
def State.trapRead (s : State) (c slot : Nat) (t : Trap) : State := (if t.cause = 0x11 then s.uncorrectable c 0x04 else s).trapHere c slot t

/-- The lane values of DST as the latch receives them (05 R113): the register after the write, or the result where DST is
`la`. In a lane that is not written, a register word with an uncorrectable error gives the word that is stored (DESIGN CHOICE, log 41). -/
def latchLanes (w : Warp) (d : Dst) (x : Ext) (run : Mask) (f : Nat → Nat) : List DWord :=
  match x.dst with
  | .v n => lanes.map (fun l => BitVec.ofNat 64 (if d.w = 64 then ((w.reg n.toNat).getD l 0).toNat + 2 ^ 32 * ((w.reg (n.toNat + 1)).getD l 0).toNat
      else ((w.reg n.toNat).getD l 0).toNat))
  | _ => lanes.map (fun l => if run.has l then BitVec.ofNat d.w (f l) |>.setWidth 64 else 0)

/-- DST written by a fixed-latency instruction, with its cache fill (03 R64, R66, R78). -/
def writeDst (w : Warp) (d : Dst) (x : Ext) (run : Mask) (f : Nat → Nat) : Warp :=
  match x.dst with
  | .v n =>
    let w1 := w.writeVec n.toNat d.w run f
    if x.cfen then w1.cfill x.cfslot.toNat n.toNat else w1
  | .s n => w.putS n.toNat (BitVec.ofNat 64 (f 0))
  | _ => w

/-- The sources' dead marks, after the slots that their cache misses fill. -/
def markSources (w : Warp) (sh : Shape) (x : Ext) : Warp :=
  let w1 := ((w.fillMiss sh.a x.a).fillMiss sh.b x.b).fillMiss sh.c x.c
  ((w1.deadMark sh.a x.a).deadMark sh.b x.b).deadMark sh.c x.c

/-- The warp after its registers are written (03 R78). -/
def writeBack (w : Warp) (sh : Shape) (x : Ext) (run : Mask) (r : Res) : Warp :=
  let w1 := r.claims.foldl (fun w n => w.setLive n) (markSources w sh x)
  let w2 := match sh.dst with
    | some d => if sh.fixed then writeDst w1 d x run r.out else w1
    | none => w1
  r.preds.foldl (fun w p => w.putPred p.1 p.2.1 p.2.2) w2

/-- The PC, and the place in the run, after an instruction (02 R30). The run of an instruction that blocked ended when it
blocked (R34). -/
def Warp.advance (w : Warp) (pc : VAddr) (ends : Bool) (now : Nat) : Warp :=
  if ends then { w with pc := pc, runPos := 0, runStart := pc, bpSkip := false, waiting := none, relatch := none, issueFrom := now + 1
                        since := if w.waiting.isSome && w.relatch.isSome then w.since else now }
  else { w with pc := pc, runPos := w.runPos + 1, bpSkip := false, waiting := none, relatch := none, issueFrom := now + 1 }

/-- Whether an instruction shifts the latches (05 R112). -/
def shifts (sh : Shape) (x : Ext) : Bool := sh.fixed && sh.dst.isSome && (x.dst.isCls .vec || x.dst.isCls .latch)

/-- The latches after an instruction. -/
def shiftLatches (s : State) (c slot : Nat) (w : Warp) (sh : Shape) (x : Ext) (run : Mask) (f : Nat → Nat) : State :=
  match sh.dst with
  | none => s
  | some d =>
    if shifts sh x then
      s.modSched c (schedOf slot) (fun q =>
        if q.cur = some slot ∧ q.midRun then q.shift (latchLanes w d x run f) (d.w == 64) else q)
    else s

/-- The end of a run: the scheduler selects again and both latches are invalid (02 R32, R35). -/
def State.endRun (s : State) (c slot : Nat) : State :=
  s.modSched c (schedOf slot) (fun q => if q.cur = some slot then { q.clearLatches with midRun := false } else q)

/-- A trap taken after an instruction's effect (09 R231): POISON before FPX, then the instruction's own. -/
def afterTrap (g : Group) (r : Res) : Option Trap :=
  match r.poison with
  | some l => raise 0x11 l
  | none => if BitVec.ofNat 5 r.flags &&& g.fpEn ≠ 0 then raise 0x31 r.flags else r.after

/-- The sources of an instruction that name a cache slot, by whether the slot is valid (05 R119). -/
def cacheReads (w : Warp) (sh : Shape) (x : Ext) (hit : Bool) : Nat :=
  let one := fun (p : Option Pos) (f : Src) => match p, f.op with
    | some _, .c i => if (w.slot i.toNat).valid == hit then 1 else 0
    | _, _ => 0
  one sh.a x.a + one sh.b x.b + one sh.c x.c

/-- Whether a warp is blocked in its instruction, which issued when it blocked (02 R31). -/
def Warp.blocked (w : Warp) : Bool := w.waiting.isSome && w.relatch.isSome

/-- The registers that an instruction reads from the file: a cache hit reads none of it (05 R122). -/
def fileReads (w : Warp) (sh : Shape) (x : Ext) : List Nat :=
  let one := fun (p : Option Pos) (f : Src) => match f.op with
    | .c i => if (w.slot i.toNat).valid then [] else readRegs w p f
    | _ => readRegs w p f
  one sh.a x.a ++ (if sh.srcs = 1 then one sh.b x.b else sh.readsB w x.b) ++ one sh.c x.c

/-- D: how long file reads of one bank delay an issue (05 R122). -/
def bankDelay (rs : List Nat) : Nat :=
  let ds := rs.eraseDups
  (List.range 8).foldl (fun m b => max m (ds.filter (fun n => n % 8 == b)).length) 0 - 1

/-- The cycles of an instruction's wait in place, and those of bank delay among them (02 R32; 05 R122). -/
def Issue.stalls (i : Issue) (sh : Shape) : Nat × Nat :=
  let n := i.k.cycle.toNat - i.w.issueFrom
  (n, min n (bankDelay (fileReads i.w sh i.x)))

/-- The counts of an instruction at its issue (17 Table 4). -/
def countIssue (sh : Shape) (i : Issue) (s : State) : State :=
  if i.w.blocked then s else s.modCore i.c (fun k => { k with evctrs := Tab.mapVal k.evctrs (fun _ x =>
    (((((x.bump 0x02 1).bump 0x03 (if i.w.runPos = 0 then 1 else 0)).bump 0x04 (i.stalls sh).1).bump 0x05 (i.stalls sh).2).bump 0x06
      (cacheReads i.w sh i.x true)).bump 0x07 (cacheReads i.w sh i.x false)) })

/-- The end of an instruction whose effect is done (03 R78). -/
def finish (sp : Spec) (i : Issue) (r : Res) : State :=
  match r.s.warp? i.c i.slot with
  | none => r.s
  | some w0 =>
    let ends := i.x.bnd || sp.ends
    let w1 := writeBack w0 sp.shape i.x i.run r
    let w2 := w1.advance (r.next.getD i.nextPc) ends (r.s.core i.c).cycle.toNat
    let s1 := shiftLatches (r.s.setWarp i.c i.slot w2) i.c i.slot w1 sp.shape i.x i.run r.out
    let s2 := if ends then s1.endRun i.c i.slot else s1
    let s3 := countIssue sp.shape i (s2.modGroup i.c i.w.gid (fun g => { g with fpFlags := g.fpFlags ||| BitVec.ofNat 5 r.flags }))
    match afterTrap i.g r with
    | none => s3
    | some t => s3.trapHere i.c i.slot t

/-- A warp that waits in its instruction: blocked, its run's place kept (02 R31; 05 R115). -/
def State.blockIn (s : State) (c slot : Nat) (t : Waiting) : State :=
  match s.warp? c slot with
  | none => s
  | some w =>
    let lt := (s.core c).latches slot w
    (s.setWarp c slot { w with waiting := some t, relatch := some lt, since := (s.core c).cycle.toNat }).leaveSched c slot

/-- What the machine does for the outcome of a meaning. -/
def settle (sp : Spec) (i : Issue) (e : Eff) : State :=
  match e with
  | .trap t => i.s.trapHere i.c i.slot t
  | .done r => finish sp i r
  | .final s => s
  | .block t s => countIssue sp.shape i (s.blockIn i.c i.slot t)
  | .hold t s => s.modWarp i.c i.slot (fun w => { w with waiting := some t })
  | .stall => i.s

/-- One instruction of a warp: the checks, then its meaning. -/
def issueState (sp : Spec) (kBad : Bool) (i : Issue) : State :=
  match checkTrap sp kBad i with
  | some t => i.s.trapHere i.c i.slot t
  | none =>
    match specPoison sp i with
    | some (t, u) => (i.s.uncorrectable i.c u).trapHere i.c i.slot t
    | none => settle sp i (sp.body i)

/-- An instruction run by the acting warp. -/
def runSpec (sp : Spec) (kBad : Bool) (x : Ext) (len : Nat) (s : State) : Host.Outcome State Fault Refusal :=
  match s.cur with
  | .warp c slot =>
    match s.warp? c slot with
    | none => .fault .noActor
    | some w =>
      match s.group? c w.gid with
      | none => .fault .noActor
      | some g => .next (issueState sp kBad (mkIssue s c slot w g sp.shape x len))
  | _ => .fault .noActor

/-- The byte length of an extended instruction (03 Table 2). -/
def extLen (x : Ext) : Nat := if x.lit.isSome then 20 else 12
/-- The byte length of a base instruction (03 Table 2). -/
def baseLen (lit : Option DWord) : Nat := if lit.isSome then 12 else 4

/-- An extended instruction. -/
def runExt (f : Ext → Spec) (x : Ext) (s : State) : Host.Outcome State Fault Refusal := runSpec (f x) false x (extLen x) s

/-- The extended instruction with every field 0, whose positions a base form takes. -/
def extZero : Ext := Ext.base false (.v 0) Src.zero Src.zero Src.zero none

/-- A B-ALU form (03 R58). -/
def runAlu (f : Ext → Spec) (b : BAlu) (s : State) : Host.Outcome State Fault Refusal :=
  let sh := (f extZero).shape
  let x := b.toExt sh
  runSpec (f x) (b.kBad sh) x (baseLen b.lit) s

/-- A B-IMM form. -/
def runImm (f : Ext → Spec) (b : BImm) (s : State) : Host.Outcome State Fault Refusal :=
  let x := b.toExt (f extZero).shape
  runSpec (f x) false x (baseLen b.lit) s

/-- A B-MEM form of a load or of a store. -/
def runMem (load : Bool) (f : Ext → Spec) (b : BMem) (s : State) : Host.Outcome State Fault Refusal :=
  let x := b.toExt load (f extZero).shape
  runSpec (f x) false x (baseLen b.lit) s

/-- A waiting instruction run again by an event of its warp: `f` runs it with that warp acting (02 R31). -/
def resume (s : State) (c slot : Nat) (f : State → Host.Outcome State Fault Refusal) : Host.Outcome State Fault Refusal :=
  match f { s with cur := .warp c slot } with
  | .next t => .next { t with cur := s.cur }
  | o => o

end Sys2Proof.Machine
end

