-- ==== Sys2Proof/Machine/Integer.lean ====
section
/-! DEFINITION. Integer, shift, logic, bit-field, address, predicate and edge-mask instructions, and the moves between lanes
and the warp (06 R138 to R155). -/

namespace Sys2Proof.Machine

/-! ## Common modifiers (06 R138, R139) -/

/-- Bit `n` of MODS, counted from word 0 bit 22. -/
def modBit (x : Ext) (n : Nat) : Bool := x.mods.getLsbD n
/-- MODS bits [hi:lo], counted from word 0 bit 22. -/
def modField (x : Ext) (hi lo : Nat) : Nat := bitsOf x.mods.toNat hi lo
/-- W64. -/
def w64 (x : Ext) : Bool := modBit x 0
/-- NAT. -/
def natM (x : Ext) : Bool := modBit x 1
/-- SAT. -/
def satM (x : Ext) : Bool := modBit x 2
/-- The width w of 06 R139. -/
def intWidth (x : Ext) : Nat := if w64 x then 64 else 32

/-- x(v, w) of 06 R139. -/
def intVal (nat : Bool) (v w : Nat) : Int := if nat then ((v % 2 ^ w : Nat) : Int) else sextNat v w

/-- fin(r, w) of 06 R139. -/
def intFin (nat sat : Bool) (r : Int) (w : Nat) : Nat :=
  if sat then (if nat then wrapInt (satN r w) w else wrapInt (satS r w) w) else wrapInt r w

/-- The predicate `p` of lane `l`, negated where `neg`. -/
def Issue.predIn (i : Issue) (p : Nat) (neg : Bool) (l : Nat) : Bool := i.w.pred p l != neg

/-- A shape with a fixed latency, the modifier bits given, and two or three sources. -/
def intShape (m : BitVec 10) (d : Dst) (a b c : Option Pos) : Shape :=
  { Shape.bare with m := m, anyGuard := true, fixed := true, dst := some d, a := a, b := b, c := c }

/-- Two sources and a result of width w. -/
def arith2 (m : BitVec 10) (w : Nat) (f : Int → Int → Int) (x : Ext) : Spec :=
  Spec.plain (intShape m (Dst.any w) (some (Pos.lane w)) (some (Pos.lane w)) none) (fun i =>
    i.out (fun l => intFin (natM x) (satM x) (f (intVal (natM x) (i.a l) w) (intVal (natM x) (i.b l) w)) w))

/-! ## Arithmetic (06 Table 2) -/

/-- IADD. -/
def iaddSpec (x : Ext) : Spec := arith2 7#10 (intWidth x) (fun a b => a + b) x
/-- IADD, B-ALU (06 R142). -/
def execIaddAlu (b : BAlu) (s : State) : Host.Outcome State Fault Refusal := runAlu iaddSpec b s
/-- IADD, B-IMM (03 R478). -/
def execIaddImm (b : BImm) (s : State) : Host.Outcome State Fault Refusal := runImm iaddSpec b s
/-- IADD, extended (06 R142). -/
def execIaddExt (x : Ext) (s : State) : Host.Outcome State Fault Refusal := runExt iaddSpec x s

/-- ISUB. -/
def isubSpec (x : Ext) : Spec := arith2 7#10 (intWidth x) (fun a b => a - b) x
/-- ISUB, B-ALU (06 R142). -/
def execIsubAlu (b : BAlu) (s : State) : Host.Outcome State Fault Refusal := runAlu isubSpec b s
/-- ISUB, B-IMM (03 R478). -/
def execIsubImm (b : BImm) (s : State) : Host.Outcome State Fault Refusal := runImm isubSpec b s
/-- ISUB, extended (06 R142). -/
def execIsubExt (x : Ext) (s : State) : Host.Outcome State Fault Refusal := runExt isubSpec x s

/-- IADDC: the carry-in, SUB's complement, and the carry-out (06 R143). -/
def iaddcSpec (x : Ext) : Spec :=
  let w := intWidth x
  let sum := fun (i : Issue) (l : Nat) =>
    let bb := if modBit x 3 then 2 ^ w - 1 - i.b l else i.b l
    i.a l + bb + (if i.predIn (bitsOf x.mods3.toNat 2 0) (x.mods3.getLsbD 3) l then 1 else 0)
  Spec.plain { intShape 0b1001#10 (Dst.lane w) (some (Pos.lane w)) (some (Pos.lane w)) none with m2 := 7#6, m3 := 15#6 } (fun i =>
    .done { i.res with
      out := fun l => sum i l % 2 ^ w
      preds := [(bitsOf x.mods2.toNat 2 0, i.run, maskOf (fun l => decide (sum i l / 2 ^ w % 2 = 1)))] })
/-- IADDC (06 R143). -/
def execIaddc (x : Ext) (s : State) : Host.Outcome State Fault Refusal := runExt iaddcSpec x s

/-- IMUL. -/
def imulSpec (x : Ext) : Spec := arith2 7#10 (intWidth x) (fun a b => a * b) x
/-- IMUL, B-ALU (06 R142). -/
def execImulAlu (b : BAlu) (s : State) : Host.Outcome State Fault Refusal := runAlu imulSpec b s
/-- IMUL, B-IMM (03 R478). -/
def execImulImm (b : BImm) (s : State) : Host.Outcome State Fault Refusal := runImm imulSpec b s
/-- IMUL, extended (06 R142). -/
def execImulExt (x : Ext) (s : State) : Host.Outcome State Fault Refusal := runExt imulSpec x s

/-- IMULH: floor(A * B / 2^w). -/
def imulhSpec (x : Ext) : Spec :=
  let w := intWidth x
  Spec.plain (intShape 3#10 (Dst.any w) (some (Pos.lane w)) (some (Pos.lane w)) none) (fun i =>
    i.out (fun l => wrapInt (intVal (natM x) (i.a l) w * intVal (natM x) (i.b l) w / (2 : Int) ^ w) w))
/-- IMULH, B-ALU (06 R142). -/
def execImulhAlu (b : BAlu) (s : State) : Host.Outcome State Fault Refusal := runAlu imulhSpec b s
/-- IMULH, B-IMM (03 R478). -/
def execImulhImm (b : BImm) (s : State) : Host.Outcome State Fault Refusal := runImm imulhSpec b s
/-- IMULH, extended (06 R142). -/
def execImulhExt (x : Ext) (s : State) : Host.Outcome State Fault Refusal := runExt imulhSpec x s

/-- IMAD. -/
def imadSpec (x : Ext) : Spec :=
  let w := intWidth x
  let v := fun n => intVal (natM x) n w
  Spec.plain (intShape 7#10 (Dst.any w) (some (Pos.lane w)) (some (Pos.lane w)) (some (Pos.lane w))) (fun i =>
    i.out (fun l => intFin (natM x) (satM x) (v (i.a l) * v (i.b l) + v (i.d l)) w))
/-- IMAD (06 R142). -/
def execImad (x : Ext) (s : State) : Host.Outcome State Fault Refusal := runExt imadSpec x s

/-- IMADW: 32-bit factors, a 64-bit addend and sum. -/
def imadwSpec (x : Ext) : Spec :=
  let v := fun n w => intVal (natM x) n w
  Spec.plain (intShape 6#10 (Dst.any 64) (some (Pos.lane 32)) (some (Pos.lane 32)) (some (Pos.lane 64))) (fun i =>
    i.out (fun l => intFin (natM x) (satM x) (v (i.a l) 32 * v (i.b l) 32 + v (i.d l) 64) 64))
/-- IMADW (06 R142). -/
def execImadw (x : Ext) (s : State) : Host.Outcome State Fault Refusal := runExt imadwSpec x s

/-- IMIN, or IMAX when `big`: one of the sources. -/
def iminmaxSpec (big : Bool) (x : Ext) : Spec := arith2 3#10 (intWidth x) (fun a b => if big then max a b else min a b) x
/-- IMIN, B-ALU (06 R142). -/
def execIminAlu (b : BAlu) (s : State) : Host.Outcome State Fault Refusal := runAlu (iminmaxSpec false) b s
/-- IMIN, B-IMM (03 R478). -/
def execIminImm (b : BImm) (s : State) : Host.Outcome State Fault Refusal := runImm (iminmaxSpec false) b s
/-- IMIN, extended (06 R142). -/
def execIminExt (x : Ext) (s : State) : Host.Outcome State Fault Refusal := runExt (iminmaxSpec false) x s
/-- IMAX, B-ALU (06 R142). -/
def execImaxAlu (b : BAlu) (s : State) : Host.Outcome State Fault Refusal := runAlu (iminmaxSpec true) b s
/-- IMAX, B-IMM (03 R478). -/
def execImaxImm (b : BImm) (s : State) : Host.Outcome State Fault Refusal := runImm (iminmaxSpec true) b s
/-- IMAX, extended (06 R142). -/
def execImaxExt (x : Ext) (s : State) : Host.Outcome State Fault Refusal := runExt (iminmaxSpec true) x s

/-- IABS: the signed magnitude. -/
def iabsSpec (x : Ext) : Spec :=
  let w := intWidth x
  Spec.plain (intShape 5#10 (Dst.any w) (some (Pos.lane w)) none none) (fun i =>
    i.out (fun l => intFin false (satM x) ((sextNat (i.a l) w).natAbs : Int) w))
/-- IABS, B-ALU (06 R142). -/
def execIabsAlu (b : BAlu) (s : State) : Host.Outcome State Fault Refusal := runAlu iabsSpec b s
/-- IABS, extended (06 R142). -/
def execIabsExt (x : Ext) (s : State) : Host.Outcome State Fault Refusal := runExt iabsSpec x s

/-- IADD64. -/
def iadd64Spec (x : Ext) : Spec := arith2 6#10 64 (fun a b => a + b) x
/-- IADD64, B-ALU (06 R142). -/
def execIadd64Alu (b : BAlu) (s : State) : Host.Outcome State Fault Refusal := runAlu iadd64Spec b s
/-- IADD64, B-IMM (03 R478). -/
def execIadd64Imm (b : BImm) (s : State) : Host.Outcome State Fault Refusal := runImm iadd64Spec b s
/-- IADD64, extended (06 R142). -/
def execIadd64Ext (x : Ext) (s : State) : Host.Outcome State Fault Refusal := runExt iadd64Spec x s

/-- IDOT4: four byte products and the addend. -/
def idot4Spec (x : Ext) : Spec :=
  let natb := modBit x 3
  let nat := natM x && natb
  let term := fun (a b k : Nat) => intVal (natM x) (a / 2 ^ (8 * k)) 8 * intVal natb (b / 2 ^ (8 * k)) 8
  Spec.plain (intShape 0b1110#10 (Dst.any 32) (some (Pos.lane 32)) (some (Pos.lane 32)) (some (Pos.lane 32))) (fun i =>
    i.out (fun l => intFin nat (satM x)
      (intVal nat (i.d l) 32 + (term (i.a l) (i.b l) 0 + term (i.a l) (i.b l) 1 + term (i.a l) (i.b l) 2 + term (i.a l) (i.b l) 3)) 32))
/-- IDOT4 (06 R142). -/
def execIdot4 (x : Ext) (s : State) : Host.Outcome State Fault Refusal := runExt idot4Spec x s

/-! ## Shifts and logic (06 Table 3) -/

/-- A shift: `f` takes the value, the width and the count. -/
def shiftOp (m : BitVec 10) (f : Nat → Nat → Nat → Nat) (x : Ext) : Spec :=
  let w := intWidth x
  Spec.plain (intShape m (Dst.any w) (some (Pos.lane w)) (some (Pos.lane 32)) none) (fun i => i.out (fun l => f (i.a l) w (i.b l)))

/-- Left shift; 0 when n ≥ w. -/
def shlVal (a w n : Nat) : Nat := if w ≤ n then 0 else a * 2 ^ n % 2 ^ w
/-- Right shift of the natural value; 0 when n ≥ w. -/
def shrVal (a w n : Nat) : Nat := if w ≤ n then 0 else a / 2 ^ n
/-- Right shift of the signed value. -/
def sarVal (a w n : Nat) : Nat := wrapInt (sextNat a w / (2 : Int) ^ min n w) w
/-- Rotation left by n mod w, or right. -/
def rotVal (right : Bool) (a w n : Nat) : Nat :=
  let k := if right then (w - n % w) % w else n % w
  (a * 2 ^ k % 2 ^ w) + a / 2 ^ (w - k)

/-- ISHL, B-ALU (06 R144). -/
def execIshlAlu (b : BAlu) (s : State) : Host.Outcome State Fault Refusal := runAlu (shiftOp 1#10 shlVal) b s
/-- ISHL, B-IMM (03 R478). -/
def execIshlImm (b : BImm) (s : State) : Host.Outcome State Fault Refusal := runImm (shiftOp 1#10 shlVal) b s
/-- ISHL, extended (06 R144). -/
def execIshlExt (x : Ext) (s : State) : Host.Outcome State Fault Refusal := runExt (shiftOp 1#10 shlVal) x s
/-- ISHR, B-ALU (06 R144). -/
def execIshrAlu (b : BAlu) (s : State) : Host.Outcome State Fault Refusal := runAlu (shiftOp 1#10 shrVal) b s
/-- ISHR, B-IMM (03 R478). -/
def execIshrImm (b : BImm) (s : State) : Host.Outcome State Fault Refusal := runImm (shiftOp 1#10 shrVal) b s
/-- ISHR, extended (06 R144). -/
def execIshrExt (x : Ext) (s : State) : Host.Outcome State Fault Refusal := runExt (shiftOp 1#10 shrVal) x s
/-- ISAR, B-ALU (06 R144). -/
def execIsarAlu (b : BAlu) (s : State) : Host.Outcome State Fault Refusal := runAlu (shiftOp 1#10 sarVal) b s
/-- ISAR, B-IMM (03 R478). -/
def execIsarImm (b : BImm) (s : State) : Host.Outcome State Fault Refusal := runImm (shiftOp 1#10 sarVal) b s
/-- ISAR, extended (06 R144). -/
def execIsarExt (x : Ext) (s : State) : Host.Outcome State Fault Refusal := runExt (shiftOp 1#10 sarVal) x s

/-- IROT. -/
def irotSpec (x : Ext) : Spec := shiftOp 9#10 (rotVal (modBit x 3)) x
/-- IROT, B-ALU (06 R144). -/
def execIrotAlu (b : BAlu) (s : State) : Host.Outcome State Fault Refusal := runAlu irotSpec b s
/-- IROT, B-IMM (03 R478). -/
def execIrotImm (b : BImm) (s : State) : Host.Outcome State Fault Refusal := runImm irotSpec b s
/-- IROT, extended (06 R144). -/
def execIrotExt (x : Ext) (s : State) : Host.Outcome State Fault Refusal := runExt irotSpec x s

/-- A bitwise operation. -/
def logicOp (f : Nat → Nat → Nat → Nat) (x : Ext) : Spec :=
  let w := intWidth x
  Spec.plain (intShape 1#10 (Dst.any w) (some (Pos.lane w)) (some (Pos.lane w)) none) (fun i => i.out (fun l => f w (i.a l) (i.b l)))

/-- AND. -/
def andVal (_w a b : Nat) : Nat := a &&& b
/-- OR. -/
def orVal (_w a b : Nat) : Nat := a ||| b
/-- XOR. -/
def xorVal (_w a b : Nat) : Nat := a ^^^ b
/-- ANDN. -/
def andnVal (w a b : Nat) : Nat := a &&& (2 ^ w - 1 - b)

/-- AND, B-ALU (06 R144). -/
def execAndAlu (b : BAlu) (s : State) : Host.Outcome State Fault Refusal := runAlu (logicOp andVal) b s
/-- AND, B-IMM (03 R478). -/
def execAndImm (b : BImm) (s : State) : Host.Outcome State Fault Refusal := runImm (logicOp andVal) b s
/-- AND, extended (06 R144). -/
def execAndExt (x : Ext) (s : State) : Host.Outcome State Fault Refusal := runExt (logicOp andVal) x s
/-- OR, B-ALU (06 R144). -/
def execOrAlu (b : BAlu) (s : State) : Host.Outcome State Fault Refusal := runAlu (logicOp orVal) b s
/-- OR, B-IMM (03 R478). -/
def execOrImm (b : BImm) (s : State) : Host.Outcome State Fault Refusal := runImm (logicOp orVal) b s
/-- OR, extended (06 R144). -/
def execOrExt (x : Ext) (s : State) : Host.Outcome State Fault Refusal := runExt (logicOp orVal) x s
/-- XOR, B-ALU (06 R144). -/
def execXorAlu (b : BAlu) (s : State) : Host.Outcome State Fault Refusal := runAlu (logicOp xorVal) b s
/-- XOR, B-IMM (03 R478). -/
def execXorImm (b : BImm) (s : State) : Host.Outcome State Fault Refusal := runImm (logicOp xorVal) b s
/-- XOR, extended (06 R144). -/
def execXorExt (x : Ext) (s : State) : Host.Outcome State Fault Refusal := runExt (logicOp xorVal) x s
/-- ANDN, B-ALU (06 R144). -/
def execAndnAlu (b : BAlu) (s : State) : Host.Outcome State Fault Refusal := runAlu (logicOp andnVal) b s
/-- ANDN, B-IMM (03 R478). -/
def execAndnImm (b : BImm) (s : State) : Host.Outcome State Fault Refusal := runImm (logicOp andnVal) b s
/-- ANDN, extended (06 R144). -/
def execAndnExt (x : Ext) (s : State) : Host.Outcome State Fault Refusal := runExt (logicOp andnVal) x s

/-- A number from its bits, the bit of `2^0` first. -/
def natOfBits (f : Nat → Bool) : Nat → Nat
  | 0 => 0
  | n + 1 => natOfBits f n + (if f n then 2 ^ n else 0)

/-- LMIX's table lookup (06 R144). -/
def lmixVal (tbl w a b c : Nat) : Nat :=
  natOfBits (fun n => tbl.testBit ((a.testBit n).toNat + 2 * (b.testBit n).toNat + 4 * (c.testBit n).toNat)) w

/-- LMIX. -/
def lmixSpec (x : Ext) : Spec :=
  let w := intWidth x
  Spec.plain (intShape 0b1111111101#10 (Dst.any w) (some (Pos.lane w)) (some (Pos.lane w)) (some (Pos.lane w))) (fun i =>
    i.out (fun l => lmixVal (modField x 9 2) w (i.a l) (i.b l) (i.d l)))
/-- LMIX (06 R144). -/
def execLmix (x : Ext) (s : State) : Host.Outcome State Fault Refusal := runExt lmixSpec x s

/-- A bit-group instruction; `wide` when DST has the width of the source. -/
def bitOp (wide : Bool) (f : Nat → Nat → Nat) (x : Ext) : Spec :=
  let w := intWidth x
  Spec.plain (intShape 1#10 (Dst.any (if wide then w else 32)) (some (Pos.lane w)) none none) (fun i => i.out (fun l => f w (i.a l)))

/-- Leading zeros; w for 0. -/
def clzVal (w a : Nat) : Nat := if a = 0 then w else w - 1 - Nat.log2 a
/-- Trailing zeros; w for 0. -/
def ctzVal (w a : Nat) : Nat := ((List.range w).find? (fun n => a.testBit n)).getD w
/-- The number of 1 bits. -/
def popcVal (w a : Nat) : Nat := ((List.range w).filter (fun n => a.testBit n)).length
/-- The bits in reverse order. -/
def brevVal (w a : Nat) : Nat := natOfBits (fun n => a.testBit (w - 1 - n)) w

/-- CLZ (06 R144). -/
def execClz (x : Ext) (s : State) : Host.Outcome State Fault Refusal := runExt (bitOp false clzVal) x s
/-- CTZ (06 R144). -/
def execCtz (x : Ext) (s : State) : Host.Outcome State Fault Refusal := runExt (bitOp false ctzVal) x s
/-- POPC (06 R144). -/
def execPopc (x : Ext) (s : State) : Host.Outcome State Fault Refusal := runExt (bitOp false popcVal) x s
/-- BREV (06 R144). -/
def execBrev (x : Ext) (s : State) : Host.Outcome State Fault Refusal := runExt (bitOp true brevVal) x s

/-! ## Bit fields, selection, addresses and moves (06 R145 to R148) -/

/-- BFX's result. -/
def bfxVal (nat : Bool) (w a ctl : Nat) : Nat :=
  let pos := ctl % 256
  let len := min (ctl / 256 % 256) w
  let f := a / 2 ^ pos % 2 ^ len
  if !nat && decide (0 < len) then wrapInt (sextNat f len) w else f

/-- BFI's result. -/
def bfiVal (w a b ctl : Nat) : Nat :=
  let pos := ctl % 256
  let len := min (ctl / 256 % 256) w
  let mask := (2 ^ len - 1) * 2 ^ pos % 2 ^ w
  (a &&& (2 ^ w - 1 - mask)) ||| (b * 2 ^ pos % 2 ^ w &&& mask)

/-- BFX. -/
def bfxSpec (x : Ext) : Spec :=
  let w := intWidth x
  Spec.plain (intShape 3#10 (Dst.any w) (some (Pos.lane w)) (some (Pos.lane 32)) none) (fun i =>
    i.out (fun l => bfxVal (natM x) w (i.a l) (i.b l)))
/-- BFX (06 R145). -/
def execBfx (x : Ext) (s : State) : Host.Outcome State Fault Refusal := runExt bfxSpec x s

/-- BFI. -/
def bfiSpec (x : Ext) : Spec :=
  let w := intWidth x
  Spec.plain (intShape 1#10 (Dst.any w) (some (Pos.lane w)) (some (Pos.lane w)) (some (Pos.lane 32))) (fun i =>
    i.out (fun l => bfiVal w (i.a l) (i.b l) (i.d l)))
/-- BFI (06 R145). -/
def execBfi (x : Ext) (s : State) : Host.Outcome State Fault Refusal := runExt bfiSpec x s

/-- ISEL. -/
def iselSpec (x : Ext) : Spec :=
  let w := intWidth x
  Spec.plain (intShape 0b1111001#10 (Dst.lane w) (some (Pos.lane w)) (some (Pos.lane w)) none) (fun i =>
    i.out (fun l => if i.predIn (modField x 5 3) (modBit x 6) l then i.a l else i.b l))
/-- ISEL (06 R146). -/
def execIsel (x : Ext) (s : State) : Host.Outcome State Fault Refusal := runExt iselSpec x s

/-- LEA. -/
def leaSpec (x : Ext) : Spec :=
  Spec.plain (intShape 0b111010#10 (Dst.any 64) (some (Pos.lane 64)) (some (Pos.lane 32)) none) (fun i =>
    i.out (fun l => wrapInt ((i.a l : Int) + intVal (natM x) (i.b l) 32 * (2 : Int) ^ modField x 5 3) 64))
/-- LEA (06 R147). -/
def execLea (x : Ext) (s : State) : Host.Outcome State Fault Refusal := runExt leaSpec x s

/-- LDI. -/
def ldiSpec (x : Ext) : Spec :=
  let w := intWidth x
  Spec.plain (intShape 1#10 (Dst.any w) (some (Pos.lane w)) none none) (fun i => i.out (fun l => i.a l))
/-- LDI, B-ALU (06 R148). -/
def execLdiAlu (b : BAlu) (s : State) : Host.Outcome State Fault Refusal := runAlu ldiSpec b s
/-- LDI, extended (06 R148). -/
def execLdiExt (x : Ext) (s : State) : Host.Outcome State Fault Refusal := runExt ldiSpec x s

/-! ## Predicates and edge masks (06 R149 to R152) -/

/-- `compare` of 06 R149. -/
def compareInt (cmp : Nat) (a b : Int) : Bool :=
  match cmp with
  | 0 => decide (a = b)
  | 1 => decide (a ≠ b)
  | 2 => decide (a < b)
  | 3 => decide (a ≤ b)
  | 4 => decide (a > b)
  | _ => decide (a ≥ b)

/-- BOP of 06 R149. -/
def boolOp (bop : Nat) (t q : Bool) : Bool :=
  match bop with
  | 0 => t && q
  | 1 => t || q
  | _ => t != q

/-- A predicate written in every lane that executes. -/
def Issue.setPred (i : Issue) (p : Nat) (f : Nat → Bool) : Eff := .done { i.res with preds := [(p, i.run, maskOf f)] }

/-- ISET. -/
def isetSpec (x : Ext) : Spec :=
  let w := intWidth x
  let cmp := modField x 5 3
  let bop := modField x 7 6
  Spec.plain { Shape.bare with
      m := 0b0011111011#10, m2 := 7#6, m3 := 15#6, bad := decide (6 ≤ cmp) || decide (bop = 3), anyGuard := true, fixed := true
      a := some (Pos.lane w), b := some (Pos.lane w) } (fun i =>
    i.setPred (bitsOf x.mods2.toNat 2 0) (fun l =>
      boolOp bop (compareInt cmp (intVal (natM x) (i.a l) w) (intVal (natM x) (i.b l) w))
        (i.predIn (bitsOf x.mods3.toNat 2 0) (x.mods3.getLsbD 3) l)))
/-- ISET (06 R149). -/
def execIset (x : Ext) (s : State) : Host.Outcome State Fault Refusal := runExt isetSpec x s

/-- PSET. -/
def psetSpec (x : Ext) : Spec :=
  Spec.plain { Shape.bare with m := 0xFF#10, m2 := 0x3F#6, m3 := 0x3F#6, anyGuard := true, fixed := true } (fun i =>
    i.setPred (bitsOf x.mods2.toNat 2 0) (fun l =>
      (modField x 7 0).testBit ((i.w.pred (bitsOf x.mods3.toNat 2 0) l).toNat + 2 * (i.w.pred (bitsOf x.mods3.toNat 5 3) l).toNat +
        4 * (i.w.pred (bitsOf x.mods2.toNat 5 3) l).toNat)))
/-- PSET (06 R150). -/
def execPset (x : Ext) (s : State) : Host.Outcome State Fault Refusal := runExt psetSpec x s

/-- The shape of a PMOV by FORM (06 Table 4). -/
def pmovShape (form : Nat) : Shape :=
  let sh := { Shape.bare with fixed := true, m := 7#10 }
  match form with
  | 0 => { sh with m2 := 7#6, anyGuard := true, a := some (Pos.lane 32) }
  | 1 => { sh with m3 := 7#6, anyGuard := true, dst := some (Dst.lane 32) }
  | 2 => { sh with m3 := 7#6, dst := some Dst.uni }
  | 3 => { sh with m2 := 7#6, anyGuard := true, a := some (Pos.uni 32) }
  | 4 => { sh with m := 0b11111#10, a := some (Pos.uni 64), b := some (Pos.uni 64) }
  | 5 => { sh with m := 0b111111#10, dst := some Dst.uni }
  | _ => { sh with bad := true }

/-- PMOV. -/
def pmovSpec (x : Ext) : Spec :=
  let form := modField x 2 0
  let pd := bitsOf x.mods2.toNat 2 0
  let pa := bitsOf x.mods3.toNat 2 0
  let mi := modField x 4 3
  Spec.plain (pmovShape form) (fun i =>
    match form with
    | 0 => i.setPred pd (fun l => decide (i.a l ≠ 0))
    | 1 => i.out (fun l => if i.w.pred pa l then 1 else 0)
    | 2 => i.out (fun _ => (maskOf (fun l => i.w.pred pa l)).toNat)
    | 3 => i.setPred pd (fun l => (i.a l).testBit l)
    | 4 => i.to (i.s.modWarp i.c i.slot (fun w => { w with m := Tab.set w.m mi (BitVec.ofNat 128 (i.a 0 + 2 ^ 64 * i.b 0)) }))
    | _ => i.out (fun _ => (i.w.edge mi).toNat / 2 ^ (if modBit x 5 then 64 else 0) % 2 ^ 64))
/-- PMOV (06 R151). -/
def execPmov (x : Ext) (s : State) : Host.Outcome State Fault Refusal := runExt pmovSpec x s

/-- PCNT. -/
def pcntSpec (x : Ext) : Spec :=
  Spec.plain { Shape.bare with fixed := true, m3 := 15#6, dst := some Dst.uni } (fun i =>
    i.out (fun _ => (i.w.active.list.filter (fun l => i.predIn (bitsOf x.mods3.toNat 2 0) (x.mods3.getLsbD 3) l)).length))
/-- PCNT (06 R152). -/
def execPcnt (x : Ext) (s : State) : Host.Outcome State Fault Refusal := runExt pcntSpec x s

/-! ## Between lanes and the warp (06 R153 to R155) -/

/-- VTOS. The lowest active lane that is not a helper is the lowest active lane: a helper is idle or exited (02 R29). -/
def vtosSpec (x : Ext) : Spec :=
  let w := intWidth x
  let lsel := modBit x 3
  Spec.plain { Shape.bare with
      m := 0b1011#10, fixed := true, dst := some Dst.uni, a := some (Pos.of [.vec, .cache, .latch, .idLane, .idUni] w)
      b := if lsel then some (Pos.uni 32) else none } (fun i =>
    let l := if lsel then i.b 0 % 32 else i.w.active.list.headD 0
    i.out (fun _ => wrapInt (intVal (natM x) (i.a l) w) 64))
/-- VTOS (06 R153). -/
def execVtos (x : Ext) (s : State) : Host.Outcome State Fault Refusal := runExt vtosSpec x s

/-- STOV. -/
def stovSpec (x : Ext) : Spec :=
  let w := intWidth x
  Spec.plain (intShape 1#10 (Dst.lane w) (some (Pos.uni w)) (some (Pos.uni w)) none) (fun i => i.out (fun l => (i.a l + l * i.b l) % 2 ^ w))
/-- STOV (06 R154). -/
def execStov (x : Ext) (s : State) : Host.Outcome State Fault Refusal := runExt stovSpec x s

/-- ELECT. -/
def electSpec (x : Ext) : Spec :=
  Spec.plain { Shape.bare with m2 := 7#6, anyGuard := true, fixed := true, dst := some Dst.uni } (fun i =>
    let n := (lanes.filter (fun l => i.w.active.has l && i.grd.has l)).headD 32
    .done { i.res with
      out := fun _ => n
      preds := [(bitsOf x.mods2.toNat 2 0, i.w.active ||| i.hlp, maskOf (fun l => decide (l = n)))] })
/-- ELECT (06 R155). -/
def execElect (x : Ext) (s : State) : Host.Outcome State Fault Refusal := runExt electSpec x s

end Sys2Proof.Machine
end

