-- ==== Sys2Proof/Machine/Float.lean ====
section
/-! DEFINITION. Floating-point, packed, conversion and block-format instructions (07 R166 to R181, R183). -/

namespace Sys2Proof.Machine

/-! ## Modifiers and flags (07 R167, R168; 04 R89) -/

/-- RM. -/
def rmOf (x : Ext) : RMode := modField x 1 0
/-- FTZ. -/
def ftzOf (x : Ext) : Bool := modBit x 2
/-- Source `n` (0 A, 1 B, 2 C) as R168 gives it. -/
def srcFp (f : Fmt) (x : Ext) (n v : Nat) : Nat := f.source (ftzOf x) (modBit x (6 + n)) (modBit x (3 + n)) v

/-- The flags of the lanes that execute and are not helpers (04 R89). -/
def Issue.laneFlags (i : Issue) (f : Nat → Nat) : Nat := lanes.foldl (fun t l => if i.acts l then t ||| f l else t) 0

/-- A result with flags by lane. -/
def Issue.outFp (i : Issue) (f : Nat → Nat × Nat) : Eff :=
  .done { i.res with out := fun l => (f l).1, flags := i.laneFlags (fun l => (f l).2) }

/-- An IEEE instruction of one to three sources. -/
def fpOp (f : Fmt) (m : BitVec 10) (nsrc : Nat) (op : Nat → Nat → Nat → Nat × Nat) (x : Ext) : Spec :=
  let p := some (Pos.fp f)
  Spec.plain (intShape m (Dst.lane (Pos.fp f).w) p (if 2 ≤ nsrc then p else none) (if 3 ≤ nsrc then p else none)) (fun i =>
    i.outFp (fun l => f.finish (ftzOf x) (op (srcFp f x 0 (i.a l)) (srcFp f x 1 (i.b l)) (srcFp f x 2 (i.d l)))))

/-- a + b on patterns. -/
def addOp (f : Fmt) (m : RMode) (a b _c : Nat) : Nat × Nat := f.addFp m (f.unpack a) (f.unpack b)
/-- a - b on patterns. -/
def subOp (f : Fmt) (m : RMode) (a b _c : Nat) : Nat × Nat := f.addFp m (f.unpack a) (f.unpack (f.source false false true b))
/-- a * b on patterns. -/
def mulOp (f : Fmt) (m : RMode) (a b _c : Nat) : Nat × Nat := f.mul m (f.unpack a) (f.unpack b)
/-- a * b + c on patterns, rounded once. -/
def fmaOp (f : Fmt) (m : RMode) (a b c : Nat) : Nat × Nat := f.fma m (f.unpack a) (f.unpack b) (f.unpack c)

/-! ## FP32 arithmetic (07 Table 2) -/

/-- FADD. -/
def faddSpec (x : Ext) : Spec := fpOp .f32 0b11011111#10 2 (addOp .f32 (rmOf x)) x
/-- FADD, B-ALU (07 R169). -/
def execFaddAlu (b : BAlu) (s : State) : Host.Outcome State Fault Refusal := runAlu faddSpec b s
/-- FADD, B-IMM (03 R478). -/
def execFaddImm (b : BImm) (s : State) : Host.Outcome State Fault Refusal := runImm faddSpec b s
/-- FADD, extended (07 R169). -/
def execFaddExt (x : Ext) (s : State) : Host.Outcome State Fault Refusal := runExt faddSpec x s

/-- FSUB. -/
def fsubSpec (x : Ext) : Spec := fpOp .f32 0b11011111#10 2 (subOp .f32 (rmOf x)) x
/-- FSUB, B-ALU (07 R169). -/
def execFsubAlu (b : BAlu) (s : State) : Host.Outcome State Fault Refusal := runAlu fsubSpec b s
/-- FSUB, B-IMM (03 R478). -/
def execFsubImm (b : BImm) (s : State) : Host.Outcome State Fault Refusal := runImm fsubSpec b s
/-- FSUB, extended (07 R169). -/
def execFsubExt (x : Ext) (s : State) : Host.Outcome State Fault Refusal := runExt fsubSpec x s

/-- FMUL. -/
def fmulSpec (x : Ext) : Spec := fpOp .f32 0b11011111#10 2 (mulOp .f32 (rmOf x)) x
/-- FMUL, B-ALU (07 R169). -/
def execFmulAlu (b : BAlu) (s : State) : Host.Outcome State Fault Refusal := runAlu fmulSpec b s
/-- FMUL, B-IMM (03 R478). -/
def execFmulImm (b : BImm) (s : State) : Host.Outcome State Fault Refusal := runImm fmulSpec b s
/-- FMUL, extended (07 R169). -/
def execFmulExt (x : Ext) (s : State) : Host.Outcome State Fault Refusal := runExt fmulSpec x s

/-- FFMA. -/
def ffmaSpec (x : Ext) : Spec := fpOp .f32 0b111111111#10 3 (fmaOp .f32 (rmOf x)) x
/-- FFMA (07 R169). -/
def execFfma (x : Ext) (s : State) : Host.Outcome State Fault Refusal := runExt ffmaSpec x s

/-- FMIN, or FMAX when `big`. -/
def fminmaxSpec (big : Bool) (x : Ext) : Spec := fpOp .f32 0b11011100#10 2 (fun a b _ => Fmt.f32.minMax big a b) x
/-- FMIN, B-ALU (07 R170). -/
def execFminAlu (b : BAlu) (s : State) : Host.Outcome State Fault Refusal := runAlu (fminmaxSpec false) b s
/-- FMIN, B-IMM (03 R478). -/
def execFminImm (b : BImm) (s : State) : Host.Outcome State Fault Refusal := runImm (fminmaxSpec false) b s
/-- FMIN, extended (07 R170). -/
def execFminExt (x : Ext) (s : State) : Host.Outcome State Fault Refusal := runExt (fminmaxSpec false) x s
/-- FMAX, B-ALU (07 R170). -/
def execFmaxAlu (b : BAlu) (s : State) : Host.Outcome State Fault Refusal := runAlu (fminmaxSpec true) b s
/-- FMAX, B-IMM (03 R478). -/
def execFmaxImm (b : BImm) (s : State) : Host.Outcome State Fault Refusal := runImm (fminmaxSpec true) b s
/-- FMAX, extended (07 R170). -/
def execFmaxExt (x : Ext) (s : State) : Host.Outcome State Fault Refusal := runExt (fminmaxSpec true) x s

/-! ## FSET and FCLASS (07 R171, R172, R183) -/

/-- FSET's comparison and its flags (07 R171): NV for a signalling NaN where no operand is poison (04 Table 3), and under CMP 010 to
101 for a quiet NaN, beside poison too. -/
def fcompare (cmp : Nat) (a b : Fp) : Bool × Nat :=
  let un := a.isNan || b.isNan
  let t := match cmp with
    | 0 => !un && a.numEq b
    | 1 => un || !(a.numEq b)
    | 2 => !un && a.numLt b
    | 3 => !un && (a.numLt b || a.numEq b)
    | 4 => !un && b.numLt a
    | 5 => !un && (b.numLt a || a.numEq b)
    | 6 => !un
    | _ => un
  let bad := a.isPoison || b.isPoison
  let quiet := fun (x : Fp) => x.isNan && !x.isPoison && !x.isSnan
  let nv := (!bad && (a.isSnan || b.isSnan)) || ((quiet a || quiet b) && decide (2 ≤ cmp) && decide (cmp ≤ 5))
  (t, if nv then 16 else 0)

/-- The lowest lane that executes, is not a helper and read poison (07 R183). -/
def Issue.poisonAt (i : Issue) (f : Nat → Bool) : Option Nat := lanes.find? (fun l => i.acts l && f l)

/-- FSET. -/
def fsetSpec (x : Ext) : Spec :=
  let cmp := bitsOf x.mods2.toNat 5 3
  let bop := bitsOf x.mods3.toNat 5 4
  Spec.plain { Shape.bare with
      m := 0b11011100#10, m2 := 0x3F#6, m3 := 0x3F#6, bad := decide (bop = 3), anyGuard := true, fixed := true
      a := some (Pos.fp .f32), b := some (Pos.fp .f32) } (fun i =>
    let va := fun l => Fmt.f32.unpack (srcFp .f32 x 0 (i.a l))
    let vb := fun l => Fmt.f32.unpack (srcFp .f32 x 1 (i.b l))
    .done { i.res with
      preds := [(bitsOf x.mods2.toNat 2 0, i.run, maskOf (fun l =>
        boolOp bop (fcompare cmp (va l) (vb l)).1 (i.predIn (bitsOf x.mods3.toNat 2 0) (x.mods3.getLsbD 3) l)))]
      flags := i.laneFlags (fun l => (fcompare cmp (va l) (vb l)).2)
      poison := i.poisonAt (fun l => (va l).isPoison || (vb l).isPoison) })
/-- FSET (07 R171). -/
def execFset (x : Ext) (s : State) : Host.Outcome State Fault Refusal := runExt fsetSpec x s

/-- The class bit of a binary32 pattern. -/
def fclassVal (v : Nat) : Nat :=
  match Fmt.f32.unpack v with
  | .inf neg => if neg then 1 else 0x80
  | .nan s p => if p then 0x400 else if s then 0x100 else 0x200
  | .fin neg m _ =>
    if m = 0 then (if neg then 8 else 0x10)
    else if Fmt.f32.subnormal v then (if neg then 4 else 0x20)
    else (if neg then 2 else 0x40)

/-- FCLASS. -/
def fclassSpec (_x : Ext) : Spec := Spec.plain (intShape 0 (Dst.lane 32) (some (Pos.fp .f32)) none none) (fun i => i.out (fun l => fclassVal (i.a l)))
/-- FCLASS (07 R172). -/
def execFclass (x : Ext) (s : State) : Host.Outcome State Fault Refusal := runExt fclassSpec x s

/-! ## Transcendentals (07 R173) -/

/-- A transcendental instruction by its MINOR. -/
def transSpec (fn : Nat) (x : Ext) : Spec :=
  fpOp .f32 (if fn = 0 ∨ fn = 2 then 0b1001111#10 else 0b1001100#10) 1 (fun a _ _ => Fmt.f32.transcendental fn (rmOf x) a) x
/-- FRCP (07 Table 3). -/
def execFrcp (x : Ext) (s : State) : Host.Outcome State Fault Refusal := runExt (transSpec 0) x s
/-- FRSQ (07 Table 3). -/
def execFrsq (x : Ext) (s : State) : Host.Outcome State Fault Refusal := runExt (transSpec 1) x s
/-- FSQRT (07 Table 3). -/
def execFsqrt (x : Ext) (s : State) : Host.Outcome State Fault Refusal := runExt (transSpec 2) x s
/-- FEXP2 (07 Table 3). -/
def execFexp2 (x : Ext) (s : State) : Host.Outcome State Fault Refusal := runExt (transSpec 3) x s
/-- FLOG2 (07 Table 3). -/
def execFlog2 (x : Ext) (s : State) : Host.Outcome State Fault Refusal := runExt (transSpec 4) x s
/-- FSIN (07 Table 3). -/
def execFsin (x : Ext) (s : State) : Host.Outcome State Fault Refusal := runExt (transSpec 5) x s
/-- FCOS (07 Table 3). -/
def execFcos (x : Ext) (s : State) : Host.Outcome State Fault Refusal := runExt (transSpec 6) x s
/-- FTANH (07 Table 3). -/
def execFtanh (x : Ext) (s : State) : Host.Outcome State Fault Refusal := runExt (transSpec 7) x s

/-! ## FP64 and packed arithmetic (07 R174, R175) -/

/-- DADD. -/
def daddSpec (x : Ext) : Spec := fpOp .f64 0b11011011#10 2 (addOp .f64 (rmOf x)) x
/-- DADD, B-ALU (07 R174). -/
def execDaddAlu (b : BAlu) (s : State) : Host.Outcome State Fault Refusal := runAlu daddSpec b s
/-- DADD, extended (07 R174). -/
def execDaddExt (x : Ext) (s : State) : Host.Outcome State Fault Refusal := runExt daddSpec x s
/-- DMUL. -/
def dmulSpec (x : Ext) : Spec := fpOp .f64 0b11011011#10 2 (mulOp .f64 (rmOf x)) x
/-- DMUL, B-ALU (07 R174). -/
def execDmulAlu (b : BAlu) (s : State) : Host.Outcome State Fault Refusal := runAlu dmulSpec b s
/-- DMUL, extended (07 R174). -/
def execDmulExt (x : Ext) (s : State) : Host.Outcome State Fault Refusal := runExt dmulSpec x s
/-- DFMA. -/
def dfmaSpec (x : Ext) : Spec := fpOp .f64 0b111111011#10 3 (fmaOp .f64 (rmOf x)) x
/-- DFMA (07 R174). -/
def execDfma (x : Ext) (s : State) : Host.Outcome State Fault Refusal := runExt dfmaSpec x s

/-- The format of a packed instruction. -/
def packFmt (x : Ext) : Fmt := if modBit x 9 then .bf16 else .f16

/-- A packed instruction: each half on its own, the flags of a lane those of both. -/
def packOp (m : BitVec 10) (nsrc : Nat) (op : Fmt → Nat → Nat → Nat → Nat × Nat) (x : Ext) : Spec :=
  let f := packFmt x
  let p := some (Pos.pair f)
  let half := fun (i : Issue) (l d : Nat) =>
    let v := fun n w => srcFp f x n (w / d % 65536)
    f.finish (ftzOf x) (op f (v 0 (i.a l)) (v 1 (i.b l)) (v 2 (i.d l)))
  Spec.plain (intShape m (Dst.lane 32) p p (if 3 ≤ nsrc then p else none)) (fun i =>
    i.outFp (fun l =>
      let lo := half i l 1
      let hi := half i l 65536
      (lo.1 + 65536 * hi.1, lo.2 ||| hi.2)))

/-- PKADD. -/
def pkaddSpec (x : Ext) : Spec := packOp 0b1011011111#10 2 (fun f => addOp f (rmOf x)) x
/-- PKADD, B-ALU (07 R175). -/
def execPkaddAlu (b : BAlu) (s : State) : Host.Outcome State Fault Refusal := runAlu pkaddSpec b s
/-- PKADD, extended (07 R175). -/
def execPkaddExt (x : Ext) (s : State) : Host.Outcome State Fault Refusal := runExt pkaddSpec x s
/-- PKMUL. -/
def pkmulSpec (x : Ext) : Spec := packOp 0b1011011111#10 2 (fun f => mulOp f (rmOf x)) x
/-- PKMUL, B-ALU (07 R175). -/
def execPkmulAlu (b : BAlu) (s : State) : Host.Outcome State Fault Refusal := runAlu pkmulSpec b s
/-- PKMUL, extended (07 R175). -/
def execPkmulExt (x : Ext) (s : State) : Host.Outcome State Fault Refusal := runExt pkmulSpec x s
/-- PKFMA. -/
def pkfmaSpec (x : Ext) : Spec := packOp 0b1111111111#10 3 (fun f => fmaOp f (rmOf x)) x
/-- PKFMA (07 R175). -/
def execPkfma (x : Ext) (s : State) : Host.Outcome State Fault Refusal := runExt pkfmaSpec x s

/-! ## CVT (07 R176, R177; 04 R95) -/

/-- The types of 07 Table 4. -/
inductive CvtType where
  | fp (f : Fmt)
  | int (bits : Nat) (nat : Bool)
  deriving DecidableEq, Repr

/-- A type by its code. -/
def CvtType.ofCode (k : Nat) : Option CvtType :=
  match k with
  | 0 => some (.fp .f32) | 1 => some (.fp .f64) | 2 => some (.fp .f16) | 3 => some (.fp .bf16)
  | 4 => some (.int 8 false) | 5 => some (.int 16 false) | 6 => some (.int 32 false) | 7 => some (.int 64 false)
  | 8 => some (.int 8 true) | 9 => some (.int 16 true) | 10 => some (.int 32 true) | 11 => some (.int 64 true)
  | _ => none

/-- The width of the values of a type. -/
def CvtType.bits (t : CvtType) : Nat := match t with | .fp f => f.width | .int n _ => n
/-- The width of its position. -/
def CvtType.posW (t : CvtType) : Nat := if t.bits = 64 then 64 else 32
/-- How its position reads an immediate. -/
def CvtType.kind (t : CvtType) : ImmKind := match t with | .fp f => .fp f | .int _ _ => .int

/-- A converted value: its bits in its own width extended to its position's, its flags, and whether poison met an integer type. -/
def cvtVal (ftz : Bool) (rm : RMode) (src dst : CvtType) (v : Nat) : Nat × Nat × Bool :=
  match src, dst with
  | .fp f, .fp g =>
    let x := f.source ftz false false v
    let r := g.finish ftz (if f = g then g.integral rm x else g.convert rm (f.unpack x))
    (r.1, r.2, false)
  | .fp f, .int n nat =>
    let r := toIntN rm n nat (f.unpack (f.source ftz false false v))
    (wrapInt (intVal nat r.1 n) (max n 32), r.2.1, r.2.2)
  | .int n nat, .fp g =>
    let r := g.finish ftz (g.ofInt rm (intVal nat v n))
    (r.1, r.2, false)
  | .int n nat, .int n' nat' =>
    let y := intVal nat v n
    (wrapInt (if nat' then satN y n' else satS y n') (max n' 32), 0, false)

/-- CVT between two types. -/
def cvtBetween (src dst : CvtType) (x : Ext) : Spec :=
  let shi := modBit x 3
  let dhi := modBit x 4
  let half := dst = .fp .f16 ∨ dst = .fp .bf16
  let sh := intShape 0b11111#10 (Dst.lane dst.posW) (some { cls := laneCls, w := src.posW, kind := src.kind }) none none
  let one := fun (i : Issue) (l : Nat) => cvtVal (ftzOf x) (rmOf x) src dst ((i.a l / (if shi then 65536 else 1)) % 2 ^ src.bits)
  Spec.plain { sh with m2 := 15#6, m3 := 15#6, bad := (shi && decide (src.bits ≠ 16)) || (dhi && !(decide half)) } (fun i =>
    .done { i.res with
      out := fun l => (one i l).1 * (if dhi then 65536 else 1)
      flags := i.laneFlags (fun l => (one i l).2.1)
      poison := i.poisonAt (fun l => (one i l).2.2) })

/-- CVT: a reserved type code raises IL-RSV. -/
def cvtSpec (x : Ext) : Spec :=
  match CvtType.ofCode (bitsOf x.mods3.toNat 3 0), CvtType.ofCode (bitsOf x.mods2.toNat 3 0) with
  | some src, some dst => cvtBetween src dst x
  | _, _ => Spec.plain { Shape.bare with bad := true } (fun i => i.to i.s)
/-- CVT (07 R176). -/
def execCvt (x : Ext) (s : State) : Host.Outcome State Fault Refusal := runExt cvtSpec x s

/-! ## Block-format instructions (07 R178 to R181) -/

/-- n of FMT. -/
def bqN (x : Ext) : Nat := modField x 2 0 + 1
/-- BLK. -/
def bqBlk (x : Ext) : Nat := bitsOf x.mods2.toNat 3 0
/-- FMT = 0, or a block that the register does not hold. -/
def bqBad (x : Ext) : Bool := decide (bqN x = 1) || decide (32 / bqWidth (bqN x) ≤ bqBlk x)

/-- Element `k` of block `b` as a register holds it (04 R94). -/
def regMant (n b : Nat) (v : Nat → Nat) (k : Nat) : Nat :=
  let w := bqWidth n
  v (b * w + k * w / 32) / 2 ^ (k % (32 / w) * w) % 2 ^ n

/-- Byte `sel` of lane bw of a scale register. -/
def scaleByte (n b sel : Nat) (v : Nat → Nat) : Nat := v (b * bqWidth n) / 2 ^ (8 * sel) % 256

/-- Flags of a block computation: set when a lane executes that is no helper (07 R178). -/
def Issue.blockFlags (i : Issue) (f : Nat) : Nat := if (i.run &&& ~~~i.hlp) ≠ 0 then f else 0

/-- The 32 values of a source of binary32 values. -/
def f32Lanes (v : Nat → Nat) : List Fp := lanes.map (fun l => Fmt.f32.unpack (v l))

/-- A lane word with byte `sel` replaced. -/
def putByteNat (x sel b : Nat) : Nat := x - x / 2 ^ (8 * sel) % 256 * 2 ^ (8 * sel) + b * 2 ^ (8 * sel)

/-- BQSCL. -/
def bqsclSpec (x : Ext) : Spec :=
  let n := bqN x
  let sh := intShape 0b110111#10 (Dst.lane 32) (some (Pos.fp .f32)) none (some (Pos.lane 32))
  Spec.plain { sh with m2 := 15#6, bad := bqBad x } (fun i =>
    let e := bqScale (f32Lanes i.a)
    i.out (fun l => if l = bqBlk x * bqWidth n then putByteNat (i.d l) (modField x 5 4) e else i.d l))
/-- BQSCL (07 R179). -/
def execBqscl (x : Ext) (s : State) : Host.Outcome State Fault Refusal := runExt bqsclSpec x s

/-- The word of lane `j` of a packed block: fields of width w, sign-extended mantissas (04 R94). -/
def packWord (n : Nat) (ms : List Int) (j : Nat) : Nat :=
  let w := bqWidth n
  let per := 32 / w
  (List.range per).foldl (fun t p => t + wrapInt (ms.getD (j * per + p) 0) w * 2 ^ (p * w)) 0

/-- CVTQ pack. -/
def cvtqPack (x : Ext) : Spec :=
  let n := bqN x
  let w := bqWidth n
  let sh := intShape 0b1111#10 (Dst.lane 32) (some (Pos.fp .f32)) none (some (Pos.lane 32))
  Spec.plain { sh with m2 := 15#6, bad := bqBad x } (fun i =>
    let r := bqPack n (f32Lanes i.a)
    let first := bqBlk x * w
    .done { i.res with
      out := fun l => if first ≤ l ∧ l < first + w then packWord n r.2.1 (l - first) else i.d l
      flags := i.blockFlags r.2.2 })

/-- CVTQ unpack. -/
def cvtqUnpack (x : Ext) : Spec :=
  let n := bqN x
  let sh := intShape 0b111111#10 (Dst.lane 32) (some (Pos.lane 32)) (some (Pos.lane 32)) none
  Spec.plain { sh with m2 := 15#6, bad := bqBad x } (fun i =>
    let e := scaleByte n (bqBlk x) (modField x 5 4) i.b
    i.out (fun l => (Fmt.f32.convert 0 (bqValue n e (regMant n (bqBlk x) i.a l))).1))
/-- CVTQ. -/
def cvtqSpec (x : Ext) : Spec := if modBit x 3 then cvtqUnpack x else cvtqPack x
/-- CVTQ (07 R180). -/
def execCvtq (x : Ext) (s : State) : Host.Outcome State Fault Refusal := runExt cvtqSpec x s

/-- The exact integer sum of products of two mantissa lists (04 R97). -/
def mantDot (nA nB : Nat) : List Nat → List Nat → Int
  | a :: ta, b :: tb => sextNat a nA * sextNat b nB + mantDot nA nB ta tb
  | _, _ => 0

/-- P of BQDOT for one block (07 R181). -/
def blockDot (n eA eB : Nat) (as bs : List Nat) : Nat × Nat :=
  if eA = 0xFF ∨ eB = 0xFF then
    let bad := (decide (eA = 0xFF) && as.any (fun m => m != 0)) || (decide (eB = 0xFF) && bs.any (fun m => m != 0))
    (if bad then Fmt.f32.poison else Fmt.f32.nan, 0)
  else
    let t := mantDot n n as bs
    Fmt.f32.round 0 (decide (t < 0)) t.natAbs ((eA : Int) + eB - 254 - 2 * ((n : Int) - 1)) false

/-- BQDOT. -/
def bqdotSpec (x : Ext) : Spec :=
  let n := bqN x
  let w := bqWidth n
  let sh := intShape 0b1111111#10 (Dst.lane 32) (some (Pos.lane 32)) (some (Pos.lane 32)) (some (Pos.lane 32))
  Spec.plain { sh with bad := decide (n = 1) } (fun i =>
    let ps := (List.range (32 / w)).map (fun b =>
      blockDot n (scaleByte n b (modField x 4 3) i.d) (scaleByte n b (modField x 6 5) i.d)
        (lanes.map (regMant n b i.a)) (lanes.map (regMant n b i.b)))
    .done { i.res with
      out := fun l => (ps.getD (l / w) (0, 0)).1
      flags := i.blockFlags (ps.foldl (fun t p => t ||| p.2) 0) })
/-- BQDOT (07 R181). -/
def execBqdot (x : Ext) (s : State) : Host.Outcome State Fault Refusal := runExt bqdotSpec x s

end Sys2Proof.Machine
end

