-- ==== Sys2Proof/Machine/DevMem.lean ====
section
/-! DEFINITION. Device memory by ASID and virtual address: stacks and home dies (10 R254 to R257), page walks and TLBs
(16 R385 to R390), home lines and guest copies (10 R252, R253; 11 R276, R277), atomics at their coherence point (11 R282),
and instruction fetch (03 R73). -/

namespace Sys2Proof.Machine

/-- Why an access fails (13 R322): V = 0 is the one that a command suspends on. -/
inductive MemErr where
  | notValid | perm | misplaced
  deriving DecidableEq, Repr

/-! ## Placement (10 R254 to R257) -/

/-- The stack that owns a virtual page (10 R254). -/
def stackOf (va : Nat) : Nat :=
  (List.range 12).foldl (fun t i => Nat.xor t (bitsOf va (18 + 3 * i) (16 + 3 * i))) 0

/-- The home die of a virtual page (10 R252). -/
def homeOf (va : Nat) : Nat := stackOf va / 2

/-- The slice of a line, on its home die and on every die that holds a guest copy of it (10 R252). -/
def sliceOf (va : Nat) : Nat := (List.range 11).foldl (fun t i => Nat.xor t (bitsOf va (11 + 4 * i) (8 + 4 * i))) 0

/-- The quadrant and the core router of a slice (10 R252). -/
def sliceRouter (slice : Nat) : Nat × Nat := (slice / 4, slice % 4)

/-- Whether two lines fall in one set of one slice (10 R252, R253; log 44). -/
def sameSet (asid line asid' line' : Nat) : Bool :=
  sliceOf (128 * line) == sliceOf (128 * line') && Config.l2Set asid line % 4096 == Config.l2Set asid' line' % 4096

/-- The entry of the ASID state table (16 R391). -/
def State.asid (s : State) (a : Nat) : AsidEntry := Tab.getD s.pkg.asids a AsidEntry.reset

/-- The index of a walk at a level, counted from 1 (16 R385). -/
def walkIndex (merged : Bool) (lv va : Nat) : Nat :=
  if merged then (if lv = 1 then bitsOf va 51 34 else bitsOf va 33 16)
  else match lv with
    | 1 => bitsOf va 51 43
    | 2 => bitsOf va 42 34
    | 3 => bitsOf va 33 25
    | _ => bitsOf va 24 16

/-- The bits of a VA that name an entry of a level. -/
def walkPrefix (merged : Bool) (lv va : Nat) : Nat :=
  if merged then (if lv = 1 then va / 2 ^ 34 else va / 2 ^ 16)
  else match lv with
    | 1 => va / 2 ^ 43
    | 2 => va / 2 ^ 34
    | 3 => va / 2 ^ 25
    | _ => va / 2 ^ 16

/-- LS of an entry. -/
def pteLs (t : Nat) : Nat := bitsOf t 2 1
/-- ADDR of a pointer. -/
def pteTable (t : Nat) : Nat := bitsOf t 51 12 * 4096
/-- W of a leaf. -/
def pteW (t : Nat) : Bool := bitsOf t 3 3 == 1
/-- X of a leaf. -/
def pteX (t : Nat) : Bool := bitsOf t 4 4 == 1
/-- U of a leaf. -/
def pteU (t : Nat) : Bool := bitsOf t 5 5 == 1
/-- AH of a leaf. -/
def pteAh (t : Nat) : Bool := bitsOf t 6 6 == 1
/-- P of a leaf. -/
def pteP (t : Nat) : Bool := bitsOf t 7 7 == 1

/-- Whether a level allows an LS value (16 Table 3). -/
def lsAllowed (merged : Bool) (lv ls : Nat) : Bool :=
  if merged then (if lv = 1 then ls == 0 || ls == 2 else ls == 1)
  else match lv with
    | 2 => ls == 0 || ls == 2
    | 4 => ls == 1
    | _ => ls == 0

/-- Whether a valid entry is well formed (16 R387) and, for a leaf, accepted by 10 R256 and R257. -/
def pteOk (merged : Bool) (lv t va : Nat) : Bool :=
  bitsOf t 55 52 == 0 && bitsOf t 11 8 == 0 && lsAllowed merged lv (pteLs t) &&
  (match pteLs t with
   | 0 => bitsOf t 7 3 == 0 && paOk (pteTable t) && (!merged || pteTable t % 2 ^ 21 == 0)
   | 1 => bitsOf t 15 12 == 0 && paOk (bitsOf t 51 16 * 65536) && bitsOf t 51 36 == stackOf va
   | _ => bitsOf t 15 12 == 0 && bitsOf t 51 36 == 0 && bitsOf t 30 16 == 0 && decide (bitsOf t 35 31 ≤ 23))

/-- The physical address of a byte under a leaf (10 R256, R257). -/
def leafPa (t va : Nat) : Nat :=
  if pteLs t = 2 then stackOf va * 2 ^ 36 + bitsOf t 35 31 * 2 ^ 31 + bitsOf va 33 19 * 65536 + va % 65536
  else bitsOf t 51 16 * 65536 + va % 65536

/-! ## Walks (16 R388, R389) -/

/-- A pointer of a walk cache. -/
def Stack.walkHit (k : Stack) (asid : Nat) (merged : Bool) (lv pre : Nat) : Option Nat :=
  (k.walk.find? (fun e => e.asid == asid && e.merged == merged && e.level == lv && e.prefixBits == pre)).map WalkEntry.base

/-- The leaf of a TLB. -/
def Stack.tlbHit (k : Stack) (asid va : Nat) : Option Nat :=
  (k.tlb.find? (fun e => e.asid == asid && e.vpn == (if e.big then va / 2 ^ 34 else va / 2 ^ 16))).map (fun e => e.leaf.toNat)

/-- A walk from a level down: the state with the pointers it cached, and the leaf or its failure. A poisoned entry is read as
one that is not well formed (log 12). -/
def walk (merged : Bool) (asid va st : Nat) : Nat → Nat → Nat → State → State × Except MemErr Nat
  | 0, _, _, s => (s, .error .misplaced)
  | fuel + 1, lv, base, s =>
    match (s.stack st).walkHit asid merged lv (walkPrefix merged lv va) with
    | some nb => walk merged asid va st fuel (lv + 1) nb s
    | none =>
      let pa := base + 8 * walkIndex merged lv va
      let t := s.readPhys pa 8
      if s.physPoison pa 8 then (s, .error .misplaced)
      else if t % 2 = 0 then (s, .error .notValid)
      else if !(pteOk merged lv t va) then (s, .error .misplaced)
      else if pteLs t = 0 then
        let e : WalkEntry := { asid := asid, merged := merged, level := lv, prefixBits := walkPrefix merged lv va, base := pteTable t }
        walk merged asid va st fuel (lv + 1) (pteTable t) (s.modStack st (fun k => { k with walk := (e :: k.walk).take 512 }))
      else (s, .ok t)

/-- The translation of a VA at its owning stack: the leaf, cached in the TLB (16 R388, R389), or the failure. -/
def State.translate (s : State) (asid va : Nat) : State × Except MemErr Nat :=
  let st := stackOf va
  let e := s.asid asid
  if e.state = 0 then (s, .error .notValid)
  else
    match (s.stack st).tlbHit asid va with
    | some t => (s, .ok t)
    | none =>
      let r := walk e.merged asid va st 4 1 e.root (s.countDie (st / 2) 0x48 1)
      match r.2 with
      | .error x => (r.1.countDie (st / 2) 0x49 1, .error x)
      | .ok t =>
        let big := pteLs t == 2
        let n : TlbEntry := { asid := asid, big := big, vpn := if big then va / 2 ^ 34 else va / 2 ^ 16, leaf := BitVec.ofNat 64 t }
        (r.1.modStack st (fun k => { k with tlb := (n :: k.tlb).take 4096 }), .ok t)

/-! ## Lines -/

/-- The ways of a set that hold home lines (10 R253). -/
def Die.homeWays (d : Die) : Nat := 16 - d.stagew - d.guestw

/-- The home line of a VA's line, if the L2 holds it. -/
def Die.homeLine (d : Die) (asid line : Nat) : Option HomeLine := d.home.find? (fun h => h.asid == asid && h.line == line)

/-- A home line put in place of the one it names, or added, as the one used last. -/
def Die.putHome (d : Die) (h : HomeLine) : Die :=
  { d with home := h :: d.home.filter (fun x => !(x.asid == h.asid && x.line == h.line)) }

/-- A home line that a walk no longer reaches is dropped: a line without TV is clean (16 R408). -/
def Die.dropHome (d : Die) (asid line : Nat) : Die :=
  { d with home := d.home.filter (fun h => !(h.asid == asid && h.line == line && !h.tv)) }

/-- The home line that a new line replaces: of a set whose ways are all held, the one used least recently (10 R253). -/
def Die.homeVictim (d : Die) (asid line : Nat) : Option HomeLine :=
  if d.home.length < d.homeWays then none
  else
    let set := d.home.filter (fun h => sameSet h.asid h.line asid line)
    if set.length < d.homeWays then none else set.getLast?

/-- The guest line of a VA's line. -/
def Die.guestLine (d : Die) (asid line : Nat) : Option GuestLine := d.guest.find? (fun h => h.asid == asid && h.line == line)

/-- A guest line put in place of the one it names, or added, as the one used last. -/
def Die.putGuest (d : Die) (h : GuestLine) : Die :=
  { d with guest := h :: d.guest.filter (fun x => !(x.asid == h.asid && x.line == h.line)) }

/-- A guest line is pinned while a write-through of it is not acknowledged (11 R276). -/
def GuestLine.pinned (h : GuestLine) : Bool := !h.wts.isEmpty

/-- A die with room for one more guest line: of a set whose ways are all held, the unpinned line used least recently is dropped
(10 R253; 11 R276); none where every one is pinned. -/
def Die.guestRoom (d : Die) (asid line : Nat) : Option Die :=
  let set := d.guest.filter (fun h => sameSet h.asid h.line asid line)
  if d.guest.length < d.guestw || (d.guestLine asid line).isSome || decide (set.length < d.guestw) then some d
  else ((set.filter (fun h => !h.pinned)).getLast?).map (fun v =>
    { d with guest := d.guest.filter (fun x => !(x.asid == v.asid && x.line == v.line)) })

/-- Bytes of a list replaced from an offset. -/
def patchBytes : List Byte → Nat → List Byte → List Byte
  | old, off, new => old.take off ++ new ++ old.drop (off + new.length)

/-- The 64-bit units that `n` bytes from `off` touch. -/
def unitsOf (off n : Nat) : List Nat := (List.range 16).filter (fun u => decide (8 * u < off + n) && decide (off < 8 * u + 8))

/-- Poison marks of a line after a write (10 R264): a unit covered whole takes the mark of the data, one covered in part keeps
its own and takes that of the data. -/
def patchPoison (marks : List Nat) (off n : Nat) (bad : Bool) : List Nat :=
  let kept := marks.filter (fun u => !(decide (off ≤ 8 * u) && decide (8 * u + 8 ≤ off + n)))
  if bad then (unitsOf off n).foldl insertNat kept else kept

/-- Whether a read of `n` bytes from `off` meets a poisoned unit. -/
def hitsPoison (marks : List Nat) (off n : Nat) : Bool := (unitsOf off n).any (fun u => marks.contains u)

/-- Bytes written to HBM4 with the poison mark of the data: a sector covered whole takes it, any other keeps its own too. -/
def State.writeHbm (s : State) (pa : Nat) (bs : List Byte) (bad : Bool) : State :=
  let s1 := s.writePhys pa bs
  if bad then
    let secs := (List.range ((pa + bs.length + 31) / 32 - pa / 32)).map (fun i => pa / 32 + i)
    s1.modPkg (fun p => { p with hbmPoison := secs.foldl insertNat p.hbmPoison })
  else s1

/-- An evicted home line written back (10 R253, R264): a poisoned unit poisons its sector. -/
def State.writeBack (s : State) (h : HomeLine) : State :=
  if h.dirty then
    let s1 := s.writePhys (32 * h.sector) h.data
    s1.modPkg (fun p => { p with hbmPoison := h.poison.foldl (fun l u => insertNat l (h.sector + u / 4)) p.hbmPoison })
  else s

/-- Where an access is served (10 R253; 16 R389). -/
inductive Reach where
  | fail (e : MemErr)
  | direct (pa : Nat) (ah : Bool)
  | home (h : HomeLine)

/-- A home line filled from its stack: a poisoned sector poisons the whole line (10 R264). -/
def fillLine (s : State) (asid line pa : Nat) (w : Bool) : HomeLine :=
  { asid := asid, line := line, sector := pa / 32, w := w, tv := true, dirty := false, data := Memory.readN s.pkg.hbm pa 128,
    poison := if s.physPoison pa 128 then List.range 16 else [] }

/-- A new home line put into its set; the line that it replaces is written back if it is dirty (10 R253). -/
def State.fillHome (s : State) (d : Nat) (h : HomeLine) : State :=
  match (s.die d).homeVictim h.asid h.line with
  | none => s.modDie d (fun k => k.putHome h)
  | some v => ((s.writeBack v).modDie d (fun k => { k with home := k.home.filter (fun x => !(x.asid == v.asid && x.line == v.line)) })).modDie d
      (fun k => k.putHome h)

/-- The translation of an access; a home line without TV whose translation fails is dropped (16 R408). -/
def State.translateFor (s : State) (asid va : Nat) : State × Except MemErr Nat :=
  let r := s.translate asid va
  match r.2 with
  | .error e => (r.1.modDie (homeOf va) (fun k => k.dropHome asid (va / 128)), .error e)
  | .ok t => (r.1, .ok t)

/-- An access brought to its coherence point: a home line with TV = 1 needs no translation, nor does a write to one with
W = 1 (16 R389); any other access is translated, and a line whose translation faults or names another sector is dropped first
(R408). Pages with U or AH = 1 go to the stack. -/
def State.reach (s : State) (asid va : Nat) (wr : Bool) : State × Reach :=
  let d := homeOf va
  let line := va / 128
  let old := (s.die d).homeLine asid line
  match old.filter (fun h => h.tv && (!wr || h.w)) with
  | some h => ((s.modDie d (fun k => k.putHome h)).countDie d 0x40 1, .home h)
  | none =>
    let r := s.translateFor asid va
    match r.2 with
    | .error e => (r.1, .fail e)
    | .ok t =>
      let pa := leafPa t va
      if !(paOk pa) then (r.1.modDie d (fun k => k.dropHome asid line), .fail .misplaced)
      else if wr && !(pteW t) then (r.1.modDie d (fun k => k.dropHome asid line), .fail .perm)
      else if pteU t || pteAh t then (r.1.modDie d (fun k => k.dropHome asid line), .direct pa (pteAh t))
      else
        match old.filter (fun h => h.sector == pa / 128 * 4) with
        | some h =>
          let h1 := { h with tv := true, w := pteW t }
          ((r.1.modDie d (fun k => k.putHome h1)).countDie d 0x40 1, .home h1)
        | none =>
          let h1 := fillLine r.1 asid line (pa / 128 * 128) (pteW t)
          ((r.1.fillHome d h1).countDie d 0x41 1, .home h1)

/-- What a read returns: its bytes, each with the mark of an uncorrectable error. -/
abbrev ReadRes := Except MemErr (List (Byte × Bool))

/-- `n` bytes of HBM4 with their marks. -/
def State.markedPhys (s : State) (pa n : Nat) : List (Byte × Bool) :=
  (List.range n).map (fun i => (Memory.read s.pkg.hbm (pa + i), s.pkg.hbmPoison.contains ((pa + i) / 32)))

/-- `n` bytes of a line with their marks. -/
def markedLine (data : List Byte) (poison : List Nat) (off n : Nat) : List (Byte × Bool) :=
  (List.range n).map (fun i => (data.getD (off + i) 0, poison.contains ((off + i) / 8)))

/-- `n` bytes within one line read at their coherence point. -/
def State.readHome (s : State) (asid va n : Nat) : State × ReadRes :=
  let r := s.reach asid va false
  match r.2 with
  | .fail e => (r.1, .error e)
  | .direct pa _ => (r.1, .ok (r.1.markedPhys pa n))
  | .home h => (r.1, .ok (markedLine h.data h.poison (va % 128) n))

/-- The words that a write changes, kept for instruction fetch (03 R73): `old` and `new` are the bytes of whole words from `va`. -/
def State.noteOld (s : State) (asid va : Nat) (old new : List Byte) : State :=
  let word := fun (l : List Byte) (i : Nat) => BitVec.ofNat 32 (ofBytes ((l.drop (4 * i)).take 4))
  let ws := (List.range (old.length / 4)).filter (fun i => word old i != word new i)
  s.modPkg (fun p => { p with
    oldWords := p.oldWords ++ ws.map (fun i => { asid := asid, word := va / 4 + i, val := word old i, num := p.oldNum })
    oldNum := p.oldNum + 1 })

/-- Bytes written to the stack from a VA, with the words that they replace kept for instruction fetch. -/
def State.writeDirect (s : State) (asid va pa : Nat) (bs : List Byte) (bad : Bool) : State :=
  let n := (va % 4 + bs.length + 3) / 4 * 4
  let old := Memory.readN s.pkg.hbm (pa - va % 4) n
  (s.noteOld asid (va - va % 4) old (patchBytes old (va % 4) bs)).writeHbm pa bs bad

/-- Bytes written to a home line. -/
def State.writeLine (s : State) (h : HomeLine) (va : Nat) (bs : List Byte) (bad : Bool) : State :=
  let h1 := { h with dirty := true, data := patchBytes h.data (va % 128) bs, poison := patchPoison h.poison (va % 128) bs.length bad }
  (s.noteOld h.asid (128 * h.line) h.data h1.data).modDie (homeOf va) (fun k => k.putHome h1)

/-- Bytes within one line written at their coherence point. -/
def State.writeHome (s : State) (asid va : Nat) (bs : List Byte) (bad : Bool) : State × Option MemErr :=
  let r := s.reach asid va true
  match r.2 with
  | .fail e => (r.1, some e)
  | .direct pa _ => (r.1.writeDirect asid va pa bs bad, none)
  | .home h => (r.1.writeLine h va bs bad, none)

/-- Bytes that a die's gateway sends, where an access leaves its die (17 Table 4, source 0x4A; DEDUCED, log 45). -/
def State.gateway (s : State) (from_ to_ n : Nat) : State := if from_ = to_ then s else s.countDie from_ 0x4A n

/-- A guest line that a read or a merge may use: pinned, or filled in the current generation (11 R277). -/
def Die.guestHit (d : Die) (asid line : Nat) : Option GuestLine :=
  (d.guestLine asid line).filter (fun h => h.pinned || h.gen == d.gen)

/-- A guest line filled from a home line, recording the current generation (11 R277). -/
def guestOf (d : Die) (h : HomeLine) : GuestLine :=
  { asid := h.asid, line := h.line, gen := d.gen, data := h.data, poison := h.poison, wts := [], sent := false, drop := none }

/-- `n` bytes within one line read from die `x` (11 R277): from a guest copy, or from home, filling a guest line. Where every way of
the set is pinned no line is filled (DESIGN CHOICE, log 44). -/
def State.readDev (s : State) (x asid va n : Nat) : State × ReadRes :=
  let d := homeOf va
  if x = d then s.readHome asid va n
  else
    match (s.die x).guestHit asid (va / 128) with
    | some h => ((s.modDie x (fun k => k.putGuest h)).countDie x 0x42 1, .ok (markedLine h.data h.poison (va % 128) n))
    | none =>
      let r := s.reach asid va false
      match r.2 with
      | .fail e => (r.1, .error e)
      | .direct pa _ => (r.1.gateway d x n, .ok (r.1.markedPhys pa n))
      | .home h =>
        let room := if (r.1.die x).guestw = 0 then none else (r.1.die x).guestRoom asid (va / 128)
        let s1 := match room with
          | none => r.1.gateway d x n
          | some k => ((r.1.setDie x (k.putGuest (guestOf k h))).countDie x 0x43 1).gateway d x 128
        (s1, .ok (markedLine h.data h.poison (va % 128) n))

/-- Whose write a write-through is, for the waits of 11 Table 8. -/
structure Writer where
  core : Nat
  gid : Nat
  cid : Nat
  unit : Nat
  deriving DecidableEq, Repr

/-- Bytes within one line written from die `x` (11 R276). Where every guest way of the set is pinned, the write is performed at home
at once and no copy is kept (DESIGN CHOICE, log 44). -/
def State.writeDev (s : State) (x asid va : Nat) (bs : List Byte) (bad : Bool) (who : Writer) : State × Option MemErr :=
  let d := homeOf va
  if x = d then s.writeHome asid va bs bad
  else if (s.die x).guestw = 0 then (s.gateway x d bs.length).writeHome asid va bs bad
  else
    let r := s.reach asid va true
    match r.2, (r.1.die x).guestRoom asid (va / 128) with
    | .fail e, _ => (r.1, some e)
    | .direct pa _, _ => ((r.1.gateway x d bs.length).writeDirect asid va pa bs bad, none)
    | .home h, none => ((r.1.gateway x d bs.length).writeLine h va bs bad, none)
    | .home h, some k =>
      let fresh := (k.guestHit asid (va / 128)).isNone
      let g := ((k.guestHit asid (va / 128)).getD (guestOf k h))
      let wt : WThrough := { core := who.core, gid := who.gid, cid := who.cid, unit := who.unit, off := va % 128, bytes := bs, bad := bad }
      let g1 := { g with data := patchBytes g.data (va % 128) bs, poison := patchPoison g.poison (va % 128) bs.length bad, wts := g.wts ++ [wt] }
      let s1 := (r.1.setDie x (k.putGuest g1)).countDie x 0x44 1
      (if fresh then (s1.countDie x 0x43 1).gateway d x 128 else s1, none)

/-- Whether a write-through of a command, or of any command of a group, is still to be acknowledged on a die. -/
def Die.outstanding (d : Die) (p : WThrough → Bool) : Bool := d.guest.any (fun h => h.wts.any p)

/-- What an atomic returns. -/
inductive AtomRes where
  | fail (e : MemErr)
  | poison
  | old (v : Nat)
  deriving DecidableEq, Repr

/-- An atomic of `n` bytes performed at its coherence point (11 R282): `f` gives the new value; a poisoned word stays as it is
(13 R317). -/
def State.atomDev (s : State) (asid va n : Nat) (f : Nat → Nat) : State × AtomRes :=
  let r := s.reach asid va true
  match r.2 with
  | .fail e => (r.1, .fail e)
  | .direct pa _ =>
    if r.1.physPoison pa n then (r.1, .poison)
    else
      let o := r.1.readPhys pa n
      (r.1.writeDirect asid va pa (toBytes (f o) n) false, .old o)
  | .home h =>
    if hitsPoison h.poison (va % 128) n then (r.1, .poison)
    else
      let o := ofBytes ((h.data.drop (va % 128)).take n)
      (r.1.writeLine h va (toBytes (f o) n) false, .old o)

/-- An atomic from die `x`: its operand goes to the line's home, and its old value comes back (17 Table 4, source 0x4A). -/
def State.atomFrom (s : State) (x asid va n : Nat) (f : Nat → Nat) : State × AtomRes :=
  let r := s.atomDev asid va n f
  ((r.1.gateway x (homeOf va) n).gateway (homeOf va) x n, r.2)

/-- Bytes that may cross lines, read at their coherence points a line at a time; none where a part fails. -/
def State.readSpan (s : State) (asid : Nat) : Nat → Nat → Nat → State × Except MemErr (List Byte)
  | 0, _, _ => (s, .ok [])
  | fuel + 1, va, n =>
    if n = 0 then (s, .ok [])
    else
      let m := min n (128 - va % 128)
      let r := s.readHome asid va m
      match r.2 with
      | .error e => (r.1, .error e)
      | .ok b =>
        let t := r.1.readSpan asid fuel (va + m) (n - m)
        match t.2 with
        | .error e => (t.1, .error e)
        | .ok bs => (t.1, .ok (b.map Prod.fst ++ bs))

/-- A dword of device memory at its coherence point; none where the access fails. -/
def State.readDword (s : State) (asid va : Nat) : State × Option Nat :=
  let r := s.readHome asid va 8
  match r.2 with
  | .ok b => (r.1, some (ofBytes (b.map Prod.fst)))
  | .error _ => (r.1, none)

/-! ## Instruction fetch (03 R73) -/

/-- The words of a line's bytes. -/
def lineWords (bs : List Byte) : List Word := (List.range 32).map (fun i => BitVec.ofNat 32 (ofBytes ((bs.drop (4 * i)).take 4)))

/-- A word of registered code as a fetch may find it (03 R73): the value that memory holds, or any that it held since the last ICINV
that covers the core; which of them is the part's choice, for each word alone. -/
def State.codeChoice (s : State) (c asid word : Nat) (now : Word) (n : Nat) : Word :=
  let olds := (s.pkg.oldWords.filter (fun o => o.asid == asid && o.word == word && decide ((s.core c).icSeq ≤ o.num))).map OldWord.val
  if olds.isEmpty then now else (now :: olds).getD (Config.freeChoice (s.free + n) % (olds.length + 1)) now

/-- The line of a code address brought into a core's instruction cache, read as its die reads it, and at its coherence point once an ICINV
has covered the core (11 R277; 12 R297). A line that cannot be
read, or that met an uncorrectable error, is not there afterwards (16 R401; log 12). A full cache loses the line that was filled first
(DESIGN CHOICE, log 44). -/
def State.fetchLine (s : State) (c asid a : Nat) : State :=
  if ((s.core c).icache.find? (fun l => l.asid == asid && l.line == a / 128)).isSome then s
  else
    let r := if (s.core c).icSeq = 0 then s.readDev (dieOf c) asid (a / 128 * 128) 128 else s.readHome asid (a / 128 * 128) 128
    match r.2 with
    | .error _ => r.1
    | .ok b =>
      if b.any Prod.snd then r.1
      else
        let ws := (lineWords (b.map Prod.fst)).zipIdx.map (fun p => r.1.codeChoice c asid (a / 128 * 32 + p.2) p.1 p.2)
        ({ r.1 with free := r.1.free + 32 } : State).modCore c (fun k =>
          { k with icache := ({ asid := asid, line := a / 128, words := ws } :: k.icache).take Config.icacheLines })

end Sys2Proof.Machine
end

