-- ==== Sys2Proof/Machine/Control.lean ====
section
/-! DEFINITION. Branches, calls, divergence, EXIT, RECAST, YIELD, NOP and the deliberate traps (02 R36 to R41; 06 R156 to
R165). -/

namespace Sys2Proof.Machine

/-! ## Targets (06 R156, R157) -/

/-- The position of OFF and of a code: an immediate or the 64-bit literal. -/
def offPos : Pos := Pos.of [.imm, .lit] 64

/-- The position of a code of BKPT, TRAP or SVC. -/
def codePos : Pos := Pos.of [.imm, .lit, .idUni] 64

/-- A PC's bits [1:0] are always 0 (03 R69): those of a split-stack entry, which MTS or a spill can have set, are not taken. -/
def wordPc (a : VAddr) : VAddr := a &&& ~~~3#52

/-- The direct target, exactly. -/
def directTarget (pc : VAddr) (off : Nat) : Int := (pc.toNat : Int) + 4 * sextNat off 64

/-- IL-OPC for a direct target outside [0, 2^52). -/
def directTrap (t : Int) : Option Trap := if 0 ≤ t ∧ t < (2 : Int) ^ 52 then none else raise 0x01 (wrapInt t 64)

/-- IL-OPC for an indirect target whose bits [1:0] or [63:52] are not zero. -/
def indirectTrap (t : Nat) : Option Trap := if t % 4 = 0 ∧ t < 2 ^ 52 then none else raise 0x01 t

/-- A meaning that first checks its direct target, which `i.b` holds as an offset. -/
def withTarget (i : Issue) (f : VAddr → Eff) : Eff :=
  let t := directTarget i.w.pc (i.b 0)
  match directTrap t with
  | some e => .trap e
  | none => f (BitVec.ofNat 52 t.toNat)

/-- A transfer to an address. -/
def Issue.jump (i : Issue) (pc : VAddr) : Eff := .done { i.res with next := some pc }

/-- The extended instruction that a B-BR form means: OFF22 as the 64-bit offset (06 R156). -/
def bbrExt (b : BBr) (dst : Opnd) : Ext :=
  Ext.base b.bnd dst Src.zero { op := .lit64, dead := false } Src.zero (some (b.off.signExtend 64))

/-! ## BRA, BRP, CALL, CALLI, RET and JMPI (06 R158) -/

/-- BRA. -/
def braSpec : Spec := Spec.plain { Shape.bare with b := some offPos } (fun i => withTarget i i.jump)
/-- BRA, B-BR (06 R158). -/
def execBraBr (b : BBr) (s : State) : Host.Outcome State Fault Refusal := runSpec braSpec false (bbrExt b (.v 0)) 4 s
/-- BRA, extended (06 R158). -/
def execBraExt (x : Ext) (s : State) : Host.Outcome State Fault Refusal := runExt (fun _ => braSpec) x s

/-- Whether BRP's test holds (06 R158). -/
def brpTaken (test : Nat) (active grd : Mask) : Bool :=
  if test = 0 then (active &&& grd) != 0 else (active &&& ~~~grd) == 0

/-- BRP. -/
def brpSpec (x : Ext) : Spec :=
  let test := modField x 1 0
  Spec.plain { Shape.bare with m := 3#10, bad := decide (2 ≤ test), anyGuard := true, b := some offPos } (fun i =>
    withTarget i (fun pc => if brpTaken test i.w.active i.grd then i.jump pc else i.to i.s))
/-- BRP (06 R158). -/
def execBrp (x : Ext) (s : State) : Host.Outcome State Fault Refusal := runExt brpSpec x s

/-- CALL: the link is next_instr of its own address. -/
def callSpec : Spec :=
  Spec.plain { Shape.bare with fixed := true, dst := some Dst.uni, b := some offPos } (fun i =>
    withTarget i (fun pc => .done { i.res with out := fun _ => i.nextPc.toNat, next := some pc }))
/-- CALL, B-BR: the link register is s15 (06 R158). -/
def execCallBr (b : BBr) (s : State) : Host.Outcome State Fault Refusal := runSpec callSpec false (bbrExt b (.s 15)) 4 s
/-- CALL, extended (06 R158). -/
def execCallExt (x : Ext) (s : State) : Host.Outcome State Fault Refusal := runExt (fun _ => callSpec) x s

/-- The position of an indirect target: uniform, and the 64-bit literal in the extended form (06 Table 5). -/
def targetPos (ext : Bool) : Pos := Pos.of (if ext then [.uni, .idUni, .lit] else [.uni, .idUni]) 64

/-- CALLI, RET or JMPI: `link` when the link register is written. -/
def indirectSpec (ext link : Bool) (_x : Ext) : Spec :=
  Spec.plain { Shape.bare with fixed := link, dst := if link then some Dst.uni else none, a := some (targetPos ext) } (fun i =>
    match indirectTrap (i.a 0) with
    | some t => .trap t
    | none => .done { i.res with out := fun _ => i.nextPc.toNat, next := some (BitVec.ofNat 52 (i.a 0)) })
/-- CALLI, B-ALU (06 R158). -/
def execCalliAlu (b : BAlu) (s : State) : Host.Outcome State Fault Refusal := runAlu (indirectSpec false true) b s
/-- CALLI, extended (06 R158). -/
def execCalliExt (x : Ext) (s : State) : Host.Outcome State Fault Refusal := runExt (indirectSpec true true) x s
/-- RET, B-ALU (06 R158). -/
def execRetAlu (b : BAlu) (s : State) : Host.Outcome State Fault Refusal := runAlu (indirectSpec false false) b s
/-- RET, extended (06 R158). -/
def execRetExt (x : Ext) (s : State) : Host.Outcome State Fault Refusal := runExt (indirectSpec true false) x s
/-- JMPI, B-ALU (06 R158). -/
def execJmpiAlu (b : BAlu) (s : State) : Host.Outcome State Fault Refusal := runAlu (indirectSpec false false) b s
/-- JMPI, extended (06 R158). -/
def execJmpiExt (x : Ext) (s : State) : Host.Outcome State Fault Refusal := runExt (indirectSpec true false) x s

/-! ## BRX and JOIN (02 R36 to R38; 06 R160) -/

/-- The entry that BRX pushes: the lanes of `m` not in `taken`, empty where all go one way (02 R36). -/
def brxEntry (pc : VAddr) (m taken : Mask) : SplitEntry :=
  { pc := pc, mask := if taken = 0 then 0 else m &&& ~~~taken, w := false }

/-- BRX. The split stack's top entry is the head of the list. With 16 entries and a target outside [0, 2^52), SPLIT-OVF comes first
(DESIGN CHOICE, log 41). -/
def brxSpec : Spec :=
  Spec.plain { Shape.bare with anyGuard := true, b := some offPos } (fun i =>
    if 16 ≤ i.w.split.length then .trap { cause := 0x18, tval := 0 }
    else
      withTarget i (fun pc =>
        let taken := i.w.active &&& i.grd
        let s := i.s.modWarp i.c i.slot (fun w =>
          { w with split := brxEntry i.nextPc w.active taken :: w.split, active := if taken = 0 then w.active else taken })
        .done { i.res with s := s, next := if taken = 0 then none else some pc }))
/-- BRX (06 R160). -/
def execBrx (x : Ext) (s : State) : Host.Outcome State Fault Refusal := runExt (fun _ => brxSpec) x s

/-- JOIN. -/
def joinSpec (_x : Ext) : Spec :=
  Spec.plain Shape.bare (fun i =>
    match i.w.split with
    | [] => if i.w.splCount ≠ 0 then .trap { cause := 0x18, tval := 1 } else i.to i.s
    | t :: rest =>
      if t.w then i.to (i.s.modWarp i.c i.slot (fun w => { w with split := rest, active := w.active ||| t.mask }))
      else if t.mask = 0 then i.to (i.s.modWarp i.c i.slot (fun w => { w with split := rest }))
      else
        let s := i.s.modWarp i.c i.slot (fun w =>
          { w with split := { pc := i.w.pc, mask := i.w.active, w := true } :: rest, active := t.mask })
        .done { i.res with s := s, next := some (wordPc t.pc) })
/-- JOIN, B-ALU (06 R160). -/
def execJoinAlu (b : BAlu) (s : State) : Host.Outcome State Fault Refusal := runAlu joinSpec b s
/-- JOIN, extended (06 R160). -/
def execJoinExt (x : Ext) (s : State) : Host.Outcome State Fault Refusal := runExt joinSpec x s

/-! ## EXIT (02 R39; 06 R161) -/

/-- The address after the instruction at `a` (03 R77), its length read from its word 0 through the instruction cache. -/
def State.nextInstr (s : State) (c asid : Nat) (a : VAddr) : State × VAddr :=
  let s1 := s.fetchLine c asid a.toNat
  (s1, a + BitVec.ofNat 52 (lenOf (((s1.core c).codeWord asid a.toNat).getD 0)))

/-- Entries on top of the stack with an empty mask discarded (02 R39 step 1). -/
def dropEmpty (st : List SplitEntry) : List SplitEntry := st.dropWhile (fun e => e.mask == 0)

/-- EXIT of the lanes `sel` by the warp's resumption rules (02 R39): the state and where the warp goes, if not on. -/
def exitLanes (i : Issue) (sel : Mask) : State × Option VAddr :=
  let left := i.w.active &&& ~~~sel
  let st := i.w.split.map (fun e => { e with mask := e.mask &&& ~~~sel })
  let w1 := { i.w with exited := i.w.exited ||| sel, active := left, split := st }
  if left ≠ 0 then (i.s.setWarp i.c i.slot w1, none)
  else
    match dropEmpty st with
    | [] =>
      let s := i.s.setWarp i.c i.slot { w1 with split := [], exited := w1.exited ||| w1.idle, idle := 0 }
      (s.warpExited i.c i.w.gid, none)
    | t :: rest =>
      if t.w then
        let r := i.s.nextInstr i.c i.g.asid (wordPc t.pc)
        (r.1.setWarp i.c i.slot { w1 with split := rest, active := t.mask }, some r.2)
      else (i.s.setWarp i.c i.slot { w1 with split := { t with mask := 0, w := true } :: rest, active := t.mask }, some (wordPc t.pc))

/-- EXIT. -/
def exitSpec (_x : Ext) : Spec :=
  Spec.blocks { Shape.bare with anyGuard := true } (fun _ => none) (fun i =>
    let sel := i.w.active &&& i.grd
    if (i.w.active &&& ~~~sel) = 0 ∧ i.w.split.all (fun e => (e.mask &&& ~~~sel) == 0) ∧ i.w.splCount ≠ 0 then
      .trap { cause := 0x18, tval := 1 }
    else
      let r := exitLanes i sel
      .done { i.res with s := r.1, next := r.2 })
/-- EXIT, B-ALU (06 R161). -/
def execExitAlu (b : BAlu) (s : State) : Host.Outcome State Fault Refusal := runAlu exitSpec b s
/-- EXIT, extended (06 R161). -/
def execExitExt (x : Ext) (s : State) : Host.Outcome State Fault Refusal := runExt exitSpec x s

/-! ## RECAST (02 R40, R41; 06 R162) -/

/-- What a blocked or waiting instruction is, for a warp. -/
def Issue.wait (i : Issue) (ins : Instr) : Waiting := { instr := ins, len := i.len, start := 0, tag := none, lns := [], flushes := 0 }

/-- Lanes paired with items in order, until either runs out. -/
def dealItems (cand : List Nat) (items : List DWord) : List (Nat × DWord) := cand.zip items

/-- The item of a lane among those dealt. -/
def itemOf (ds : List (Nat × DWord)) (l : Nat) : Option DWord := (ds.find? (fun p => p.1 == l)).map Prod.snd

/-- A half of the item pair after a refill. -/
def itemHalf (w : Warp) (n : Nat) (ds : List (Nat × DWord)) (f : DWord → Word) : Warp :=
  let v := w.reg n
  let w1 := w.landReg n (laneVec (fun l => match itemOf ds l with | some x => f x | none => v.getD l 0))
  { w1 with regPoison := w1.regPoison.filter (fun p => !(p.1 == n && (itemOf ds p.2).isSome)) }

/-- The warp after its candidates have been dealt items: refilled lanes active, the others idle. -/
def refill (w : Warp) (pair : Nat) (cand : Mask) (ds : List (Nat × DWord)) : Warp :=
  let got := maskOf (fun l => (itemOf ds l).isSome)
  let w1 := itemHalf (itemHalf w pair ds (fun x => x.setWidth 32)) (pair + 1) ds (fun x => x.extractLsb' 32 32)
  { w1 with
    active := (w.active &&& ~~~cand) ||| got
    idle := (w.idle ||| cand) &&& ~~~got
    iditem := lanes.map (fun l => (l, match itemOf ds l with
      | some x => x
      | none => if cand.has l then 0 else Tab.getD w.iditem l 0)) }

/-- The register number of a vector operand. -/
def vecNum (o : Opnd) : Nat := match o with | .v n => n.toNat | _ => 0

/-- The items that a RECAST of this cycle may take (14 R350). -/
def Group.castReady (g : Group) : List DWord := g.castQ.take (g.castQ.length - g.castNew)

/-- Whether a casting queue offers nothing yet, and may still do so: it is empty and open, or what it holds came in this cycle. -/
def Group.castDry (g : Group) : Bool := g.castReady.isEmpty && (g.castOpen || g.castNew != 0)

/-- RECAST. Its exit target is checked whether or not it is taken (06 R157). -/
def recastSpec (x : Ext) : Spec :=
  Spec.blocks { Shape.bare with anyGuard := true, dst := some (Dst.vec 64), b := some offPos } (fun _ => none) (fun i =>
    let pair := vecNum x.dst
    let cand := i.w.idle ||| (i.w.active &&& i.grd)
    withTarget i (fun pc =>
      if cand = 0 then .done { i.res with claims := [pair, pair + 1] }
      else if i.g.castDry && (i.w.active &&& ~~~i.grd) == 0 then .block (i.wait (.recast x)) i.s
      else
        let ds := dealItems cand.list i.g.castReady
        let w1 := refill i.w pair cand ds
        let s1 := (i.s.modGroup i.c i.w.gid (fun g => { g with castQ := g.castQ.drop ds.length })).countCore i.c 0x26 ds.length
        if w1.active ≠ 0 then .done { i.res with s := s1.setWarp i.c i.slot w1, claims := [pair, pair + 1] }
        else
          .done { i.res with
            s := s1.setWarp i.c i.slot { w1 with active := w1.idle, idle := 0 }
            next := some pc, claims := [pair, pair + 1] }))
/-- RECAST (06 R162). -/
def execRecast (x : Ext) (s : State) : Host.Outcome State Fault Refusal := runExt recastSpec x s

/-! ## YIELD, NOP and the deliberate traps (06 R163 to R165) -/

/-- YIELD. -/
def yieldSpec (_x : Ext) : Spec :=
  Spec.blocks Shape.bare (fun _ => none) (fun i =>
    i.to (i.s.modSched i.c (schedOf i.slot) (fun q => if q.cur = some i.slot then { q with yielded := true } else q)))
/-- YIELD, B-ALU (06 R163). -/
def execYieldAlu (b : BAlu) (s : State) : Host.Outcome State Fault Refusal := runAlu yieldSpec b s
/-- YIELD, extended (06 R163). -/
def execYieldExt (x : Ext) (s : State) : Host.Outcome State Fault Refusal := runExt yieldSpec x s

/-- NOP. -/
def nopSpec (_x : Ext) : Spec := Spec.plain { Shape.bare with anyGuard := true } (fun i => i.to i.s)
/-- NOP, B-ALU (06 R164). -/
def execNopAlu (b : BAlu) (s : State) : Host.Outcome State Fault Refusal := runAlu nopSpec b s
/-- NOP, extended (06 R164). -/
def execNopExt (x : Ext) (s : State) : Host.Outcome State Fault Refusal := runExt nopSpec x s

/-- BKPT, TRAP or SVC: the trap is taken after the instruction where some active lane that is not a helper has its guard. The code is
an immediate or the literal 0x14C, as OFF is (R156), or an ID that is uniform across the warp (02 R27); of its classes and its width the
specification says no more (DESIGN CHOICE, log 41). -/
def codeTrapSpec (cause : Nat) (always : Bool) (_x : Ext) : Spec :=
  Spec.plain { Shape.bare with anyGuard := !always, b := some codePos } (fun i =>
    .done { i.res with after := if always || (i.w.active &&& i.grd) != 0 then raise cause (i.b 0) else none })
/-- BKPT, B-IMM (06 R165). -/
def execBkptImm (b : BImm) (s : State) : Host.Outcome State Fault Refusal := runImm (codeTrapSpec 0x21 false) b s
/-- BKPT, extended (06 R165). -/
def execBkptExt (x : Ext) (s : State) : Host.Outcome State Fault Refusal := runExt (codeTrapSpec 0x21 false) x s
/-- TRAP, B-IMM (06 R165). -/
def execTrapImm (b : BImm) (s : State) : Host.Outcome State Fault Refusal := runImm (codeTrapSpec 0x22 false) b s
/-- TRAP, extended (06 R165). -/
def execTrapExt (x : Ext) (s : State) : Host.Outcome State Fault Refusal := runExt (codeTrapSpec 0x22 false) x s
/-- SVC, B-IMM (06 R165). -/
def execSvcImm (b : BImm) (s : State) : Host.Outcome State Fault Refusal := runImm (codeTrapSpec 0x20 true) b s
/-- SVC, extended (06 R165). -/
def execSvcExt (x : Ext) (s : State) : Host.Outcome State Fault Refusal := runExt (codeTrapSpec 0x20 true) x s

end Sys2Proof.Machine
end

