-- ==== Sys2Proof/Machine/Local.lean ====
section
/-! DEFINITION. Loads and stores of local addresses, tags, shared atomics, and FENCE (12 R286 to R296; 11 R270, R271; 10 R260,
R261). -/

namespace Sys2Proof.Machine

/-! ## Fields (12 Tables 1 and 2) -/

/-- The bytes of an access by SZ, and whether a load sign-extends. -/
def szOf (sz : Nat) : Option (Nat × Bool) :=
  match sz with
  | 0 => some (4, false)
  | 1 => some (8, false)
  | 2 => some (1, false)
  | 3 => some (1, true)
  | 4 => some (2, false)
  | 5 => some (2, true)
  | _ => none

/-- SZ. -/
def szField (x : Ext) : Nat := modField x 2 0
/-- The bytes of the access; 4 for a code that raises IL-RSV. -/
def szBytes (x : Ext) : Nat := ((szOf (szField x)).getD (4, false)).1
/-- The position of an address. -/
def addrPos : Option Pos := some (Pos.lane 32)
/-- The position of a handle or a tile position. -/
def onePos : Option Pos := some (Pos.uni 32)
/-- The position of a word offset: of the literal, 0x14A alone (12 R286). -/
def offsetPos : Option Pos := some (Pos.of [.uni, .imm, .lit, .idUni] 32)
/-- A position of store data: a per-lane vector operand (12 R286), or an ID that is uniform across the warp (02 R27). -/
def storePos (w : Nat) : Option Pos := some (Pos.of [.vec, .idUni] w)
/-- A data position of `n` bytes. -/
def dataW (n : Nat) : Nat := if n = 8 then 64 else 32

/-- A lane's access: its lane, its address, and whether the lane is a helper. -/
structure LaneEa where
  lane : Nat
  ea : Nat
  helper : Bool
  ok : Bool
  deriving DecidableEq, Repr

/-- ea of 12 R288. -/
def effAddr (addr off : Nat) : Nat := wrapInt ((addr : Int) + 4 * sextNat off 32) 32

/-- The accesses of the executing lanes, `off` by lane; `win` whether the register window is allowed. -/
def Issue.accesses (i : Issue) (n : Nat) (win : Bool) (off : Nat → Nat) : List LaneEa :=
  i.run.list.map (fun l =>
    let a := effAddr (i.a l) (off l)
    { lane := l, ea := a, helper := i.hlp.has l, ok := localOk i.k i.w.gid i.g a n win })

/-- LOCAL-ADDR of the lowest lane that is no helper and whose access fails (12 R288). -/
def accessTrap (ls : List LaneEa) : Option Trap :=
  match ls.find? (fun t => !t.helper && !t.ok) with
  | some t => raise 0x08 t.ea
  | none => none

/-- A meaning that raises LOCAL-ADDR before anything else. -/
def withAccess (ls : List LaneEa) (f : Unit → Eff) : Eff :=
  match accessTrap ls with
  | some t => .trap t
  | none => f ()

/-- The lanes that are not helpers. -/
def realLanes (ls : List LaneEa) : List LaneEa := ls.filter (fun t => !t.helper)

/-- The entries of a store queue (13 R305). -/
def sqCapacity : Nat := 16

/-- The registers of a destination. -/
def dstRegs (n w : Nat) : List Nat := if w = 64 then [n, n + 1] else [n]

/-! ## Loads (12 R289, R290, R292; 11 R270) -/

/-- A load added to a warp's outstanding loads, counted on `ld`; a helper whose access fails has read 0 already. -/
def Warp.addLoad (w : Warp) (kind : LoadKind) (counted : Bool) (dst size : Nat) (sext : Bool) (hlp : Mask) (ls : List LaneEa) : Warp :=
  { w with
    loads := w.loads ++ [{
      id := w.loadId, kind := kind, helpers := hlp, dst := dst, size := size, sext := sext, seq := w.sqSeq, bad := none
      lns := ls.map (fun t => { lane := t.lane, ea := t.ea, got := if t.ok then none else some (0, false) }) }]
    loadId := w.loadId + 1
    ld := if counted then w.ld + 1 else w.ld }

/-- The shape of a load. -/
def loadShape (m : BitVec 10) (m2 : BitVec 6) (bad : Bool) (n : Nat) : Shape :=
  { Shape.bare with m := m, m2 := m2, bad := bad, anyGuard := true, dst := some (Dst.vec (dataW n)), a := addrPos, c := offsetPos }

/-- A load that is not blocking: LDS or LDSP. -/
def loadBody (kind : LoadKind) (n : Nat) (sext win : Bool) (i : Issue) : Eff :=
  let ls := i.accesses n win i.d
  withAccess ls (fun _ =>
    if 63 ≤ i.w.ld then .stall
    else
      let d := vecNum i.x.dst
      .done { i.res with
        s := i.s.modWarp i.c i.slot (fun w => w.addLoad kind true d n sext i.hlp ls)
        claims := dstRegs d (dataW n) })

/-- LDS. -/
def ldsSpec (x : Ext) : Spec :=
  match szOf (szField x) with
  | some (n, sg) => Spec.plain (loadShape 7#10 0 false n) (loadBody .lds n sg true)
  | none => Spec.plain (loadShape 7#10 0 true 4) (loadBody .lds 4 false true)
/-- LDS, B-MEM (12 R289). -/
def execLdsMem (b : BMem) (s : State) : Host.Outcome State Fault Refusal := runMem true ldsSpec b s
/-- LDS, extended (12 R289). -/
def execLdsExt (x : Ext) (s : State) : Host.Outcome State Fault Refusal := runExt ldsSpec x s

/-- LDSP: the tag goes to the predicate that MODS2 names. -/
def ldspSpec (x : Ext) : Spec := Spec.plain (loadShape 0 7#6 false 4) (loadBody (.ldsp (bitsOf x.mods2.toNat 2 0)) 4 false false)
/-- LDSP (12 R292). -/
def execLdsp (x : Ext) (s : State) : Host.Outcome State Fault Refusal := runExt ldspSpec x s

/-- The byte that a load of position `seq` forwards from a queued store: the youngest of those before it. -/
def sqByte (q : List SqEntry) (seq a : Nat) : Option Byte :=
  q.foldl (fun r e =>
    match e.body with
    | .store bs => if e.seq < seq then (bs.foldl (fun t p => if p.1 = a then some p.2 else t) r) else r
    | _ => r) none

/-- Whether a queued atomic before position `seq` covers a byte of [a, a + n) (12 R289). -/
def sqAtomic (q : List SqEntry) (seq a n : Nat) : Bool :=
  q.any (fun e => match e.body with
    | .atomic _ m _ ls _ => decide (e.seq < seq) && ls.any (fun t => decide (t.addr < a + n) && decide (a < t.addr + m))
    | .resv _ m _ b _ => decide (e.seq < seq) && decide (b < a + n) && decide (a < b + m)
    | _ => false)

/-- A load's value at an address: its bytes from the queue or from memory, and whether memory gave a poisoned one. -/
def loadValue (k : Core) (g : Group) (q : List SqEntry) (seq a n : Nat) : Nat × Bool :=
  let at_ := fun i => (sqByte q seq (a + i)).getD (localByte k g (a + i))
  (ofBytes ((List.range n).map at_),
   (List.range n).any (fun i => (sqByte q seq (a + i)).isNone && localPoison k g (a + i)))

/-- Whether no event of this cycle has changed the tag of one of some words (10 R261). -/
def Core.untagged (k : Core) (ws : List Nat) : Bool := ws.all (fun x => !(k.tagged.contains x))

/-- The physical words of an access of `n` bytes at a scratchpad address. -/
def tagWords (g : Group) (a n : Nat) : List Nat := wordsCovered g a n

/-- What one lane of an outstanding load reads when it is performed. -/
def performLane (k : Core) (g : Group) (w : Warp) (o : LoadOp) (t : LaneLoad) : LaneLoad :=
  match o.kind with
  | .ldsp _ =>
    let r := loadValue k g w.storeQ o.seq t.ea 4
    let tag := (tagWords g t.ea 4).all (fun x => k.full.contains x)
    { t with got := some (r.1 + (if tag then 2 ^ 32 else 0), r.2) }
  | .lds => { t with got := some (loadValue k g w.storeQ o.seq t.ea o.size) }
  | .tags => { t with got := some (0, false) }
  | .tagc => { t with got := some (0, false) }
  | _ => t

/-- Whether an outstanding load takes its place in the program order of loads (11 R270; 12 R293). -/
def LoadKind.ordered (k : LoadKind) : Bool :=
  match k with
  | .ats => false
  | .ldsf => false
  | _ => true

/-- Whether an entry changes tags: TAGS or TAGC. -/
def LoadKind.changesTags (k : LoadKind) : Bool := k == .tags || k == .tagc

/-- Whether every lane of a load has been performed. -/
def LoadOp.performed (o : LoadOp) : Bool := o.lns.all (fun t => t.got.isSome)

/-- Whether lane `t` of load `idx` may be performed now: every earlier ordered load has been, and no queued atomic before it
covers its bytes. -/
def mayPerform (w : Warp) (idx : Nat) (o : LoadOp) (t : LaneLoad) : Bool :=
  t.got.isNone && o.kind.ordered && (w.loads.take idx).all (fun e => !e.kind.ordered || e.performed) &&
  !(sqAtomic w.storeQ o.seq t.ea o.size)

/-- A word of a register changed in one lane by a landing load (05 R118, R123). -/
def Warp.landWord (w : Warp) (n l v : Nat) : Warp :=
  (w.landReg n (List.set (w.reg n) l (BitVec.ofNat 32 v))).unpoison n l

/-- A lane of a load landing in its destination. -/
def landLane (o : LoadOp) (w : Warp) (t : LaneLoad) : Warp :=
  match t.got with
  | none => w
  | some (v, bad) =>
    let y := if o.sext then wrapInt (sextNat v (8 * o.size)) 32 else v
    let z := if bad then poisonPattern o.size else y
    match o.kind with
    | .tags => w
    | .tagc => w
    | .ldsp p => (w.landWord o.dst t.lane z).putPred p (1#32 <<< t.lane) (if v / 2 ^ 32 = 0 then 0 else 1#32 <<< t.lane)
    | _ => if o.size = 8 then (w.landWord o.dst t.lane z).landWord (o.dst + 1) t.lane (z / 2 ^ 32) else w.landWord o.dst t.lane z

/-- A load with no lane left: it leaves the list, `ld` falls, and an uncorrectable error is raised at the next boundary. -/
def Warp.retireLoad (w : Warp) (idx : Nat) (o : LoadOp) : Warp :=
  let counted := match o.kind with | .tags => false | .tagc => false | _ => true
  { w with
    loads := w.loads.take idx ++ w.loads.drop (idx + 1)
    ld := if counted then w.ld - 1 else w.ld
    pend := w.pend <|> o.bad.map (fun p => { cause := 0x11, tval := BitVec.ofNat 64 p.2 }) }

/-- The unit of ERRSTAT that a local address belongs to. -/
def localUnit (a : Nat) : Nat := if a < 0x1000000 then 0x04 else 0x01

/-- One lane of an outstanding load that a LOAD_LAND selects: performed when its turn has come, or landed once performed. -/
def stepLane (s : State) (c slot idx l : Nat) : State :=
  match s.warp? c slot with
  | none => s
  | some w =>
    match s.group? c w.gid, w.loads[idx]? with
    | some g, some o =>
      match o.lns.find? (fun t => t.lane == l) with
      | none => s
      | some t =>
        if t.got.isSome then
          let w1 := landLane o w t
          s.setWarp c slot { w1 with loads := List.set w1.loads idx { o with lns := o.lns.filter (fun u => u.lane != l) } }
        else if mayPerform w idx o t && (!o.kind.changesTags || (s.core c).untagged (tagWords g t.ea o.size)) then
          let t1 := performLane (s.core c) g w o t
          let o1 := LoadOp.noteBad { o with lns := o.lns.map (fun u => if u.lane = l then t1 else u) }
          let s1 := s.setWarp c slot { w with loads := List.set w.loads idx o1 }
          let s2 := match t1.got with
            | some (_, true) => s1.uncorrectable c (localUnit t.ea)
            | _ => s1
          match o.kind with
          | .tags => if o.helpers.has l then s2 else s2.modCore c (fun k => setTags k (tagWords g t.ea o.size) true)
          | .tagc => if o.helpers.has l then s2 else s2.modCore c (fun k => setTags k (tagWords g t.ea o.size) false)
          | _ => s2
        else s
    | _, _ => s

/-- LOAD_LAND: lanes of load `idx` of a warp are performed, or land; a load with none left retires (12 R289, R290). -/
def execLoadLand (core slot idx : Nat) (which : Mask) (s : State) : Host.Outcome State Fault Refusal :=
  let s1 := which.list.foldl (fun t l => stepLane t core slot idx l) s
  .next (s1.modWarp core slot (fun w =>
    match w.loads[idx]? with
    | some o => if o.lns.isEmpty then w.retireLoad idx o else w
    | none => w))

/-! ## Stores (12 R289) -/

/-- The bytes that lanes store, in ascending lane order: a later pair is over an earlier one. -/
def storeBytes (n : Nat) (ls : List LaneEa) (v : Nat → Nat) : List (Nat × Byte) := ls.flatMap (fun t => withAddrs t.ea (toBytes (v t.lane) n))

/-- The shape of a store. -/
def storeShape (m : BitVec 10) (bad : Bool) (n : Nat) : Shape :=
  { Shape.bare with m := m, bad := bad, anyGuard := true, a := addrPos, b := storePos (dataW n), c := offsetPos }

/-- STS. -/
def stsSpec (x : Ext) : Spec :=
  let sz := szField x
  let n := szBytes x
  Spec.plain (storeShape 7#10 (!(decide (sz ≤ 2) || decide (sz = 4))) n) (fun i =>
    let ls := i.accesses n true i.d
    withAccess ls (fun _ =>
      if 63 ≤ i.w.st ∨ sqCapacity ≤ i.w.storeQ.length then .stall
      else i.to (i.s.modWarp i.c i.slot (fun w => w.enqueue true (.store (storeBytes n (realLanes ls) i.b))))))
/-- STS, B-MEM (12 R289). -/
def execStsMem (b : BMem) (s : State) : Host.Outcome State Fault Refusal := runMem false stsSpec b s
/-- STS, extended (12 R289). -/
def execStsExt (x : Ext) (s : State) : Host.Outcome State Fault Refusal := runExt stsSpec x s

/-! ## LDSF and STSE (12 R291; 10 R261, R262) -/

/-- The words that a waiting tag access needs, and whether full. -/
def waitNeeds (k : Core) (who : TagWaiter) : Option (List Nat × Bool) :=
  match who with
  | .warp slot =>
    match Tab.get? k.warps slot with
    | none => none
    | some w =>
      match w.waiting, Tab.get? k.groups w.gid with
      | some t, some g =>
        match t.tag with
        | some (full, n) =>
          some ((t.lns.filter (fun l => !(w.helpers.has l.lane))).flatMap (fun l => tagWords g l.addr n), full)
        | none => none
      | _, _ => none
  | .grip gi =>
    match (k.grip gi).gid, (k.grip gi).wtag with
    | some gid, some (a, full) =>
      match Tab.get? k.groups gid with
      | some g => some (tagWords g a 4, full)
      | none => none
    | _, _ => none

/-- Whether words are all in the state needed. -/
def wordsReady (k : Core) (ws : List Nat) (full : Bool) : Bool := ws.all (fun x => k.full.contains x == full)

/-- Whether a waiter in front of `who` in the core's waiting list would act on one of the words first (10 R261). -/
def someoneFirst (k : Core) (who : TagWaiter) (ws : List Nat) : Bool :=
  (k.tagQ.takeWhile (fun t => t != who)).any (fun t =>
    match waitNeeds k t with
    | some (us, full) => us.any (fun u => ws.contains u) && wordsReady k us full
    | none => false)

/-- The lanes of a tag access as the warp keeps them while it waits. -/
def tagLanes (i : Issue) (ls : List LaneEa) : List AtomLane :=
  ls.map (fun t => { lane := t.lane, addr := t.ea, operand := i.b t.lane, cmp := 0 })

/-- LDSF acts: it reads every word and empties the tags of those that lanes other than helpers cover. -/
def ldsfAct (i : Issue) (s : State) (n : Nat) (ls : List AtomLane) : Eff :=
  let k := s.core i.c
  let d := vecNum i.x.dst
  let real := ls.filter (fun t => !i.hlp.has t.lane)
  let got := ls.map (fun t =>
    let bad := (List.range n).any (fun j => localPoison k i.g (t.addr + j))
    ({ lane := t.lane, ea := t.addr,
       got := if localOk k i.w.gid i.g t.addr n false then some (ofBytes (localRead k i.g t.addr n), bad) else some (0, false) } : LaneLoad))
  let o := LoadOp.noteBad { id := i.w.loadId, kind := .ldsf, helpers := i.hlp, dst := d, size := n, sext := false, seq := i.w.sqSeq, lns := got, bad := none }
  let s1 := s.setCore i.c ((setTags k (real.flatMap (fun t => tagWords i.g t.addr n)) false).unwait (.warp i.slot))
  let s2 := match o.bad with
    | some _ => s1.uncorrectable i.c 0x04
    | none => s1
  .done { i.res with
    s := s2.modWarp i.c i.slot (fun w => { w with loads := w.loads ++ [o], loadId := w.loadId + 1, ld := w.ld + 1 })
    claims := dstRegs d (dataW n) }

/-- STSE acts: it writes the words and fills their tags. -/
def stseAct (i : Issue) (s : State) (n : Nat) (ls : List AtomLane) : Eff :=
  let k := s.core i.c
  let real := ls.filter (fun t => !i.hlp.has t.lane)
  let k1 := localWrite k i.g (real.flatMap (fun t => withAddrs t.addr (toBytes t.operand n)))
  i.to (s.setCore i.c ((setTags k1 (real.flatMap (fun t => tagWords i.g t.addr n)) true).unwait (.warp i.slot)))

/-- LDSF or STSE: it drains the queue, waits for its words, and acts. A warp that already waits uses the lanes it read at
issue. -/
def tagAccess (full : Bool) (n : Nat) (ins : Instr) (act : Issue → State → Nat → List AtomLane → Eff)
    (i : Issue) : Eff :=
  let ls := i.accesses n false i.d
  let lns := match i.w.waiting with
    | some t => t.lns
    | none => tagLanes i ls
  let bad := match i.w.waiting with
    | some _ => none
    | none => accessTrap ls
  match bad with
  | some t => .trap t
  | none =>
    if 63 ≤ i.w.ld ∧ full then .stall
    else
      let s := i.s.drain i.c i.slot
      let k := s.core i.c
      let ws := (lns.filter (fun t => !i.hlp.has t.lane)).flatMap (fun t => tagWords i.g t.addr n)
      if wordsReady k ws full && k.untagged ws && !(someoneFirst k (.warp i.slot) ws) then act i s n lns
      else
        match i.w.waiting with
        | some _ => .final s
        | none =>
          let s1 := (s.modCore i.c (fun k => { k with tagQ := k.tagQ ++ [.warp i.slot] })).countCore i.c 0x22 1
          .block { instr := ins, len := i.len, start := k.cycle.toNat, tag := some (full, n), lns := lns, flushes := 0 } s1

/-- The blocking form of a shape. -/
def tagSpec (sh : Shape) (body : Issue → Eff) : Spec := Spec.blocks sh (fun _ => none) body

/-- LDSF: `ins` is the instruction as it was issued. -/
def ldsfSpec (ins : Instr) (x : Ext) : Spec :=
  let n := szBytes x
  tagSpec (loadShape 7#10 0 (decide (2 ≤ szField x)) n) (tagAccess true n ins ldsfAct)
/-- LDSF, B-MEM (12 R291). -/
def execLdsfMem (b : BMem) (s : State) : Host.Outcome State Fault Refusal := runMem true (ldsfSpec (.ldsfMem b)) b s
/-- LDSF, extended (12 R291). -/
def execLdsfExt (x : Ext) (s : State) : Host.Outcome State Fault Refusal := runExt (ldsfSpec (.ldsfExt x)) x s

/-- STSE: `ins` is the instruction as it was issued. -/
def stseSpec (ins : Instr) (x : Ext) : Spec :=
  let n := szBytes x
  tagSpec (storeShape 7#10 (decide (2 ≤ szField x)) n) (tagAccess false n ins stseAct)
/-- STSE, B-MEM (12 R291). -/
def execStseMem (b : BMem) (s : State) : Host.Outcome State Fault Refusal := runMem false (stseSpec (.stseMem b)) b s
/-- STSE, extended (12 R291). -/
def execStseExt (x : Ext) (s : State) : Host.Outcome State Fault Refusal := runExt (stseSpec (.stseExt x)) x s

/-! ## TAGS and TAGC (12 R293) -/

/-- TAGS or TAGC: in program order with the warp's loads. -/
def tagsSpec (kind : LoadKind) (x : Ext) : Spec :=
  let n := szBytes x
  Spec.plain { Shape.bare with m := 7#10, bad := decide (2 ≤ szField x), anyGuard := true, a := addrPos, c := offsetPos } (fun i =>
    let ls := i.accesses n false i.d
    withAccess ls (fun _ => i.to (i.s.modWarp i.c i.slot (fun w => w.addLoad kind false 0 n false i.hlp (realLanes ls)))))
/-- TAGS (12 R293). -/
def execTags (x : Ext) (s : State) : Host.Outcome State Fault Refusal := runExt (tagsSpec .tags) x s
/-- TAGC (12 R293). -/
def execTagc (x : Ext) (s : State) : Host.Outcome State Fault Refusal := runExt (tagsSpec .tagc) x s

/-! ## Shared atomics (12 R294, R295) -/

/-- OP. -/
def atsOp (x : Ext) : Nat := modField x 6 3
/-- NAT of an atomic. -/
def atsNat (x : Ext) : Bool := modBit x 7

/-- The shape of ATS and ATSN: the compare value of CAS stands in SRCC. -/
def atsShape (ret : Bool) (x : Ext) : Shape :=
  let sz := szField x
  let w := dataW (szBytes x)
  let op := atsOp x
  let b : Pos := if op = 0xA then Pos.fp .f32 else Pos.lane w
  { Shape.bare with
    m := 0xFF#10, anyGuard := true
    bad := decide (2 ≤ sz) || decide (0xB ≤ op) || (decide (op = 0xA) && decide (sz = 1)) || (atsNat x && !(decide (op = 1 ∨ op = 2)))
    dst := if ret then some (Dst.vec w) else none, a := addrPos, b := some b
    c := if op = 7 then some (Pos.lane w) else offsetPos }

/-- ATS, or ATSN when not `ret`: an entry of the store queue. -/
def atsSpec (ret : Bool) (x : Ext) : Spec :=
  let n := szBytes x
  let op := atsOp x
  Spec.plain (atsShape ret x) (fun i =>
    let ls := i.accesses n false (fun l => if op = 7 then 0 else i.d l)
    withAccess ls (fun _ =>
      if sqCapacity ≤ i.w.storeQ.length ∨ (ret ∧ 63 ≤ i.w.ld) ∨ (¬ ret ∧ 63 ≤ i.w.st) then .stall
      else
        let lns := (realLanes ls).map (fun t => ({ lane := t.lane, addr := t.ea, operand := i.b t.lane, cmp := i.d t.lane } : AtomLane))
        let d := vecNum i.x.dst
        let body := fun load => SqBody.atomic op n (atsNat x) lns load
        if ret then
          .done { i.res with
            s := i.s.modWarp i.c i.slot (fun w =>
              (w.addLoad .ats true d n false i.hlp (ls.map (fun t => { t with ok := t.ok && !t.helper }))).enqueue false (body (some w.loadId)))
            claims := dstRegs d (dataW n) }
        else i.to (i.s.modWarp i.c i.slot (fun w => w.enqueue true (body none)))))
/-- ATS (12 R294). -/
def execAts (x : Ext) (s : State) : Host.Outcome State Fault Refusal := runExt (atsSpec true) x s
/-- ATSN (12 R294). -/
def execAtsn (x : Ext) (s : State) : Host.Outcome State Fault Refusal := runExt (atsSpec false) x s

/-! ## Events of the queue and of tags -/

/-- STORE_QUEUE_PERFORM: the head of a warp's store queue is performed (11 R270). -/
def execStoreQueuePerform (core slot : Nat) (s : State) : Host.Outcome State Fault Refusal :=
  .next (s.performHead core slot)

/-- GRIP_STORE_PERFORM: the head of a grip's store queue is performed (11 R272). -/
def execGripStorePerform (core grip : Nat) (s : State) : Host.Outcome State Fault Refusal := .next (s.gripPerformHead core grip)

/-! ## FENCE (12 R296) -/

/-- FENCE: it waits in place until the entries queued before it have been performed. -/
def fenceSpec (x : Ext) : Spec :=
  Spec.plain Shape.bare (fun i =>
    if i.w.storeQ.isEmpty then i.to i.s
    else .hold { instr := .fence x, len := i.len, start := 0, tag := none, lns := [], flushes := 0 } i.s)
/-- FENCE (12 R296). -/
def execFence (x : Ext) (s : State) : Host.Outcome State Fault Refusal := runExt fenceSpec x s

end Sys2Proof.Machine
end

