-- ==== Sys2Proof/Machine/Tile.lean ====
section
/-! DEFINITION. Tile handles and their storage, tile rows, accumulators, and ICINV (12 R297 to R303; 08 R191, R206; 10 R250;
16 R394). -/

namespace Sys2Proof.Machine

/-! ## Tile shapes (12 R298) -/

/-- The mantissa width of a block format; none for an element format. -/
def blockFmt (fmt : Nat) : Option Nat := if fmt = 8 then some 16 else if 9 ≤ fmt ∧ fmt ≤ 15 then some (fmt - 7) else none

/-- The bytes of an element. -/
def elemBytes (fmt : Nat) : Nat :=
  match fmt with
  | 1 => 2
  | 2 => 2
  | 4 => 1
  | _ => 4

/-- RBYTES. -/
def rowBytes (fmt cols : Nat) : Nat :=
  match blockFmt fmt with
  | some n => 4 * n * (cols / 32) + (3 * (cols / 32) + 1) / 2
  | none => cols * elemBytes fmt

/-- A tile-table entry that is not bound. -/
def TileEntry.unbound : TileEntry :=
  { gen := 0, name := 0, task := false, banks := 0, base := 0, bound := false, lvl := false, fmt := 0, rows := 0, cols := 0, rstride := 0 }

/-- The storage that an entry names. -/
def TileEntry.ref (e : TileEntry) : TileRef :=
  { lvl := e.lvl, fmt := e.fmt, rows := e.rows, cols := e.cols, rstride := 128 * e.rstride, base := e.base, gen := e.gen }

/-- The entry of handle `h` of a group. -/
def handleEntry (k : Core) (g : Group) (h : Nat) : TileEntry := Tab.getD k.tileTable (g.tileBase + h) TileEntry.unbound

/-- The bytes of a granule at a level (10 R250). -/
def granBytes (lvl : Bool) : Nat := if lvl then 65536 else 2048

/-- The granules of a tile: the first, and how many. -/
def TileRef.grans (t : TileRef) : Nat × Nat := (t.base, (t.rows * t.rstride + granBytes t.lvl - 1) / granBytes t.lvl)

/-- The first byte of a tile in its store. -/
def TileRef.addr (t : TileRef) : Nat := t.base * granBytes t.lvl

/-! ## Storage in use (12 R301; 10 R250) -/

/-- The tiles that a command of the copy queue holds. -/
def Cmd.refs (c : Cmd) : List TileRef := c.src.toList ++ c.dst.toList

/-- The tiles that a matrix command holds. -/
def MatWhat.refs (w : MatWhat) : List TileRef :=
  match w with
  | .mma _ _ _ _ _ t _ => [t]
  | .wbld _ _ t _ _ => t.toList
  | .wbinv _ _ => []

/-- The tiles that a scan command holds. -/
def ScanWhat.refs (w : ScanWhat) : List TileRef :=
  match w with
  | .scan _ _ _ _ ts => ts
  | .scanst a b => [a, b]

/-- Every tile of a core that is bound, held by the dependence table, or named by an operation that has not completed. -/
def coreRefs (s : State) (c : Nat) : List TileRef :=
  let k := s.core c
  let bound := fun (e : TileEntry) => if e.bound then [e.ref] else []
  k.tileTable.flatMap (fun p => bound p.2) ++ k.taskNames.flatMap (fun p => bound p.2) ++ k.gens.flatMap (fun n => bound n.entry) ++
  k.warps.flatMap (fun p => (p.2.tiles.filter (fun o => o.kind == .tld || o.kind == .tst)).map TileOp.tile) ++
  k.copyQ.flatMap Cmd.refs ++ k.ctxs.flatMap (fun p => p.2.cmd.toList.flatMap Cmd.refs) ++
  (k.matQ ++ k.matBack.map MatBack.cmd).flatMap (fun m => m.what.refs) ++ k.scanQ.flatMap (fun m => m.what.refs) ++
  ((s.die (dieOf c)).coll.filter (fun p => p.2.core == c)).flatMap (fun p => p.2.srcTile.toList ++ p.2.dstTile.toList)

/-- The tiles that hold granules of a core's tile store, or of its die's staging pool. -/
def levelRefs (s : State) (c : Nat) (lvl : Bool) : List TileRef :=
  let cs := if lvl then (List.range Config.coresPerDie).map (fun i => dieOf c * Config.coresPerDie + i) else [c]
  (cs.flatMap (coreRefs s)).filter (fun t => t.lvl == lvl)

/-- The granules of a level. -/
def levelGrans (s : State) (c : Nat) (lvl : Bool) : Nat := if lvl then 128 * (s.die (dieOf c)).stagew else 512

/-- The places of `n` granules in free storage. -/
def freeRuns (s : State) (c : Nat) (lvl : Bool) (n : Nat) : List Nat :=
  let used := (levelRefs s c lvl).map TileRef.grans
  (List.range (levelGrans s c lvl + 1 - n)).filter (fun b => used.all (fun u => decide (u.1 + u.2 ≤ b) || decide (b + n ≤ u.1)))

/-- Granules granted to a group: those that another group held last are cleared first (10 R250). -/
def grantGrans (s : State) (c gid : Nat) (lvl : Bool) (base n : Nat) : State :=
  let b := granBytes lvl
  (List.range n).foldl (fun s i =>
    let gr := base + i
    if lvl then
      s.modDie (dieOf c) (fun d =>
        if Tab.get? d.stageOwner gr = some gid then d
        else { d with staging := Memory.clear d.staging (gr * b) b, stageOwner := Tab.set d.stageOwner gr gid,
                      stagePoison := d.stagePoison.filter (fun u => !(decide (gr * b ≤ 8 * u) && decide (8 * u < gr * b + b))) })
    else
      s.modCore c (fun k =>
        if Tab.get? k.tileOwner gr = some gid then k
        else { k with tileMem := Memory.clear k.tileMem (gr * b) b, tileOwner := Tab.set k.tileOwner gr gid,
                      tilePoison := k.tilePoison.filter (fun u => !(decide (gr * b ≤ 8 * u) && decide (8 * u < gr * b + b))) })) s

/-- The places of `n` granules at an end of a free run, so that the run's rest stays whole (23 R474; log 4). -/
def freeEnds (s : State) (c : Nat) (lvl : Bool) (n : Nat) : List Nat :=
  let fs := freeRuns s c lvl n
  fs.filter (fun b => b = 0 || !(fs.contains (b - 1)) || !(fs.contains (b + 1)))

/-- New storage of a shape for a group: which end of a free run it takes and its BANKS, at most 4 (16 R394), are the part's choice
(log 4); none where no run is long enough. -/
def newTile (s : State) (c gid : Nat) (lvl : Bool) (fmt rows cols : Nat) : State × Option TileEntry :=
  let rs := roundUp (rowBytes fmt cols) 128
  let n := (rows * rs + granBytes lvl - 1) / granBytes lvl
  match freeEnds s c lvl n with
  | [] => (s, none)
  | r :: t =>
    let runs := r :: t
    let base := runs.getD (Config.freeChoice s.free % runs.length) r
    let s1 := grantGrans { s with free := s.free + 2 } c gid lvl base n
    (s1, some { gen := 0, name := 0, task := false, banks := Config.freeChoice (s.free + 1) % 5, base := base, bound := true,
                lvl := lvl, fmt := fmt, rows := rows, cols := cols, rstride := rs / 128 })

/-! ## TALLOC and TFREE (12 R299 to R301) -/

/-- The lowest set bit of a number from bit `lo` up to `hi`. -/
def lowBit (v hi lo : Nat) : Option Nat := ((List.range (hi + 1 - lo)).map (fun i => lo + i)).find? (fun n => v.testBit n)

/-- The lowest of some bit numbers. -/
def lowestOf (l : List (Option Nat)) : Option Nat := (l.filterMap id).min?

/-- The lowest offending bit of a TALLOC descriptor (12 R300, check 2); COLS that is not a multiple of 32 offends in its low
bits (DEDUCED, log 14). -/
def tallocBad (v : Nat) : Option Nat :=
  let fmt := bitsOf v 47 44
  let cols := bitsOf v 31 16
  lowestOf [lowBit v 63 49, lowBit v 43 32, if 5 ≤ fmt ∧ fmt ≤ 7 then some 44 else none,
    if bitsOf v 15 0 = 0 then some 0 else none,
    if cols = 0 then some 16 else if (blockFmt fmt).isSome then lowBit v 20 16 else none]

/-- Whether a tile is larger than its level allows. -/
def tallocHuge (lvl : Bool) (fmt rows cols : Nat) : Bool :=
  decide ((if lvl then 2 ^ 25 else 2 ^ 20) < rows * roundUp (rowBytes fmt cols) 128)

/-- IL-OPND of a handle operand at or beyond the group's allocation (05 R111). -/
def handleTrap (g : Group) (o : Opnd) (h p : Nat) : Option Trap := if g.nTile ≤ h then some (ilOpnd o p) else none

/-- The state with a handle's entry replaced. -/
def State.setHandle (s : State) (c : Nat) (g : Group) (h : Nat) (e : TileEntry) : State :=
  s.modCore c (fun k => { k with tileTable := Tab.set k.tileTable (g.tileBase + h) e })

/-- Whether handle `h` of a group is one of its task's (14 R346). -/
def taskHandle (g : Group) (h : Nat) : Bool := g.taskIdx.isSome && decide (h < 16)

/-- Whether handle `h` is one that a group's task only reads (14 R346). -/
def taskRead (g : Group) (h : Nat) : Bool := g.taskIdx.isSome && decide (h < 8)

/-- TALLOC. -/
def tallocSpec (x : Ext) : Spec :=
  { Spec.plain { Shape.bare with fixed := true, dst := some Dst.uni, a := onePos, b := some (Pos.of [.uni, .lit, .idUni] 64) } (fun i =>
      let v := i.b 0
      let lvl := bitsOf v 48 48 == 1
      let fmt := bitsOf v 47 44
      match tallocBad v with
      | some n => .trap { cause := 0x0A, tval := BitVec.ofNat 64 n }
      | none =>
        if tallocHuge lvl fmt (bitsOf v 15 0) (bitsOf v 31 16) then .trap { cause := 0x0A, tval := 0 }
        else if taskHandle i.g (i.a 0) || (handleEntry i.k i.g (i.a 0)).bound then .trap { cause := 0x09, tval := BitVec.ofNat 64 (i.a 0) }
        else
          let r := newTile i.s i.c i.w.gid lvl fmt (bitsOf v 15 0) (bitsOf v 31 16)
          match r.2 with
          | some e => .done { i.res with s := r.1.setHandle i.c i.g (i.a 0) e, out := fun _ => 0 }
          | none => i.out (fun _ => if lvl then 2 else 1))
    with chk := fun i => handleTrap i.g x.a.op (i.a 0) 1 }
/-- TALLOC (12 R300). -/
def execTalloc (x : Ext) (s : State) : Host.Outcome State Fault Refusal := runExt tallocSpec x s

/-- TFREE. -/
def tfreeSpec (x : Ext) : Spec :=
  { Spec.plain { Shape.bare with a := onePos } (fun i =>
      if (handleEntry i.k i.g (i.a 0)).bound && !taskHandle i.g (i.a 0) then i.to (i.s.setHandle i.c i.g (i.a 0) TileEntry.unbound)
      else .trap { cause := 0x09, tval := BitVec.ofNat 64 (i.a 0) })
    with chk := fun i => handleTrap i.g x.a.op (i.a 0) 1 }
/-- TFREE (12 R301). -/
def execTfree (x : Ext) (s : State) : Host.Outcome State Fault Refusal := runExt tfreeSpec x s

/-! ## Words of the tile store and of the accumulators -/

/-- A store of 64-bit containment units: its bytes and its poisoned units. -/
structure UnitStore where
  mem : Memory
  bad : List Nat
  deriving DecidableEq, Repr

/-- A 32-bit word, and whether its unit is poisoned. -/
def UnitStore.word (u : UnitStore) (a : Nat) : Nat × Bool := (Memory.readV u.mem a 4, u.bad.contains (a / 8))

/-- 32-bit words written in one event: a unit that they cover whole loses its poison (10 R264). -/
def UnitStore.put (u : UnitStore) (ws : List (Nat × Nat)) : UnitStore :=
  let as := ws.map Prod.fst
  { mem := ws.foldl (fun m p => Memory.writeV m p.1 4 p.2) u.mem
    bad := u.bad.filter (fun n => !(as.contains (8 * n) && as.contains (8 * n + 4))) }

/-- The tile store of a core. -/
def Core.tileStore (k : Core) : UnitStore := { mem := k.tileMem, bad := k.tilePoison }
/-- A core with its tile store replaced. -/
def Core.setTileStore (k : Core) (u : UnitStore) : Core := { k with tileMem := u.mem, tilePoison := u.bad }
/-- The accumulator memory of a core. -/
def Core.accStore (k : Core) : UnitStore := { mem := k.acc, bad := k.accPoison }
/-- A core with its accumulator memory replaced. -/
def Core.setAccStore (k : Core) (u : UnitStore) : Core := { k with acc := u.mem, accPoison := u.bad }

/-- The address of accumulator word (row, column). -/
def accAddr (phys row col : Nat) : Nat := 16384 * phys + 4 * (32 * row + col)

/-- The physical accumulator of a group's accumulator. -/
def Group.acc (g : Group) (n : Nat) : Nat := g.accs.getD n 0

/-! ## TLD, TST, ARD, AWR and ACLR (12 R302; 08 R206) -/

/-- COUNT of MODS[28:26]. -/
def rangeCount (x : Ext) : Nat := modField x 6 4 + 1

/-- IL-OPND of a register range that passes the warp's allocation. -/
def rangeTrap (w : Warp) (o : Opnd) (count p : Nat) : Option Trap := if 8 * w.ngran < vecNum o + count then some (ilOpnd o p) else none

/-- The dead mark of a range. -/
def killRange (w : Warp) (f : Src) (count : Nat) : Warp := if f.dead then (regRange f.op count).foldl (fun w n => w.kill n) w else w

/-- The lanes' words of a range of registers. -/
def rangeWords (w : Warp) (f : Src) (count : Nat) : List (List Word) :=
  (regRange f.op count).map (fun n => lanes.map (fun l => BitVec.ofNat 32 (w.word n l)))

/-- TILE of a TLD or TST position (12 R302, check 2). -/
def tilePosTrap (e : TileEntry) (h row woff count pos : Nat) : Option Trap :=
  if !e.bound || e.lvl || decide (e.rows < row + count) || decide (e.rstride ≤ woff) || decide (bitsOf pos 31 27 ≠ 0) then raise 0x09 h
  else none

/-- An access added to a warp's list. -/
def Warp.addTile (w : Warp) (counted : Bool) (o : TileOp) : Warp :=
  { w with tiles := w.tiles ++ [{ o with id := w.loadId }], loadId := w.loadId + 1, tl := if counted then w.tl + 1 else w.tl }

/-- The access of a TLD or TST. -/
def tileOp (i : Issue) (kind : TileKind) (dst : Nat) (regs : List (List Word)) : TileOp :=
  { id := 0, kind := kind, tile := (handleEntry i.k i.g (i.a 0)).ref, handle := i.a 0, row := bitsOf (i.d 0) 15 0, woff := bitsOf (i.d 0) 26 16,
    count := rangeCount i.x, dst := dst, mask := i.run, helpers := i.hlp, regs := regs, ticket := 0, seen := [] }

/-- TLD. -/
def tldSpec (x : Ext) : Spec :=
  let n := rangeCount x
  { Spec.plain { Shape.bare with m := 0b1110000#10, anyGuard := true, dst := some (Dst.vec 32), a := onePos, c := onePos } (fun i =>
      match tilePosTrap (handleEntry i.k i.g (i.a 0)) (i.a 0) (bitsOf (i.d 0) 15 0) (bitsOf (i.d 0) 26 16) n (i.d 0) with
      | some t => .trap t
      | none =>
        if 63 ≤ i.w.tl then .stall
        else .done { i.res with
          s := i.s.modWarp i.c i.slot (fun w => w.addTile true (tileOp i .tld (vecNum x.dst) []))
          claims := regRange x.dst n })
    with chk := fun i => rangeTrap i.w x.dst n 0 <|> handleTrap i.g x.a.op (i.a 0) 1 }
/-- TLD (12 R302). -/
def execTld (x : Ext) (s : State) : Host.Outcome State Fault Refusal := runExt tldSpec x s

/-- The position of a first source register. -/
def firstRegPos : Option Pos := some (Pos.of [.vec] 32)

/-- TST. -/
def tstSpec (x : Ext) : Spec :=
  let n := rangeCount x
  { Spec.plain { Shape.bare with m := 0b1110000#10, anyGuard := true, a := onePos, b := firstRegPos, c := onePos, srcs := n } (fun i =>
      match (if taskRead i.g (i.a 0) then raise 0x09 (i.a 0) else none) <|>
            tilePosTrap (handleEntry i.k i.g (i.a 0)) (i.a 0) (bitsOf (i.d 0) 15 0) (bitsOf (i.d 0) 26 16) n (i.d 0) with
      | some t => .trap t
      | none =>
        if 63 ≤ i.w.tl then .stall
        else i.to (i.s.modWarp i.c i.slot (fun w => (killRange w x.b n).addTile true (tileOp i .tst 0 (rangeWords i.w x.b n)))))
    with chk := fun i => handleTrap i.g x.a.op (i.a 0) 1 <|> rangeTrap i.w x.b.op n 2 }
/-- TST (12 R302). -/
def execTst (x : Ext) (s : State) : Host.Outcome State Fault Refusal := runExt tstSpec x s

/-- A ticket of accumulator order (08 R191) on a physical accumulator. -/
def Core.takeTicket (k : Core) (phys : Nat) : Core :=
  { k with ticket := k.ticket + 1, accOrder := Tab.set k.accOrder phys (Tab.getD k.accOrder phys [] ++ [k.ticket]) }

/-- An access of accumulator `n` of a group: its ticket is taken at issue. -/
def addAcc (s : State) (i : Issue) (counted : Bool) (kind : TileKind) (n row count dst : Nat) (regs : List (List Word)) : State :=
  let ph := i.g.acc n
  let t := (s.core i.c).ticket
  (s.modCore i.c (fun k => k.takeTicket ph)).modWarp i.c i.slot (fun w => w.addTile counted
    { id := 0, kind := kind, tile := TileEntry.unbound.ref, handle := ph, row := row, woff := 0, count := count, dst := dst,
      mask := i.run, helpers := i.hlp, regs := regs, ticket := t, seen := [] })

/-- IL-OPND of an accumulator named in MODS: TVAL holds its index as the operand code (DEDUCED, log 14). -/
def accTrap (g : Group) (first count : Nat) : Option Trap :=
  if g.accs.length < first + count ∨ 16 < first + count then raise 0x05 (max first g.accs.length) else none

/-- ACC. -/
def accField (x : Ext) : Nat := modField x 3 0

/-- ACLR. -/
def aclrSpec (x : Ext) : Spec :=
  let n := modField x 7 4 + 1
  { Spec.plain { Shape.bare with m := 0xFF#10 } (fun i =>
      i.to ((List.range n).foldl (fun s j => addAcc s i false .aclr (accField x + j) 0 128 0 []) i.s))
    with chk := fun i => accTrap i.g (accField x) n }
/-- ACLR (08 Table 6). -/
def execAclr (x : Ext) (s : State) : Host.Outcome State Fault Refusal := runExt aclrSpec x s

/-- ARD. -/
def ardSpec (x : Ext) : Spec :=
  let n := rangeCount x
  { Spec.plain { Shape.bare with m := 0b1111111#10, anyGuard := true, dst := some (Dst.vec 32), a := onePos } (fun i =>
      if 128 < i.a 0 + n then .trap { cause := 0x09, tval := BitVec.ofNat 64 (i.a 0) }
      else if 63 ≤ i.w.tl then .stall
      else .done { i.res with s := addAcc i.s i true .ard (accField x) (i.a 0) n (vecNum x.dst) [], claims := regRange x.dst n })
    with chk := fun i => accTrap i.g (accField x) 1 <|> rangeTrap i.w x.dst n 0 }
/-- ARD (08 Table 6). -/
def execArd (x : Ext) (s : State) : Host.Outcome State Fault Refusal := runExt ardSpec x s

/-- AWR. -/
def awrSpec (x : Ext) : Spec :=
  let n := rangeCount x
  { Spec.plain { Shape.bare with m := 0b1111111#10, anyGuard := true, a := onePos, b := firstRegPos, srcs := n } (fun i =>
      if 128 < i.a 0 + n then .trap { cause := 0x09, tval := BitVec.ofNat 64 (i.a 0) }
      else if 63 ≤ i.w.tl then .stall
      else
        let s := i.s.modWarp i.c i.slot (fun w => killRange w x.b n)
        i.to (addAcc s i true .awr (accField x) (i.a 0) n 0 (rangeWords i.w x.b n)))
    with chk := fun i => accTrap i.g (accField x) 1 <|> rangeTrap i.w x.b.op n 2 }
/-- AWR (08 Table 6). -/
def execAwr (x : Ext) (s : State) : Host.Outcome State Fault Refusal := runExt awrSpec x s

/-! ## TILE_ACCESS_LAND -/

/-- The byte of a tile that register `r`, lane `l` of an access stands for, and its offset within the row. -/
def tileOff (o : TileOp) (r l : Nat) : Nat × Nat := ((o.row + r) * o.tile.rstride + 128 * o.woff + 4 * l, 128 * o.woff + 4 * l)

/-- Whether a lane word lies within the row's bytes. -/
def inRow (o : TileOp) (l : Nat) : Bool := decide (128 * o.woff + 4 * l < rowBytes o.tile.fmt o.tile.cols)

/-- The word that register `r`, lane `l` of a reading access receives: as it reads now, unless a TLD has read it before. -/
def tileWord (k : Core) (o : TileOp) (r l : Nat) : Nat × Bool :=
  match o.kind with
  | .tld => if inRow o l then (Tab.get? o.seen (32 * r + l)).getD (k.tileStore.word (o.tile.addr + (tileOff o r l).1)) else (0, false)
  | _ => k.accStore.word (accAddr o.handle (o.row + r) l)

/-- Register and lane numbers of an access, lanes first. -/
def tileCells (o : TileOp) (ls : Mask) : List (Nat × Nat) := ls.list.flatMap (fun l => (List.range o.count).map (fun r => (r, l)))

/-- A reading access lands in its registers; the lowest affected lane's error is raised at the next boundary (12 R290). -/
def landTile (s : State) (c slot : Nat) (o : TileOp) : State :=
  let k := s.core c
  let cells := (tileCells o o.mask).map (fun p => (p, tileWord k o p.1 p.2))
  let s1 := s.modWarp c slot (fun w =>
    cells.foldl (fun w q => w.landWord (o.dst + q.1.1) q.1.2 (if q.2.2 then 0x7FE00000 else q.2.1)) w)
  match cells.find? (fun q => q.2.2 && !o.helpers.has q.1.2) with
  | none => s1
  | some q =>
    let off := if o.kind = .tld then (tileOff o q.1.1 q.1.2).1 else 4 * (32 * (o.row + q.1.1) + q.1.2)
    (s1.uncorrectable c (if o.kind = .tld then 0x05 else 0x07)).modWarp c slot (fun w =>
      { w with pend := w.pend <|> some { cause := 0x11, tval := BitVec.ofNat 64 off } })

/-- The words that a TST has still to write, each with its register and lane (12 R302). -/
def TileOp.tstWords (o : TileOp) : List ((Nat × Nat) × Nat × Nat) :=
  ((tileCells o (o.mask &&& ~~~o.helpers)).filter (fun p => inRow o p.2 && (Tab.get? o.seen (32 * p.1 + p.2)).isNone)).map
    (fun p => (p, o.tile.addr + (tileOff o p.1 p.2).1, ((o.regs.getD p.1 []).getD p.2 0).toNat))

/-- A writing access writes the words that it has still to write. -/
def writeTile (k : Core) (o : TileOp) : Core :=
  let ls := o.mask &&& ~~~o.helpers
  let v := fun (p : Nat × Nat) => ((o.regs.getD p.1 []).getD p.2 0).toNat
  match o.kind with
  | .tst =>
    k.setTileStore (k.tileStore.put (o.tstWords.map Prod.snd))
  | .awr => k.setAccStore (k.accStore.put ((tileCells o ls).map (fun p => (accAddr o.handle (o.row + p.1) p.2, v p))))
  | _ =>
    { k with acc := Memory.clear k.acc (16384 * o.handle) 16384
             accPoison := k.accPoison.filter (fun u => decide (u / 2048 ≠ o.handle)) }

/-- Whether an access may be performed: TLD and TST of a warp in program order (11 R274), the others in accumulator order. -/
def mayAccess (k : Core) (w : Warp) (idx : Nat) (o : TileOp) : Bool :=
  match o.kind with
  | .tld => (w.tiles.take idx).all (fun e => !(e.kind == .tld || e.kind == .tst))
  | .tst => (w.tiles.take idx).all (fun e => !(e.kind == .tld || e.kind == .tst))
  | _ => (Tab.getD k.accOrder o.handle []).head? == some o.ticket

/-- Act tileRead: each word of a tile that another agent reads or writes concurrently is observed on its own: a TLD reads one word, a TST
writes one (11 R267, R268; 12 R302). -/
def catchTileWord (core slot idx r l : Nat) (s : State) : State :=
  match s.warp? core slot with
  | none => s
  | some w =>
    match w.tiles[idx]? with
    | none => s
    | some o =>
      if o.kind = .tld ∧ mayAccess (s.core core) w idx o = true then
        s.modWarp core slot (fun x => { x with tiles := x.tiles.set idx { o with seen := Tab.set o.seen (32 * r + l) (tileWord (s.core core) o r l) } })
      else if o.kind = .tst ∧ mayAccess (s.core core) w idx o = true then
        (s.modCore core (fun k => k.setTileStore (k.tileStore.put (o.tstWords.filterMap (fun p => if p.1 = (r, l) then some p.2 else none))))).modWarp
          core slot (fun x => { x with tiles := x.tiles.set idx { o with seen := Tab.set o.seen (32 * r + l) (0, false) } })
      else s

/-- A ticket given back. -/
def Core.dropTicket (k : Core) (phys t : Nat) : Core := { k with accOrder := Tab.set k.accOrder phys ((Tab.getD k.accOrder phys []).filter (· != t)) }

/-- TILE_ACCESS_LAND: one access of a warp is performed and lands (12 R302; 08 R206). -/
def execTileAccessLand (core slot idx : Nat) (s : State) : Host.Outcome State Fault Refusal :=
  match s.warp? core slot with
  | none => .next s
  | some w =>
    match w.tiles[idx]? with
    | none => .next s
    | some o =>
      if mayAccess (s.core core) w idx o then
        let s1 := if o.kind = .tld ∨ o.kind = .ard then landTile s core slot o else s.modCore core (fun k => writeTile k o)
        let s2 := if o.kind = .tld ∨ o.kind = .tst then s1 else s1.modCore core (fun k => k.dropTicket o.handle o.ticket)
        .next (s2.modWarp core slot (fun x => { x with
          tiles := x.tiles.take idx ++ x.tiles.drop (idx + 1), tl := if o.kind = .aclr then x.tl else x.tl - 1 }))
      else .next s

/-! ## ICINV (12 R297) -/

/-- The cores that hold a covered warp. SCOPE 0b00 covers one warp and empties the cache of its core (12 R297): the other warps of that core then
fetch no older word either, though 03 R73 would let them (DESIGN CHOICE, log 41). -/
def icinvCovers (scope c d : Nat) : Bool :=
  match scope with
  | 0 => d == c
  | 1 => d == c
  | 2 => dieOf d == dieOf c
  | _ => true

/-- The instruction caches of the covered cores emptied: words overwritten before are fetched no more (03 R73). -/
def invalidateCode (s : State) (c scope : Nat) : State :=
  { s with cores := Tab.mapVal s.cores (fun d k =>
      if icinvCovers scope c d && !k.warps.isEmpty then { k with icache := [], icSeq := s.pkg.oldNum } else k) }

/-- ICINV: it waits in place until the covered cores have finished (ICINV_DONE). -/
def icinvSpec (x : Ext) : Spec :=
  Spec.plain { Shape.bare with m := 3#10 } (fun i =>
    match i.w.waiting with
    | none => .hold { instr := .icinv x, len := i.len, start := 0, tag := none, lns := [], flushes := 0 } i.s
    | some _ => i.to (invalidateCode i.s i.c (modField x 1 0)))
/-- ICINV (12 R297). -/
def execIcinv (x : Ext) (s : State) : Host.Outcome State Fault Refusal := runExt icinvSpec x s

end Sys2Proof.Machine
end

