-- ==== Sys2Proof/Machine/Matrix.lean ====
section
/-! DEFINITION. The matrix array and the state-scan unit: MMA2 to MMA8, MMAW, WBLD, WBINV, SCAN and SCANST, and the events that
run their queues (08; 04 R97 to R104). -/

namespace Sys2Proof.Machine

/-! ## Completion of commands that name no element (13 R328) -/

/-- A value that the part chooses (log 4). -/
def State.freeValue (s : State) : State × Nat := ({ s with free := s.free + 1 }, Config.freeChoice s.free)

/-- Dword 4 of a fault record without status and timeline (13 Table 10). -/
def recordWord (kind space engine poster cscope fseq : Nat) : Nat :=
  kind * 2 ^ 48 + space * 2 ^ 45 + engine * 2 ^ 44 + poster * 2 ^ 37 + cscope * 2 ^ 32 + fseq

/-- A matrix or scan command ends: where the specification gives its failing address no form, the record holds a free value. -/
def State.endUnit (s : State) (c gid tl seq : Nat) (pc : DWord) (slot status : Nat) (at_ : Option (Nat × Nat)) : State :=
  if status = 0 then s.complete c gid tl seq 0 pc 0 0 0 none
  else
    match at_ with
    | some (sp, a) => s.complete c gid tl seq status pc 0 (BitVec.ofNat 64 a) (recordWord 0 sp 0 slot 0 0) none
    | none =>
      let f := s.freeValue
      let g := f.1.freeValue
      g.1.complete c gid tl seq status pc 0 (BitVec.ofNat 64 f.2) (recordWord 0 (g.2 % 8) 0 slot 0 0) none

/-! ## Queues (08 R190) -/

/-- Whether an entry takes one of the 32 places: WBINV takes none (08 R205). -/
def MatWhat.takesEntry (w : MatWhat) : Bool := match w with | .wbinv _ _ => false | _ => true

/-- The entries of the matrix queue that are taken: a command leaves its own when its timeline observes it. -/
def Core.matUsed (k : Core) : Nat := (k.matQ.filter (fun m => m.what.takesEntry)).length + k.matBack.length

/-- The three dwords of a parameter block. -/
def blockRegs (w : Warp) (k n : Nat) : List DWord := (List.range n).map (fun i => w.sreg (k + i))

/-- The number of a uniform register operand. -/
def uniNum (o : Opnd) : Nat := match o with | .s n => n.toNat | _ => 63

/-- IL-OPND of a block that begins above s60 (08 R192, R208). -/
def blockTrap (x : Ext) : Option Trap := if 60 < uniNum x.a.op then some (ilOpnd x.a.op 1) else none

/-- The lowest active lane: the elected lane (08 R193). -/
def Issue.elected (i : Issue) : Nat := (i.w.active.list).headD 0

/-- SLATE of a block: the register within the block and the bit. -/
def slateTrap (r b : Nat) : Trap := { cause := 0x0A, tval := BitVec.ofNat 64 (64 * r + b) }

/-- IL-OPND of a handle or accumulator named inside a block (08 R195). -/
def insideTrap (o : Opnd) (idx : Nat) : Trap := { cause := 0x05, tval := BitVec.ofNat 64 (o.code.toNat + 1024 + 4096 * idx) }

/-- A posted command's number written to DST. A read before the WAITC that settles it may give the old value or the new (03 R76;
06 R141): the model gives the new one from the issue on (DESIGN CHOICE, log 43). -/
def Issue.posted (i : Issue) (s : State) (n : Nat) : Eff :=
  i.to (s.modWarp i.c i.slot (fun w => w.putS (uniNum i.x.dst) (BitVec.ofNat 64 n)))

/-! ## The weight buffer (08 R201, R202) -/

/-- The bytes of a group's weight share. -/
def Group.wsize (g : Group) : Nat := 65536 * g.wunits.length

/-- The place of a byte of the share in the weight buffer. -/
def Group.wphys (g : Group) (o : Nat) : Nat := 65536 * g.wunits.getD (o / 65536) 0 + o % 65536

/-- Whether a byte of the share is loaded. -/
def wLoaded (k : Core) (g : Group) (o : Nat) : Bool := k.loaded.contains (g.wphys o / 64)

/-- Bytes of the share. -/
def wBytes (k : Core) (g : Group) (o n : Nat) : List Byte := (List.range n).map (fun i => Memory.read k.weight (g.wphys (o + i)))

/-- Whether bytes of the share meet a poisoned unit. -/
def wPoison (k : Core) (g : Group) (o n : Nat) : Bool := (List.range n).any (fun i => k.weightPoison.contains (g.wphys (o + i) / 8))

/-! ## MMA at issue (08 R192 to R195) -/

/-- The fields of an MMA's block. -/
structure MmaArgs where
  nA : Nat
  nB : Nat
  ah : Nat
  arow : Nat
  akb : Nat
  m : Nat
  wboff : Nat
  kb : Nat
  n : Nat
  acc : Nat
  rmi : Nat
  cmi : Nat
  tl : Nat
  zero : Bool
  deriving DecidableEq, Repr

/-- The fields of a block: `nb` the B width of MMA2 to MMA8, 16 for MMAW, whose A is wide when WSIDE = 0 (08 R200). -/
def mmaArgs (nb : Nat) (aWide : Bool) (r : List DWord) : MmaArgs :=
  let q := fun i => (r.getD i 0).toNat
  { nA := if aWide then 16 else bitsOf (q 0) 12 10 + 1, nB := if aWide then 8 else nb, ah := bitsOf (q 0) 63 56
    arow := bitsOf (q 0) 55 40, akb := bitsOf (q 0) 31 16, m := bitsOf (q 0) 6 0 + 1, wboff := bitsOf (q 1) 50 38
    kb := bitsOf (q 1) 31 16, n := bitsOf (q 1) 6 0 + 1, acc := bitsOf (q 2) 63 60, rmi := bitsOf (q 2) 57 56
    cmi := bitsOf (q 2) 55 54, tl := bitsOf (q 2) 51 48, zero := bitsOf (q 2) 47 47 == 1 }

/-- The last accumulator that an MMA names. -/
def MmaArgs.lastAcc (a : MmaArgs) : Nat := a.acc + (a.n - 1) / 32

/-- The lowest offending bit of each register of a block, under check 1 of 08 Table 5. -/
def mmaBad (nb : Nat) (aWide : Bool) (r : List DWord) : Option Trap :=
  let q := fun i => (r.getD i 0).toNat
  let afmt := bitsOf (q 0) 12 10
  let b0 := lowestOf [lowBit (q 0) 39 32, lowBit (q 0) 15 13, lowBit (q 0) 9 7,
    if aWide then lowBit (q 0) 12 10 else if afmt = 0 then some 10 else none]
  let b1 := lowestOf [lowBit (q 1) 63 51, lowBit (q 1) 37 32, lowBit (q 1) 15 7, if bitsOf (q 1) 31 16 = 0 then some 16 else none]
  let b2 := lowestOf [lowBit (q 2) 59 58, lowBit (q 2) 53 52, lowBit (q 2) 45 0, if nb < 16 then lowBit (q 2) 46 46 else none]
  b0.map (slateTrap 0) <|> b1.map (slateTrap 1) <|> b2.map (slateTrap 2)

/-- The block format code of a mantissa width (12 R298). -/
def blockCode (n : Nat) : Nat := if n = 16 then 8 else n + 7

/-- TILE of the A tile (08 Table 5, order 4). -/
def mmaTileBad (e : TileEntry) (a : MmaArgs) : Bool :=
  !e.bound || e.lvl || e.fmt != blockCode a.nA || decide (e.rows < a.arow + a.m) || decide (e.cols < 32 * (a.akb + a.kb))

/-- The indices of handles and accumulators beyond a group's allocation (08 Table 5, order 3). -/
def mmaOutside (g : Group) (a : MmaArgs) : List Nat :=
  (if g.nTile ≤ a.ah then [a.ah] else []) ++
  (if g.accs.length ≤ a.lastAcc ∨ 15 < a.lastAcc then [max a.acc (min g.accs.length 16)] else [])

/-- The trap of an MMA's issue checks (08 Table 5). A mantissa area that passes the share names WBOFF (08 R195; DESIGN CHOICE, log 41). -/
def mmaTrap (i : Issue) (nb : Nat) (aWide : Bool) (r : List DWord) (a : MmaArgs) : Option Trap :=
  mmaBad nb aWide r <|>
  (if i.g.nTl ≤ a.tl then some (slateTrap 2 48) else none) <|>
  ((mmaOutside i.g a).min?).map (insideTrap i.x.a.op) <|>
  (if mmaTileBad (handleEntry i.k i.g a.ah) a then raise 0x09 a.ah else none) <|>
  (if i.g.wsize < 64 * a.wboff + 4 * a.nB * a.kb * a.n then some (slateTrap 1 38) else none)

/-- The tickets of the accumulators of an MMA (08 R191). -/
def takeTickets (k : Core) : List Nat → Core × List (Nat × Nat)
  | [] => (k, [])
  | p :: t =>
    let r := takeTickets (k.takeTicket p) t
    (r.1, (p, k.ticket) :: r.2)

/-- The accumulators of an MMA. -/
def MmaArgs.accs (a : MmaArgs) (g : Group) : List Nat := (List.range ((a.n - 1) / 32 + 1)).map (fun j => g.acc (a.acc + j))

/-- MMA2 to MMA8 with `nb` = 2 to 8, MMAW with 16; `ins` is the instruction as it was issued. -/
def mmaSpec (nb : Nat) (ins : Instr) (x : Ext) : Spec :=
  Spec.blocks { Shape.bare with anyGuard := true, dst := some Dst.uni, a := some (Pos.of [.uni] 64) } (fun _ => blockTrap x) (fun i =>
    if !(i.grd.has i.elected) then i.to i.s
    else if 32 ≤ i.k.matUsed then .block (i.wait ins) i.s
    else
      let r := blockRegs i.w (uniNum x.a.op) 3
      let aWide := nb == 16 && bitsOf (r.getD 2 0).toNat 46 46 == 0
      let a := mmaArgs nb aWide r
      match mmaTrap i nb aWide r a with
      | some t => .trap t
      | none =>
        let sq := i.s.takeSeq i.c i.w.gid a.tl
        let tk := takeTickets (sq.1.core i.c) (a.accs i.g)
        let cmd : MatCmd := { gid := i.w.gid, tl := a.tl, seq := sq.2, pc := i.w.pc.setWidth 64, slot := i.slot,
                              posted := i.k.cycle.toNat,
                              what := .mma nb aWide r (i.w.edge a.rmi) (i.w.edge a.cmi) (handleEntry i.k i.g a.ah).ref tk.2 }
        i.posted (sq.1.setCore i.c { tk.1 with matQ := tk.1.matQ ++ [cmd] }) sq.2)

/-- MMA2 (08 R192, R193). -/
def execMma2 (x : Ext) (s : State) : Host.Outcome State Fault Refusal := runExt (mmaSpec 2 (.mma2 x)) x s
/-- MMA3 (08 R192, R193). -/
def execMma3 (x : Ext) (s : State) : Host.Outcome State Fault Refusal := runExt (mmaSpec 3 (.mma3 x)) x s
/-- MMA4 (08 R192, R193). -/
def execMma4 (x : Ext) (s : State) : Host.Outcome State Fault Refusal := runExt (mmaSpec 4 (.mma4 x)) x s
/-- MMA5 (08 R192, R193). -/
def execMma5 (x : Ext) (s : State) : Host.Outcome State Fault Refusal := runExt (mmaSpec 5 (.mma5 x)) x s
/-- MMA6 (08 R192, R193). -/
def execMma6 (x : Ext) (s : State) : Host.Outcome State Fault Refusal := runExt (mmaSpec 6 (.mma6 x)) x s
/-- MMA7 (08 R192, R193). -/
def execMma7 (x : Ext) (s : State) : Host.Outcome State Fault Refusal := runExt (mmaSpec 7 (.mma7 x)) x s
/-- MMA8 (08 R192, R193). -/
def execMma8 (x : Ext) (s : State) : Host.Outcome State Fault Refusal := runExt (mmaSpec 8 (.mma8 x)) x s
/-- MMAW (08 R192, R200). -/
def execMmaw (x : Ext) (s : State) : Host.Outcome State Fault Refusal := runExt (mmaSpec 16 (.mmaw x)) x s

/-! ## Waking a warp that waits -/

/-- The wait of a warp that may go on now: its group runs, it has no trap or pre-emption to take first, and no debug freeze holds
its scheduler (02 R31, R50; 09 R241). -/
def State.waitOf (s : State) (c slot : Nat) : Option Waiting :=
  match s.warp? c slot with
  | none => none
  | some w =>
    let stopped := match s.group? c w.gid with | some g => g.stopped | none => true
    if stopped || w.halted || w.pend.isSome || (w.preempt && !w.handler) || ((s.core c).sched (schedOf slot)).frozen then none
    else w.waiting

/-- MMA_ACCEPT: an MMA that waits for room takes a freed entry (08 R193). -/
def execMmaAccept (core slot : Nat) (s : State) : Host.Outcome State Fault Refusal :=
  if 32 ≤ (s.core core).matUsed then .next s
  else
    match (s.waitOf core slot).map Waiting.instr with
    | some (.mma2 x) => resume s core slot (execMma2 x)
    | some (.mma3 x) => resume s core slot (execMma3 x)
    | some (.mma4 x) => resume s core slot (execMma4 x)
    | some (.mma5 x) => resume s core slot (execMma5 x)
    | some (.mma6 x) => resume s core slot (execMma6 x)
    | some (.mma7 x) => resume s core slot (execMma7 x)
    | some (.mma8 x) => resume s core slot (execMma8 x)
    | some (.mmaw x) => resume s core slot (execMmaw x)
    | _ => .next s

/-! ## The arithmetic of an MMA (04 R97, R98; 08 R196, R202, R203) -/

/-- A block as the array uses it: its exponent, its mantissas, and whether an uncorrectable error makes it poison. -/
structure Block where
  e : Nat
  ms : List Nat
  bad : Bool
  deriving DecidableEq, Repr

/-- A scale code of a stream, with the poison mark of its nibble; then the exponent of each block, whether it is malformed, and
whether a poisoned code decided it (08 R203). -/
def scaleBlocks : Nat → Option (Nat × Bool) → List (Nat × Bool) → List (Nat × Bool × Bool)
  | 0, _, _ => []
  | k + 1, prev, codes =>
    match codes with
    | (8, b0) :: (lo, b1) :: (hi, b2) :: t =>
      let bad := b0 || b1 || b2
      (lo + 16 * hi, false, bad) :: scaleBlocks k (some (lo + 16 * hi, bad)) t
    | (d, b) :: t =>
      match prev with
      | none => (0xFF, true, b) :: scaleBlocks k (some (0xFF, b)) t
      | some (p, pb) =>
        let e := (p : Int) + sextNat d 4
        if e < 0 ∨ 0xFF < e then (0xFF, true, b || pb) :: scaleBlocks k (some (0xFF, b || pb)) t
        else (e.toNat, false, b || pb) :: scaleBlocks k (some (e.toNat, b || pb)) t
    | [] => (0xFF, true, false) :: scaleBlocks k (some (0xFF, false)) []

/-- How many nibbles the codes of `k` blocks take. -/
def codesUsed : Nat → List Nat → Nat
  | 0, _ => 0
  | k + 1, 8 :: t => 3 + codesUsed k (t.drop 2)
  | k + 1, _ :: t => 1 + codesUsed k t
  | _, [] => 0

/-- The nibbles of bytes with the poison marks of the bytes. -/
def markedNibbles (bs : List (Byte × Bool)) : List (Nat × Bool) := bs.flatMap (fun p => [(p.1.toNat % 16, p.2), (p.1.toNat / 16, p.2)])

/-- A malformed block has every mantissa 0 (04 R92). -/
def mkBlock (n : Nat) (sc : Nat × Bool × Bool) (bytes : List Byte) (bad : Bool) : Block :=
  { e := sc.1, ms := if sc.2.1 then List.replicate 32 0 else bqMants n bytes, bad := sc.2.2 || bad }

/-- Bytes of the tile store with their poison marks. -/
def tileBytes (k : Core) (a n : Nat) : List (Byte × Bool) :=
  (List.range n).map (fun i => (Memory.read k.tileMem (a + i), k.tilePoison.contains ((a + i) / 8)))

/-- What a row of A gives: its blocks, whether its scale area is malformed, whether an error was met. -/
structure ARow where
  blocks : List Block
  malformed : Bool
  bad : Bool

/-- Row `r` of the A tile: blocks `akb` to `akb + kb - 1`. -/
def readARow (k : Core) (t : TileRef) (n r akb kb : Nat) : ARow :=
  let base := t.addr + r * t.rstride
  let blocks := t.cols / 32
  let sc := tileBytes k (base + 4 * n * blocks) ((3 * blocks + 1) / 2)
  let codes := markedNibbles sc
  let es := scaleBlocks (akb + kb) none codes
  let used := codes.take (codesUsed (akb + kb) (codes.map Prod.fst))
  let bs := (List.range kb).map (fun i =>
    let m := tileBytes k (base + 4 * n * (akb + i)) (4 * n)
    mkBlock n (es.getD (akb + i) (0xFF, true, false)) (m.map Prod.fst) (m.any Prod.snd))
  { blocks := bs, malformed := es.any (fun p => p.2.1), bad := used.any Prod.snd || bs.any Block.bad }

/-- One nibble of a B stream: its value, its mark, and the status of a command that reads it: 0, WBEMPTY or WBRANGE. -/
def streamNibble (k : Core) (g : Group) (o i : Nat) : (Nat × Bool) × Nat :=
  let a := o + i / 2
  if g.wsize ≤ a then ((0, false), 4)
  else if !(wLoaded k g a) then ((0, false), 3)
  else
    let b := (Memory.read k.weight (g.wphys a)).toNat
    ((if i % 2 = 0 then b % 16 else b / 16, wPoison k g a 1), 0)

/-- What the B stream gives: the blocks of a column, the status that stops the command, and its marks. -/
structure BStream where
  block : Nat → Nat → Block
  stop : Nat
  malformed : Bool
  bad : Bool

/-- The B stream of an MMA for the columns that take part: it needs the codes up to its last block. -/
def readStream (k : Core) (g : Group) (a : MmaArgs) (cols : List Nat) : BStream :=
  let start := 64 * a.wboff
  let area := start + 4 * a.nB * a.kb * a.n
  let need := match cols.max? with | some j => (a.kb - 1) * a.n + j + 1 | none => 0
  let ns := (List.range (3 * need)).map (streamNibble k g area)
  let used := ns.take (codesUsed need (ns.map (fun p => p.1.1)))
  let es := scaleBlocks need none (ns.map Prod.fst)
  let at_ := fun kb j => start + 4 * a.nB * (kb * a.n + j)
  let pairs := (List.range a.kb).flatMap (fun kb => cols.map (fun j => (kb, j)))
  let codeStop := match used.find? (fun p => p.2 != 0) with | some p => p.2 | none => 0
  let empty := pairs.any (fun p => (List.range (4 * a.nB)).any (fun i => !(wLoaded k g (at_ p.1 p.2 + i))))
  { block := fun kb j => mkBlock a.nB (es.getD (kb * a.n + j) (0xFF, true, false)) (wBytes k g (at_ kb j) (4 * a.nB)) (wPoison k g (at_ kb j) (4 * a.nB))
    stop := if codeStop ≠ 0 then codeStop else if empty then 3 else 0
    malformed := es.any (fun p => p.2.1)
    bad := used.any (fun p => p.1.2) || pairs.any (fun p => wPoison k g (at_ p.1 p.2) (4 * a.nB)) }

/-- Whether a block holds a poison element. -/
def Block.poison (b : Block) : Bool := b.bad || (b.e == 0xFF && b.ms.any (fun m => m != 0))

/-- One block step of 04 R97 on an accumulator. -/
def blockStep (nA nB : Nat) (c : Nat) (a b : Block) : Nat :=
  let v := Fmt.f32.unpack c
  if a.poison || b.poison || v.isPoison then Fmt.f32.poison
  else if a.e = 0xFF ∨ b.e = 0xFF ∨ v.isNan then Fmt.f32.nan
  else
    let t := mantDot nA nB a.ms b.ms
    (Fmt.f32.addFp 0 v (.fin (decide (t < 0)) t.natAbs ((a.e : Int) + b.e - 254 - ((nA : Int) - 1) - ((nB : Int) - 1)))).1

/-- An output of an MMA from its starting value (08 R196). -/
def mmaOutput (nA nB : Nat) (c : Nat) (as bs : List Block) : Nat := (as.zip bs).foldl (fun c p => blockStep nA nB c p.1 p.2) c

/-- What an MMA will write (08 R196 to R203): the accumulator words, its status, and the units that met an error. -/
def mmaRun (k : Core) (g : Group) (a : MmaArgs) (rm cm : BitVec 128) (t : TileRef) : List (Nat × Nat) × Nat × List Nat :=
  let rows := (List.range a.m).filter (fun i => rm.getLsbD i)
  let cols := (List.range a.n).filter (fun j => cm.getLsbD j)
  if rows.isEmpty ∨ cols.isEmpty then ([], 0, [])
  else
    let st := readStream k g a cols
    if st.stop ≠ 0 then ([], st.stop, [])
    else
      let as := rows.map (fun i => (i, readARow k t a.nA (a.arow + i) a.akb a.kb))
      let bs := cols.map (fun j => (j, (List.range a.kb).map (fun kb => st.block kb j)))
      let c0 := fun i j => if a.zero then (0, false) else k.accStore.word (accAddr (g.acc (a.acc + j / 32)) i (j % 32))
      let badA := as.any (fun p => p.2.bad)
      let badC := rows.any (fun i => cols.any (fun j => (c0 i j).2))
      let outs := as.flatMap (fun p => bs.map (fun q =>
        let c := c0 p.1 q.1
        (accAddr (g.acc (a.acc + q.1 / 32)) p.1 (q.1 % 32), mmaOutput a.nA a.nB (if c.2 then Fmt.f32.poison else c.1) p.2.blocks q.2)))
      (outs, if badA || st.bad || badC then 1 else if st.malformed || as.any (fun p => p.2.malformed) then 2 else 0,
        (if badA then [0x05] else []) ++ (if st.bad then [0x06] else []) ++ (if badC then [0x07] else []))

/-! ## The array (08 R190, R199, R207) -/

/-- The MMA at the head of the matrix queue. -/
def Core.mmaHead (k : Core) : Option MatCmd :=
  match k.matQ with
  | m :: _ => match m.what with | .mma _ _ _ _ _ _ _ => some m | _ => none
  | [] => none

/-! ## WBLD and WBINV (08 R204, R205) -/

/-- SLATE with an offending value. -/
def slateVal (v : Nat) : Option Trap := raise 0x0A v

/-- The checks 1, 2, 4 and 5 of 08 R204, of which check 3 stands between the second and the fourth. -/
def wbldTrap (i : Issue) (sp : Bool) (tl : Nat) : Option Trap :=
  (if !sp && i.a 0 % 64 != 0 then slateVal (i.a 0) else none) <|>
  (if i.b 0 % 64 != 0 then slateVal (i.b 0) else none) <|>
  (if i.d 0 % 64 != 0 || i.d 0 == 0 then slateVal (i.d 0) else none) <|>
  (if i.g.nTl ≤ tl then slateVal tl else none) <|>
  (if sp then handleTrap i.g i.x.a.op (i.a 0) 1 else none) <|>
  (if sp then
     let e := handleEntry i.k i.g (i.a 0)
     if !e.bound || e.lvl || decide (e.rows * e.ref.rstride < i.d 0) then raise 0x09 (i.a 0) else none
   else if i.g.scrSize < i.a 0 + i.d 0 then raise 0x08 (max (i.a 0) i.g.scrSize) else none) <|>
  (if i.g.wsize < i.b 0 + i.d 0 then slateVal (i.b 0) else none)

/-- WBLD. -/
def wbldSpec (x : Ext) : Spec :=
  Spec.plain { Shape.bare with m := 0x1F#10, dst := some Dst.uni, a := onePos, b := onePos, c := onePos } (fun i =>
    let sp := modBit x 0
    let tl := modField x 4 1
    match wbldTrap i sp tl with
    | some t => .trap t
    | none =>
      if 32 ≤ i.k.matUsed then i.posted i.s 0
      else
        let s0 := if sp then i.s else i.s.drain i.c i.slot
        let sq := s0.takeSeq i.c i.w.gid tl
        let cmd : MatCmd := { gid := i.w.gid, tl := tl, seq := sq.2, pc := i.w.pc.setWidth 64, slot := i.slot, posted := i.k.cycle.toNat,
                              what := .wbld sp (i.a 0) (if sp then some (handleEntry i.k i.g (i.a 0)).ref else none) (i.b 0) (i.d 0) }
        i.posted (sq.1.modCore i.c (fun k => { k with matQ := k.matQ ++ [cmd] })) sq.2)
/-- WBLD (08 R204). -/
def execWbld (x : Ext) (s : State) : Host.Outcome State Fault Refusal := runExt wbldSpec x s

/-- WBINV: it waits its turn among the commands of the matrix queue without taking a place there. -/
def wbinvSpec (_x : Ext) : Spec :=
  Spec.plain { Shape.bare with a := onePos, b := onePos } (fun i =>
    let size := i.g.wsize
    if i.a 0 % 64 ≠ 0 ∨ size < i.a 0 then .trap { cause := 0x0A, tval := BitVec.ofNat 64 (i.a 0) }
    else if i.b 0 % 64 ≠ 0 ∨ size < i.a 0 + i.b 0 then .trap { cause := 0x0A, tval := BitVec.ofNat 64 (i.b 0) }
    else
      let cmd : MatCmd := { gid := i.w.gid, tl := 0, seq := 0, pc := i.w.pc.setWidth 64, slot := i.slot, posted := i.k.cycle.toNat, what := .wbinv (i.a 0) (i.b 0) }
      i.to (i.s.modCore i.c (fun k => { k with matQ := k.matQ ++ [cmd] })))
/-- WBINV (08 R205). -/
def execWbinv (x : Ext) (s : State) : Host.Outcome State Fault Refusal := runExt wbinvSpec x s

/-- The bytes that a WBLD reads, with their poison marks, and the address of the first poisoned one. -/
def wbldRead (k : Core) (g : Group) (sp : Bool) (src len : Nat) (t : Option TileRef) : List (Byte × Bool) :=
  match sp, t with
  | true, some r => tileBytes k r.addr len
  | _, _ => (List.range len).map (fun i => (localByte k g (src + i), localPoison k g (src + i)))

/-! ## SCAN and SCANST at issue (08 R208, R210, R213) -/

/-- The fields of a SCAN's block. -/
structure ScanArgs where
  hs : Nat
  hx : Nat
  ha : Nat
  hb : Nat
  hc : Nat
  hy : Nat
  trow : Nat
  t : Nat
  p : Nat
  n : Nat
  rmi : Nat
  cmi : Nat
  tl : Nat
  form : Nat
  rcd : Bool
  yen : Bool
  recAddr : Nat
  deriving DecidableEq, Repr

/-- The fields of a block (08 Tables 8 to 10). -/
def scanArgs (r : List DWord) : ScanArgs :=
  let q := fun i => (r.getD i 0).toNat
  { hs := bitsOf (q 0) 63 56, hx := bitsOf (q 0) 55 48, ha := bitsOf (q 0) 47 40, hb := bitsOf (q 0) 39 32, hc := bitsOf (q 0) 31 24
    hy := bitsOf (q 0) 23 16, trow := bitsOf (q 1) 63 48, t := bitsOf (q 1) 47 32, p := bitsOf (q 1) 31 25 + 1, n := bitsOf (q 1) 24 18 + 1
    rmi := bitsOf (q 2) 63 62, cmi := bitsOf (q 2) 61 60, tl := bitsOf (q 2) 59 56, form := bitsOf (q 2) 55 54
    rcd := bitsOf (q 2) 53 53 == 1, yen := bitsOf (q 2) 52 52 == 1, recAddr := bitsOf (q 2) 31 0 }

/-- The bit of the lowest-placed field among equal handles, where HS or HY equals another (08 R208). With YEN = 0 the field HY names no tile and
is not compared (DEDUCED, log 41). -/
def ScanArgs.equalBit (a : ScanArgs) : Option Nat :=
  let fs := [(24, a.hc), (32, a.hb), (40, a.ha), (48, a.hx)]
  lowestOf [if a.yen then (if a.hy = a.hs ∨ fs.any (fun f => f.2 == a.hy) then some 16 else none) else none,
    (fs.find? (fun f => f.2 == a.hs)).map Prod.fst]

/-- SLATE under check 1: the lowest offending bit of the lowest register. -/
def scanBad (r : List DWord) (a : ScanArgs) : Option Trap :=
  let q := fun i => (r.getD i 0).toNat
  let b0 := lowestOf [lowBit (q 0) 15 0, if a.yen then none else lowBit (q 0) 23 16, a.equalBit]
  let b1 := lowestOf [lowBit (q 1) 17 0, if a.t = 0 then some 32 else none]
  let b2 := lowestOf [lowBit (q 2) 51 32, if a.form = 3 then some 54 else none]
  b0.map (slateTrap 0) <|> b1.map (slateTrap 1) <|> b2.map (slateTrap 2)

/-- The handles of a SCAN with the rows and columns each is addressed at: HS, HX, HA, HB, HC and, with YEN, HY. -/
def ScanArgs.tiles (a : ScanArgs) : List (Nat × Nat × Nat) :=
  let r := a.trow + a.t
  [(a.hs, a.p, a.n), (a.hx, r, a.p), (a.ha, r, 1), (a.hb, r, a.n), (a.hc, if a.yen then r else 0, if a.yen then a.n else 0)] ++
  (if a.yen then [(a.hy, r, a.p)] else [])

/-- Whether a tile may not be used by a scan command. -/
def scanTileBad (e : TileEntry) (rows cols : Nat) : Bool :=
  !e.bound || e.lvl || e.fmt != 0 || decide (e.rows < rows) || decide (e.cols < cols)

/-- The trap of a SCAN's issue checks (08 R208). Of several tiles that offend, TILE names the first of HS, HX, HA, HB, HC and HY (DESIGN CHOICE,
log 41). -/
def scanTrap (i : Issue) (r : List DWord) (a : ScanArgs) : Option Trap :=
  scanBad r a <|>
  (if i.g.nTl ≤ a.tl then some (slateTrap 2 56) else none) <|>
  (((a.tiles.map Prod.fst).filter (fun h => decide (i.g.nTile ≤ h))).min?).map (insideTrap i.x.a.op) <|>
  (match a.tiles.find? (fun t => scanTileBad (handleEntry i.k i.g t.1) t.2.1 t.2.2) with
   | some t => raise 0x09 t.1
   | none => none) <|>
  (if a.rcd && (a.recAddr % 8 != 0 || decide (i.g.scrSize < a.recAddr + 8)) then raise 0x08 a.recAddr else none)

/-- The chunk length of a SCAN, 0 for the recurrent form (08 R210). -/
def scanChunk (g : Group) (a : ScanArgs) : Nat :=
  if a.form = 1 ∨ (a.form = 0 ∧ a.t < g.thresh.toNat) then 0 else 16 * 2 ^ g.clen.toNat

/-- SCAN. -/
def scanSpec (x : Ext) : Spec :=
  { Spec.plain { Shape.bare with anyGuard := true, dst := some Dst.uni, a := some (Pos.of [.uni] 64) } (fun i =>
      if !(i.grd.has i.elected) then i.to i.s
      else
        let r := blockRegs i.w (uniNum x.a.op) 3
        let a := scanArgs r
        match scanTrap i r a with
        | some t => .trap t
        | none =>
          if 16 ≤ i.k.scanQ.length then i.posted i.s 0
          else
            let sq := i.s.takeSeq i.c i.w.gid a.tl
            let cmd : ScanCmd := { gid := i.w.gid, tl := a.tl, seq := sq.2, pc := i.w.pc.setWidth 64, slot := i.slot, posted := i.k.cycle.toNat,
                                   deny := taskRead i.g a.hs || (a.yen && taskRead i.g a.hy)
                                   what := .scan r (i.w.edge a.rmi) (i.w.edge a.cmi) (scanChunk i.g a) (a.tiles.map (fun t => (handleEntry i.k i.g t.1).ref)) }
            i.posted (sq.1.modCore i.c (fun k => { k with scanQ := k.scanQ ++ [cmd] })) sq.2)
    with chk := fun _ => blockTrap x }
/-- SCAN (08 R208). -/
def execScan (x : Ext) (s : State) : Host.Outcome State Fault Refusal := runExt scanSpec x s

/-- The trap of a SCANST's tiles (08 R213, check 3): the source handle where both offend, as they do where their shapes differ; an unbound
destination has no shape (log 41). -/
def scanstTileTrap (i : Issue) : Option Trap :=
  let a := handleEntry i.k i.g (i.a 0)
  let b := handleEntry i.k i.g (i.b 0)
  if scanTileBad a 0 0 then raise 0x09 (i.a 0)
  else if !b.bound then raise 0x09 (i.b 0)
  else if a.rows ≠ b.rows ∨ a.cols ≠ b.cols then raise 0x09 (i.a 0)
  else if scanTileBad b 0 0 then raise 0x09 (i.b 0)
  else none

/-- SCANST. -/
def scanstSpec (x : Ext) : Spec :=
  Spec.plain { Shape.bare with m := 0xF#10, dst := some Dst.uni, a := onePos, b := onePos } (fun i =>
    let tl := modField x 3 0
    match (if i.g.nTl ≤ tl then slateVal tl else none) <|> handleTrap i.g x.a.op (i.a 0) 1 <|> handleTrap i.g x.b.op (i.b 0) 2 <|> scanstTileTrap i with
    | some t => .trap t
    | none =>
      if 16 ≤ i.k.scanQ.length then i.posted i.s 0
      else
        let sq := i.s.takeSeq i.c i.w.gid tl
        let cmd : ScanCmd := { gid := i.w.gid, tl := tl, seq := sq.2, pc := i.w.pc.setWidth 64, slot := i.slot, posted := i.k.cycle.toNat,
                               deny := taskRead i.g (i.b 0), what := .scanst (handleEntry i.k i.g (i.a 0)).ref (handleEntry i.k i.g (i.b 0)).ref }
        i.posted (sq.1.modCore i.c (fun k => { k with scanQ := k.scanQ ++ [cmd] })) sq.2)
/-- SCANST (08 R213). -/
def execScanst (x : Ext) (s : State) : Host.Outcome State Fault Refusal := runExt scanstSpec x s

/-! ## The arithmetic of SCAN (04 R101 to R103; 08 R209) -/

/-- The exact sum of products, rounded once (04 R103; 08 R209): an exact zero is +0 unless every term is -0. -/
def dotRound (ts : List (Nat × Nat)) : Nat :=
  let f := Fmt.f32
  let us := ts.map (fun p => (f.unpack p.1, f.unpack p.2))
  let all := us.flatMap (fun p => [p.1, p.2])
  if all.any Fp.isNan then (f.nanOut all false).1
  else
    let ps := us.map (fun p => mulFp p.1 p.2)
    if ps.any Option.isNone then (f.nanOut [] true).1
    else
      let xs := ps.filterMap id
      let infs := xs.filterMap (fun x => match x with | .inf n => some n | _ => none)
      match infs with
      | n :: t => if t.any (fun m => m != n) then (f.nanOut [] true).1 else f.signed n f.inf
      | [] =>
        let sum := xs.foldl (fun (a : Bool × Nat × Int) x => match x with
          | .fin n m q => exactAdd a.1 a.2.1 a.2.2 n m q
          | _ => a) (false, 0, 0)
        if sum.2.1 = 0 then f.signed (!xs.isEmpty && xs.all (fun x => match x with | .fin n _ _ => n | _ => false)) 0
        else (f.round 0 sum.1 sum.2.1 sum.2.2 false).1

/-- The address of word (row, column) of a tile of format FP32. -/
def f32Addr (t : TileRef) (r c : Nat) : Nat := t.addr + r * t.rstride + 4 * c

/-- A word of a tile as the scan unit reads it, and whether it met an error. -/
def scanWord (k : Core) (t : TileRef) (r c : Nat) : Nat × Bool :=
  let w := k.tileStore.word (f32Addr t r c)
  if w.2 then (Fmt.f32.poison, true) else w

/-- What a step of a SCAN works on: its fields, its tiles, its participating rows and columns. -/
structure ScanView where
  a : ScanArgs
  tiles : List TileRef
  rows : List Nat
  cols : List Nat

/-- The view of a SCAN. -/
def scanView (r : List DWord) (rm cm : BitVec 128) (ts : List TileRef) : ScanView :=
  let a := scanArgs r
  { a := a, tiles := ts, rows := (List.range a.p).filter (fun i => rm.getLsbD i), cols := (List.range a.n).filter (fun j => cm.getLsbD j) }

/-- Tile `n` of a view, in the order of `ScanArgs.tiles`. -/
def ScanView.tile (v : ScanView) (n : Nat) : TileRef := v.tiles.getD n TileEntry.unbound.ref

/-- The participating elements. -/
def ScanView.elems (v : ScanView) : List (Nat × Nat) := v.rows.flatMap (fun p => v.cols.map (fun s => (p, s)))

/-- Whether the inputs of step `t` meet an error. -/
def ScanView.stepBad (v : ScanView) (k : Core) (t : Nat) : Bool :=
  let r := v.a.trow + t - 1
  !v.elems.isEmpty && ((scanWord k (v.tile 2) r 0).2 || v.rows.any (fun p => (scanWord k (v.tile 1) r p).2) ||
    v.cols.any (fun s => (scanWord k (v.tile 3) r s).2 || (v.a.yen && (scanWord k (v.tile 4) r s).2)))

/-- a[t]. -/
def ScanView.decay (v : ScanView) (k : Core) (t : Nat) : Nat := (scanWord k (v.tile 2) (v.a.trow + t - 1) 0).1

/-- v[t] of an element. -/
def ScanView.input (v : ScanView) (k : Core) (t : Nat) (e : Nat × Nat) : Nat :=
  let r := v.a.trow + t - 1
  (Fmt.f32.mul 0 (Fmt.f32.unpack (scanWord k (v.tile 1) r e.1).1) (Fmt.f32.unpack (scanWord k (v.tile 3) r e.2).1)).1

/-- The state held by element. -/
def stateOf (h : Tab Word) (e : Nat × Nat) : Nat := (Tab.getD h (128 * e.1 + e.2) 0).toNat

/-- A state from a function of the element. -/
def ScanView.state (v : ScanView) (f : Nat × Nat → Nat) : Tab Word := v.elems.map (fun e => (128 * e.1 + e.2, BitVec.ofNat 32 (f e)))

/-- The recurrent step (04 R102). -/
def ScanView.recur (v : ScanView) (k : Core) (h : Tab Word) (t : Nat) : Tab Word :=
  let a := Fmt.f32.unpack (v.decay k t)
  v.state (fun e => (Fmt.f32.fma 0 a (Fmt.f32.unpack (stateOf h e)) (Fmt.f32.unpack (v.input k t e))).1)

/-- The decay weights d[t][t], d[t][t-1] ... d[t][s-1] of 04 R103. -/
def ScanView.weights (v : ScanView) (k : Core) : Nat → Nat → Nat → List Nat
  | 0, _, d => [d]
  | n + 1, j, d => d :: v.weights k n (j - 1) (Fmt.f32.mul 0 (Fmt.f32.unpack d) (Fmt.f32.unpack (v.decay k j))).1

/-- 1.0. -/
def oneF32 : Nat := 0x3F800000

/-- h[t] of a chunk that starts at step `st` from state `h`, by the steps of 04 R103: where a decay weight underflows on the way, they
give a value outside R105's bound, and the steps are followed (DESIGN CHOICE, log 41). -/
def ScanView.chunkState (v : ScanView) (k : Core) (h : Tab Word) (st t : Nat) : Tab Word :=
  let ds := v.weights k (t + 1 - st) t oneF32
  v.state (fun e =>
    dotRound ((ds.getD (t + 1 - st) 0, stateOf h e) :: (List.range (t + 1 - st)).map (fun i => (ds.getD i 0, v.input k (t - i) e))))

/-- The words of y that step `t` writes (08 R209). -/
def ScanView.outputs (v : ScanView) (k : Core) (h : Tab Word) (t : Nat) : List (Nat × Nat) :=
  let r := v.a.trow + t - 1
  if v.a.yen then
    v.rows.map (fun p => (f32Addr (v.tile 5) r p, dotRound (v.cols.map (fun s => ((scanWord k (v.tile 4) r s).1, stateOf h (p, s))))))
  else []

/-! ## Words that a running command reads (08 R197, R204, R211) -/

/-- A store in which the words listed in `seen` hold what was read of them earlier. -/
def UnitStore.patch (u : UnitStore) (seen : Tab (Nat × Bool)) : UnitStore :=
  { mem := seen.foldl (fun m p => Memory.writeV m (4 * p.1) 4 p.2.1) u.mem
    bad := (seen.filter (fun p => p.2.2)).foldl (fun l p => insertNat l (p.1 / 2))
      (u.bad.filter (fun n => (Tab.get? seen (2 * n)).isNone || (Tab.get? seen (2 * n + 1)).isNone)) }

/-- A core whose tile store, or scratchpad, holds in the words of `seen` what was read of them. -/
def Core.asSeen (k : Core) (scratch : Bool) (seen : Tab (Nat × Bool)) : Core :=
  if scratch then
    { k with
      scratch := seen.foldl (fun m p => Memory.writeV m (4 * p.1) 4 p.2.1) k.scratch
      scratchPoison := (seen.filter (fun p => p.2.2)).foldl (fun l p => insertNat l p.1)
        (k.scratchPoison.filter (fun n => (Tab.get? seen n).isNone)) }
  else k.setTileStore (k.tileStore.patch seen)

/-- Word `w` of the tile store, or of the scratchpad, kept as it reads now, unless it has been read before. -/
def Core.catchWord (k : Core) (scratch : Bool) (w : Nat) (seen : Tab (Nat × Bool)) : Tab (Nat × Bool) :=
  if (Tab.get? seen w).isSome then seen
  else Tab.set seen w (if scratch then (Memory.readV k.scratch (4 * w) 4, k.scratchPoison.contains w) else k.tileStore.word (4 * w))

/-- Whether the head of the matrix queue is a WBLD from scratchpad. -/
def Core.fromScratch (k : Core) : Bool :=
  match k.matQ with
  | m :: _ => match m.what with | .wbld sp _ _ _ _ => !sp | _ => false
  | [] => false

/-- A running command reads word `w` of its source, ahead of the others: each 4-byte word is read on its own (08 R197, R204, R211). -/
def unitRead (core : Nat) (scan : Bool) (w : Nat) (s : State) : State :=
  s.modCore core (fun k =>
    if scan then { k with scanRun := k.scanRun.map (fun r => { r with seen := k.catchWord false w r.seen }) }
    else { k with matRun := k.matRun.map (fun r => { r with seen := k.catchWord k.fromScratch w r.seen }) })

/-! ## The array and the scan lanes (08 R190, R199, R204, R207, R211) -/

/-- Whether the array executes a unit. -/
def Core.arrayBusy (k : Core) : Bool :=
  (k.matRun.isSome && k.mmaHead.isSome) || (match k.scanRun with | some r => r.onArray | none => false)

/-- The number of steps of the SCAN at the head of the scan queue, if it runs in the chunked form; its chunk length. -/
def Core.chunkHead (k : Core) : Option (Nat × Nat) :=
  match k.scanQ with
  | q :: _ =>
    match q.what with
    | .scan b _ _ l _ => if l = 0 then none else some (bitsOf (b.getD 1 0).toNat 47 32, l)
    | .scanst _ _ => none
  | [] => none

/-- Whether a chunk waits for the array: its SCAN's order point is 24 cycles back (08 R199), and the hand-off of the chunk before it
has ended (R211). -/
def Core.chunkWaits (k : Core) : Bool :=
  match k.scanRun, k.chunkHead, k.scanQ with
  | some r, some (t, _), q :: _ => !r.onArray && r.lanes == 0 && decide (r.t < t) && decide (q.posted + 24 ≤ k.cycle.toNat)
  | _, _, _ => false

/-- The tickets of commands past their last step. -/
def Core.backTickets (k : Core) : List Nat :=
  k.matBack.flatMap (fun b => match b.cmd.what with | .mma _ _ _ _ _ _ tk => tk.map Prod.snd | _ => [])

/-- Whether an MMA may start: at the head of its queue, 24 cycles past its order point (08 R199), every operation before it on the
accumulators that it names done, or an MMA past its last step (R191). -/
def Core.mmaWaits (k : Core) : Bool :=
  k.matRun.isNone &&
  (match k.mmaHead with
   | some m =>
     match m.what with
     | .mma _ _ _ _ _ _ tk =>
       decide (m.posted + 24 ≤ k.cycle.toNat) &&
       tk.all (fun p => ((Tab.getD k.accOrder p.1 []).filter (fun t => !(k.backTickets.contains t))).head? == some p.2)
     | _ => false
   | none => false)

/-- Whether the array takes the matrix queue's unit next: the other source after a unit, the longer waiting from idle. An MMA waits from its
order point on, and a chunk from its SCAN's start or from the end of the hand-off before it (DESIGN CHOICE, log 41). -/
def Core.picksMatrix (k : Core) : Bool :=
  if k.mmaWaits && k.chunkWaits then
    if k.arrayIdle then
      match k.mmaHead, k.scanRun with
      | some m, some r => decide (m.posted ≤ r.since)
      | _, _ => true
    else k.lastArray
  else k.mmaWaits

/-- The end of a unit: whether other work waits. -/
def Core.unitEnds (k : Core) : Core := { k with arrayIdle := !(k.mmaHead.isSome || k.chunkWaits) }

/-- Every unit of a core's stores that met an error is counted. -/
def Core.countUnits (k : Core) (us : List Nat) : Core := us.foldl (fun k u => k.uncorrectable u) k

/-- The last step of an MMA: what it has read decides its outputs, which are written 12 cycles later (08 R197 to R199). It starts from the
accumulators as the MMAs before it leave them. -/
def Core.mmaLast (k : Core) (r : MatRun) : Core :=
  match k.matQ with
  | [] => k
  | m :: rest =>
    match m.what, Tab.get? k.groups m.gid with
    | .mma nb aw regs rm cm t _, some g =>
      let seen := (k.asSeen false r.seen).setAccStore (k.accStore.put (k.matBack.flatMap (fun b => b.writes)))
      let o := mmaRun seen g (mmaArgs nb aw regs) rm cm t
      ({ k.countUnits o.2.2 with
        matQ := rest, matRun := none
        matBack := k.matBack ++ [{ cmd := m, last := k.cycle.toNat, writes := o.1, status := o.2.1 }] } : Core).unitEnds
    | _, _ => ({ k with matQ := rest, matRun := none } : Core).unitEnds

/-- The words of HS that a SCAN writes at its end. -/
def ScanView.finals (v : ScanView) (h : Tab Word) : List (Nat × Nat) := v.elems.map (fun e => (f32Addr (v.tile 0) e.1 e.2, stateOf h e))

/-- A SCAN after steps up to `t`, with state `h` and the words of y that they give, which may be seen from cycle `at_` on; after the
last step it writes HS too (08 R211). -/
def ScanRun.stepped (r : ScanRun) (v : ScanView) (t : Nat) (h : Tab Word) (ys : List (Nat × Nat)) (bad : Bool) (at_ : Nat) : ScanRun :=
  { r with
    h := h, t := t, status := if bad then 1 else r.status
    outs := r.outs ++ (ys ++ (if v.a.t ≤ t then v.finals h else [])).map (fun p => (at_, p.1, p.2)) }

/-- The last array step of a chunk: its states and rows of y, and the hand-off on the scan lanes (08 R211). -/
def Core.chunkLast (k : Core) (r : ScanRun) : Core :=
  match k.scanQ with
  | [] => k
  | q :: _ =>
    match q.what with
    | .scanst _ _ => k
    | .scan b rm cm l tiles =>
      let v := scanView b rm cm tiles
      let kv := k.asSeen false r.seen
      let n := min l (v.a.t - r.t)
      let ts := (List.range n).map (fun i => r.t + 1 + i)
      let hs := ts.map (fun t => (t, v.chunkState kv r.h (r.t + 1) t))
      let bad := ts.any (fun t => v.stepBad kv t)
      let h := match hs.getLast? with | some p => p.2 | none => r.h
      let x := r.stepped v (r.t + n) h (hs.flatMap (fun p => v.outputs kv p.2 p.1)) bad (k.cycle.toNat + 12)
      ({ (if bad then k.uncorrectable 0x05 else k) with
        scanRun := some { x with onArray := false, steps := 0, lanes := (v.a.p * v.a.n + 63) / 64, last := k.cycle.toNat } } : Core).unitEnds

/-- One cycle of the array: a ready step runs within the budget of the window, or is held (08 R207). -/
def Core.stepTick (k : Core) : Core :=
  if !k.arrayBusy then k
  else if k.budget ≤ k.gafUsed then ({ k with gafstl := k.gafstl + 1 } : Core).count 0x09 1
  else
    let k1 := ({ k with gafUsed := k.gafUsed + 1 } : Core).count 0x08 1
    match k.matRun.filter (fun _ => k.mmaHead.isSome) with
    | some r => if r.steps ≤ 1 then k1.mmaLast r else { k1 with matRun := some { r with steps := r.steps - 1 } }
    | none =>
      match k.scanRun with
      | some r => if r.steps ≤ 1 then k1.chunkLast r else { k1 with scanRun := some { r with steps := r.steps - 1 } }
      | none => k1

/-- One cycle of the scan lanes. -/
def Core.laneTick (k : Core) : Core :=
  match k.scanRun with
  | none => k
  | some r =>
    if r.lanes = 0 then k
    else
      let ends := r.lanes == 1
      ({ k with scanRun := some { r with
          lanes := r.lanes - 1
          last := if ends && k.chunkHead.isNone then k.cycle.toNat else r.last
          since := if ends then k.cycle.toNat + 1 else r.since } } : Core).count 0x0A 1

/-- The bytes of a WBLD read: they are written 12 cycles later (08 R204). -/
def Core.wbldLast (k : Core) (r : MatRun) : Core :=
  match k.matQ with
  | [] => k
  | m :: _ =>
    match m.what, Tab.get? k.groups m.gid with
    | .wbld sp src t dst len, some g =>
      let bs := wbldRead (k.asSeen (!sp) r.seen) g sp src len t
      let at_ := (List.range len).map (fun i => g.wphys (dst + i))
      let bad := ((at_.zip bs).filter (fun p => p.2.2)).map (fun p => p.1 / 8)
      let first := (((List.range len).zip bs).find? (fun p => p.2.2)).map Prod.fst
      { (if first.isSome then k.uncorrectable (if sp then 0x05 else 0x04) else k) with
        matRun := some { r with
          steps := 0, last := k.cycle.toNat, bad := bad, weights := at_.zip (bs.map Prod.fst), status := if bad.isEmpty then 0 else 1
          fail := if sp then none else first.map (fun i => (2, src + i / 4 * 4)) } }
    | _, _ => k

/-- One cycle of a WBLD's copy: 64 bytes (08 R204). -/
def Core.wbldTick (k : Core) : Core :=
  match k.matRun with
  | none => k
  | some r =>
    if k.mmaHead.isSome || r.steps == 0 then k
    else if r.steps = 1 then k.wbldLast r
    else { k with matRun := some { r with steps := r.steps - 1 } }

/-- A window of 128 cycles begins, with its budget, at each multiple of 128 on CYCLE (08 R207). -/
def Core.newWindow (k : Core) : Core :=
  if k.gafWin = k.cycle.toNat / 128 then k else { k with gafWin := k.cycle.toNat / 128, gafUsed := 0, budget := k.budgetNext }

/-- One cycle of the array, the scan lanes and the weight copy. -/
def Core.unitTick (k : Core) : Core := k.laneTick.wbldTick.stepTick

/-- The commands of a group that has been released while it was stopped end with no effect (DESIGN CHOICE, log 47). -/
def Core.forget (k : Core) (gid : Nat) : Core :=
  let gone := fun (m : MatCmd) => m.gid == gid
  let tks := (k.matQ ++ k.matBack.map MatBack.cmd).flatMap (fun m => match m.what with
    | .mma _ _ _ _ _ _ tk => if gone m then tk else []
    | _ => [])
  tks.foldl (fun k p => k.dropTicket p.1 p.2)
    { k with
      matQ := k.matQ.filter (fun m => !(gone m)), matBack := k.matBack.filter (fun b => !(gone b.cmd))
      matRun := if (k.matQ.head?.map gone).getD true then none else k.matRun
      scanQ := k.scanQ.filter (fun q => q.gid != gid)
      scanRun := if (k.scanQ.head?.map (fun q => q.gid == gid)).getD true then none else k.scanRun }

/-! ## The events of the matrix queue -/

/-- GAFFER_WINDOW (08 R207). -/
def execGafferWindow (core : Nat) (s : State) : Host.Outcome State Fault Refusal := .next (s.setCore core (s.core core).newWindow)

/-- The step cycles of a chunk of `l` steps over P rows and N columns (08 R211). -/
def chunkSteps (l p n : Nat) : Nat := 4 * l + (p * n + 127) / 128

/-- A matrix command begins: `n` cycles of steps or of copying lie before it. -/
def MatRun.start (n : Nat) : MatRun := { steps := n, last := 0, seen := [], weights := [], bad := [], status := 0, fail := none }

/-- MATRIX_UNIT_START: the array takes its next unit (08 R190, R199). -/
def execMatrixUnitStart (core : Nat) (s : State) : Host.Outcome State Fault Refusal :=
  let k := s.core core
  if k.arrayBusy || !(k.mmaWaits || k.chunkWaits) then .next s
  else if k.picksMatrix then
    match k.mmaHead with
    | none => .next s
    | some m =>
      match m.what with
      | .mma nb aw r _ _ _ _ =>
        let kb := (mmaArgs nb aw r).kb
        .next (s.setCore core { k with
          lastArray := false, arrayIdle := false, matRun := some (MatRun.start (if nb = 16 then 128 * kb else 8 * nb * kb)) })
      | _ => .next s
  else
    match k.scanRun, k.scanQ with
    | some r, q :: _ =>
      match q.what with
      | .scan b _ _ l _ =>
        let w := (b.getD 1 0).toNat
        let steps := chunkSteps (min l (bitsOf w 47 32 - r.t)) (bitsOf w 31 25 + 1) (bitsOf w 24 18 + 1)
        .next (s.setCore core { k with lastArray := true, arrayIdle := false, scanRun := some { r with onArray := true, steps := steps } })
      | .scanst _ _ => .next s
    | _, _ => .next s

/-- MATRIX_COMMAND_COMPLETE: an MMA 12 cycles past its last step writes its outputs, or none, and its timeline observes it (08 R198, R199). -/
def execMatrixCommandComplete (core : Nat) (s : State) : Host.Outcome State Fault Refusal :=
  let k := s.core core
  match k.matBack with
  | b :: rest =>
    if k.cycle.toNat < b.last + 12 then .next s
    else
      match b.cmd.what with
      | .mma _ _ _ _ _ _ tk =>
        let k1 := { k.setAccStore (k.accStore.put b.writes) with matBack := rest }
        .next ((s.setCore core (tk.foldl (fun k p => k.dropTicket p.1 p.2) k1)).endUnit core b.cmd.gid b.cmd.tl b.cmd.seq b.cmd.pc b.cmd.slot
          b.status none)
      | _ => .next s
  | [] => .next s

/-- WBLD_RUN: a WBLD at the head of the matrix queue, 24 cycles past its order point, begins to copy 64 bytes per cycle (08 R204). -/
def execWbldRun (core : Nat) (s : State) : Host.Outcome State Fault Refusal :=
  let k := s.core core
  match k.matQ, k.matRun with
  | m :: _, none =>
    match m.what with
    | .wbld _ _ _ _ len =>
      if k.cycle.toNat < m.posted + 24 then .next s else .next (s.setCore core { k with matRun := some (MatRun.start (len / 64)) })
    | _ => .next s
  | _, _ => .next s

/-- WBLD_COMPLETE: 12 cycles after the last byte the copied range becomes loaded and the timeline observes the command (08 R204). -/
def execWbldComplete (core : Nat) (s : State) : Host.Outcome State Fault Refusal :=
  let k := s.core core
  match k.matQ, k.matRun with
  | m :: rest, some r =>
    match m.what with
    | .wbld _ _ _ _ _ =>
      if r.steps ≠ 0 ∨ k.cycle.toNat < r.last + 12 then .next s else
      let k1 := { k with
        weight := r.weights.foldl (fun w p => Memory.write w p.1 p.2) k.weight
        weightPoison := r.bad.foldl insertNat (k.weightPoison.filter (fun u => !((r.weights.map (fun p => p.1 / 8)).contains u)))
        loaded := (r.weights.map (fun p => p.1 / 64)).foldl insertNat k.loaded, matQ := rest, matRun := none }
      .next ((s.setCore core k1).endUnit core m.gid m.tl m.seq m.pc m.slot r.status r.fail)
    | _ => .next s
  | _, _ => .next s

/-- WBINV_EFFECT: the range becomes empty once every earlier command has ended (08 R205). -/
def execWbinvEffect (core : Nat) (s : State) : Host.Outcome State Fault Refusal :=
  let k := s.core core
  match k.matQ, k.matRun with
  | m :: rest, none =>
    match m.what, s.group? core m.gid with
    | .wbinv off len, some g =>
      let us := (List.range (len / 64)).map (fun i => g.wphys (off + 64 * i) / 64)
      .next (s.setCore core { k with matQ := rest, loaded := k.loaded.filter (fun u => !(us.contains u)) })
    | _, _ => .next s
  | _, _ => .next s

/-! ## Running the scan queue (08 R211 to R213) -/

/-- The words of a tile in row order. -/
def tileCellsAll (t : TileRef) : List (Nat × Nat) := (List.range t.rows).flatMap (fun r => (List.range t.cols).map (fun c => (r, c)))

/-- A scan command that begins in cycle `now` at step `t` with state `h`, `lanes` cycles of the scan lanes before it. -/
def ScanRun.start (now t status lanes : Nat) (h : Tab Word) (moves : List (Nat × Nat)) : ScanRun :=
  { h := h, t := t, status := status, onArray := false, since := now, steps := 0, lanes := lanes, last := now, seen := [], outs := [],
    moves := moves }

/-- The scan-lane cycles of a step of the recurrent form over `n` elements (08 R211). -/
def recurLanes (n : Nat) : Nat := 2 * ((n + 63) / 64)

/-- SCAN_START: the head of the scan queue starts. A SCAN reads h[0] (08 R211); one that may not write its tiles does nothing more
(14 R346). -/
def execScanStart (core : Nat) (s : State) : Host.Outcome State Fault Refusal :=
  let k := s.core core
  let now := k.cycle.toNat
  match k.scanRun, k.scanQ with
  | none, q :: _ =>
    match q.what with
    | .scan r rm cm l ts =>
      let v := scanView r rm cm ts
      let ws := v.elems.map (fun e => (e, scanWord k (v.tile 0) e.1 e.2))
      let bad := ws.any (fun p => p.2.2)
      let h := ws.map (fun p => (128 * p.1.1 + p.1.2, BitVec.ofNat 32 p.2.1))
      let x := if q.deny then ScanRun.start now v.a.t 0x13 0 h []
        else ScanRun.start now 0 (if bad then 1 else 0) (if l = 0 then recurLanes (v.a.p * v.a.n) else 0) h []
      .next (s.setCore core { (if bad then k.uncorrectable 0x05 else k) with scanRun := some x })
    | .scanst a b =>
      let ms := if q.deny then [] else (tileCellsAll a).map (fun p => (f32Addr a p.1 p.2, f32Addr b p.1 p.2))
      .next (s.setCore core { k with scanRun := some (ScanRun.start now 0 (if q.deny then 0x13 else 0) ((a.rows * a.cols + 63) / 64) [] ms) })
  | _, _ => .next s

/-- A step of the recurrent form, its cycles of the scan lanes past: the inputs not read before are read now (08 R211). -/
def scanStep (core : Nat) (s : State) : State :=
  let k := s.core core
  match k.scanRun, k.scanQ with
  | some r, q :: _ =>
    match q.what with
    | .scan b rm cm l ts =>
      let v := scanView b rm cm ts
      if v.a.t ≤ r.t ∨ l ≠ 0 ∨ r.lanes ≠ 0 then s
      else
        let kv := k.asSeen false r.seen
        let h := v.recur kv r.h (r.t + 1)
        let bad := v.stepBad kv (r.t + 1)
        let x := r.stepped v (r.t + 1) h (v.outputs kv h (r.t + 1)) bad k.cycle.toNat
        s.setCore core { (if bad then k.uncorrectable 0x05 else k) with
          scanRun := some { x with lanes := if v.a.t ≤ r.t + 1 then 0 else recurLanes (v.a.p * v.a.n) } }
    | .scanst _ _ => s
  | _, _ => s

/-- The items of a list that `which` names, and the others: all of them without a number. -/
def chosen {α : Type} (which : Option Nat) (l : List α) : List α × List α :=
  match which with
  | none => (l, [])
  | some i => ((l.drop i).take 1, l.take i ++ l.drop (i + 1))

/-- One word of HY or HS written by a SCAN, or all, as far as they are due: a read sees each word old or new (08 R199, R211). -/
def scanWrite (core : Nat) (which : Option Nat) (s : State) : State :=
  s.modCore core (fun k =>
    match k.scanRun with
    | none => k
    | some r =>
      let now := (chosen which r.outs).1.filter (fun o => decide (o.1 ≤ k.cycle.toNat))
      { k.setTileStore (k.tileStore.put (now.map Prod.snd)) with scanRun := some { r with outs := r.outs.filter (fun o => !(now.contains o)) } })

/-- One word copied by a SCANST, or all that are left (08 R213). -/
def scanMove (core : Nat) (which : Option Nat) (s : State) : State :=
  s.modCore core (fun k =>
    match k.scanRun with
    | none => k
    | some r =>
      let c := chosen which r.moves
      let ws := c.1.map (fun p => (p, k.tileStore.word p.1))
      let bad := ws.any (fun p => p.2.2) && r.status == 0
      let ps := (ws.filter (fun p => p.1.1 != p.1.2)).map (fun p => (p.1.2, if p.2.2 then Fmt.f32.poison else p.2.1))
      { (if bad then k.uncorrectable 0x05 else k).setTileStore (k.tileStore.put ps) with
        scanRun := some { r with moves := c.2, status := if bad then 1 else r.status
                                 last := if c.2.isEmpty ∧ !r.moves.isEmpty then max r.last k.cycle.toNat else r.last } })

/-- The record of a SCAN (08 Table 11). -/
def scanRecord (t status l : Nat) : Nat := t * 2 ^ 32 + status * 2 ^ 16 + l * 2 ^ 8 + (if l = 0 then 1 else 2)

/-- The record written, and the tags of its words set full (08 R212). A SCAN that fails with LOCAL or is denied has run no step, and its record
holds the whole T all the same (DESIGN CHOICE, log 41). -/
def writeScanRecord (k : Core) (g : Group) (a : ScanArgs) (status l : Nat) : Core :=
  if a.rcd then setTags (localWrite k g (withAddrs a.recAddr (toBytes (scanRecord a.t status l) 8))) (wordsCovered g a.recAddr 8) true else k

/-- SCAN_COMPLETE: with HS and every row of HY written, the record is written, and the timeline observes the command (08 R212); a chunk's
last step lies 12 cycles back (R199). -/
def execScanComplete (core : Nat) (s : State) : Host.Outcome State Fault Refusal :=
  let k := s.core core
  match k.scanRun, k.scanQ with
  | some r, q :: rest =>
    match q.what, s.group? core q.gid with
    | .scan b rm cm l ts, some g =>
      let v := scanView b rm cm ts
      if r.t < v.a.t || !r.outs.isEmpty || r.lanes != 0 || (l != 0 && !q.deny && decide (k.cycle.toNat < r.last + 12)) ||
          (v.a.rcd && !(k.untagged (wordsCovered g v.a.recAddr 8))) then .next s
      else
        .next ((s.setCore core { writeScanRecord k g v.a r.status l with scanQ := rest, scanRun := none }).endUnit core q.gid q.tl q.seq q.pc
          q.slot r.status none)
    | _, _ => .next s
  | _, _ => .next s

/-- SCANST_COMPLETE: 12 cycles after the last word is written the timeline observes the command (08 R213). -/
def execScanstComplete (core : Nat) (s : State) : Host.Outcome State Fault Refusal :=
  let k := s.core core
  match k.scanRun, k.scanQ with
  | some r, q :: rest =>
    match q.what with
    | .scanst _ _ =>
      if !r.moves.isEmpty || r.lanes != 0 || decide (k.cycle.toNat < r.last + 12) then .next s
      else
        .next ((s.setCore core { k with scanQ := rest, scanRun := none }).endUnit core q.gid q.tl q.seq q.pc q.slot r.status none)
    | .scan _ _ _ _ _ => .next s
  | _, _ => .next s

end Sys2Proof.Machine
end

