-- ==== Sys2Proof/Machine/System.lean ====
section
/-! DEFINITION. System registers, the split-stack command, ERET, HALT, CLRERR, trap entry, pre-emption of a group's warps, breakpoints,
scheduling, and the waking of warps that wait in FENCE, ICINV and RECAST (09; 02 R32 to R35, R50). -/

namespace Sys2Proof.Machine

/-! ## MFS (09 R215, R216) -/

/-- SYS of MFS and MTS. -/
def sysNum (x : Ext) : Nat := x.mods.toNat

/-- The assigned system registers (09 Table 1). -/
def sysAssigned (n : Nat) : Bool :=
  decide (n ≤ 8) || (decide (0x10 ≤ n) && decide (n ≤ 0x17)) || (decide (0x20 ≤ n) && decide (n ≤ 0x22)) ||
  (decide (0x30 ≤ n) && decide (n ≤ 0x34)) || (decide (0x38 ≤ n) && decide (n ≤ 0x3C))

/-- A flag as a number. -/
def flag (b : Bool) : Nat := if b then 1 else 0

/-- SPLITSP (09 Table 8). -/
def Warp.splitsp (w : Warp) : Nat :=
  w.split.length * 2 ^ 59 + w.splCount.toNat * 2 ^ 44 + w.splLimit.toNat * 2 ^ 32 + w.splBase.toNat

/-- A word of LIVEMASK (05 R125). -/
def Warp.livemask (w : Warp) (k : Nat) : Nat := (List.range 32).foldl (fun t j => if w.live (32 * k + j) then t + 2 ^ j else t) 0

/-- TRUNPC: the copy of the latest trap frame; before the first, the start of the current run (02 R30; 09 R218; DEDUCED, log 42). -/
def Warp.trunpcNow (w : Warp) : DWord := if w.tcause = 0 then w.runStart.setWidth 64 else w.trunpc

/-- GROUPSTAT (09 Table 3). -/
def Group.stat (g : Group) : Nat :=
  g.nfail * 2 ^ 48 + g.fstat * 2 ^ 40 + g.ftl * 2 ^ 36 + g.fseq * 16 + flag g.deadchk * 8 + flag g.fatal * 4 + flag g.asyncen * 2 + flag g.err

/-- DBGCTL (09 Table 10). -/
def Core.dbgctl (k : Core) : Nat :=
  k.dbgAsid.toNat * 2 ^ 16 + flag k.dbgAsiden * 2 ^ 12 +
  (List.range 4).foldl (fun t i => t + flag (k.sched i).frozen * 2 ^ (8 + i)) 0 +
  k.bpen.toNat * 16 + flag k.alls * 8 + flag k.trapbp * 4 + flag k.stepBit * 2

/-- ERRSTAT (09 Table 7). -/
def Core.errstat (k : Core) : Nat := k.cecnt * 2 ^ 48 + k.uecnt * 2 ^ 40 + k.errUnit.toNat * 2 ^ 32 + flag k.mchk

/-- The value of a system register. SSCMD is WO and reads zero. -/
def sysRead (k : Core) (g : Group) (w : Warp) (n : Nat) : Nat :=
  match n with
  | 0x00 => w.tcause.toNat
  | 0x01 => w.tpc.toNat
  | 0x02 => w.tval.toNat
  | 0x03 => (w.trunpcNow).toNat
  | 0x04 => w.tframe.toNat
  | 0x05 => w.splitsp
  | 0x06 => w.sslo.toNat
  | 0x07 => flag w.sshiW * 2 ^ 32 + w.sshiMask.toNat
  | 0x20 => g.stat
  | 0x21 => g.fpEn.toNat * 256 + g.fpFlags.toNat
  | 0x22 => g.clen.toNat * 65536 + g.thresh.toNat
  | 0x30 => k.taglim.toNat * 65536 + flag k.swap
  | 0x31 => k.errstat
  | 0x32 => k.budgetNext
  | 0x33 => k.gafstl.toNat
  | 0x34 => k.cycle.toNat
  | 0x38 => k.dbgctl
  | _ =>
    if 0x10 ≤ n ∧ n ≤ 0x17 then w.livemask (n - 0x10)
    else if 0x39 ≤ n ∧ n ≤ 0x3C then (Tab.getD k.bpa (n - 0x39) 0).toNat
    else 0

/-- The RC fields of ERRSTAT cleared by a read. -/
def Core.readErrstat (k : Core) : Core := { k with cecnt := 0, uecnt := 0 }

/-- The shape of MFS. -/
def mfsShape : Shape := { Shape.bare with m := 0x3FF#10, fixed := true, dst := some Dst.uni }

/-- MFS. -/
def mfsSpec (x : Ext) : Spec :=
  { Spec.plain mfsShape (fun i =>
      let s := if sysNum x = 0x31 then i.s.modCore i.c Core.readErrstat else i.s
      .done { i.res with s := s, out := fun _ => sysRead i.k i.g i.w (sysNum x) })
    with pre := fun _ => if !(rsvBad mfsShape x) && !(sysAssigned (sysNum x)) then raise 0x05 (sysNum x) else none }
/-- MFS (09 R216). -/
def execMfs (x : Ext) (s : State) : Host.Outcome State Fault Refusal := runExt mfsSpec x s

/-! ## MTS (09 R217 to R222) -/

/-- The registers that any warp may write, and those that only a handler may. -/
def sysWritable (handler : Bool) (n : Nat) : Bool :=
  (n == 0x20 || n == 0x21 || n == 0x22) || (handler && ((decide (4 ≤ n) && decide (n ≤ 8)) || n == 0x32))

/-- The shape of MTS. -/
def mtsShape : Shape := { Shape.bare with m := 0x3FF#10, a := some (Pos.of [.uni, .imm, .lit, .idUni] 64) }

/-- IL-OPND of MTS: TVAL holds SYS. -/
def mtsTrap (x : Ext) (w : Warp) : Option Trap :=
  if !(rsvBad mtsShape x) && !(sysWritable w.handler (sysNum x)) then raise 0x05 (sysNum x) else none

/-- A field written by MTS: warp registers. -/
def Warp.sysWrite (w : Warp) (n v : Nat) : Warp :=
  match n with
  | 4 => { w with tframe := BitVec.ofNat 18 (bitsOf v 17 7 * 128) }
  | 5 => { w with splCount := BitVec.ofNat 12 (bitsOf v 55 44), splLimit := BitVec.ofNat 12 (bitsOf v 43 32)
                  splBase := BitVec.ofNat 18 (bitsOf v 17 4 * 16) }
  | 6 => { w with sslo := BitVec.ofNat 52 v }
  | 7 => { w with sshiW := decide (bitsOf v 32 32 = 1), sshiMask := BitVec.ofNat 32 v }
  | _ => w

/-- A field written by MTS: group registers. -/
def Group.sysWrite (g : Group) (n v : Nat) : Group :=
  match n with
  | 0x20 => { g with asyncen := decide (bitsOf v 1 1 = 1) }
  | 0x21 => { g with fpEn := BitVec.ofNat 5 (bitsOf v 12 8), fpFlags := g.fpFlags &&& ~~~(BitVec.ofNat 5 v) }
  | 0x22 => { g with clen := BitVec.ofNat 2 (bitsOf v 17 16), thresh := BitVec.ofNat 16 v }
  | _ => g

/-- GAFCFG written: the budget applies from the next window (08 R207). -/
def Core.writeGafcfg (k : Core) (v : Nat) : Core := { k with budgetNext := min 128 (v % 256) }

/-! ## SSCMD (09 R225) -/

/-- The bytes of a split-stack entry (05 R136). -/
def SplitEntry.bytes (e : SplitEntry) : List Byte := toBytes e.pc.toNat 8 ++ toBytes (flag e.w * 2 ^ 32 + e.mask.toNat) 8

/-- The address of spilled entry `n`. -/
def Warp.spillAddr (w : Warp) (n : Nat) : Nat := w.splBase.toNat + 16 * n

/-- IL-OPND of SSCMD. -/
def sscmdTrap : Eff := .trap { cause := 0x05, tval := 0x008 }

/-- SPILL of `k` entries, the bottom one first; the top of the stack is the head of the list. -/
def spillEntries : Nat → Warp → Warp
  | 0, w => w
  | n + 1, w =>
    match w.split.getLast? with
    | none => w
    | some e =>
      spillEntries n (({ w with split := w.split.dropLast, splCount := w.splCount + 1 } : Warp).enqueue false
        (.store (withAddrs (w.spillAddr w.splCount.toNat) e.bytes)))

/-- An entry read back from scratchpad. -/
def readEntry (k : Core) (g : Group) (a : Nat) : SplitEntry :=
  let hi := ofBytes (localRead k g (a + 8) 8)
  { pc := BitVec.ofNat 52 (ofBytes (localRead k g a 8)), mask := BitVec.ofNat 32 hi, w := decide (bitsOf hi 32 32 = 1) }

/-- FILL of `k` entries below the bottom one. -/
def fillEntries (k : Core) (g : Group) : Nat → Warp → Warp
  | 0, w => w
  | n + 1, w =>
    let c := w.splCount - 1
    fillEntries k g n { w with splCount := c, split := w.split ++ [readEntry k g (w.spillAddr c.toNat)] }

/-- LOCAL-ADDR of spilled entries `lo` to `hi - 1`: the first that lies outside. -/
def spillTrap (g : Group) (w : Warp) (lo hi : Nat) : Option Trap :=
  (((List.range (hi - lo)).map (fun i => w.spillAddr (lo + i))).find? (fun a => decide (g.scrSize < a + 16))).bind (fun a => raise 0x08 a)

/-- SPILL (09 Table 9). -/
def doSpill (i : Issue) : Eff :=
  let s := i.s.drain i.c i.slot
  match s.warp? i.c i.slot with
  | none => .final s
  | some w =>
    let c := w.splCount.toNat
    let k := min 8 (min w.split.length (w.splLimit.toNat - c))
    if k = 0 then sscmdTrap
    else
      match spillTrap i.g w c (c + k) with
      | some t => .trap t
      | none => i.to (s.setWarp i.c i.slot (spillEntries k w))

/-- FILL (09 Table 9). A poisoned word raises POISON. -/
def doFill (i : Issue) : Eff :=
  let s := i.s.drain i.c i.slot
  match s.warp? i.c i.slot with
  | none => .final s
  | some w =>
    let c := w.splCount.toNat
    let k := min 8 (min c (16 - w.split.length))
    if k = 0 then sscmdTrap
    else
      match spillTrap i.g w (c - k) c with
      | some t => .trap t
      | none =>
        match (List.range (16 * k)).find? (fun j => localPoison (s.core i.c) i.g (w.spillAddr (c - k) + j)) with
        | some j => .final (s.trapRead i.c i.slot { cause := 0x11, tval := BitVec.ofNat 64 (w.spillAddr (c - k) + j / 4 * 4) })
        | none => i.to (s.setWarp i.c i.slot (fillEntries (s.core i.c) i.g k w))

/-- POP (09 Table 9). -/
def doPop (i : Issue) : Eff :=
  let s := i.s.drain i.c i.slot
  match i.w.split with
  | [] => sscmdTrap
  | e :: t => i.to (s.modWarp i.c i.slot (fun w => { w with split := t, sslo := e.pc, sshiW := e.w, sshiMask := e.mask }))

/-- PUSH (09 Table 9). -/
def doPush (i : Issue) : Eff :=
  let s := i.s.drain i.c i.slot
  if 16 ≤ i.w.split.length then sscmdTrap
  else i.to (s.modWarp i.c i.slot (fun w => { w with split := { pc := w.sslo, mask := w.sshiMask, w := w.sshiW } :: w.split }))

/-- The operation of a value written to SSCMD. -/
def sscmdOp (i : Issue) (v : Nat) : Eff :=
  match v with
  | 1 => doSpill i
  | 2 => doFill i
  | 3 => doPop i
  | 4 => doPush i
  | _ => sscmdTrap

/-- MTS of a value. -/
def mtsBody (n : Nat) (i : Issue) : Eff :=
  let v := i.a 0
  if n = 8 then sscmdOp i v
  else if n < 8 then i.to (i.s.modWarp i.c i.slot (fun w => w.sysWrite n v))
  else if n = 0x32 then i.to (i.s.modCore i.c (fun k => k.writeGafcfg v))
  else i.to (i.s.modGroup i.c i.w.gid (fun g => g.sysWrite n v))

/-- MTS. -/
def mtsSpec (x : Ext) : Spec :=
  { Spec.plain mtsShape (mtsBody (sysNum x)) with pre := fun i => mtsTrap x i.w }
/-- MTS (09 R217). -/
def execMts (x : Ext) (s : State) : Host.Outcome State Fault Refusal := runExt mtsSpec x s

/-- MTS of one of the four immediates that name an operation of SSCMD. -/
def sscmdSpec (op : Issue → Eff) (x : Ext) : Spec := { Spec.plain mtsShape op with pre := fun i => mtsTrap x i.w }
/-- SSCMD SPILL (09 R225). -/
def execSscmdSpill (x : Ext) (s : State) : Host.Outcome State Fault Refusal := runExt (sscmdSpec doSpill) x s
/-- SSCMD FILL (09 R225). -/
def execSscmdFill (x : Ext) (s : State) : Host.Outcome State Fault Refusal := runExt (sscmdSpec doFill) x s
/-- SSCMD POP (09 R225). -/
def execSscmdPop (x : Ext) (s : State) : Host.Outcome State Fault Refusal := runExt (sscmdSpec doPop) x s
/-- SSCMD PUSH (09 R225). -/
def execSscmdPush (x : Ext) (s : State) : Host.Outcome State Fault Refusal := runExt (sscmdSpec doPush) x s

/-! ## ERET, HALT and CLRERR (09 R233, R235, R237) -/

/-- The grips of a restored group resume when its first warp returns from its restore handler (14 R359). -/
def State.afterEret (s : State) (c gid : Nat) : State :=
  match s.group? c gid with
  | some g => if g.restoring then
      let s1 := (s.gripsResume c gid).modGroup c gid (fun g => { g with restoring := false })
      if g.saving then s1.gripsSave c gid else s1
    else s
  | none => s

/-- ERET. -/
def eretSpec (_x : Ext) : Spec :=
  { Spec.plain Shape.bare (fun i =>
      if i.w.handler then .final ((countIssue Shape.bare i (i.s.returnFromTrap i.c i.slot)).afterEret i.c i.w.gid)
      else .trap { cause := 0x01, tval := 0 })
    with ends := true }
/-- ERET (09 R233). -/
def execEret (x : Ext) (s : State) : Host.Outcome State Fault Refusal := runExt eretSpec x s

/-- HALT. -/
def haltSpec (_x : Ext) : Spec :=
  { Spec.plain Shape.bare (fun i =>
      if i.w.handler then i.to (i.s.modWarp i.c i.slot (fun w => { w with halted := true }))
      else .trap { cause := 0x01, tval := 0 })
    with ends := true }
/-- HALT (09 R237). -/
def execHalt (x : Ext) (s : State) : Host.Outcome State Fault Refusal := runExt haltSpec x s

/-- GROUPSTAT after CLRERR. -/
def Group.clearErr (g : Group) : Group := { g with err := false, nfail := 0, fstat := 0, ftl := 0, fseq := 0 }

/-- CLRERR. -/
def clrerrSpec (_x : Ext) : Spec := Spec.plain Shape.bare (fun i => i.to (i.s.modGroup i.c i.w.gid Group.clearErr))
/-- CLRERR (09 R235). -/
def execClrerr (x : Ext) (s : State) : Host.Outcome State Fault Refusal := runExt clrerrSpec x s

/-! ## Trap entry, pre-emption of warps (09 R227, R236; 02 R50, R51) -/

/-- Whether nothing stops warp `slot` from taking its next step: its group runs, it has not halted, no freeze holds it. -/
def State.mayRun (s : State) (c slot : Nat) : Bool :=
  match s.warp? c slot with
  | none => false
  | some w =>
    (match s.group? c w.gid with | some g => !g.stopped | none => false) && !w.halted && !((s.core c).sched (schedOf slot)).frozen &&
    !s.pkg.frozen

/-- TRAP_ENTRY: a trap that waits for its warp's next boundary is taken (09 R227). -/
def execTrapEntry (core slot : Nat) (s : State) : Host.Outcome State Fault Refusal :=
  if s.mayRun core slot then
    match s.warp? core slot with
    | some w =>
      match w.pend with
      | some t => .next ((s.setWarp core slot { w with pend := none }).takeTrap core slot t w.bpSkip)
      | none => .next s
    | none => .next s
  else .next s

/-- Whether every issued instruction of a warp has made its register writes: no load, TLD or ARD is outstanding (02 R50). -/
def Warp.written (w : Warp) : Bool :=
  w.loads.all (fun o => o.kind.changesTags) && w.tiles.all (fun o => !(o.kind == .tld || o.kind == .ard))

/-- The slots of a group's warps that can take a pre-emption now: not in handler state, nothing to take first, their register writes
made (02 R50). -/
def State.stoppable (s : State) (c gid : Nat) : List Nat :=
  ((s.core c).slotsOf gid).filter (fun i => s.mayRun c i &&
    (match s.warp? c i with | some w => w.preempt && !w.handler && w.pend.isNone && w.written | none => false))

/-- Pre-emption taken by every warp of a group that can (02 R50; 09 R236). -/
def State.takePreempts (s : State) (c gid : Nat) : State :=
  (s.stoppable c gid).foldl (fun s i =>
    match s.warp? c i with
    | some w => (s.setWarp c i { w with preempt := false }).takeTrap c i { cause := 0x30, tval := 0 } w.bpSkip
    | none => s) s

/-- A trigger of pre-emption: the grips are stopped and saved, and every warp that can is stopped; a further trigger has no
effect (09 R236; 14 R359). Grips that have not resumed yet keep the records that they are to resume from. -/
def State.startPreempt (s : State) (c gid : Nat) : State :=
  match s.group? c gid with
  | none => s
  | some g =>
    if g.saving || g.stopped then s
    else
      let s0 := s.setGroup c gid { g with saving := true }
      let s1 := if g.restoring then s0 else s0.gripsSave c gid
      let s2 := s1.modCore c (fun k => { k with warps := Tab.mapVal k.warps (fun _ w => if w.gid = gid then { w with preempt := true } else w) })
      s2.takePreempts c gid

/-! ## Tag waits that end without their words (10 R262) -/

/-- Whether a wait that began in cycle `start` has reached TAGLIM. -/
def Core.tagExpired (k : Core) (start : Nat) : Bool :=
  k.taglim ≠ 0 && decide (k.taglim.toNat * 256 ≤ k.cycle.toNat - start)

/-- The address of the lowest executing lane whose words are not ready (12 R291); where only an older waiter stands before them, of
the lowest executing lane (DEDUCED, log 14). -/
def tagwaitAddr (k : Core) (w : Warp) (g : Group) (t : Waiting) : Nat :=
  let ls := t.lns.filter (fun l => !(w.helpers.has l.lane))
  let late := ls.filter (fun l => match t.tag with | some (full, n) => !(wordsReady k (tagWords g l.addr n) full) | none => false)
  (((late ++ ls).head?).map AtomLane.addr).getD 0

/-- TAGWAIT: a tag wait reaches its limit (10 R262). -/
def execTagwait (core : Nat) (who : TagWaiter) (s : State) : Host.Outcome State Fault Refusal :=
  let k := s.core core
  match who with
  | .warp slot =>
    match s.waitOf core slot, s.warp? core slot with
    | some t, some w =>
      if t.tag.isSome && k.tagExpired t.start then
        let a := match s.group? core w.gid with | some g => tagwaitAddr k w g t | none => 0
        .next ((s.countCore core 0x23 1).takeTrap core slot { cause := 0x0C, tval := BitVec.ofNat 64 a } false)
      else .next s
    | _, _ => .next s
  | .grip g =>
    let q := k.grip g
    match q.wtag with
    | some (a, _) =>
      if q.run = 1 && k.tagExpired q.wstart then .next ((s.countCore core 0x23 1).gripExcept core g 26 a) else .next s
    | none => .next s

/-! ## Sideband transactions (18 R439, R440, R443) -/

/-- Whether sideband traffic may use a link. -/
def State.linkOpen (s : State) (link : Nat) : Bool :=
  let l := Tab.getD s.pkg.links link LinkState.down
  l == .mgmt || l == .up

/-- Whether any link carries the sideband. -/
def State.anyOpen (s : State) : Bool := s.linkOpen 0 || s.linkOpen 1

/-- Whether a failed boot step leaves only BOOTSTAT and a new load (18 R434). -/
def State.bootFailed (s : State) : Bool := s.pkg.bootState == 2 || s.pkg.bootState == 5 || s.pkg.bootState == 6

/-- A refused transaction changes nothing. -/
def State.refuse (s : State) : State := { s with out := { Out.reset with refused := true } }

/-- A transaction's outcome: whether it is performed is told. -/
def State.told (s : State) (r : State × Bool) : State := if r.2 then { r.1 with out := Out.reset } else s.refuse

/-- A transaction of a row that has no link: some link must carry it, and boot must not have failed. -/
def State.transact (s : State) (f : State → State × Bool) : State := if s.anyOpen && !s.bootFailed then s.told (f s) else s.refuse

/-! ## Breakpoints (09 R226, R240, R241) -/

/-- Whether comparator `n` hits the instruction that warp `w` would issue. -/
def Core.bpHit (k : Core) (g : Group) (w : Warp) (n : Nat) : Bool :=
  k.bpen.getLsbD n && decide ((Tab.getD k.bpa n 0).toNat / 4 = w.pc.toNat / 4) &&
  (!k.dbgAsiden || decide (k.dbgAsid.toNat = g.asid)) && !(k.trapbp && w.handler)

/-- The lowest comparator that hits the next instruction of a scheduler's current warp, if one does. -/
def State.hitOf (s : State) (c sched : Nat) : Option Nat :=
  let k := s.core c
  let q := k.sched sched
  match q.cur with
  | none => none
  | some slot =>
    match s.warp? c slot with
    | none => none
    | some w =>
      match s.group? c w.gid with
      | none => none
      | some g => if q.stepOne || w.bpSkip || !q.midRun then none else (List.range 4).find? (k.bpHit g w)

/-- Schedulers frozen by a hit of scheduler `sched`: that one, or with ALLS all four. A tag wait of their warps will begin again
(10 R262). -/
def Core.freeze (k : Core) (sched : Nat) : Core :=
  ((List.range 4).filter (fun i => k.alls || i == sched)).foldl (fun k i =>
    k.setSched i { k.sched i with frozen := true, hit := (k.sched i).hit || i == sched }) k

/-- BREAKPOINT_HIT: comparator `n` hits before the next instruction of a scheduler issues (09 R240). -/
def execBreakpointHit (core sched n : Nat) (s : State) : Host.Outcome State Fault Refusal :=
  match s.hitOf core sched, ((s.core core).sched sched).cur with
  | some m, some slot =>
    if m = n ∧ s.mayRun core slot then
      if (s.core core).trapbp then .next (s.takeTrap core slot { cause := 0x21, tval := BitVec.ofNat 64 (0x100 + n) } true)
      else .next (s.modCore core (fun k => k.freeze sched))
    else .next s
  | _, _ => .next s

/-- A frozen scheduler resumes; with STEP it issues one instruction and freezes again (09 R241). -/
def Scheduler.resume (q : Scheduler) (step : Bool) : Scheduler :=
  if q.frozen then { q with frozen := false, hit := false, stepOne := step } else q

/-- A warp as its scheduler resumes: the instruction that hit is not compared again, also where the warp stops before it issues and ERET
returns to it (09 R229, R241). -/
def Warp.resumed (w : Warp) (q : Scheduler) (slot : Nat) : Warp := if q.frozen && q.hit && q.cur == some slot then { w with bpSkip := true } else w

/-- Tag waits of the warps of schedulers that were frozen begin again. -/
def Core.restartWaits (k : Core) : Core :=
  { k with warps := Tab.mapVal k.warps (fun i w =>
      if (k.sched (schedOf i)).frozen then { w with waiting := w.waiting.map (fun t => { t with start := k.cycle.toNat }) } else w) }

/-- A write of DBGCTL (09 Table 10). -/
def Core.writeDbgctl (k : Core) (v : Nat) : Core :=
  let k1 := { k with dbgAsid := BitVec.ofNat 16 (bitsOf v 31 16), dbgAsiden := decide (bitsOf v 12 12 = 1), bpen := BitVec.ofNat 4 (bitsOf v 7 4)
                     alls := decide (bitsOf v 3 3 = 1), trapbp := decide (bitsOf v 2 2 = 1), stepBit := decide (bitsOf v 1 1 = 1) }
  if v % 2 = 1 then
    { k1.restartWaits with
      scheds := Tab.mapVal k1.scheds (fun _ q => q.resume k1.stepBit)
      warps := Tab.mapVal k1.restartWaits.warps (fun n w => w.resumed (k1.sched (schedOf n)) n) }
  else k1

/-- DBGCTL_RESUME: a sideband write of DBGCTL with RESUME (09 R241). -/
def execDbgctlResume (core : Nat) (value : DWord) (s : State) : Host.Outcome State Fault Refusal :=
  .next (s.transact (fun s => (s.modCore core (fun k => k.writeDbgctl value.toNat), true)))

/-! ## Waking -/

/-- FENCE_DRAINED: a waiting FENCE finds the queue drained (12 R296). -/
def execFenceDrained (core slot : Nat) (s : State) : Host.Outcome State Fault Refusal :=
  match s.waitOf core slot, s.warp? core slot with
  | some t, some w =>
    match t.instr with
    | .fence x => if w.storeQ.isEmpty then resume s core slot (execFence x) else .next s
    | _ => .next s
  | _, _ => .next s

/-- ICINV_DONE: the covered cores have finished (12 R297). -/
def execIcinvDone (core slot : Nat) (s : State) : Host.Outcome State Fault Refusal :=
  match (s.waitOf core slot).map Waiting.instr with
  | some (.icinv x) => resume s core slot (execIcinv x)
  | _ => .next s

/-- RECAST_WAKE: a blocked RECAST takes items that have arrived, or finds its queue closed (14 R350). -/
def execRecastWake (core slot : Nat) (s : State) : Host.Outcome State Fault Refusal :=
  match s.waitOf core slot, s.warp? core slot with
  | some t, some w =>
    match t.instr, s.group? core w.gid with
    | .recast x, some g => if g.castDry then .next s else resume s core slot (execRecast x)
    | _, _ => .next s
  | _, _ => .next s

end Sys2Proof.Machine
end

