-- ==== Sys2Proof/Machine/Counter.lean ====
section
/-! DEFINITION. Waits on counters and timelines, named barriers, event counters, and the token buckets of the ports (17). -/

namespace Sys2Proof.Machine

/-- The classes of a counter instruction's sources (17 R412). -/
def cntCls : List Cls := [.uni, .imm, .lit, .litHi, .idUni]
/-- A 32-bit source of a counter instruction. -/
def cntPos : Option Pos := some (Pos.of cntCls 32)
/-- A 64-bit source of a counter instruction. -/
def cntPos64 : Option Pos := some (Pos.of cntCls 64)

/-- The shape of a counter instruction that writes a uniform register. -/
def cntShape (m : BitVec 10) (a b : Option Pos) : Shape := { Shape.bare with m := m, fixed := true, dst := some Dst.uni, a := a, b := b }

/-- SLATE for an index at or beyond an allocation. -/
def indexTrap (limit n : Nat) : Option Trap := if limit ≤ n then raise 0x0A n else none

/-- pd written in every lane that is active or a helper (17 R412). -/
def Issue.setPd (i : Issue) (b : Bool) : List (Nat × Mask × Mask) :=
  [(bitsOf i.x.mods2.toNat 2 0, i.w.active ||| i.hlp, if b then BitVec.allOnes 32 else 0)]

/-! ## WAITC (17 R413, R414) -/

/-- LD, ST, CP and TL of a WAITC. -/
def waitcLimits (x : Ext) : Nat × Nat × Nat × Nat :=
  (bitsOf x.mods.toNat 5 0, x.mods2.toNat, x.mods3.toNat, match x.a.op with | .imm n => n.toNat | _ => 0)

/-- Whether a limit holds; 63 places no condition. -/
def limitOk (limit n : Nat) : Bool := limit == 63 || decide (n ≤ limit)

/-- Whether WAITC may return. -/
def Warp.waitcDone (w : Warp) (x : Ext) : Bool :=
  let l := waitcLimits x
  limitOk l.1 w.ld && limitOk l.2.1 w.st && limitOk l.2.2.1 w.cp && limitOk l.2.2.2 w.tl

/-- WAITC. -/
def waitcSpec (x : Ext) : Spec :=
  Spec.blocks { Shape.bare with m := 0x3F#10, m2 := 0x3F#6, m3 := 0x3F#6, a := some (Pos.of [.imm] 32) }
    (fun _ => match x.a.op with
      | .imm n => if 63 < n.toNat then some (ilOpnd x.a.op 1) else none
      | _ => none)
    (fun i => if i.w.waitcDone x then i.to i.s else .block (i.wait (.waitc x)) i.s)
/-- WAITC (17 R414). -/
def execWaitc (x : Ext) (s : State) : Host.Outcome State Fault Refusal := runExt waitcSpec x s

/-- WAITC_RETURN: a waiting WAITC finds its limits (17 R414). -/
def execWaitcReturn (core slot : Nat) (s : State) : Host.Outcome State Fault Refusal :=
  match s.waitOf core slot, s.warp? core slot with
  | some t, some w =>
    match t.instr with
    | .waitc x => if w.waitcDone x then resume s core slot (execWaitc x) else .next s
    | _ => .next s
  | _, _ => .next s

/-! ## TLWAIT and TLRD (17 R415 to R417) -/

/-- Whether a TLWAIT for `v` may return, and whether with an error. -/
def Timeline.waitDone (t : Timeline) (v : Nat) : Option Bool :=
  if v ≤ t.value then some false
  else if t.blocked && decide (t.value + 1 ≤ v) then some true
  else none

/-- ASYNC of a TLWAIT that returns over failed command `t.value + 1` of timeline `n` (09 R234). -/
def asyncTrap (g : Group) (n : Nat) (t : Timeline) (err : Bool) : Option Trap :=
  if err && g.asyncen then raise 0x10 ((t.value + 1) % 2 ^ 56 * 256 + n) else none

/-- TL of TLWAIT and TLRD. -/
def tlField (x : Ext) : Nat := modField x 3 0

/-- TLWAIT. -/
def tlwaitSpec (x : Ext) : Spec :=
  let n := tlField x
  { Spec.blocks { cntShape 0xF#10 cntPos64 none with m2 := 7#6 } (fun _ => none) (fun i =>
      match indexTrap i.g.nTl n with
      | some t => .trap t
      | none =>
        let tl := i.g.tl n
        match tl.waitDone (i.a 0) with
        | none => .block (i.wait (.tlwait x)) i.s
        | some e => .done { i.res with out := fun _ => tl.value, preds := i.setPd e, after := asyncTrap i.g n tl e })
    with shape := { cntShape 0xF#10 cntPos64 none with m2 := 7#6 } }
/-- TLWAIT (17 R416). -/
def execTlwait (x : Ext) (s : State) : Host.Outcome State Fault Refusal := runExt tlwaitSpec x s

/-- TLWAIT_RETURN: a waiting TLWAIT finds its timeline at its target, or held below it by a failure (17 R416). The instruction
runs again, and blocks again while neither holds. -/
def execTlwaitReturn (core slot : Nat) (s : State) : Host.Outcome State Fault Refusal :=
  match s.waitOf core slot, s.warp? core slot with
  | some t, some w =>
    match t.instr, s.group? core w.gid with
    | .tlwait x, some g =>
      let k := s.core core
      if ((g.tl (tlField x)).waitDone (srcVal k core slot g w x cntPos64 x.a 0)).isSome then resume s core slot (execTlwait x) else .next s
    | _, _ => .next s
  | _, _ => .next s

/-- Whether a command on a timeline is incomplete. -/
def Timeline.incomplete (t : Timeline) : Bool := decide (t.value + t.ended.length + 1 < t.next)

/-- A timeline that TLRD with SET restarts (17 R417). -/
def Timeline.restart (v : Nat) : Timeline := { value := v, next := v + 1, ended := [], counts := [] }

/-- TLRD. -/
def tlrdSpec (x : Ext) : Spec :=
  let n := tlField x
  let set := modBit x 4
  { Spec.plain { cntShape 0x1F#10 (if set then cntPos64 else none) none with m2 := 7#6 } (fun i =>
      match indexTrap i.g.nTl n with
      | some t => .trap t
      | none =>
        let tl := i.g.tl n
        if set then
          if tl.incomplete then .trap { cause := 0x0A, tval := BitVec.ofNat 64 n }
          else
            .done { i.res with
              s := i.s.modGroup i.c i.w.gid (fun g => { g with tls := Tab.set g.tls n (Timeline.restart (i.a 0)) })
              out := fun _ => tl.value, preds := i.setPd false }
        else .done { i.res with out := fun _ => tl.value, preds := i.setPd tl.blocked })
    with chk := fun i => if set && !i.w.handler then raise 0x05 0 else none }
/-- TLRD (17 R417). -/
def execTlrd (x : Ext) (s : State) : Host.Outcome State Fault Refusal := runExt tlrdSpec x s

/-! ## Barriers (17 R418 to R421) -/

/-- All ones, what DST receives where nothing was taken. -/
def allOnes64 : Nat := 2 ^ 64 - 1

/-- The state with a barrier of a group replaced. -/
def State.putBar (s : State) (c gid n : Nat) (b : Barrier) : State := s.modGroup c gid (fun g => { g with bars := Tab.set g.bars n b })

/-- The lowest free barrier of a group. -/
def Group.freeBar (g : Group) : Option Nat := (List.range g.nBar).find? (fun n => decide ((g.bar n).expected = 0))

/-- A barrier from its saved word (05 R132). -/
def barrierWord (v : Nat) : Barrier := { phase := BitVec.ofNat 16 v, expected := bitsOf v 31 16, arrived := bitsOf v 47 32 }

/-- Whether a saved word is refused. -/
def barrierWordBad (v : Nat) : Bool := bitsOf v 63 48 != 0 || (bitsOf v 31 16 != 0 && decide (bitsOf v 31 16 ≤ bitsOf v 47 32))

/-- An allocation of barrier `n` with an expected count. -/
def ballocAt (i : Issue) (n : Nat) : Eff :=
  .done { i.res with s := i.s.putBar i.c i.w.gid n { (i.g.bar n) with expected := i.a 0, arrived := 0 }, out := fun _ => n }

/-- BALLOC with SET. -/
def ballocSet (i : Issue) : Eff :=
  if barrierWordBad (i.a 0) then .trap { cause := 0x0A, tval := 0 }
  else .done { i.res with s := i.s.putBar i.c i.w.gid (i.b 0) (barrierWord (i.a 0)), out := fun _ => i.b 0 }

/-- BALLOC. -/
def ballocSpec (x : Ext) : Spec :=
  let fix := modBit x 0
  let set := modBit x 1
  { Spec.plain { cntShape 3#10 (if set then cntPos64 else cntPos) (if fix || set then cntPos else none) with bad := fix && set } (fun i =>
      match if fix || set then indexTrap i.g.nBar (i.b 0) else none with
      | some t => .trap t
      | none =>
        if set then ballocSet i
        else if i.a 0 = 0 ∨ 65535 < i.a 0 then .trap { cause := 0x0A, tval := 0 }
        else
          let n := if fix then (if (i.g.bar (i.b 0)).expected = 0 then some (i.b 0) else none) else i.g.freeBar
          match n with
          | some n => ballocAt i n
          | none => i.out (fun _ => allOnes64))
    with chk := fun i => if set && !i.w.handler then raise 0x05 0 else none }
/-- BALLOC (17 R419). -/
def execBalloc (x : Ext) (s : State) : Host.Outcome State Fault Refusal := runExt ballocSpec x s

/-- A barrier after BFREE. -/
def Barrier.freed (b : Barrier) : Barrier :=
  if b.expected = 0 then b else { phase := b.phase + 1, expected := 0, arrived := 0 }

/-- BFREE. -/
def bfreeSpec (_x : Ext) : Spec :=
  Spec.plain { Shape.bare with a := cntPos } (fun i =>
    match indexTrap i.g.nBar (i.a 0) with
    | some t => .trap t
    | none => i.to (i.s.putBar i.c i.w.gid (i.a 0) ((i.g.bar (i.a 0)).freed)))
/-- BFREE (17 R419). -/
def execBfree (x : Ext) (s : State) : Host.Outcome State Fault Refusal := runExt bfreeSpec x s

/-- SLATE of a barrier that is free. -/
def freeTrap (g : Group) (n : Nat) : Option Trap := if (g.bar n).expected = 0 then raise 0x0A (0x100 + n) else none

/-- An arrival of a weight, put into the store queue. -/
def arriveBody (i : Issue) (weight : Nat) : Eff :=
  match freeTrap i.g (i.a 0) with
  | some t => .trap t
  | none =>
    if sqCapacity ≤ i.w.storeQ.length then .stall
    else .done { i.res with
      s := i.s.modWarp i.c i.slot (fun w => w.enqueue false (.arrive (i.a 0) weight))
      out := fun _ => (i.g.bar (i.a 0)).phase.toNat }

/-- BARV. -/
def barvSpec (_x : Ext) : Spec :=
  Spec.plain (cntShape 0 cntPos none) (fun i =>
    match indexTrap i.g.nBar (i.a 0) with
    | some t => .trap t
    | none => arriveBody i 1)
/-- BARV (17 R420). -/
def execBarv (x : Ext) (s : State) : Host.Outcome State Fault Refusal := runExt barvSpec x s

/-- BARVW. -/
def barvwSpec (_x : Ext) : Spec :=
  Spec.plain (cntShape 0 cntPos cntPos) (fun i =>
    match indexTrap i.g.nBar (i.a 0) with
    | some t => .trap t
    | none => if i.b 0 = 0 ∨ 65535 < i.b 0 then .trap { cause := 0x0A, tval := 0 } else arriveBody i (i.b 0))
/-- BARVW (17 R420). -/
def execBarvw (x : Ext) (s : State) : Host.Outcome State Fault Refusal := runExt barvwSpec x s

/-- How far a barrier has moved past a token (17 R421). -/
def Barrier.past (b : Barrier) (token : Nat) : Nat := (b.phase - BitVec.ofNat 16 token).toNat

/-- BWAIT. The check that its barrier is allocated is made at issue only. -/
def bwaitSpec (x : Ext) : Spec :=
  Spec.blocks { Shape.bare with m2 := 7#6, a := cntPos, b := cntPos } (fun _ => none) (fun i =>
    match indexTrap i.g.nBar (i.a 0) <|> (if i.w.waiting.isSome then none else freeTrap i.g (i.a 0)) with
    | some t => .trap t
    | none =>
      let d := (i.g.bar (i.a 0)).past (i.b 0)
      if d = 0 then .block (i.wait (.bwait x)) i.s else .done { i.res with preds := i.setPd (decide (2 ≤ d)) })
/-- BWAIT (17 R421). -/
def execBwait (x : Ext) (s : State) : Host.Outcome State Fault Refusal := runExt bwaitSpec x s

/-- BWAIT_RETURN: a waiting BWAIT finds that its barrier's phase has moved (17 R421). -/
def execBwaitReturn (core slot : Nat) (s : State) : Host.Outcome State Fault Refusal :=
  match s.waitOf core slot, s.warp? core slot with
  | some t, some w =>
    match t.instr, s.group? core w.gid with
    | .bwait x, some g =>
      let k := s.core core
      let v := fun p f => srcVal k core slot g w x p f 0
      if (g.bar (v cntPos x.a)).past (v cntPos x.b) = 0 then .next s else resume s core slot (execBwait x)
    | _, _ => .next s
  | _, _ => .next s

/-! ## Event counters (17 R425 to R428) -/

/-- Whether a source is assigned to a core's counters, or to a die's (17 Table 4). -/
def sourceOk (die : Bool) (n : Nat) : Bool :=
  n == 1 || (if die then decide (0x40 ≤ n) && decide (n ≤ 0x51)
    else (decide (2 ≤ n) && decide (n ≤ 0x0E)) || (decide (0x10 ≤ n) && decide (n ≤ 0x28)))

/-- The number of counters of a kind. -/
def evCount (die : Bool) : Nat := if die then 16 else 8

/-- Counter `n` of a core or of its die. -/
def Issue.evCtr (i : Issue) (die : Bool) (n : Nat) : EvCtr :=
  Tab.getD (if die then (i.s.die (dieOf i.c)).evctrs else i.k.evctrs) n EvCtr.reset

/-- A counter after ECSEL. What the old source has counted in this cycle, and counts until its end, is kept unless CLR clears it; the new
source counts from the next cycle on (17 R426). -/
def EvCtr.select (x : EvCtr) (source : Byte) (clr : Bool) : EvCtr :=
  if clr then { value := 0, source := source, counting := 0, now := 0 } else { x with source := source }

/-- The word that ECRD writes: VALUE without the events of this cycle (17 R427). -/
def EvCtr.word (x : EvCtr) : Nat := x.source.toNat * 2 ^ 56 + x.value.toNat

/-- ECRD. -/
def ecrdSpec (x : Ext) : Spec :=
  let die := modBit x 0
  Spec.plain (cntShape 1#10 cntPos none) (fun i =>
    if evCount die ≤ i.a 0 then .trap { cause := 0x0A, tval := 0 } else i.out (fun _ => (i.evCtr die (i.a 0)).word))
/-- ECRD (17 R427). -/
def execEcrd (x : Ext) (s : State) : Host.Outcome State Fault Refusal := runExt ecrdSpec x s

/-- ECSEL. -/
def ecselSpec (x : Ext) : Spec :=
  let die := modBit x 0
  let clr := modBit x 1
  { Spec.plain { Shape.bare with m := 3#10, a := cntPos, b := cntPos } (fun i =>
      if evCount die ≤ i.a 0 ∨ 0xFF < i.b 0 ∨ !(sourceOk die (i.b 0)) then .trap { cause := 0x0A, tval := 0 }
      else
        let o := i.evCtr die (i.a 0)
        let n := o.select (BitVec.ofNat 8 (i.b 0)) clr
        i.to (if die then i.s.modDie (dieOf i.c) (fun d => { d with evctrs := Tab.set d.evctrs (i.a 0) n })
          else i.s.modCore i.c (fun k => { k with evctrs := Tab.set k.evctrs (i.a 0) n })))
    with pre := fun i => if die && !i.g.kernel.sys then raise 0x01 0 else none }
/-- ECSEL (17 R426). -/
def execEcsel (x : Ext) (s : State) : Host.Outcome State Fault Refusal := runExt ecselSpec x s

/-! ## Token buckets (17 R422 to R424) -/

/-- The classes with a request waiting. -/
def Port.demand (p : Port) : List Nat := (List.range 8).filter (fun c => p.waiting.any (fun r => r.1 == c))

/-- The buckets of a refill under weights. -/
def refillBuckets (w : List Nat) (d : List Nat) : List Nat :=
  let share := fun c => 4 * w.getD c 0
  let l := 1024 - (d.map share).sum
  let wsum := (d.map (fun c => w.getD c 0)).sum
  let part := fun c => if wsum = 0 then l / d.length else l * w.getD c 0 / wsum
  let left := l - (d.map part).sum
  (List.range 8).map (fun c => if d.contains c then share c + part c + (if d.idxOf c < left then 1 else 0) else 0)

/-- A port after a refill in period `n`. -/
def Port.refill (p : Port) (w : List Nat) (n : Nat) : Port := { p with buckets := refillBuckets w p.demand, rot := 0, epoch := n + 1 }

/-- The port refilled in a cycle that is a multiple of 1,024, once (17 R423). -/
def Port.refillAt (p : Port) (w : List Nat) (cycle : Nat) : Port :=
  if cycle % 1024 = 0 ∧ p.epoch ≠ cycle / 1024 + 1 then p.refill w (cycle / 1024) else p

/-- TOKEN_REFILL: a port sets its buckets once in every 1,024 cycles (17 R423). -/
def execTokenRefill (port : PortRef) (s : State) : Host.Outcome State Fault Refusal :=
  match port with
  | .core c => .next (s.modCore c (fun k => { k with port := k.port.refillAt (s.die (dieOf c)).weights k.cycle.toNat }))
  | .coll d => .next (s.modDie d (fun k => { k with collPort := k.collPort.refillAt k.weights s.ucycle.toNat }))

/-- The class that a port serves next; it has sent nothing in this cycle, whose period's tokens it holds (17 R423, R424). -/
def Port.pick (p : Port) (cycle : Nat) : Option Nat :=
  if p.used || p.epoch != cycle / 1024 + 1 then none else
  ((List.range 8).map (fun i => (p.rot + i) % 8)).find? (fun c => p.demand.contains c && p.buckets.getD c 0 != 0)

/-- A port after it has sent the first request of class `c`. -/
def Port.send (p : Port) (c : Nat) : Port :=
  { p with buckets := List.set p.buckets c (p.buckets.getD c 0 - 1), rot := (c + 1) % 8, used := true
           waiting := match p.waiting.find? (fun r => r.1 == c) with
             | some r => p.waiting.erase r
             | none => p.waiting }

/-- A request that has passed its port: a contribution, a collective, or one of an engine context. -/
def State.granted (s : State) (port : PortRef) (r : Nat × Nat × Nat) : State :=
  match port with
  | .core c =>
    if r.2.1 = 2 then
      s.modCore c (fun k => { k with contribs := k.contribs.map (fun x => if x.id = r.2.2 then { x with sent := true } else x) })
    else s.modCtx c r.2.1 r.2.2 (fun x => { x with grants := x.grants + 1, asked := false })
  | .coll d =>
    s.modDie d (fun k => { k with coll := match Tab.get? k.coll r.2.2 with
      | some x => Tab.set k.coll r.2.2 { x with grants := x.grants + 1, asked := false }
      | none => k.coll })

/-- PORT_SEND: a port sends one waiting request (17 R424). -/
def execPortSend (port : PortRef) (s : State) : Host.Outcome State Fault Refusal :=
  let p := match port with | .core c => ((s.core c).port, (s.core c).cycle.toNat) | .coll d => ((s.die d).collPort, s.ucycle.toNat)
  match p.1.pick p.2 with
  | none => .next s
  | some c =>
    match p.1.waiting.find? (fun r => r.1 == c) with
    | none => .next s
    | some r =>
      let s1 := match port with
        | .core n => ((s.modCore n (fun k => { k with port := k.port.send c })).countCore n 0x0E 1).countCore n (0x10 + c) 1
        | .coll d => s.modDie d (fun k => { k with collPort := k.collPort.send c })
      .next (s1.granted port r)

end Sys2Proof.Machine
end

