-- ==== Sys2Proof/Machine/Scope.lean ====
section
/-! DEFINITION. What a context's block holds for its groups: scope entries, fabric windows; and CGRP and FXWIN (16 R393, R397, R398,
R403; 15 R360, R361, R374; 11 R278). -/

namespace Sys2Proof.Machine

/-! ## The context block (16 R393) -/

/-- A dword of a context's block; one in a poisoned sector gives no entry, and reads as 0 (10 R264; DESIGN CHOICE, log 41). -/
def State.ctxDword (s : State) (asid off : Nat) : Nat :=
  let pa := (s.asid asid).ctx + off
  if s.physPoison pa 8 then 0 else s.readPhys pa 8

/-- The devices of the system peer map. -/
def State.systemPeers (s : State) (asid : Nat) : List Nat :=
  (List.range 64).flatMap (fun i =>
    let v := s.ctxDword asid (0x0800 + 8 * i)
    ((List.range 64).filter (fun b => v.testBit b)).map (fun b => 64 * i + b)) |>.filter (fun n => n != s.pkg.devid.toNat)

/-! ## Scope entries -/

/-- A scope entry as a use resolves it: its cores and peers, ascending, its tag, and whether it is wide for the posting core. -/
structure Scope where
  cores : List Nat
  peers : List Nat
  tag : Nat
  wide : Bool
  deriving DecidableEq, Repr

/-- The peers that an image lists. -/
def imagePeers (dws : List Nat) : List Nat :=
  let n := bitsOf (dws.getD 3 0) 62 58
  ((List.range 16).map (fun i => bitsOf (dws.getD (4 + i / 4) 0) (16 * (i % 4) + 11) (16 * (i % 4)))).take n

/-- The cores that an image names. -/
def imageCores (dws : List Nat) : List Nat := (List.range Config.numCores).filter (fun c => (dws.getD (c / 64) 0).testBit (c % 64))

/-- Whether an image of eight dwords is a valid entry of device `own` (16 R398). -/
def imageOk (own : Nat) (dws : List Nat) : Bool :=
  let h := dws.getD 3 0
  let ps := imagePeers dws
  bitsOf h 63 63 == 1 && bitsOf h 57 16 == 0 && decide (bitsOf h 62 58 ≤ 16) && decide (bitsOf h 15 0 < 0xFFFC) &&
  !(imageCores dws).isEmpty && ps.dedup.length == ps.length && !(ps.contains own) &&
  (List.range 16).all (fun i => bitsOf (dws.getD (4 + i / 4) 0) (16 * (i % 4) + 15) (16 * (i % 4) + 12) == 0)

/-- The eight dwords of entry `g` of a context. -/
def State.scopeImage (s : State) (asid g : Nat) : List Nat := (List.range 8).map (fun i => s.ctxDword asid (64 * g + 8 * i))

/-- The cores of a die. -/
def dieCores (d : Nat) : List Nat := (List.range Config.coresPerDie).map (fun i => Config.coresPerDie * d + i)

/-- Scope entry `g` of a context as core `core` resolves it; none where it is not valid (15 R360; 11 R278). -/
def State.scope? (s : State) (core asid g : Nat) : Option Scope :=
  match g with
  | 0 => some { cores := [core], peers := [], tag := 0xFFFC, wide := false }
  | 1 => some { cores := dieCores (dieOf core), peers := [], tag := 0xFFFD, wide := false }
  | 2 => some { cores := List.range Config.numCores, peers := [], tag := 0xFFFE, wide := true }
  | 3 => some { cores := List.range Config.numCores, peers := s.systemPeers asid, tag := 0xFFFF, wide := true }
  | _ =>
    let dws := s.scopeImage asid g
    if g < 32 ∧ imageOk s.pkg.devid.toNat dws then
      let cs := imageCores dws
      let ps := (imagePeers dws).foldl insertNat []
      some { cores := cs, peers := ps, tag := bitsOf (dws.getD 3 0) 15 0, wide := !(ps.isEmpty && cs.all (fun c => dieOf c == dieOf core)) }
    else none

/-- Whether an entry is valid. -/
def State.scopeOk (s : State) (core asid g : Nat) : Bool := (s.scope? core asid g).isSome

/-- Whether an entry is wide for a posting core. -/
def State.scopeWide (s : State) (core asid g : Nat) : Bool := match s.scope? core asid g with | some e => e.wide | none => true

/-- NMEM. -/
def Scope.count (e : Scope) : Nat := e.cores.length * (e.peers.length + 1)

/-- The member index of a core of device `own`. -/
def Scope.index (e : Scope) (own core : Nat) : Option Nat :=
  if e.cores.contains core then some ((e.peers.filter (fun p => decide (p < own))).length * e.cores.length + e.cores.idxOf core) else none

/-- SLATE of a scope entry that is not valid. -/
def State.scopeTrap (s : State) (core asid g : Nat) : Option Trap := if s.scopeOk core asid g then none else raise 0x0A (0x400 + g)

/-- CGRP. -/
def cgrpSpec (_x : Ext) : Spec :=
  Spec.plain (cntShape 0 cntPos none) (fun i =>
    if 32 ≤ i.a 0 then .trap { cause := 0x0A, tval := 0 }
    else
      match i.s.scope? i.c i.g.asid (i.a 0) with
      | none => .trap { cause := 0x0A, tval := BitVec.ofNat 64 (0x400 + i.a 0) }
      | some e => i.out (fun _ => e.count * 2 ^ 32 + (e.index i.s.pkg.devid.toNat i.c).getD 0xFFFFFFFF))
/-- CGRP (15 R361). -/
def execCgrp (x : Ext) (s : State) : Host.Outcome State Fault Refusal := runExt cgrpSpec x s

/-! ## Fabric windows (16 R403; 15 R372, R374) -/

/-- A window entry: its two dwords. -/
structure Window where
  lo : Nat
  hi : Nat
  deriving DecidableEq, Repr

/-- Window `n` of a context as its block holds it. -/
def State.window (s : State) (asid n : Nat) : Window :=
  { lo := s.ctxDword asid (0x1000 + 16 * n), hi := s.ctxDword asid (0x1008 + 16 * n) }

/-- DEV. -/
def Window.dev (w : Window) : Nat := bitsOf w.lo 63 52
/-- V. -/
def Window.valid (w : Window) : Bool := bitsOf w.lo 51 51 == 1
/-- RD. -/
def Window.rd (w : Window) : Bool := bitsOf w.lo 47 47 == 1
/-- WR. -/
def Window.wr (w : Window) : Bool := bitsOf w.lo 46 46 == 1
/-- AT. -/
def Window.atm (w : Window) : Bool := bitsOf w.lo 45 45 == 1
/-- The length in bytes. -/
def Window.len (w : Window) : Nat := bitsOf w.lo 35 0 * 65536
/-- The target ASID. -/
def Window.asid (w : Window) : Nat := bitsOf w.hi 63 48
/-- The VA of the window's base. -/
def Window.base (w : Window) : Nat := bitsOf w.hi 35 0 * 65536

/-- The stream to a device in a traffic class. -/
def State.stream (s : State) (dev tc : Nat) : Stream := Tab.getD s.pkg.streams (4 * dev + tc) Stream.reset

/-- Whether a stall hint from a device is current (15 R382). -/
def State.hinted (s : State) (dev : Nat) : Bool := (List.range 4).any (fun tc => (s.stream dev tc).hint)

/-- The word that FXWIN writes. -/
def State.fxwinWord (s : State) (asid n : Nat) : Nat :=
  let w := s.window asid n
  if w.valid then
    w.dev * 2 ^ 52 + 2 ^ 51 + flag (s.hinted w.dev) * 2 ^ 50 + bitsOf w.lo 47 45 * 2 ^ 45 + bitsOf w.lo 35 0
  else 0

/-- FXWIN. -/
def fxwinSpec (_x : Ext) : Spec :=
  Spec.plain (cntShape 0 cntPos none) (fun i =>
    if 256 ≤ i.a 0 then .trap { cause := 0x0A, tval := 0 } else i.out (fun _ => i.s.fxwinWord i.g.asid (i.a 0)))
/-- FXWIN (15 R374). -/
def execFxwin (x : Ext) (s : State) : Host.Outcome State Fault Refusal := runExt fxwinSpec x s

end Sys2Proof.Machine
end

