-- ==== Sys2Proof/Machine/Slate.lean ====
section
/-! DEFINITION. Slates: their fields, the checks of CPOST, and where each unit of a command lies (13 R308 to R319). A unit is an
element, or a whole row where a block format is involved. -/

namespace Sys2Proof.Machine

/-! ## Fields (13 Tables 2 and 3) -/

/-- The fields of a slate. Strides, and RDELTA, are signed. -/
structure Slate where
  kind : Nat
  tl : Nat
  baren : Bool
  bar : Nat
  cscope : Nat
  qos : Nat
  tc : Nat
  ord : Bool
  replay : Bool
  setfull : Bool
  eng : Nat
  rop : Nat
  nat : Bool
  ret : Bool
  sfmt : Nat
  dfmt : Nat
  rm : Nat
  ndims : Nat
  look : Nat
  isz : Nat
  ss : Nat
  ds : Nat
  src : Nat
  dst : Nat
  iloc : Bool
  aux0 : Nat
  aux1 : Nat
  ext : List Nat
  ilim : Nat
  sstr : List Int
  dstr : List Int
  rdelta : Int
  reps : Nat
  fseq : Nat
  deriving DecidableEq, Repr

/-- A register of a slate. -/
def sreg (r : List DWord) (i : Nat) : Nat := (r.getD i 0).toNat

/-- A signed half of a slate register. -/
def sHalf (r : List DWord) (i lo : Nat) : Int := sextNat (bitsOf (sreg r i) (lo + 31) lo) 32

/-- A flag of the header. -/
def hdrBit (r : List DWord) (n : Nat) : Bool := bitsOf (sreg r 0) n n == 1

/-- The fields that 16 registers hold. -/
def slateOf (r : List DWord) : Slate :=
  let h := fun hi lo => bitsOf (sreg r 0) hi lo
  { kind := h 63 60, tl := h 59 56, baren := hdrBit r 55, bar := h 54 49, cscope := h 48 44, qos := h 43 41, tc := h 40 39
    ord := hdrBit r 38, replay := hdrBit r 37, setfull := hdrBit r 36, eng := h 35 34, rop := h 33 30, nat := hdrBit r 29
    ret := hdrBit r 28, sfmt := h 27 24, dfmt := h 23 20, rm := h 19 18, ndims := h 17 15 + 1, look := h 14 12
    isz := if hdrBit r 11 then 8 else 4, ss := h 10 8, ds := h 7 5, src := sreg r 1, dst := sreg r 2
    iloc := bitsOf (sreg r 3) 63 63 == 1, aux0 := bitsOf (sreg r 3) 51 0, aux1 := sreg r 4
    ext := [bitsOf (sreg r 5) 31 0, bitsOf (sreg r 5) 63 32, bitsOf (sreg r 6) 31 0, bitsOf (sreg r 6) 63 32, bitsOf (sreg r 7) 31 0]
    ilim := bitsOf (sreg r 7) 63 32
    sstr := [sHalf r 8 0, sHalf r 8 32, sHalf r 9 0, sHalf r 9 32, sHalf r 10 0]
    dstr := [sHalf r 10 32, sHalf r 11 0, sHalf r 11 32, sHalf r 12 0, sHalf r 12 32]
    rdelta := sextNat (sreg r 13) 64, reps := bitsOf (sreg r 14) 3 0 + 1, fseq := bitsOf (sreg r 15) 31 0 }

/-! ## Formats (13 R311) -/

/-- The bytes of an element; 0 for a block format. -/
def engBytes (fmt : Nat) : Nat :=
  match fmt with
  | 0 => 4
  | 1 => 2
  | 2 => 2
  | 3 => 4
  | 4 => 1
  | 5 => 2
  | 6 => 8
  | 7 => 8
  | _ => 0

/-- Whether a format is a block format. -/
def isBlk (fmt : Nat) : Bool := decide (8 ≤ fmt)

/-- The IEEE format of a code. -/
def ieeeOf (fmt : Nat) : Option Fmt :=
  match fmt with
  | 0 => some .f32
  | 1 => some .bf16
  | 2 => some .f16
  | 7 => some .f64
  | _ => none

/-- Whether elements may be converted between two formats (13 R312). -/
def convertible (a b : Nat) : Bool := a == b || (((ieeeOf a).isSome || isBlk a) && ((ieeeOf b).isSome || isBlk b))

/-- Whether a command works on whole rows (13 R316, R321). -/
def Slate.rowMode (f : Slate) : Bool := isBlk f.sfmt || isBlk f.dfmt

/-- X0. -/
def Slate.x0 (f : Slate) : Nat := f.ext.getD 0 0

/-- N. -/
def Slate.count (f : Slate) : Nat := (f.ext.take f.ndims).foldl (fun t x => t * x) 1

/-- The elements of a unit. -/
def Slate.per (f : Slate) : Nat := if f.rowMode then f.x0 else 1

/-- The units of a command. -/
def Slate.units (f : Slate) : Nat := f.count / f.per

/-- Whether a command applies its operation at the destination: scatter-reduce and atomic. -/
def Slate.atomic (f : Slate) : Bool := f.kind == 2 || f.kind == 3

/-- Whether a command is a compare-and-swap. -/
def Slate.cas (f : Slate) : Bool := f.kind == 3 && f.rop == 7

/-! ## Checks at acceptance (13 Table 7) -/

/-- The spaces that a kind allows (13 Table 5): sources, destinations. -/
def kindSpaces (k : Nat) : List Nat × List Nat :=
  match k with
  | 0 => ([0, 1, 2, 4], [0, 1, 2, 4])
  | 1 => ([0, 2, 4], [0, 1, 2, 4])
  | 2 => ([0, 1, 2], [0, 3])
  | 3 => ([0, 1, 2], [0, 3])
  | 4 => ([0, 1, 2, 4], [3])
  | 5 => ([3], [0, 1, 2])
  | 6 => ([0, 1, 2, 4], [0, 3])
  | _ => ([], [])

/-- Whether a kind allows an operation code. -/
def kindRop (k rop : Nat) : Bool :=
  match k with
  | 2 => decide (rop ≤ 5) || rop == 0xA
  | 3 => decide (rop ≤ 0xA)
  | _ => rop == 0

/-- Whether a kind allows block formats. -/
def kindBlk (k : Nat) : Bool := k == 0 || k == 4 || k == 5 || k == 6

/-- The bits that the form of a space leaves as 0 (13 Table 4): high and low. -/
def formZero (sp : Nat) : Option (Nat × Nat) :=
  match sp with
  | 0 => some (63, 52)
  | 1 => some (55, 48)
  | 2 => some (63, 32)
  | 3 => some (55, 52)
  | 4 => some (63, 52)
  | _ => none

/-- The lowest offending bit of a base: reserved bits of its form, then those below its alignment. -/
def baseBad (v sp al : Nat) : Option Nat :=
  lowestOf [(formZero sp).bind (fun p => lowBit v p.1 p.2),
    if sp = 1 then (if bitsOf v 47 0 % al ≠ 0 then lowBit v 47 0 else none) else if v % al ≠ 0 then lowBit v 63 0 else none]

/-- The alignment of a base: its element, both halves of a CAS source, or 128 bytes for a block format in VA or local space. In tile space
it counts elements. -/
def baseAlign (f : Slate) (srcSide : Bool) : Nat :=
  let fmt := if srcSide then f.sfmt else f.dfmt
  let sp := if srcSide then f.ss else f.ds
  if sp = 1 then (if srcSide && f.cas then 2 else 1)
  else if isBlk fmt then (if sp = 0 ∨ sp = 2 then 128 else 1)
  else if srcSide && f.cas then 2 * engBytes f.dfmt else engBytes fmt

/-- The offending bits of the header under order 1. -/
def headerBad (r : List DWord) (f : Slate) : List (Option Nat) :=
  let sp := kindSpaces f.kind
  let on := fun (b : Bool) (n : Nat) => if b then some n else none
  [lowBit (sreg r 0) 4 0, on (decide (6 < f.kind)) 60, on (decide (f.kind ≤ 6) && !(sp.1.contains f.ss)) 8,
   on (decide (f.kind ≤ 6) && !(sp.2.contains f.ds)) 5, on (decide (f.kind ≤ 6) && !(kindRop f.kind f.rop)) 30,
   on (isBlk f.sfmt && !(kindBlk f.kind)) 24, on (isBlk f.dfmt && !(kindBlk f.kind)) 20, on (!(convertible f.sfmt f.dfmt)) 20,
   on (f.atomic && (if f.rop = 0xA then f.dfmt != 0 else f.dfmt != 3 && f.dfmt != 6)) 20, on (f.cas && f.sfmt != f.dfmt) 20,
   on (decide (5 < f.ndims)) 15, on (f.eng == 3) 34, on (f.ord && f.eng == 2) 38,
   on (f.setfull && (f.ds != 2 || decide (engBytes f.dfmt < 4))) 36, on (f.replay && f.ss != 3 && f.ds != 3) 37,
   on (f.ret && f.kind != 3) 28]

/-- The lowest bit of an extent, or of a stride, that offends: `lo` its place in its register. -/
def extentBad (r : List DWord) (f : Slate) (d i lo : Nat) : Option Nat :=
  let x := f.ext.getD d 0
  if d < f.ndims then (if x = 0 then some lo else none) else lowBit (sreg r i) (lo + 31) lo

/-- A stride that is not used must be 0. -/
def strideBad (r : List DWord) (used : Bool) (i lo : Nat) : Option Nat := if used then none else lowBit (sreg r i) (lo + 31) lo

/-- Whether stride `d` of the source, or destination, is used. -/
def strideUsed (f : Slate) (srcSide : Bool) (d : Nat) : Bool :=
  if (srcSide && f.kind == 1) || (!srcSide && f.kind == 2) then decide (d < 2) else decide (d < f.ndims)

/-- AUX1: the flag of KIND 4, the return base of KIND 3 with RET, otherwise 0. -/
def aux1Bad (f : Slate) : Option Nat :=
  let v := f.aux1
  if f.kind = 4 then lowestOf [lowBit v 55 52, lowBit v 2 0]
  else if f.kind = 3 ∧ f.ret then
    lowestOf [lowBit v 62 52, if v.testBit 63 then lowBit v 51 32 else none, if v % max 1 (engBytes f.dfmt) ≠ 0 then lowBit v 51 0 else none]
  else lowBit v 63 0

/-- AUX0: an index list aligned to its index. -/
def aux0Bad (r : List DWord) (f : Slate) : List (Option Nat) :=
  [lowBit (sreg r 3) 62 52, if f.iloc then lowBit (sreg r 3) 51 32 else none,
   if (f.kind = 1 ∨ f.kind = 2) ∧ f.aux0 % f.isz ≠ 0 then lowBit (sreg r 3) 51 0 else none]

/-- The offending bits of register `i` of a slate under order 1 (log 14). -/
def slateRegBad (r : List DWord) (f : Slate) (i : Nat) : Option Nat :=
  let sU := strideUsed f true
  let dU := strideUsed f false
  lowestOf (match i with
    | 0 => headerBad r f
    | 1 => [baseBad f.src f.ss (baseAlign f true)]
    | 2 => [baseBad f.dst f.ds (baseAlign f false)]
    | 3 => aux0Bad r f
    | 4 => [aux1Bad f]
    | 5 => [extentBad r f 0 5 0, extentBad r f 1 5 32, if f.rowMode && f.x0 % 32 != 0 then lowBit (sreg r 5) 4 0 else none,
            if 2 ^ 48 ≤ f.count then some 0 else none]
    | 6 => [extentBad r f 2 6 0, extentBad r f 3 6 32]
    | 7 => [extentBad r f 4 7 0]
    | 8 => [strideBad r (sU 0) 8 0, strideBad r (sU 1) 8 32, if f.rowMode && f.sstr.getD 0 0 != 1 then some 0 else none]
    | 9 => [strideBad r (sU 2) 9 0, strideBad r (sU 3) 9 32]
    | 10 => [strideBad r (sU 4) 10 0, strideBad r (dU 0) 10 32, if f.rowMode && f.dstr.getD 0 0 != 1 then some 32 else none]
    | 11 => [strideBad r (dU 1) 11 0, strideBad r (dU 2) 11 32]
    | 12 => [strideBad r (dU 3) 12 0, strideBad r (dU 4) 12 32]
    | 13 => [if f.kind = 6 ∧ f.ds = 0 then none else lowBit (sreg r 13) 63 0]
    | 14 => [lowBit (sreg r 14) 63 4, if f.kind = 6 then none else lowBit (sreg r 14) 3 0]
    | 15 => [lowBit (sreg r 15) 63 32, if f.replay then none else lowBit (sreg r 15) 31 0]
    | _ => [])

/-- The first register that offends under order 1, with its lowest offending bit. -/
def slateBad (r : List DWord) (f : Slate) : Option (Nat × Nat) :=
  ((List.range 16).filterMap (fun i => (slateRegBad r f i).map (fun b => (i, b)))).head?

/-- The handle of a base in tile space. -/
def baseHandle (v : Nat) : Nat := bitsOf v 63 56

/-- The first element of a base in tile space. -/
def baseElem (v : Nat) : Nat := bitsOf v 47 0

/-- Order 4: a handle that a side cannot use. -/
def sideTileBad (e : TileEntry) (f : Slate) (base fmt : Nat) : Bool :=
  !e.bound || e.fmt != fmt || (isBlk fmt && (baseElem base % e.cols != 0 || f.x0 != e.cols))

/-- The trap of a slate's checks, in order (13 Table 7); `o` is the operand that a handle trap names. -/
def slateCheck (s : State) (c : Nat) (g : Group) (o : Nat) (r : List DWord) : Option Trap :=
  let f := slateOf r
  let sides := (if f.ss = 1 then [(f.src, f.sfmt)] else []) ++ (if f.ds = 1 then [(f.dst, f.dfmt)] else [])
  (slateBad r f).map (fun p => slateTrap p.1 p.2) <|>
  (lowestOf [if s.scopeOk c g.asid f.cscope then none else some 44, if f.baren && decide (g.nBar ≤ f.bar) then some 49 else none,
    if g.nTl ≤ f.tl then some 56 else none]).map (slateTrap 0) <|>
  (((sides.map (fun p => baseHandle p.1)).filter (fun h => decide (g.nTile ≤ h))).min?).map
    (fun h => { cause := 0x05, tval := BitVec.ofNat 64 (o + 1024 + 4096 * h) }) <|>
  (match sides.find? (fun p => sideTileBad (handleEntry (s.core c) g (baseHandle p.1)) f p.1 p.2) with
   | some p => raise 0x0A 0 |>.map (fun _ => { cause := 0x09, tval := BitVec.ofNat 64 (baseHandle p.1) })
   | none => none)

/-! ## Where a unit lies (13 R314 to R316) -/

/-- The coordinates of element `j`. -/
def coords : List Nat → Nat → List Nat
  | [], _ => []
  | x :: t, j => (if x = 0 then 0 else j % x) :: coords t (if x = 0 then 0 else j / x)

/-- A sum of coordinates times strides, from dimension `lo` on. -/
def strideSum (cs : List Nat) (st : List Int) (lo : Nat) : Int := (((cs.zip st).drop lo).map (fun p => (p.1 : Int) * p.2)).foldl (· + ·) 0

/-- The coordinates of unit `u`. -/
def Slate.at_ (f : Slate) (u : Nat) : List Nat := coords (f.ext.take f.ndims) (u * f.per)

/-- The row of the index list that unit `u` uses. -/
def Slate.row (f : Slate) (u : Nat) : Nat := if f.x0 = 0 then 0 else u * f.per / f.x0

/-- The element offset of unit `u` on a side, `idx` its index; for a block side the offset counts rows. -/
def Slate.off (f : Slate) (srcSide : Bool) (idx : Int) (u : Nat) : Int :=
  let cs := f.at_ u
  let st := if srcSide then f.sstr else f.dstr
  let fmt := if srcSide then f.sfmt else f.dfmt
  if isBlk fmt then strideSum cs st 1
  else if (srcSide && f.kind == 1) || (!srcSide && f.kind == 2) then idx * st.getD 1 0 + (cs.getD 0 0 : Int) * st.getD 0 0
  else strideSum cs st 0

/-- A run of bytes of a space; a tile's bytes are counted from its first. -/
structure Piece where
  space : Nat
  addr : Nat
  len : Nat
  deriving DecidableEq, Repr

/-- A failing address in the form of its space (13 Table 4). -/
def badAddr (sp base : Nat) (a : Int) : DWord :=
  match sp with
  | 1 => BitVec.ofNat 64 (baseHandle base * 2 ^ 56 + wrapInt a 48)
  | 2 => BitVec.ofNat 64 (wrapInt a 32)
  | 3 => BitVec.ofNat 64 (bitsOf base 63 56 * 2 ^ 56 + wrapInt a 52)
  | _ => BitVec.ofNat 64 (wrapInt a 52)

/-- Why a unit cannot be cleared: it suspends on a page (13 R322), or the command fails with a status. -/
inductive UnitErr where
  | suspend (va : Nat) (wr index : Bool)
  | fail (status : Nat) (addr : DWord) (space : Nat)
  deriving DecidableEq, Repr

/-- The pieces of a tile side: `n` elements from element `e`, or one row of a block format. -/
def tilePieces (t : TileRef) (base fmt : Nat) (e : Int) (n : Nat) : Except UnitErr (List Piece) :=
  let bad := fun (x : Int) => Except.error (UnitErr.fail 0x13 (badAddr 1 base x) 1)
  if isBlk fmt then
    let row := (baseElem base / max 1 t.cols : Int) + e
    if row < 0 ∨ (t.rows : Int) ≤ row then bad (row * t.cols)
    else .ok [{ space := 1, addr := row.toNat * t.rstride, len := rowBytes fmt t.cols }]
  else
    let first := (baseElem base : Int) + e
    let total := (t.rows * t.cols : Nat)
    if first < 0 then bad first
    else if (total : Int) < first + n then bad (max first total)
    else .ok ((List.range n).map (fun i =>
      let x := first.toNat + i
      { space := 1, addr := x / t.cols * t.rstride + x % t.cols * engBytes fmt, len := engBytes fmt }))

/-- The limit of a byte address of a space. -/
def spaceLimit (sp : Nat) : Nat := if sp = 2 then 2 ^ 32 else 2 ^ 52

/-- The piece of a side in a byte-addressed space: out of range fails with UNMAPPED, in a local space or a window with LOCAL. -/
def bytePiece (sp base : Nat) (a : Int) (n : Nat) : Except UnitErr (List Piece) :=
  if a < 0 ∨ (spaceLimit sp : Int) < a + n then .error (.fail (if sp = 2 ∨ sp = 3 then 0x13 else 0x10) (badAddr sp base a) sp)
  else .ok [{ space := sp, addr := a.toNat, len := n }]

/-- The byte offset of a base in a byte-addressed space. -/
def baseByte (sp v : Nat) : Nat := if sp = 2 then bitsOf v 31 0 else bitsOf v 51 0

/-- RSTRIDE of a row of `x0` elements of a block format in memory. -/
def memPitch (fmt x0 : Nat) : Nat := roundUp (rowBytes fmt x0) 128

/-- The pieces of unit `u` on a side; `t` the tile where the side is one. -/
def Slate.side (f : Slate) (srcSide : Bool) (t : Option TileRef) (idx : Int) (u : Nat) : Except UnitErr (List Piece) :=
  let base := if srcSide then f.src else f.dst
  let fmt := if srcSide then f.sfmt else f.dfmt
  let sp := if srcSide then f.ss else f.ds
  let off := f.off srcSide idx u
  let wide : Nat := if srcSide && f.cas then 2 else 1
  match t with
  | some t => tilePieces t base fmt (off * wide) (if isBlk fmt then 1 else f.per * wide)
  | none =>
    let b : Int := baseByte sp base
    if isBlk fmt then bytePiece sp base (b + off * memPitch fmt f.x0) (rowBytes fmt f.x0)
    else bytePiece sp base (b + off * wide * engBytes fmt) (f.per * wide * engBytes fmt)

/-- The piece of a returned old value (13 R317). -/
def Slate.retSide (f : Slate) (idx : Int) (u : Nat) : Except UnitErr (List Piece) :=
  let sp := if f.aux1.testBit 63 then 2 else 0
  bytePiece sp f.aux1 ((baseByte sp f.aux1 : Int) + f.off true idx u * engBytes f.dfmt) (engBytes f.dfmt)

/-- A run of bytes that is read or written in one event (11 R267), at byte `off` of its unit. -/
structure Item where
  piece : Piece
  off : Nat
  deriving DecidableEq, Repr

/-- The items of a piece: elements, or the 32-bit words of a block format, of `step` bytes. -/
def Piece.items (p : Piece) (step off : Nat) : List Item :=
  (List.range ((p.len + step - 1) / step)).map (fun i =>
    { piece := { p with addr := p.addr + i * step, len := min step (p.len - i * step) }, off := off + i * step })

/-- The items of the pieces of a side, one after the other. -/
def itemsOf (step : Nat) : Nat → List Piece → List Item
  | _, [] => []
  | off, p :: ps => p.items step off ++ itemsOf step (off + p.len) ps

/-- The bytes of an item of a side. -/
def Slate.step (f : Slate) (srcSide : Bool) : Nat :=
  let fmt := if srcSide then f.sfmt else f.dfmt
  if isBlk fmt then 4 else max 1 (engBytes fmt)

/-- Replica `q` of a piece (13 R319): in window space the window it goes through, beside the piece. -/
def Slate.replica (f : Slate) (q : Nat) (p : Piece) : Except UnitErr Piece :=
  if f.kind ≠ 6 ∨ p.space = 3 then .ok p
  else
    match bytePiece p.space f.dst ((p.addr : Int) + f.rdelta * q) p.len with
    | .ok (x :: _) => .ok x
    | .ok [] => .ok p
    | .error e => .error e

/-! ## Conversion of a unit (13 R312) -/

/-- Bytes with the marks of uncorrectable errors. -/
abbrev Marked := List (Byte × Bool)

/-- Whether any byte is marked. -/
def Marked.bad (bs : Marked) : Bool := bs.any Prod.snd

/-- `n` marked bytes from an offset. -/
def Marked.sub (bs : Marked) (off n : Nat) : Marked := (bs.drop off).take n

/-- The blocks of a row of a block format: exponent, mantissas, and whether an error makes every element poison (04 R90 to R92). -/
def blkRow (fmt x0 : Nat) (bs : Marked) : List (Nat × List Nat × Bool) :=
  let n := (blockFmt fmt).getD 8
  let k := x0 / 32
  let es := scaleBlocks k none (markedNibbles (bs.drop (4 * n * k)))
  (List.range k).map (fun b =>
    let e := es.getD b (0xFF, true, false)
    let m := Marked.sub bs (4 * n * b) (4 * n)
    if e.2.2 || m.bad then (0xFF, List.replicate 32 1, true)
    else (e.1, if e.2.1 then List.replicate 32 0 else bqMants n (m.map Prod.fst), false))

/-- The bytes of a row of a block format from its blocks, with the canonical scale code (04 R93). After the end of
the code the row is filled with 0 up to its RBYTES: R91 does not say whether an engine writes those bytes (DESIGN CHOICE, log 41). -/
def blkBytes (fmt : Nat) (blocks : List (Nat × List Nat)) : List Byte :=
  let n := (blockFmt fmt).getD 8
  let mant := blocks.flatMap (fun b => toBytes ((b.2.zip (List.range 32)).foldl (fun t p => t + p.1 % 2 ^ n * 2 ^ (n * p.2)) 0) (4 * n))
  let codes := packNibbles (bqCodes none (blocks.map Prod.fst))
  mant ++ codes ++ List.replicate ((3 * blocks.length + 1) / 2 - codes.length) 0#8

/-- Element `i` of a unit's bytes. -/
def elemOf (fmt : Nat) (bs : Marked) (i : Nat) : Marked := Marked.sub bs (engBytes fmt * i) (engBytes fmt)

/-- The value of marked bytes. -/
def Marked.val (bs : Marked) : Nat := ofBytes (bs.map Prod.fst)

/-- The elements of a unit as exact values; one that met an error is poison. -/
def unitValues (fmt x0 : Nat) (bs : Marked) : List Fp :=
  if isBlk fmt then (blkRow fmt x0 bs).flatMap (fun b => b.2.1.map (bqValue ((blockFmt fmt).getD 8) b.1))
  else
    match ieeeOf fmt with
    | some q => (List.range (bs.length / max 1 (engBytes fmt))).map (fun i =>
        q.unpack (if (elemOf fmt bs i).bad then q.poison else (elemOf fmt bs i).val))
    | none => []

/-- Values cut into blocks of 32. -/
def chunks32 : Nat → List Fp → List (List Fp)
  | 0, _ => []
  | n + 1, xs => if xs.isEmpty then [] else xs.take 32 :: chunks32 n (xs.drop 32)

/-- The bytes that a unit writes, with the marks of raw elements that met an error. A copy between equal formats keeps the bits; a
block row takes the canonical scale code. -/
def convertUnit (f : Slate) (bs : Marked) : Marked :=
  if isBlk f.dfmt then
    let n := (blockFmt f.dfmt).getD 8
    let blocks := if f.sfmt = f.dfmt then (blkRow f.sfmt f.x0 bs).map (fun b => (b.1, b.2.1))
      else (chunks32 (f.x0 / 32) (unitValues f.sfmt f.x0 bs)).map (fun xs => let p := bqPack n xs; (p.1, p.2.1.map (fun m => wrapInt m n)))
    (blkBytes f.dfmt blocks).map (fun b => (b, false))
  else
    match ieeeOf f.dfmt with
    | some q =>
      let put := fun (v : Nat) => (toBytes v (engBytes f.dfmt)).map (fun b => (b, false))
      if f.sfmt = f.dfmt then
        (List.range (bs.length / max 1 (engBytes f.sfmt))).flatMap (fun i =>
          put (if (elemOf f.sfmt bs i).bad then q.poison else (elemOf f.sfmt bs i).val))
      else (unitValues f.sfmt f.x0 bs).flatMap (fun x => put (q.convert f.rm x).1)
    | none => bs

/-- The lowest element of a unit that met an error. -/
def firstBad (f : Slate) (bs : Marked) : Option Nat :=
  if isBlk f.sfmt then ((List.range (f.x0 / 32)).find? (fun b => ((blkRow f.sfmt f.x0 bs).getD b (0, [], false)).2.2)).map (fun b => 32 * b)
  else if bs.bad then (List.range f.per).find? (fun i => f.cas || (elemOf f.sfmt bs i).bad) else none

/-- The address of element `i` of unit `u` of the source, whose first piece is `p` (13 Table 4). -/
def elemAddr (f : Slate) (t : Option TileRef) (idx : Int) (u i : Nat) (p : Piece) : DWord :=
  match t with
  | some t =>
    let off := f.off true idx u * (if f.cas then 2 else 1)
    badAddr 1 f.src (if isBlk f.sfmt then ((baseElem f.src : Int) / max 1 t.cols + off) * t.cols + i else (baseElem f.src : Int) + off + i)
  | none => badAddr p.space f.src ((p.addr : Int) + (if isBlk f.sfmt then 4 * (blockFmt f.sfmt).getD 8 * (i / 32) else engBytes f.sfmt * i))

end Sys2Proof.Machine
end

