-- ==== Sys2Proof/Machine/Engine.lean ====
section
/-! DEFINITION. What a copy engine does with one unit of a command: reading the spaces, clearing, converting, writing, and sending
packets through fabric windows (13 R314 to R324; 15 R371 to R378; 16 R403; 17 R422). -/

namespace Sys2Proof.Machine

/-! ## Jobs -/

/-- A slate command in an engine context. -/
structure Job where
  c : Nat
  e : Nat
  x : Nat
  cmd : Cmd
  g : Group
  f : Slate
  deriving DecidableEq, Repr

/-- The slate command that a context holds. -/
def State.job (s : State) (c e x : Nat) : Option Job :=
  match ((s.core c).ctx e x).cmd with
  | none => none
  | some m =>
    match m.what, s.group? c m.gid with
    | .slate r, some g => some { c := c, e := e, x := x, cmd := m, g := g, f := slateOf r }
    | _, _ => none

/-- The context of a job. -/
def Job.ctx (j : Job) (s : State) : EngCtx := (s.core j.c).ctx j.e j.x

/-- The state with a job's context changed. -/
def Job.mod (j : Job) (s : State) (f : EngCtx → EngCtx) : State := s.modCtx j.c j.e j.x f

/-- Whose writes a job makes, with the unit written. -/
def Job.writer (j : Job) (u : Nat) : Writer := { core := j.c, gid := j.cmd.gid, cid := j.cmd.cid, unit := u }

/-- Whether unit `u` has been cleared. -/
def EngCtx.has (x : EngCtx) (winDst : Bool) (u : Nat) : Bool :=
  decide (u < x.pre) || x.wr.contains u || (Tab.get? x.vals u).isSome || (winDst && decide (u < x.sent))

/-- The first number from `n` on that a rising list does not hold. -/
def firstGap (n : Nat) : List Nat → Nat
  | [] => n
  | k :: t => if k = n then firstGap (n + 1) t else if k < n then firstGap n t else n

/-- The number of units that are cleared together with all before them. -/
def EngCtx.cleared (x : EngCtx) (winDst : Bool) : Nat :=
  firstGap (if winDst then max x.pre x.sent else x.pre) (x.wr.foldl insertNat (x.vals.map Prod.fst))

/-- The leading cleared units of a job. -/
def Job.cleared (j : Job) (s : State) : Nat := (j.ctx s).cleared (j.f.ds == 3)

/-! ## Fabric windows (15 R372; 16 R403) -/

/-- A window that a command uses, as it first read it; the entry is kept for the command. -/
def State.useWindow (s : State) (c e x asid n : Nat) : State × Window :=
  match Tab.get? ((s.core c).ctx e x).windows n with
  | some w => (s, { lo := w.1, hi := w.2 })
  | none =>
    let w := s.window asid n
    (s.modCtx c e x (fun k => { k with windows := Tab.set k.windows n (w.lo, w.hi) }), w)

/-- The right that a use of a window needs: 0 to read, 1 to write, 2 for an atomic element or a flag. -/
def Window.allows (w : Window) (right : Nat) : Bool := if right = 0 then w.rd else if right = 1 then w.wr else w.atm

/-- Whether an access through a window is allowed. -/
def Window.ok (w : Window) (right off n : Nat) : Bool := w.valid && w.allows right && decide (off + n ≤ w.len)

/-- The window ID of replica `q` of a job's destination; of its source where that is a window. -/
def Job.windowId (j : Job) (q : Nat) : Nat := (if j.f.ss = 3 then bitsOf j.f.src 63 56 else bitsOf j.f.dst 63 56) + q

/-! ## Streams (15 R371, R375, R377, R378) -/

/-- The route to a device. -/
def State.route (s : State) (dev : Nat) : Route := Tab.getD s.pkg.routes dev Route.reset

/-- The port that a route uses now; 0x1F where the device cannot be reached. -/
def Route.port (r : Route) : Nat :=
  if !r.pf || r.second == 0x1F then r.primary else if !r.sf then r.second else if r.alt then r.second else r.primary

/-- The bytes of retry buffer that a port holds. -/
def State.retryUsed (s : State) (port : Nat) : Nat :=
  ((s.pkg.streams.filter (fun p => (s.route (p.1 / 4)).port == port)).flatMap (fun p => p.2.unacked.map (fun o => 64 * o.flits))).sum

/-- Whether the streams of one class to some devices, a device once for each of its replicas, may all send `n` more packets: room in
each stream and in each port's retry buffer, request credits, and no other command in the middle of its packets (15 R371, R375; 13 R319). A
retry buffer counts as full when it has not 320 bytes, the largest packet, for each of them (DESIGN CHOICE, log 26). -/
def State.streamsReady (s : State) (who : Nat × Nat × Nat × Nat) (devs : List Nat) (tc n : Nat) : Bool :=
  let port := fun d => (s.route d).port
  devs.all (fun d =>
    let t := s.stream d tc
    decide (t.unacked.length + n * devs.count d ≤ 1024) &&
    decide (s.retryUsed (port d) + 320 * n * (devs.filter (fun x => port x == port d)).length ≤ 2 ^ 21) &&
    !(s.pkg.dry.contains (port d, tc)) && (match t.owner with | some o => o == who | none => true))

/-- The state with a stream changed. -/
def State.modStream (s : State) (dev tc : Nat) (f : Stream → Stream) : State :=
  s.modPkg (fun p => { p with streams := Tab.set p.streams (4 * dev + tc) (f (s.stream dev tc)) })

/-- A request with its number. -/
def Request.numbered (i : Request) (q : BitVec 32) : Request :=
  match i with
  | .write p => .write { p with q := q }
  | .read p => .read { p with q := q }
  | .atomic p => .atomic { p with q := q }
  | .flag p => .flag { p with q := q }
  | .coll p => .coll { p with q := q }

/-- Requests put on the port of the route to a device (15 R371, R377). -/
def State.transmit (s : State) (dev : Nat) (is : List Request) : State :=
  { s with out := { s.out with sent := s.out.sent ++ is.map (fun i => ((s.route dev).port, i)) } }

/-- A packet sent on a stream, with the number `q` of a reissue or the stream's next; the number it took. It stays in the retry
buffer. -/
def State.sendPacket (s : State) (dev tc : Nat) (replay : Option (BitVec 32)) (o : OutPacket) : State × BitVec 32 :=
  let t := s.stream dev tc
  let q := replay.getD t.next
  let now := s.ucycle.toNat
  let o1 := { o with q := q, born := now, body := o.body.numbered q }
  ((s.modStream dev tc (fun t => { t with
     next := if replay.isNone then t.next + 1 else t.next
     drawn := if replay.isNone then t.drawn + 1 else t.drawn
     unacked := t.unacked ++ [o1]
     ackAt := if t.unacked.isEmpty then now else t.ackAt })).transmit dev [o1.body], q)

/-- The flits of a packet that carries `n` bytes. -/
def flitsOf (n : Nat) : Nat := 1 + (n + 63) / 64

/-- The unacknowledged packets of a command in a context. -/
def State.packetsOf (s : State) (c e x cid : Nat) : List OutPacket :=
  s.pkg.streams.flatMap (fun p => p.2.unacked.filter (fun o => o.core == c && o.eng == e && o.ctx == x && o.cid == cid))

/-- Whether a packet has been unacknowledged for the initiator's limit, which is in ns (15 R378). -/
def State.overdue (s : State) (o : OutPacket) : Bool := decide (s.pkg.ftimeout.toNat * 33 ≤ (s.ucycle.toNat - o.born) * 10)

/-- The streams that a command holds are free for other commands. -/
def State.releaseStreams (s : State) (who : Nat × Nat × Nat × Nat) : State :=
  s.modPkg (fun p => { p with streams := Tab.mapVal p.streams (fun _ t => if t.owner = some who then { t with owner := none } else t) })

/-- A job as the owner of a stream. -/
def Job.who (j : Job) : Nat × Nat × Nat × Nat := (j.c, j.e, j.x, j.cmd.cid)

/-- A job's packet: numbered from FSEQ on a stream when it is a reissue (15 R378), otherwise consecutive on a stream that it holds
(R375). -/
def Job.send (j : Job) (s : State) (dev kind u count off flits : Nat) (body : Request) : State :=
  let k := j.ctx s
  let key := 4 * dev + j.f.tc
  let n := Tab.getD k.sentOn key 0
  let r := s.sendPacket dev j.f.tc (if j.f.replay then some (BitVec.ofNat 32 (j.f.fseq + n)) else none)
    { q := 0, core := j.c, eng := j.e, ctx := j.x, cid := j.cmd.cid, unit := u, count := count, off := off, kind := kind, flits := flits, born := 0
      body := body, stale := false }
  let s1 := if j.f.replay then r.1 else r.1.modStream dev j.f.tc (fun t => { t with owner := some j.who })
  j.mod s1 (fun x => { x with sentOn := Tab.set x.sentOn key (n + 1), fseq := x.fseq <|> some r.2.toNat })

/-! ## Tokens (17 R422) -/

/-- Whether an access to a piece enters the on-die network. -/
def Piece.net (p : Piece) (t : Option TileRef) : Bool :=
  match t with
  | some t => t.lvl
  | none => p.space != 2

/-- A context asks its core's port for one more request. -/
def State.askPort (s : State) (c e x qos : Nat) : State :=
  if ((s.core c).ctx e x).asked then s
  else (s.modCtx c e x (fun k => { k with asked := true })).modCore c (fun k =>
    { k with port := { k.port with waiting := k.port.waiting ++ [(qos, e, x)] } })

/-- A context spends a request that passed the port; none where it has none. -/
def State.spend (s : State) (c e x n : Nat) : Option State :=
  if ((s.core c).ctx e x).grants < n then none else some (s.modCtx c e x (fun k => { k with grants := k.grants - n }))

/-! ## Reading the spaces (13 R314, R315; 10 R249, R258, R264) -/

/-- The size of the largest aligned access of at most 8 bytes at an address. -/
def chunkSize (a n : Nat) : Nat := if a % 8 = 0 ∧ 8 ≤ n then 8 else if a % 4 = 0 ∧ 4 ≤ n then 4 else if a % 2 = 0 ∧ 2 ≤ n then 2 else 1

/-- Whether a run of local bytes may be accessed, in aligned chunks. -/
def localRunOk (k : Core) (gid : Nat) (g : Group) : Nat → Nat → Nat → Bool
  | 0, _, n => n == 0
  | fuel + 1, a, n =>
    if n = 0 then true
    else
      let m := chunkSize a n
      localOk k gid g a m true && localRunOk k gid g fuel (a + m) (n - m)

/-- A piece of a local space is allowed. -/
def localPieceOk (k : Core) (gid : Nat) (g : Group) (p : Piece) : Bool :=
  decide (p.addr + p.len ≤ g.scrSize) || localRunOk k gid g p.len p.addr p.len

/-- `n` bytes of a tile from byte `off` of it, with their marks: in the tile store, or in die staging. -/
def tileRead (s : State) (c : Nat) (t : TileRef) (off n : Nat) : Marked :=
  if t.lvl then
    let d := s.die (dieOf c)
    (List.range n).map (fun i => (Memory.read d.staging (t.addr + off + i), d.stagePoison.contains ((t.addr + off + i) / 8)))
  else tileBytes (s.core c) (t.addr + off) n

/-- The failure that a refused access of device memory means (13 R322). -/
def memUnit (e : MemErr) (va : Nat) (wr index : Bool) : UnitErr :=
  match e with
  | .notValid => .suspend va wr index
  | .perm => .fail 0x11 (BitVec.ofNat 64 va) 0
  | .misplaced => .fail 0x12 (BitVec.ofNat 64 va) 0

/-- Bytes of device memory read by die `x` a line at a time. -/
def State.readVa (s : State) (x asid : Nat) (index : Bool) : Nat → Nat → Nat → State × Except UnitErr Marked
  | 0, _, _ => (s, .ok [])
  | fuel + 1, va, n =>
    if n = 0 then (s, .ok [])
    else
      let m := min n (128 - va % 128)
      let r := s.readDev x asid va m
      match r.2 with
      | .error e => (r.1, .error (memUnit e va false index))
      | .ok b =>
        let t := r.1.readVa x asid index fuel (va + m) (n - m)
        match t.2 with
        | .error e => (t.1, .error e)
        | .ok bs => (t.1, .ok (b ++ bs))

/-- The bytes of one piece of a job's source; what a window holds comes with the answers to its packets. -/
def State.readPiece (s : State) (j : Job) (t : Option TileRef) (index : Bool) (p : Piece) : State × Except UnitErr Marked :=
  match t with
  | some t => (s, .ok (tileRead s j.c t p.addr p.len))
  | none =>
    if p.space = 2 then
      let k := s.core j.c
      if localPieceOk k j.cmd.gid j.g p then (s, .ok ((List.range p.len).map (fun i => (localByte k j.g (p.addr + i), localPoison k j.g (p.addr + i)))))
      else (s, .error (.fail 0x13 (BitVec.ofNat 64 p.addr) 2))
    else if p.space = 4 then (s, .ok ((Memory.readN s.pkg.comp p.addr p.len).map (fun b => (b, false))))
    else if p.space = 3 then (s, .ok (List.replicate p.len (0#8, false)))
    else s.readVa (dieOf j.c) j.g.asid index (p.len + 1) p.addr p.len

/-- The bytes of the pieces of a source. -/
def State.readPieces (s : State) (j : Job) (t : Option TileRef) : List Piece → State × Except UnitErr Marked
  | [] => (s, .ok [])
  | p :: ps =>
    let r := s.readPiece j t false p
    match r.2 with
    | .error e => (r.1, .error e)
    | .ok b =>
      let q := r.1.readPieces j t ps
      match q.2 with
      | .error e => (q.1, .error e)
      | .ok bs => (q.1, .ok (b ++ bs))

/-- The link that a die reaches companion memory by, if one is up: link 0 from D0 and D1, link 1 from D2 and D3, and the other while
that one is not (10 R258; 18 R439). -/
def State.compLink (s : State) (d : Nat) : Option Nat :=
  let up := fun (l : Nat) => Tab.getD s.pkg.links l LinkState.down == .up
  let own := d / 2
  if up own then some own else if up (1 - own) then some (1 - own) else none

/-! ## Clearing a unit (13 R321) -/

/-- Whether a write at a VA would be allowed: a home line with TV and W = 1 needs no translation (16 R389), and one without TV whose
translation does not serve the write is dropped (R408). -/
def State.mayWrite (s : State) (asid va : Nat) : State × Option MemErr :=
  match ((s.die (homeOf va)).homeLine asid (va / 128)).filter (fun h => h.tv && h.w) with
  | some _ => (s, none)
  | none =>
    let r := s.translateFor asid va
    let drop := r.1.modDie (homeOf va) (fun k => k.dropHome asid (va / 128))
    match r.2 with
    | .error e => (r.1, some e)
    | .ok t => if !(paOk (leafPa t va)) then (drop, some .misplaced) else if pteW t then (r.1, none) else (drop, some .perm)

/-- Every page of [va, va + n) translated for writing. -/
def State.mayWriteSpan (s : State) (asid : Nat) : Nat → Nat → Nat → State × Option UnitErr
  | 0, _, _ => (s, none)
  | fuel + 1, va, n =>
    if n = 0 then (s, none)
    else
      let r := s.mayWrite asid va
      match r.2 with
      | some e => (r.1, some (memUnit e va true false))
      | none =>
        let m := min n (65536 - va % 65536)
        r.1.mayWriteSpan asid fuel (va + m) (n - m)

/-- Whether a piece may be written: `right` is the window right that a window needs. -/
def State.checkPiece (s : State) (j : Job) (t : Option TileRef) (q right : Nat) (p : Piece) : State × Option UnitErr :=
  match t with
  | some _ => (s, none)
  | none =>
    if p.space = 2 then (s, if localPieceOk (s.core j.c) j.cmd.gid j.g p then none else some (.fail 0x13 (BitVec.ofNat 64 p.addr) 2))
    else if p.space = 3 then
      let id := j.windowId q
      let addr := BitVec.ofNat 64 (id % 256 * 2 ^ 56 + p.addr)
      if 255 < id then (s, some (.fail 0x13 addr 3))
      else
        let r := s.useWindow j.c j.e j.x j.g.asid id
        (r.1, if r.2.ok right p.addr p.len then none else some (.fail 0x13 addr 3))
    else if p.space = 4 then (s, none)
    else s.mayWriteSpan j.g.asid (p.len / 65536 + 2) p.addr p.len

/-- Every piece of a list checked. -/
def State.checkPieces (s : State) (j : Job) (t : Option TileRef) (q right : Nat) : List Piece → State × Option UnitErr
  | [] => (s, none)
  | p :: ps =>
    let r := s.checkPiece j t q right p
    match r.2 with
    | some e => (r.1, some e)
    | none => r.1.checkPieces j t q right ps

/-- The index of a unit of a gather or scatter (13 R315): 0 for other kinds, none where its entry met an error. -/
def State.indexOf (s : State) (j : Job) (u : Nat) : State × Except UnitErr (Option Int) :=
  if j.f.kind ≠ 1 ∧ j.f.kind ≠ 2 then (s, .ok (some 0))
  else
    let sp := if j.f.iloc then 2 else 0
    match bytePiece sp j.f.aux0 ((baseByte sp j.f.aux0 : Int) + j.f.row u * j.f.isz) j.f.isz with
    | .error e => (s, .error e)
    | .ok ps =>
      match ps with
      | [] => (s, .ok (some 0))
      | p :: _ =>
        let r := s.readPiece j none true p
        match r.2 with
        | .error e => (r.1, .error e)
        | .ok b =>
          let v := Marked.val b
          if Marked.bad b then (r.1, .ok none)
          else if j.f.ilim ≠ 0 ∧ j.f.ilim ≤ v then (r.1, .error (.fail 0x14 (BitVec.ofNat 64 p.addr) sp))
          else (r.1, .ok (some (sextNat v (8 * j.f.isz))))

/-- Where a unit reads and writes. -/
structure Place where
  idx : Int
  badIdx : Bool
  src : List Piece
  dst : List (List Piece)
  ret : List Piece

/-- The destination pieces of every replica. -/
def replicas (f : Slate) (ps : List Piece) : Nat → Nat → Except UnitErr (List (List Piece))
  | 0, _ => .ok []
  | n + 1, q =>
    match ps.mapM (f.replica q), replicas f ps n (q + 1) with
    | .ok a, .ok b => .ok (a :: b)
    | .error e, _ => .error e
    | _, .error e => .error e

/-- The places of unit `u`, by its index. A scatter whose index met an error has no destination. -/
def Job.place (j : Job) (idx : Option Int) (u : Nat) : Except UnitErr Place :=
  let i := idx.getD 0
  let lost := idx.isNone
  match (if lost ∧ j.f.kind = 1 then .ok [] else j.f.side true j.cmd.src i u),
        (if lost ∧ j.f.kind = 2 then .ok [] else j.f.side false j.cmd.dst i u) with
  | .error e, _ => .error e
  | _, .error e => .error e
  | .ok ps, .ok qs =>
    match replicas j.f qs (if j.f.kind = 6 then j.f.reps else 1) 0, (if j.f.kind = 3 ∧ j.f.ret then j.f.retSide i u else .ok []) with
    | .ok ds, .ok rs => .ok { idx := i, badIdx := lost, src := ps, dst := ds, ret := rs }
    | .error e, _ => .error e
    | _, .error e => .error e

/-- Whether a command has an index list (13 R315). -/
def Job.indexed (j : Job) : Bool := j.f.kind == 1 || j.f.kind == 2

/-- The place of a unit: by the index that the command has read, or reads now. -/
def State.placeOf (s : State) (j : Job) (u : Nat) : State × Except UnitErr Place :=
  match if j.indexed then Tab.get? (j.ctx s).idx (j.f.row u) else some (some 0) with
  | some i => (s, j.place i u)
  | none =>
    let r := s.indexOf j u
    match r.2 with
    | .error e => (r.1, .error e)
    | .ok i => (r.1, j.place i u)

/-- The right that a job needs of its windows. -/
def Job.right (j : Job) : Nat := if j.f.ss = 3 then 0 else if j.f.atomic then 2 else 1

/-- Every replica of a destination checked, and the return place. -/
def State.checkPlace (s : State) (j : Job) (pl : Place) : State × Option UnitErr :=
  let r := (pl.dst.zip (List.range pl.dst.length)).foldl (fun (t : State × Option UnitErr) p =>
    match t.2 with
    | some e => (t.1, some e)
    | none => t.1.checkPieces j j.cmd.dst p.2 j.right p.1) (s, none)
  match r.2 with
  | some e => (r.1, some e)
  | none => r.1.checkPieces j none 0 1 pl.ret

/-- The address of a job's flag (KIND 4), checked with its first unit. -/
def State.checkFlag (s : State) (j : Job) : State × Option UnitErr :=
  if j.f.kind ≠ 4 then (s, none)
  else
    let id := bitsOf j.f.aux1 63 56
    let r := s.useWindow j.c j.e j.x j.g.asid id
    (r.1, if r.2.ok 2 (bitsOf j.f.aux1 51 0) 8 then none else some (.fail 0x13 (BitVec.ofNat 64 j.f.aux1) 3))

/-- A job that writes through a handle that its task only reads fails at its first element (14 R346). -/
def Job.denied (j : Job) : Option UnitErr :=
  if j.cmd.dstTaskRead then some (.fail 0x13 (BitVec.ofNat 64 j.f.dst) 1) else none

/-- What clearing a unit gives: what it will write, and where its lowest element met an error. -/
structure Cleared where
  elem : Elem
  bad : Option (Nat × DWord × Nat)

/-- The positions of marked bytes. -/
def Marked.marks (bs : Marked) : List Nat := ((bs.zip (List.range bs.length)).filter (fun p => p.1.2)).map Prod.snd

/-- A unit as its destination takes it. -/
def Marked.elem (bs : Marked) : Elem := { bytes := bs.map Prod.fst, bad := bs.marks }

/-- The bytes of a unit whose index met an error: every element is poison. -/
def lostUnit (f : Slate) : Marked := (List.range (engBytes f.sfmt)).map (fun _ => (0#8, true))

/-- A unit whose source bytes have been read: its index may have met an error. -/
def Job.clearBytes (j : Job) (pl : Place) (u : Nat) (b : Marked) : Cleared :=
  let m := if pl.badIdx && j.f.kind == 1 then lostUnit j.f else b
  let out := if j.f.cas then m else convertUnit j.f m
  let first : Option (Nat × DWord × Nat) :=
    if pl.badIdx then
      let sp := if j.f.iloc then 2 else 0
      some (j.f.row u * j.f.x0, BitVec.ofNat 64 (baseByte sp j.f.aux0 + j.f.row u * j.f.isz), sp)
    else
      match firstBad j.f m, pl.src with
      | some i, p :: _ => some (u * j.f.per + i, elemAddr j.f j.cmd.src pl.idx u i p, j.f.ss)
      | _, _ => none
  { elem := Marked.elem out, bad := first }

/-- What keeps unit `u` from being cleared now (13 R321): its index and source are read, its destination translated. Sources in window
space are cleared by the answers to their packets instead. -/
def State.clearUnit (s : State) (j : Job) (u : Nat) : State × Option UnitErr :=
  match j.denied with
  | some e => (s, some e)
  | none =>
    let p := s.placeOf j u
    match p.2 with
    | .error e => (p.1, some e)
    | .ok pl =>
      let r := p.1.readPieces j j.cmd.src pl.src
      match r.2 with
      | .error e => (r.1, some e)
      | .ok _ => r.1.checkPlace j pl

/-- The lower of two noted elements. -/
def lowerBad (a b : Option (Nat × DWord × Nat)) : Option (Nat × DWord × Nat) :=
  match a, b with
  | none, b => b
  | a, none => a
  | some x, some y => if y.1 < x.1 then some y else some x

/-- A cleared unit put into its context. -/
def Job.store (j : Job) (s : State) (u : Nat) (r : Cleared) : State :=
  j.mod s (fun x => { x with vals := Tab.set x.vals u r.elem, parts := x.parts.filter (fun p => p.1 != u), poisonAt := lowerBad x.poisonAt r.bad })

/-- What a context holds of units from `u` on is dropped: it is read afresh, if at all (13 R325, R328). -/
def EngCtx.dropFrom (x : EngCtx) (row u : Nat) : EngCtx :=
  { x with
    vals := x.vals.filter (fun p => decide (p.1 < u)), parts := x.parts.filter (fun p => decide (p.1 < u)), olds := x.olds.filter (fun p => decide (p.1 < u))
    done := x.done.filter (fun p => decide (p.1 < u)), paid := x.paid.filter (fun p => decide (p.2.1 < u)), idx := x.idx.filter (fun p => decide (p.1 < row)) }

/-- The command fails at unit `u`, unless it has failed below it: what had been read beyond is dropped (13 R328). -/
def Job.failAt (j : Job) (s : State) (u status : Nat) (addr : DWord) (space : Nat) : State :=
  j.mod s (fun x =>
    let y := { x.dropFrom (j.f.row u) u with phase := .failed status u addr space }
    match x.phase with
    | .failed _ v _ _ => if u < v then y else x
    | _ => y)

/-- A unit could not be cleared: the command fails if it is the lowest; a missing page waits for the event that suspends. -/
def Job.stuck (j : Job) (s : State) (u : Nat) (e : UnitErr) : State :=
  match e with
  | .fail st a sp => if j.cleared s = u then j.failAt s u st a sp else s
  | .suspend _ _ _ => s

/-- Whether a job's reads, or writes, can be served: companion memory needs a link. -/
def Job.servable (j : Job) (s : State) (wr : Bool) : Bool := (if wr then j.f.ds else j.f.ss) != 4 || (s.compLink (dieOf j.c)).isSome

/-- Whether a context still wants unit `u`: it runs, or it has failed at a later one. -/
def EngCtx.wants (x : EngCtx) (u : Nat) : Bool :=
  match x.phase with
  | .running => true
  | .failed _ v _ _ => decide (u < v)
  | _ => false

/-- A unit that goes to another die of a multicast, or an item on its own (11 R267; 15 R370). -/
inductive WriteTo where
  | here (it : Item)
  | die (d : Nat)

/-- The items of a place's destinations. -/
def Job.dstItems (j : Job) (pl : Place) : List Item := pl.dst.flatMap (itemsOf (j.f.step false) 0)

/-- What the writing of a unit is made of, in no order (11 R273, R284): the items of its destination; for a multicast to device memory
those on the posting die, and one packet to each other die that holds replicas (15 R370). -/
def Job.targets (j : Job) (pl : Place) : List WriteTo :=
  let its := j.dstItems pl
  if j.f.kind = 6 ∧ j.f.ds = 0 then
    let own := dieOf j.c
    ((its.filter (fun i => homeOf i.piece.addr == own)).map WriteTo.here) ++
    (([0, 1, 2, 3].filter (fun d => d != own && its.any (fun i => homeOf i.piece.addr == d))).map WriteTo.die)
  else its.map WriteTo.here

/-- The items of a unit's source. -/
def Job.srcItems (j : Job) (pl : Place) : List Item := itemsOf (j.f.step true) 0 pl.src

/-- The piece of item `i` of unit `u`, if it is still to be read, or written. -/
def Job.itemAt (j : Job) (s : State) (wr : Bool) (u i : Nat) : Option Piece :=
  let x := j.ctx s
  if j.f.units ≤ u || (j.indexed && (Tab.get? x.idx (j.f.row u)).isNone) then none
  else
    match (s.placeOf j u).2 with
    | .error _ => none
    | .ok pl =>
      if wr then
        if (Tab.get? x.vals u).isNone || decide (j.cleared s ≤ u) || x.done.contains (u, i) then none
        else match (j.targets pl)[i]? with | some (.here it) => some it.piece | _ => none
      else if x.has (j.f.ds == 3) u then none
      else
        match (j.srcItems pl)[i]? with
        | some it => if x.parts.any (fun p => p.1 == u && p.2.1 == it.off) then none else some it.piece
        | none => none

/-- The items that follow piece `p` within its 128 bytes, from item `i` of unit `u` on: the request for `p` carries them too (17 R422). -/
def Job.covers (j : Job) (s : State) (wr : Bool) : Nat → Nat → Nat → Piece → List (Bool × Nat × Nat)
  | 0, _, _, _ => []
  | n + 1, u, i, p =>
    let next := fun (q : Piece) => q.space == p.space && q.addr == p.addr + p.len && p.addr / 128 == (q.addr + q.len - 1) / 128
    match j.itemAt s wr u i with
    | some q => if next q then (wr, u, i) :: j.covers s wr n u (i + 1) q else []
    | none =>
      match j.itemAt s wr (u + 1) 0 with
      | some q => if next q then (wr, u + 1, 0) :: j.covers s wr n (u + 1) 1 q else []
      | none => []

/-- An item's place in a request: one that has passed the port carries it, or another request is spent; none where there is none. -/
def Job.pay (j : Job) (s : State) (wr : Bool) (u i : Nat) (p : Piece) (t : Option TileRef) : Option State :=
  if !(p.net t) then some s
  else if (j.ctx s).paid.contains (wr, u, i) then some (j.mod s (fun x => { x with paid := x.paid.erase (wr, u, i) }))
  else
    match s.spend j.c j.e j.x 1 with
    | none => none
    | some s1 => some (j.mod s1 (fun x => { x with paid := x.paid ++ j.covers s wr 128 u (i + 1) p }))

/-- An uncorrectable error met in a core's memory by a command, counted (09 R223, R242). -/
def State.countRead (s : State) (c : Nat) (t : Option TileRef) (p : Piece) (b : Marked) : State :=
  if !(Marked.bad b) then s
  else
    match t with
    | some t => if t.lvl then s else s.uncorrectable c 0x05
    | none => if p.space = 2 then s.uncorrectable c (localUnit p.addr) else s

/-- The row of the index list that unit `u` needs is read (13 R315). -/
def Job.readIndex (j : Job) (s : State) (u : Nat) : State :=
  match if j.f.iloc then some s else s.spend j.c j.e j.x 1 with
  | none => s.askPort j.c j.e j.x j.f.qos
  | some s1 =>
    let r := s1.indexOf j u
    match r.2 with
    | .error e => j.stuck r.1 u e
    | .ok i =>
      let p : Piece := { space := if j.f.iloc then 2 else 0, addr := bitsOf j.f.aux0 31 0 + j.f.row u * j.f.isz, len := 0 }
      let s2 := if i.isNone then r.1.countRead j.c none p [(0#8, true)] else r.1
      j.mod s2 (fun x => { x with idx := Tab.set x.idx (j.f.row u) i })

/-- A unit whose source has been read is cleared once its destination may be written. -/
def Job.clear (j : Job) (s : State) (pl : Place) (u : Nat) (b : Marked) : State :=
  let fl := if u = 0 then s.checkFlag j else (s, none)
  let k := match fl.2 with | some e => (fl.1, some e) | none => fl.1.checkPlace j pl
  match k.2 with
  | some e => j.stuck (j.mod k.1 (fun x => { x with parts := x.parts.filter (fun p => p.1 != u) })) u e
  | none => j.store k.1 u (j.clearBytes pl u b)

/-- What has been read of a unit, its items one after the other; none while one is missing. -/
def EngCtx.whole (x : EngCtx) (u : Nat) (its : List Item) : Option Marked :=
  its.foldl (fun (t : Option Marked) it =>
    match t, x.parts.find? (fun p => p.1 == u && p.2.1 == it.off) with
    | some bs, some p => some (bs ++ (p.2.2.bytes.zipIdx.map (fun b => (b.1, p.2.2.bad.contains b.2))))
    | _, _ => none) (some [])

/-- Item `i` of unit `u` is read; the last one clears the unit. -/
def Job.readItem (j : Job) (s : State) (pl : Place) (u i : Nat) : State :=
  let its := j.srcItems pl
  match its[i]? with
  | none => if its.isEmpty then j.clear s pl u [] else s
  | some it =>
    if (j.ctx s).parts.any (fun p => p.1 == u && p.2.1 == it.off) then s
    else
      match j.pay s false u i it.piece j.cmd.src with
      | none => s.askPort j.c j.e j.x j.f.qos
      | some s1 =>
        let r := s1.readPiece j j.cmd.src false it.piece
        match r.2 with
        | .error e => j.stuck r.1 u e
        | .ok b =>
          let s2 := j.mod (r.1.countRead j.c j.cmd.src it.piece b) (fun x => { x with parts := x.parts ++ [(u, it.off, Marked.elem b)] })
          match (j.ctx s2).whole u its with
          | some bs => j.clear s2 pl u bs
          | none => s2

/-- The engine reads item `i` of unit `u` of a command, or the index that the unit needs. -/
def Job.read (j : Job) (s : State) (u i : Nat) : State :=
  let x := j.ctx s
  let now := if j.f.ds = 3 then x.sent else x.pre
  if !(x.wants u) || decide (j.f.units ≤ u) || x.has (j.f.ds == 3) u || !j.servable s false ||
     (j.indexed && decide (j.f.row now + 4 * 2 ^ j.f.look < j.f.row u)) then s
  else
    match j.denied with
    | some e => j.stuck s u e
    | none =>
      if j.indexed && (Tab.get? x.idx (j.f.row u)).isNone then j.readIndex s u
      else
        match (s.placeOf j u).2 with
        | .error e => j.stuck s u e
        | .ok pl => j.readItem s pl u i

/-! ## Writing (13 R317 to R319) -/

/-- The mark of an uncorrectable error put on the word of local address `a`. -/
def localPoisonAt (k : Core) (g : Group) (a : Nat) : Core :=
  match localPlace g a with
  | some (.scratch p) => { k with scratchPoison := insertNat k.scratchPoison (p / 4) }
  | some (.window slot reg lane _) =>
    match Tab.get? k.warps slot with
    | none => k
    | some w => { k with warps := Tab.set k.warps slot { w with regPoison := (reg, lane) :: (w.regPoison.filter (· != (reg, lane))) } }
  | none => k

/-- Bytes of an element written at a local address in one event, with its tags when SETFULL is set (13 R318). -/
def State.writeLocal (s : State) (c : Nat) (g : Group) (a : Nat) (e : Elem) (full : Bool) : State :=
  s.modCore c (fun k =>
    let k1 := localWrite k g (withAddrs a e.bytes)
    let k2 := e.bad.foldl (fun k i => localPoisonAt k g (a + i)) k1
    if full && decide (a + e.bytes.length ≤ g.scrSize) then setTags k2 (wordsCovered g a e.bytes.length) true else k2)

/-- Poison marks of 64-bit units after a write of `n` bytes at `a` whose marked bytes are `bad`: a unit covered whole loses its old
mark. -/
def unitMarks (marks : List Nat) (a n : Nat) (bad : List Nat) : List Nat :=
  let kept := marks.filter (fun u => !(decide (a ≤ 8 * u) && decide (8 * u + 8 ≤ a + n)))
  bad.foldl (fun l i => insertNat l ((a + i) / 8)) kept

/-- Bytes written into a tile. -/
def State.writeTileBytes (s : State) (c : Nat) (t : TileRef) (off : Nat) (e : Elem) : State :=
  let a := t.addr + off
  if t.lvl then
    s.modDie (dieOf c) (fun d => { d with staging := Memory.writeN d.staging a e.bytes, stagePoison := unitMarks d.stagePoison a e.bytes.length e.bad })
  else
    s.modCore c (fun k => { k with tileMem := Memory.writeN k.tileMem a e.bytes, tilePoison := unitMarks k.tilePoison a e.bytes.length e.bad })

/-- The part of an element that `n` bytes from `off` are. -/
def Elem.part (e : Elem) (off n : Nat) : Elem :=
  { bytes := (e.bytes.drop off).take n, bad := (e.bad.filter (fun i => decide (off ≤ i) && decide (i < off + n))).map (fun i => i - off) }

/-- Bytes written to device memory from die `x`, a line at a time. -/
def State.writeVa (s : State) (x asid : Nat) (who : Writer) : Nat → Nat → Elem → State × Option MemErr
  | 0, _, _ => (s, none)
  | fuel + 1, va, e =>
    if e.bytes.isEmpty then (s, none)
    else
      let m := min e.bytes.length (128 - va % 128)
      let p := e.part 0 m
      let r := s.writeDev x asid va p.bytes (!p.bad.isEmpty) who
      match r.2 with
      | some err => (r.1, some err)
      | none => r.1.writeVa x asid who fuel (va + m) (e.part m (e.bytes.length - m))

/-- A piece of an element written. -/
def State.writePiece (s : State) (j : Job) (t : Option TileRef) (u : Nat) (p : Piece) (e : Elem) (full : Bool) : State × Option MemErr :=
  match t with
  | some t => (s.writeTileBytes j.c t p.addr e, none)
  | none =>
    if p.space = 2 then (s.writeLocal j.c j.g p.addr e full, none)
    else if p.space = 4 then (s.modPkg (fun k => { k with comp := Memory.writeN k.comp p.addr e.bytes }), none)
    else s.writeVa (dieOf j.c) j.g.asid (j.writer u) (p.len + 1) p.addr e

/-- An element spread over the pieces of its destination. -/
def State.writePieces (s : State) (j : Job) (t : Option TileRef) (u : Nat) (full : Bool) : List Piece → Elem → State × Option MemErr
  | [], _ => (s, none)
  | p :: ps, e =>
    let r := s.writePiece j t u p (e.part 0 p.len) full
    match r.2 with
    | some err => (r.1, some err)
    | none => r.1.writePieces j t u full ps (e.part p.len (e.bytes.length - p.len))

/-- The packet of a multicast that crosses the gateway to die `d` (15 R370). -/
def State.multicast (s : State) (j : Job) (u d : Nat) (its : List Item) (e : Elem) : State :=
  let far := its.filter (fun i => homeOf i.piece.addr == d)
  (s.modDie d (fun k => { k with mcast := k.mcast ++ [{
    src := dieOf j.c, dst := d, asid := j.g.asid, data := e, vas := far.map (fun i => (i.piece.addr, i.off, i.piece.len))
    core := j.c, gid := j.cmd.gid, cid := j.cmd.cid, unit := u, buffered := false }] })).countDie (dieOf j.c) 0x4A e.bytes.length

/-- Unit `u` is written. -/
def EngCtx.wrote (x : EngCtx) (u : Nat) : EngCtx :=
  let w := insertNat x.wr u
  let rec go : Nat → Nat → List Nat → Nat × List Nat
    | 0, p, l => (p, l)
    | n + 1, p, l => if l.contains p then go n (p + 1) (l.filter (· != p)) else (p, l)
  let r := go w.length x.pre w
  { x with vals := Tab.erase x.vals u, olds := Tab.erase x.olds u, done := x.done.filter (fun p => p.1 != u), pre := r.1, wr := r.2 }

/-- Bytes that an engine wrote, counted. -/
def State.countWritten (s : State) (c n : Nat) : State := s.countCore c 0x0D n

/-- READ packets for units from `u` on are no longer waited for: what answers them is not used (13 R325). -/
def Job.staleReads (j : Job) (s : State) (u : Nat) : State :=
  s.modPkg (fun p => { p with streams := Tab.mapVal p.streams (fun _ t => { t with unacked := t.unacked.map (fun o =>
    if o.kind == 1 && o.core == j.c && o.eng == j.e && o.ctx == j.x && o.cid == j.cmd.cid && decide (u < o.unit + o.count) then { o with stale := true } else o) }) })

/-- A write that can no longer be translated: its unit must be cleared again, by another READ where its source is a window, and a later
failure is met again, or not. -/
def Job.unclear (j : Job) (s : State) (u : Nat) : State :=
  let s1 := if j.f.ss = 3 then j.staleReads s u else s
  j.mod s1 (fun x => { x with
    vals := Tab.erase x.vals u, done := x.done.filter (fun p => p.1 != u), parts := x.parts.filter (fun p => p.1 != u)
    sent := if j.f.ss = 3 then min x.sent u else x.sent, sentOff := if j.f.ss = 3 ∧ u ≤ x.sent then 0 else x.sentOff
    phase := match x.phase with | .failed _ _ _ _ => .running | ph => ph })

/-- Target `i` of unit `u` has been written; with the last one the unit is. -/
def Job.wroteItem (j : Job) (s : State) (pl : Place) (u i n : Nat) : State :=
  let all := (List.range (j.targets pl).length).all (fun k => k == i || (j.ctx s).done.contains (u, k))
  j.mod (s.countWritten j.c n) (fun x => if all then x.wrote u else { x with done := x.done ++ [(u, i)] })

/-- Whether a piece that sets tags has a word whose tag another event of this cycle has changed: it waits for the next (10 R261; 13 R318). -/
def Job.tagTaken (j : Job) (s : State) (p : Piece) : Bool :=
  j.f.setfull && j.cmd.dst.isNone && p.space == 2 && !((s.core j.c).untagged (wordsCovered j.g p.addr p.len))

/-- The engine writes item `i` of unit `u`, when the unit and every one before it are cleared (13 R321). -/
def Job.writeUnit (j : Job) (s : State) (u i : Nat) : Option State :=
  match Tab.get? (j.ctx s).vals u with
  | none => none
  | some e =>
    if j.cleared s ≤ u || !j.servable s true || (j.ctx s).done.contains (u, i) then none
    else
      match (s.placeOf j u).2 with
      | .error _ => some (j.unclear s u)
      | .ok pl =>
        match (j.targets pl)[i]? with
        | none => none
        | some (.here it) =>
          if j.tagTaken s it.piece then none else
          match j.pay s true u i it.piece j.cmd.dst with
          | none => some (s.askPort j.c j.e j.x j.f.qos)
          | some s1 =>
            let r := s1.writePiece j j.cmd.dst u it.piece (e.part it.off it.piece.len) j.f.setfull
            match r.2 with
            | some _ => some (j.unclear r.1 u)
            | none => some (j.wroteItem r.1 pl u i it.piece.len)
        | some (.die d) =>
          match s.spend j.c j.e j.x ((e.bytes.length + 127) / 128) with
          | none => some (s.askPort j.c j.e j.x j.f.qos)
          | some s1 =>
            let far := (j.dstItems pl).filter (fun i => homeOf i.piece.addr == d)
            some (j.wroteItem (s1.multicast j u d (j.dstItems pl) e) pl u i (far.map (fun i => i.piece.len)).sum)

/-- The old value of atomic element `u` written where RET asks for it (13 R317). -/
def Job.returnOld (j : Job) (s : State) (u : Nat) : State :=
  match Tab.get? (j.ctx s).olds u, (s.placeOf j u).2 with
  | some v, .ok pl =>
    match pl.ret with
    | [] => s
    | p :: _ =>
      match j.pay s true u 0 p none with
      | none => s.askPort j.c j.e j.x j.f.qos
      | some s1 =>
        let n := engBytes j.f.dfmt
        let r := s1.writePiece j none u p { bytes := toBytes v n, bad := [] } false
        match r.2 with
        | some .notValid => r.1
        | some e => match memUnit e p.addr true false with | .fail st a sp => j.failAt r.1 u st a sp | .suspend _ _ _ => r.1
        | none => j.mod (r.1.countWritten j.c n) (fun x => if j.f.ds = 3 then { x with olds := Tab.erase x.olds u } else x.wrote u)
  | _, _ => s

/-! ## Packets of a job (15 R371, R372) -/

/-- The bytes of packets that start at unit `u`: the units that lie one after the other, up to 256 bytes in all (log 15). -/
def Job.packetUnits (j : Job) (src : Bool) : Nat → State → Nat → Nat → List Piece → Nat → Nat
  | 0, _, _, n, _, _ => n
  | k + 1, s, u, n, prev, used =>
    if j.f.units ≤ u + n then n
    else
      match (s.placeOf j (u + n)).2 with
      | .error _ => n
      | .ok pl =>
        let ps := if src then pl.src else (pl.dst.headD [])
        match prev, ps with
        | [], [p] => if p.len ≤ 256 then j.packetUnits src k s u 1 [p] p.len else 1
        | [q], [p] => if p.addr = q.addr + q.len ∧ used + p.len ≤ 256 then j.packetUnits src k s u (n + 1) [p] (used + p.len) else n
        | _, _ => max 1 n

/-- The units of the next packet of a job from unit `u`; an ATOMIC carries one, a failure cuts the last short, and a suspended command
sends nothing at or beyond the unit that it stopped at (13 R321). -/
def Job.nextPacket (j : Job) (s : State) (u : Nat) : Nat :=
  let n := if j.f.kind = 3 then 1 else max 1 (j.packetUnits (j.f.ss == 3) 257 s u 0 [] 0)
  match (j.ctx s).phase with
  | .running => n
  | .failed _ v _ _ => min n (v - u)
  | _ => min n (j.cleared s - u)

/-- Whether a reissue names numbers from before a reset of its stream (15 R379). -/
def State.beforeReset (s : State) (dev tc : Nat) (q : BitVec 32) : Bool :=
  let d := ((s.stream dev tc).next - q).toNat
  decide (d < 2 ^ 31) && decide ((s.stream dev tc).drawn < d)

/-- The elements of units `u` to `u + n - 1`, one after the other. -/
def EngCtx.cat (x : EngCtx) (u : Nat) : Nat → Elem
  | 0 => { bytes := [], bad := [] }
  | n + 1 =>
    let a := x.cat u n
    match Tab.get? x.vals (u + n) with
    | some e => { bytes := a.bytes ++ e.bytes, bad := a.bad ++ e.bad.map (fun i => a.bytes.length + i) }
    | none => a

/-- A job's request to the device of window `w` (15 Table 6): kind 1 a READ of `len` bytes, 2 an ATOMIC, 3 a FLAG, else a WRITE. -/
def Job.request (j : Job) (s : State) (w : Window) (kind va len : Nat) (e : Elem) : Request :=
  let n := engBytes j.f.dfmt
  let p : Packet := {
    port := (s.route w.dev).port, src := s.pkg.devid, tc := BitVec.ofNat 2 j.f.tc, q := 0, asid := BitVec.ofNat 16 w.asid
    va := BitVec.ofNat 52 (w.base + va), data := if j.f.cas then e.bytes.drop n else e.bytes, bad := e.bad, len := len
    rop := if j.f.atomic then some j.f.rop else none, size := n, nat := j.f.nat, cmp := if j.f.cas then ofBytes (e.bytes.take n) else 0 }
  if kind = 1 then .read p else if kind = 2 then .atomic p else if kind = 3 then .flag p else .write p

/-- The packet of `len` bytes from byte `off` of units `u` to `u + n - 1`, which start at byte `va` of the window, sent through the windows
of every replica. -/
def Job.sendPiece (j : Job) (s : State) (u n va off len : Nat) : State :=
  let kind := if j.f.ss = 3 then 1 else if j.f.kind = 3 then 2 else 0
  let e := (j.ctx s).cat u n
  (List.range (if j.f.kind = 6 then j.f.reps else 1)).foldl (fun s q =>
    let w := s.useWindow j.c j.e j.x j.g.asid (j.windowId q)
    j.send w.1 w.2.dev kind u n off (flitsOf (if kind = 1 then 0 else len))
      (j.request w.1 w.2 kind (va + off) len (if kind = 2 then e else e.part off len))) s

/-- The devices that a job's packets go to, one for each replica. -/
def Job.devices (j : Job) (s : State) : List Nat :=
  (List.range (if j.f.kind = 6 then j.f.reps else 1)).map (fun q => (s.useWindow j.c j.e j.x j.g.asid (j.windowId q)).2.dev)

/-- The device of a put's flag. -/
def Job.flagDevice (j : Job) (s : State) : Nat := (s.useWindow j.c j.e j.x j.g.asid (bitsOf j.f.aux1 63 56)).2.dev

/-- Whether every stream of a job has room for a packet; the stream of a put's flag must be free with the others. -/
def Job.hasRoom (j : Job) (s : State) : Bool :=
  s.streamsReady j.who (j.devices s) j.f.tc 1 && (j.f.kind != 4 || s.streamsReady j.who [j.flagDevice s] j.f.tc 0)

/-- Whether a reissue names numbers from before a reset of one of its streams (15 R379). -/
def Job.tooOld (j : Job) (s : State) : Bool :=
  j.f.replay && ((j.devices s) ++ (if j.f.kind = 4 then [j.flagDevice s] else [])).any (fun d => s.beforeReset d j.f.tc (BitVec.ofNat 32 j.f.fseq))

/-- The window device of a job's first replica. -/
def Job.device (j : Job) (s : State) : Nat := (s.useWindow j.c j.e j.x j.g.asid (j.windowId 0)).2.dev

/-- The bytes of `n` units from unit `u` in window space: the first one's place, and how many. -/
def Job.windowSpan (j : Job) (s : State) (u n : Nat) : Nat × Nat :=
  match (s.placeOf j u).2 with
  | .ok pl =>
    let ps := if j.f.ss = 3 then pl.src else pl.dst.headD []
    ((ps.head?.map Piece.addr).getD 0, (ps.map Piece.len).sum * n)
  | .error _ => (0, 0)

/-- The engine sends the next packet of the `n` units from `u`, the first not yet sent: READ for a source in window space, or the data of
cleared units. -/
def Job.sendNext (j : Job) (s : State) (u n : Nat) : Option State :=
  let x := j.ctx s
  if x.sent ≠ u ∨ n = 0 ∨ j.f.units ≤ u then none
  else if j.f.ss ≠ 3 && j.cleared s < u + n then none
  else
    let sp := j.windowSpan s u n
    let len := min 256 (sp.2 - x.sentOff)
    if j.tooOld s || (u == 0 && (s.route (j.device s)).primary == 0x1F) then
      some (j.failAt s u 0x15 (BitVec.ofNat 64 (if j.f.ss = 3 then j.f.src else j.f.dst)) 3)
    else if !j.hasRoom s then none
    else
      let reps := if j.f.kind = 6 then j.f.reps else 1
      match s.spend j.c j.e j.x ((len + 127) / 128 * reps) with
      | none => some (s.askPort j.c j.e j.x j.f.qos)
      | some s1 =>
        let whole := decide (sp.2 ≤ x.sentOff + len)
        let s2 := if len = 0 then s1 else j.sendPiece s1 u n sp.1 x.sentOff len
        let s3 := if j.f.kind = 4 ∧ !j.f.replay then s2.modStream (j.flagDevice s) j.f.tc (fun t => { t with owner := some j.who }) else s2
        let s4 := j.mod (s3.countWritten j.c (if j.f.ss = 3 then 0 else len * reps)) (fun x =>
          if whole then { x with
            sent := u + n, sentOff := 0, vals := if j.f.ss = 3 then x.vals else x.vals.filter (fun p => decide (u + n ≤ p.1)) }
          else { x with sentOff := x.sentOff + len })
        some (if whole = true ∧ j.f.units ≤ u + n ∧ j.f.kind ≠ 4 then s4.releaseStreams j.who else s4)

/-- What keeps a READ of unit `u` from being sent: its window, or its destination (13 R321). -/
def Job.readBlocked (j : Job) (s : State) (u : Nat) : State × Option UnitErr :=
  match j.denied with
  | some e => (s, some e)
  | none =>
    let p := s.placeOf j u
    match p.2 with
    | .error e => (p.1, some e)
    | .ok pl =>
      let a := p.1.checkPieces j none 0 0 pl.src
      match a.2 with
      | some e => (a.1, some e)
      | none => a.1.checkPieces j j.cmd.dst 0 1 (pl.dst.flatMap id)

/-- How many of `n` units from `u` on a READ may ask for, and what stops it at the next. -/
def Job.readRun (j : Job) : Nat → State → Nat → State × Nat × Option UnitErr
  | 0, s, _ => (s, 0, none)
  | n + 1, s, u =>
    let b := j.readBlocked s u
    match b.2 with
    | some e => (b.1, 0, some e)
    | none => let r := j.readRun n b.1 (u + 1); (r.1, r.2.1 + 1, r.2.2)

/-- A READ that starts at unit `u` is sent, once its destinations may be written: it asks for the units before one that stops it. -/
def Job.readWindow (j : Job) (s : State) (u : Nat) : State :=
  let x := j.ctx s
  if !(x.wants u) || x.sent != u || decide (j.f.units ≤ u) then s
  else
    let r := j.readRun (j.nextPacket s u) s u
    match r.2.1, r.2.2 with
    | 0, some e => j.stuck r.1 u e
    | n, _ => (j.sendNext r.1 u n).getD s

/-- The FLAG of a remote put is sent once its data has (13 R319; 11 R283). -/
def Job.sendFlag (j : Job) (s : State) : State :=
  let x := j.ctx s
  if j.f.kind ≠ 4 ∨ x.flag ≠ 0 ∨ x.sent < j.f.units ∨ x.phase ≠ .running then s
  else
    let w := s.useWindow j.c j.e j.x j.g.asid (bitsOf j.f.aux1 63 56)
    if s.streamsReady j.who [w.2.dev] j.f.tc 1 then
      match w.1.spend j.c j.e j.x 1 with
      | none => s.askPort j.c j.e j.x j.f.qos
      | some s1 =>
        let s2 := j.send s1 w.2.dev 3 j.f.units 0 0 (flitsOf 8) (j.request s1 w.2 3 (bitsOf j.f.aux1 51 0) 0 { bytes := [], bad := [] })
        (j.mod s2 (fun x => { x with flag := 1 })).releaseStreams j.who
    else s

end Sys2Proof.Machine
end

