-- ==== Sys2Proof/Machine/Copy.lean ====
section
/-! DEFINITION. Copy commands: CPOST, RED, REDFLUSH, AMO, CFENCE, CPSTAT, and the events of the copy queue, the engines, the
reduction buffers and write-throughs (13; 11 R276 to R282). -/

namespace Sys2Proof.Machine

/-! ## Posting (13 R306, R320) -/

/-- The capacity of the copy queue. -/
def copyCapacity : Nat := 64

/-- A command put at the tail of a core's copy queue, with its acceptance number; the mark that waits for it stands on it. -/
def State.pushCmd (s : State) (c : Nat) (m : Cmd) : State :=
  (s.modGroup c m.gid (fun g => g.arm (s.core c).cid)).modCore c (fun k =>
    { k with copyQ := k.copyQ ++ [{ m with cid := k.cid }], cid := k.cid + 1 })

/-- The tile of a side, as captured at acceptance (12 R303). -/
def sideTile (k : Core) (g : Group) (sp base : Nat) : Option TileRef := if sp = 1 then some (handleEntry k g (baseHandle base)).ref else none

/-- A slate that has passed its checks is posted: the state and the number. -/
def State.postSlate (s : State) (c gid poster : Nat) (pc : DWord) (r : List DWord) : State × Nat :=
  match s.group? c gid with
  | none => (s, 0)
  | some g =>
    let f := slateOf r
    let sq := s.takeSeq c gid f.tl
    (sq.1.pushCmd c {
      cid := 0, gid := gid, asid := g.asid, tl := f.tl, seq := sq.2, pc := pc, poster := poster, eng := f.eng
      wide := s.scopeWide c g.asid f.cscope, what := .slate r, src := sideTile (s.core c) g f.ss f.src
      dst := sideTile (s.core c) g f.ds f.dst, dstTaskRead := f.ds == 1 && taskRead g (baseHandle f.dst) }, sq.2)

/-- CPOST. -/
def cpostSpec (x : Ext) : Spec :=
  Spec.blocks { Shape.bare with anyGuard := true, dst := some Dst.uni, a := some (Pos.of [.uni] 64) }
    (fun _ => if 48 < uniNum x.a.op then some (ilOpnd x.a.op 1) else none) (fun i =>
      if !(i.grd.has i.elected) then i.to i.s
      else
        let s := i.s.drain i.c i.slot
        if copyCapacity ≤ i.k.copyQ.length then .block (i.wait (.cpost x)) s
        else
        let r := blockRegs i.w (uniNum x.a.op) 16
        match slateCheck s i.c i.g x.a.op.code.toNat r with
        | some t => .final (s.trapHere i.c i.slot t)
        | none =>
          let p := s.postSlate i.c i.w.gid i.slot (i.w.pc.setWidth 64) r
          i.posted p.1 p.2)
/-- CPOST (13 R320). -/
def execCpost (x : Ext) (s : State) : Host.Outcome State Fault Refusal := runExt cpostSpec x s

/-- CPOST_ACCEPT: a blocked CPOST takes a freed entry (13 R320). -/
def execCpostAccept (core slot : Nat) (s : State) : Host.Outcome State Fault Refusal :=
  match (s.waitOf core slot).map Waiting.instr with
  | some (.cpost x) => if (s.core core).copyQ.length < copyCapacity then resume s core slot (execCpost x) else .next s
  | _ => .next s

/-! ## RED (13 R330, R331) -/

/-- OP, SZ and NAT of RED and AMO. -/
def redOp (x : Ext) : Nat := modField x 3 0
/-- The bytes of a RED or an AMO. -/
def redBytes (x : Ext) : Nat := if modBit x 4 then 8 else 4
/-- Whether OP, SZ and NAT are refused; `all` admits every code of 12 Table 3. -/
def redBad (all : Bool) (x : Ext) : Bool :=
  let op := redOp x
  (if all then decide (0xA < op) else decide (5 < op) && op != 0xA) || (op == 0xA && modBit x 4) || (modBit x 5 && op != 1 && op != 2)

/-- How an operand of a RED or an AMO is read. -/
def redKind (x : Ext) : ImmKind := if redOp x = 0xA then .fp .f32 else .int

/-- A value put into a scheduler's buffer: combined into the entry of its key, or a new one; none when the buffer is full. -/
def putRed (es : List RedEntry) (n : RedEntry) : Option (List RedEntry) :=
  if es.any (fun e => e.slot == n.slot && e.sameKey n) then
    some (es.map (fun e => if e.slot == n.slot && e.sameKey n then e.combine n.val else e))
  else if es.length < 64 then some (es ++ [n]) else none

/-- The contributions of a drain that groups have still to wait for: those posted from acceptance number `lo` on. -/
def State.noteDrained (s : State) (c lo : Nat) : State :=
  s.modCore c (fun k =>
    let fresh := k.contribs.filter (fun x => decide (lo ≤ x.id))
    { k with groups := Tab.mapVal k.groups (fun gid g =>
        { g with drained := g.drained ++ (fresh.filter (fun x => x.gids.contains gid)).map Contribution.id }) })

/-- A scheduler's buffer drained because it is full. -/
def State.drainFull (s : State) (c sched : Nat) : State :=
  (s.drainRed c false (fun q _ => q == sched)).noteDrained c (s.core c).cid

/-- One lane's value placed; a full buffer is drained first. -/
def State.placeRed (s : State) (c sched : Nat) (n : RedEntry) : State :=
  let put := fun (s : State) (es : List RedEntry) => s.modCore c (fun k => { k with red := Tab.set k.red sched es })
  match putRed ((s.core c).redOf sched) n with
  | some es => put s es
  | none =>
    let s1 := s.drainFull c sched
    put s1 (((s1.core c).redOf sched) ++ [n])

/-- RED. -/
def redSpec (x : Ext) : Spec :=
  let n := redBytes x
  Spec.plain { Shape.bare with m := 0x3F#10, bad := redBad false x, anyGuard := true, a := some (Pos.of [.vec, .uni, .lit, .idUni] 64),
                               b := some { cls := laneCls, w := 8 * n, kind := redKind x } } (fun i =>
    let ls := lanes.filter i.acts
    match ls.find? (fun l => i.a l % n != 0 || decide (2 ^ 52 ≤ i.a l)) with
    | some l => .trap { cause := 0x0A, tval := BitVec.ofNat 64 (i.a l) }
    | none =>
      i.to (ls.foldl (fun s l => s.placeRed i.c (schedOf i.slot)
        { slot := i.slot, gid := i.w.gid, asid := i.g.asid, va := BitVec.ofNat 64 (i.a l), op := redOp x, size := n, nat := modBit x 5,
          val := i.b l }) i.s))
/-- RED (13 R330, R331). -/
def execRed (x : Ext) (s : State) : Host.Outcome State Fault Refusal := runExt redSpec x s

/-! ## REDFLUSH (13 R332) -/

/-- SLATE of a timeline beyond the allocation, then of a scope entry. -/
def tlScopeTrap (s : State) (i : Issue) (tl scope : Nat) : Option Trap :=
  (if i.g.nTl ≤ tl then raise 0x0A tl else none) <|> s.scopeTrap i.c i.g.asid scope

/-- A flush whose contributions have all been performed ends (13 R332). -/
def State.endFlush (s : State) (c gid : Nat) (f : Flush) : State :=
  match f.failed with
  | none => s.complete c gid f.tl f.seq 0 f.pc 0 0 0 none
  | some (st, a) => s.complete c gid f.tl f.seq st f.pc 0 a (recordWord 2 0 0 0x42 f.cscope 0) none

/-- Whether a flush of a group has nothing left to wait for, and stands behind no fence mark (13 R332, R334). -/
def Group.flushOver (g : Group) (f : Flush) : Bool := f.waits.isEmpty && g.marks.all (fun m => decide (f.cid < m.1))

/-- Flushes that are over end, in order. -/
def State.endFlushes (s : State) (c gid : Nat) : State :=
  match s.group? c gid with
  | none => s
  | some g =>
    (g.flushes.filter g.flushOver).foldl (fun s f => s.endFlush c gid f)
      (s.setGroup c gid { g with flushes := g.flushes.filter (fun f => !(g.flushOver f)) })

/-- Whether a command of a group posted before acceptance number `n` has not completed: in the copy queue, an engine, the reduction
buffers' drains, among its flushes, or, with `coll`, in the collective engine. -/
def State.earlierLive (s : State) (coll : Bool) (c gid n : Nat) : Bool :=
  let k := s.core c
  let old := fun (m : Cmd) => m.gid == gid && decide (m.cid < n)
  (match s.group? c gid with | some g => g.flushes.any (fun f => decide (f.cid < n)) | none => false) ||
  k.copyQ.any old || k.ctxs.any (fun p => p.2.cmd.any old) || k.contribs.any (fun x => x.gids.contains gid && decide (x.id < n)) ||
  (coll && (s.die (dieOf c)).coll.any (fun p => p.2.core == c && p.2.gid == gid && decide (p.2.cid < n)))

/-- Whether a mark's waits are over (11 Table 8). -/
def State.markOver (s : State) (coll : Bool) (c gid n : Nat) (m : FenceMark) : Bool :=
  let d := s.die (dieOf c)
  !s.earlierLive coll c gid n &&
  (!m.wide || ((!m.rel || !d.outstanding (fun w => w.core == c && w.gid == gid && decide (w.cid < n))) && (!m.acq || !d.outstanding (fun _ => true))))

/-- G of a die raised by 1: when it wraps, every unpinned guest line goes (11 R277). -/
def State.raiseG (s : State) (d : Nat) : State :=
  (s.modDie d (fun k => { k with gen := k.gen + 1, guest := if k.gen = 0xFFFF then k.guest.filter GuestLine.pinned else k.guest })).countDie d 0x45 1

/-- The marks of a group whose waits are over, in order, leave it; a wide acquire raises G. -/
def State.passMarks (s : State) (c gid : Nat) : Nat → State
  | 0 => s
  | n + 1 =>
    match s.group? c gid with
    | none => s
    | some g =>
      match g.marks with
      | [] => s
      | (at_, m) :: t =>
        if s.markOver true c gid at_ m then
          let s1 := s.setGroup c gid { g with marks := t }
          (if m.wide && m.acq then s1.raiseG (dieOf c) else s1).passMarks c gid n
        else s

/-- The state with every mark passed that may be, and whether a command of a group with acceptance number `n` stands behind none. -/
def State.unmarked (s : State) (c gid n : Nat) : State × Bool :=
  match s.group? c gid with
  | none => (s, true)
  | some g =>
    let s1 := s.passMarks c gid g.marks.length
    (s1, match s1.group? c gid with | some h => h.marks.all (fun m => decide (n < m.1)) | none => true)

/-- A flush that waited for a fence mark alone ends once the mark lets it (13 R332, R334). -/
def State.flushStep (s : State) (c gid : Nat) : State :=
  match s.group? c gid with
  | none => s
  | some g => (s.passMarks c gid g.marks.length).endFlushes c gid

/-- Act flushEnd. -/
def flushEnd (core gid : Nat) (s : State) : State := s.flushStep core gid

/-- A group's entries drained for a REDFLUSH that takes the next number of its timeline; it has an acceptance number of its own, after
those of its contributions. -/
def Issue.startFlush (i : Issue) (tl cscope : Nat) : State × Nat :=
  let lo := (i.s.core i.c).cid
  let s1 := (i.s.drainRed i.c false (fun _ e => e.gid == i.w.gid)).modGroup i.c i.w.gid (fun g => g.arm lo)
  let new := ((s1.core i.c).contribs.filter (fun x => decide (lo ≤ x.id) && x.gids.contains i.w.gid)).map Contribution.id
  let sq := s1.takeSeq i.c i.w.gid tl
  let s2 := sq.1.modGroup i.c i.w.gid (fun g => { g with
    flushes := g.flushes ++ [{ tl := tl, seq := sq.2, pc := i.w.pc.setWidth 64, wide := i.s.scopeWide i.c i.g.asid cscope, cscope := cscope
                               slot := i.slot, cid := (s1.core i.c).cid, waits := g.drained ++ new, failed := g.redFail }]
    drained := [], redFail := none })
  ((s2.modCore i.c (fun k => { k with cid := k.cid + 1 })).flushStep i.c i.w.gid, sq.2)

/-- REDFLUSH. -/
def redflushSpec (x : Ext) : Spec :=
  Spec.plain { Shape.bare with m := 0x1FF#10, dst := some Dst.uni } (fun i =>
    match tlScopeTrap i.s i (modField x 3 0) (modField x 8 4) with
    | some t => .trap t
    | none =>
      if 4 ≤ i.g.flushes.length then i.posted i.s 0
      else
        let r := i.startFlush (modField x 3 0) (modField x 8 4)
        i.posted r.1 r.2)
/-- REDFLUSH (13 R332). -/
def execRedflush (x : Ext) (s : State) : Host.Outcome State Fault Refusal := runExt redflushSpec x s

/-! ## AMO (13 R333) -/

/-- SLATE of an AMO's address. -/
def amoAddrTrap (win : Bool) (n a : Nat) : Option Trap :=
  if (if win then bitsOf a 55 52 != 0 else bitsOf a 63 52 != 0) || a % n != 0 then raise 0x0A a else none

/-- AMO. -/
def amoSpec (x : Ext) : Spec :=
  let n := redBytes x
  let op := redOp x
  let cas := op == 7
  let p : Option Pos := some { cls := cntCls, w := 8 * n, kind := redKind x }
  Spec.plain { Shape.bare with m := 0x1FF#10, m2 := 0xF#6, m3 := 0x1F#6, bad := redBad true x, anyGuard := true, dst := some Dst.uni
                               a := cntPos64, b := p, c := if cas then p else none } (fun i =>
    if !(i.grd.has i.elected) then i.to i.s
    else
      let tl := bitsOf x.mods2.toNat 3 0
      let scope := bitsOf x.mods3.toNat 4 0
      match amoAddrTrap (modBit x 6) n (i.a 0) <|> tlScopeTrap i.s i tl scope with
      | some t => .trap t
      | none =>
        if copyCapacity ≤ i.k.copyQ.length then i.posted i.s 0
        else
          let sq := i.s.takeSeq i.c i.w.gid tl
          let args : AmoArgs := { op := op, size := n, nat := modBit x 5, win := modBit x 6, tc := modField x 8 7, addr := BitVec.ofNat 64 (i.a 0)
                                  operand := i.b 0, cmp := i.d 0, slot := i.slot, reg := uniNum x.dst + 1, scope := scope }
          i.posted (sq.1.pushCmd i.c {
            cid := 0, gid := i.w.gid, asid := i.g.asid, tl := tl, seq := sq.2, pc := i.w.pc.setWidth 64, poster := i.slot, eng := 2
            wide := i.s.scopeWide i.c i.g.asid scope, what := .amo args, src := none, dst := none, dstTaskRead := false }) sq.2)
/-- AMO (13 R333). -/
def execAmo (x : Ext) (s : State) : Host.Outcome State Fault Refusal := runExt amoSpec x s

/-! ## CFENCE (13 R334, R335; 11 R278) -/

/-- Two fences with no post between them merge. -/
def FenceMark.merge (a b : FenceMark) : FenceMark := { acq := a.acq || b.acq, rel := a.rel || b.rel, wide := a.wide || b.wide }

/-- CFENCE. -/
def cfenceSpec (x : Ext) : Spec :=
  let kind := modField x 1 0
  let scope := modField x 6 2
  Spec.plain { Shape.bare with m := 0x7F#10, bad := kind == 3 } (fun i =>
    match i.s.scopeTrap i.c i.g.asid scope with
    | some t => .trap t
    | none =>
      let m : FenceMark := { acq := kind != 0, rel := kind != 1, wide := i.s.scopeWide i.c i.g.asid scope }
      i.to (i.s.modGroup i.c i.w.gid (fun g => { g with mark := some (match g.mark with | some o => o.merge m | none => m) })))
/-- CFENCE (13 R334). -/
def execCfence (x : Ext) (s : State) : Host.Outcome State Fault Refusal := runExt cfenceSpec x s

/-! ## COPY_DISPATCH (13 R307; 11 R279) -/

/-- Whether the ORD condition of a command holds on engine `e`: every command of its group posted before it to `e` has completed. -/
def Core.ordOk (k : Core) (e : Nat) (m : Cmd) : Bool :=
  match m.what with
  | .slate r =>
    !(slateOf r).ord ||
    (!(k.copyQ.any (fun q => q.gid == m.gid && decide (q.cid < m.cid) && (q.eng == e || q.eng == 2))) &&
     !(k.ctxs.any (fun p => p.1 / 8 == e && p.2.cmd.any (fun q => q.gid == m.gid && decide (q.cid < m.cid)))))
  | .amo _ => true

/-- The oldest entry that engine `e` may start; marks whose waits are over have passed. -/
def State.nextEntry (s : State) (c e : Nat) : List Cmd → State × Option Cmd
  | [] => (s, none)
  | m :: t =>
    let u := s.unmarked c m.gid m.cid
    if (m.eng == e || m.eng == 2) && u.2 && (u.1.core c).ordOk e m then (u.1, some m) else u.1.nextEntry c e t

/-- COPY_DISPATCH: a free context takes the oldest entry that it may start (13 R307). -/
def execCopyDispatch (core engine ctx : Nat) (s : State) : Host.Outcome State Fault Refusal :=
  if 2 ≤ engine ∨ 8 ≤ ctx ∨ ((s.core core).ctx engine ctx).cmd.isSome then .next s
  else
    let r := s.nextEntry core engine (s.core core).copyQ
    match r.2 with
    | none => .next r.1
    | some m =>
      .next ((r.1.modCore core (fun k => { k with copyQ := k.copyQ.filter (fun q => q.cid != m.cid) })).modCtx core engine ctx
        (fun x => { EngCtx.reset with cmd := some m, batch := x.batch }))

/-! ## The elements of a command (13 R321) -/

/-- Act copyRead: an engine reads item `i` of unit `u` of its command, or sends a READ from the unit on. -/
def copyRead (core engine ctx u i : Nat) (s : State) : State :=
  match s.job core engine ctx with
  | none => s
  | some j => if j.f.ss = 3 then j.readWindow s u else j.read s u i

/-- Act copyWrite: an engine writes item `i` of unit `u` of its command or the old value that its atomic element returns, sends the packet
that begins with the unit, or the FLAG once every packet has gone. -/
def copyWrite (core engine ctx u i : Nat) (s : State) : State :=
  match s.job core engine ctx with
  | none => s
  | some j =>
    if (Tab.get? (j.ctx s).olds u).isSome then j.returnOld s u
    else if j.f.ds = 3 then
      if j.f.units ≤ u then j.sendFlag s else (j.sendNext s u (j.nextPacket s u)).getD s
    else if j.f.atomic then s
    else (j.writeUnit s u i).getD s

/-! ## ATOMIC_ELEMENT_PERFORM (11 R282; 13 R317, R331, R333) -/

/-- The status of a refused access. -/
def memStatus (e : MemErr) : Nat := match e with | .notValid => 0x10 | .perm => 0x11 | .misplaced => 0x12

/-- A contribution that has been performed, or has failed, leaves the waits of its groups; flushes that waited for it alone end. -/
def State.endContribution (s : State) (c : Nat) (x : Contribution) (fail : Option Nat) : State :=
  let addr := x.entry.va
  let s1 := s.modCore c (fun k => { k with contribs := k.contribs.filter (fun y => y.id != x.id) })
  x.gids.foldl (fun s gid =>
    match s.group? c gid with
    | none => s
    | some g =>
      let f := fail.map (fun st => (st, addr))
      let owned := g.flushes.any (fun l => l.waits.contains x.id)
      let g1 := { g with
        drained := g.drained.filter (· != x.id)
        flushes := g.flushes.map (fun l => if l.waits.contains x.id then
          { l with waits := l.waits.filter (· != x.id), failed := l.failed <|> f } else l)
        redFail := if owned || x.last then g.redFail else g.redFail <|> f }
      let s2 := s.setGroup c gid g1
      let s3 := match f with
        | some (st, a) =>
          if owned then s2
          else if x.last || (s2.core c).allExited gid then (s2.redFailed c gid st a).modGroup c gid (fun g => { g with redFail := none })
          else s2
        | none => s2
      s3.endFlushes c gid) s1

/-- A contribution performed at its coherence point, once its port has sent it and no fence mark holds it. -/
def State.performContribution (s : State) (c idx : Nat) : State :=
  match (s.core c).contribs[idx]? with
  | none => s
  | some x =>
    let u := x.gids.foldl (fun (t : State × Bool) gid => let r := t.1.unmarked c gid x.id; (r.1, t.2 && r.2)) (s, true)
    if !x.sent || !u.2 then u.1
    else
      let e := x.entry
      let r := u.1.atomFrom (dieOf c) e.asid e.va.toNat e.size (fun o => atomNew e.op (8 * e.size) e.nat o e.val 0)
      match r.2 with
      | .fail err => r.1.endContribution c x (some (memStatus err))
      | .poison => r.1.endContribution c x (some 0x01)
      | .old _ => r.1.endContribution c x none

/-- The poison pattern that an atomic returns (15 R380; 05 R130): of 64 bits, the poison NaN of binary64. -/
def atomPoison (n : Nat) : Nat := if n = 8 then 0x7FFC000000000000 else 0x7FE00000

/-- A marked operand of an integer atomic leaves its destination word marked (10 R264). -/
def State.spoil (s : State) (asid va n old : Nat) : State := (s.writeHome asid va (toBytes old n) true).1

/-- Element `u` of a scatter-reduce or atomic command performed at its coherence point; with RET its old value is still to be returned
(13 R317). -/
def Job.atom (j : Job) (s : State) (u : Nat) : State :=
  match Tab.get? (j.ctx s).vals u with
  | none => s
  | some e =>
    if j.cleared s ≤ u || (Tab.get? (j.ctx s).olds u).isSome then s
    else
      let p := s.placeOf j u
      match p.2 with
      | .error _ => j.unclear s u
      | .ok pl =>
        match pl.dst.flatMap id with
        | [] => j.mod p.1 (fun x => x.wrote u)
        | d :: _ =>
          match p.1.spend j.c j.e j.x 1 with
          | none => s.askPort j.c j.e j.x j.f.qos
          | some s1 =>
            let n := d.len
            let v := ofBytes (if j.f.cas then e.bytes.drop n else e.bytes)
            let cmp := if j.f.cas then ofBytes (e.bytes.take n) else 0
            let dirty := !e.bad.isEmpty
            let r := s1.atomFrom (dieOf j.c) j.g.asid d.addr n (fun o => if dirty then o else atomNew j.f.rop (8 * n) j.f.nat o v cmp)
            match r.2 with
            | .fail _ => j.unclear r.1 u
            | res =>
              let s2 := match res with
                | .old o => if dirty then r.1.spoil j.g.asid d.addr n o else r.1
                | _ => r.1
              let old := match res with | .old o => o | _ => atomPoison n
              let at_ := match res with | .old _ => none | _ => some (u, BitVec.ofNat 64 d.addr, 0)
              j.mod (s2.countWritten j.c n) (fun x =>
                let y := if pl.ret.isEmpty then x.wrote u else { x with olds := Tab.set x.olds u old }
                { y with poisonAt := lowerBad x.poisonAt at_ })

/-- The AMO that a context holds. -/
def State.amoOf (s : State) (c e x : Nat) : Option (Cmd × AmoArgs × Group) :=
  match ((s.core c).ctx e x).cmd with
  | none => none
  | some m =>
    match m.what, s.group? c m.gid with
    | .amo a, some g => some (m, a, g)
    | _, _ => none

/-- The element of an AMO performed at its coherence point, or sent as a packet through its window (13 R333; 15 R373). -/
def State.performAmo (s : State) (c e x : Nat) (m : Cmd) (a : AmoArgs) (g : Group) : State :=
  let k := (s.core c).ctx e x
  if k.phase != .running || k.pre != 0 || k.sent != 0 then s
  else
    match s.spend c e x 1 with
    | none => s.askPort c e x 0
    | some s1 =>
      let fail := fun (s : State) (st : Nat) (addr : DWord) (sp : Nat) => s.modCtx c e x (fun k => { k with phase := .failed st 0 addr sp })
      if a.win then
        let w := s1.useWindow c e x g.asid (bitsOf a.addr.toNat 63 56)
        if !w.2.ok 2 (bitsOf a.addr.toNat 51 0) a.size then fail w.1 0x13 a.addr 3
        else if (w.1.route w.2.dev).primary == 0x1F then fail w.1 0x15 a.addr 3
        else if !w.1.streamsReady (c, e, x, m.cid) [w.2.dev] a.tc 1 then s
        else
          let p : Packet := {
            port := (w.1.route w.2.dev).port, src := w.1.pkg.devid, tc := BitVec.ofNat 2 a.tc, q := 0, asid := BitVec.ofNat 16 w.2.asid
            va := BitVec.ofNat 52 (w.2.base + bitsOf a.addr.toNat 51 0), data := toBytes a.operand a.size, bad := [], len := a.size, rop := some a.op
            size := a.size, nat := a.nat, cmp := a.cmp }
          let r := w.1.sendPacket w.2.dev a.tc none
            { q := 0, core := c, eng := e, ctx := x, cid := m.cid, unit := 0, count := 1, off := 0, kind := 2, flits := flitsOf (2 * a.size), born := 0
              body := .atomic p, stale := false }
          (r.1.countWritten c a.size).modCtx c e x (fun k => { k with sent := 1, fseq := some r.2.toNat })
      else
        let r := s1.atomFrom (dieOf c) g.asid a.addr.toNat a.size (fun o => atomNew a.op (8 * a.size) a.nat o a.operand a.cmp)
        match r.2 with
        | .fail .notValid => r.1
        | .fail err => fail r.1 (memStatus err) a.addr 0
        | .poison => r.1.modCtx c e x (fun k => { k with pre := 1, poisonAt := some (0, a.addr, 0) })
        | .old o => (r.1.countWritten c a.size).modCtx c e x (fun k => { k with pre := 1, result := some o })

/-- ATOMIC_ELEMENT_PERFORM: one atomic is performed indivisibly (11 R282). -/
def execAtomicElementPerform (who : AtomicRef) (s : State) : Host.Outcome State Fault Refusal :=
  match who with
  | .contribution c idx => .next (s.performContribution c idx)
  | .element c e x u =>
    match s.amoOf c e x with
    | some (m, a, g) => .next (s.performAmo c e x m a g)
    | none =>
      match s.job c e x with
      | some j => .next (if j.f.atomic && j.f.ds == 0 then j.atom s u else s)
      | none => .next s

/-! ## Suspension (13 R322 to R324) -/

/-- A page entry of a batch. -/
def pageEntry (va : Nat) (wr index : Bool) : DWord := BitVec.ofNat 64 (flag wr * 2 ^ 63 + flag index * 2 ^ 62 + va / 65536 * 65536)

/-- The page that the lowest unit which cannot be cleared waits for. -/
def State.absentPage (s : State) (c e x : Nat) : State × Option (Nat × Bool × Bool) :=
  match s.amoOf c e x with
  | some (_, a, g) =>
    let r := s.mayWrite g.asid a.addr.toNat
    (r.1, if !a.win && r.2 == some .notValid && ((s.core c).ctx e x).pre == 0 then some (a.addr.toNat, true, false) else none)
  | none =>
    match s.job c e x with
    | none => (s, none)
    | some j =>
      let u := j.cleared s
      if j.f.units ≤ u then (s, none)
      else
        let r := s.clearUnit j u
        (r.1, match r.2 with | some (.suspend va wr ix) => some (va, wr, ix) | _ => none)

/-- COPY_FAULT_SUSPEND: a page with V = 0 suspends a command, which goes into rehearsal (13 R323). -/
def execCopyFaultSuspend (core engine ctx : Nat) (s : State) : Host.Outcome State Fault Refusal :=
  let x := (s.core core).ctx engine ctx
  if x.phase != .running || x.cmd.isNone then .next s
  else
    let r := s.absentPage core engine ctx
    match r.2 with
    | none => .next r.1
    | some (va, wr, ix) =>
      match r.1.job core engine ctx with
      | none => .next (r.1.modCtx core engine ctx (fun x => { x with phase := .rehearsal [pageEntry va wr ix] 1, stop := va }))
      | some j =>
        let u := j.cleared r.1
        .next (j.mod (if j.f.ss = 3 then j.staleReads r.1 u else r.1) (fun x => { x.dropFrom (j.f.row u) u with
          phase := .rehearsal [pageEntry va wr ix] (if 1 < j.f.per then u else u + 1), stop := va, sent := if j.f.ss = 3 then min x.sent u else x.sent
          sentOff := if j.f.ss = 3 ∧ u ≤ x.sent then 0 else x.sentOff }))

/-- Whether the entry of a 16 GiB page is absent for a VA: the page counts once in a batch. -/
def State.bigAbsent (s : State) (asid va : Nat) : Bool :=
  let e := s.asid asid
  let st := fun (t : Nat) => t % 2 == 0 && pteLs t == 2
  if e.merged then st (s.readPhys (e.root + 8 * walkIndex true 1 va) 8)
  else
    let p := s.readPhys (e.root + 8 * walkIndex false 1 va) 8
    p % 2 == 1 && pteLs p == 0 && st (s.readPhys (pteTable p + 8 * walkIndex false 2 va) 8)

/-- A page entry added to a batch unless its page is there. -/
def addPage (s : State) (asid : Nat) (ps : List DWord) (va : Nat) (wr index : Bool) : List DWord :=
  let same := fun (p : DWord) =>
    let a := bitsOf p.toNat 51 16 * 65536
    a / 65536 == va / 65536 || (s.bigAbsent asid va && a / 2 ^ 34 == va / 2 ^ 34)
  if ps.any same then ps else ps ++ [pageEntry va wr index]

/-- Where a rehearsal stands: the state, the pages collected, and whether it has met a fault that cannot be resolved. -/
abbrev Rehearsal := State × List DWord × Bool

/-- The absent pages of a piece: every page that it touches is looked at. -/
def State.scanPages (s : State) (asid : Nat) (wr : Bool) : Nat → Nat → Nat → List DWord → Rehearsal
  | 0, _, _, ps => (s, ps, false)
  | fuel + 1, va, n, ps =>
    if n = 0 then (s, ps, false)
    else
      let r := if wr then s.mayWrite asid va else (let t := s.translate asid va; (t.1, match t.2 with | .error e => some e | .ok _ => none))
      let m := min n (65536 - va % 65536)
      match r.2 with
      | none => r.1.scanPages asid wr fuel (va + m) (n - m) ps
      | some .notValid => r.1.scanPages asid wr fuel (va + m) (n - m) (addPage r.1 asid ps va wr false)
      | some _ => (r.1, ps, true)

/-- A piece of a unit in rehearsal: its pages, or what its window or local address allows; `q` is the replica that it belongs to. -/
def Job.rehearsePiece (j : Job) (wr : Bool) (t : Option TileRef) (q : Nat) (a : Rehearsal) (p : Piece) : Rehearsal :=
  if a.2.2 then a
  else if t.isNone && p.space == 0 then a.1.scanPages j.g.asid wr (p.len / 65536 + 2) p.addr p.len a.2.1
  else
    let c := a.1.checkPiece j t q j.right p
    (c.1, a.2.1, c.2.isSome)

/-- One unit of rehearsal: its pages, with no data read. -/
def Job.rehearse (j : Job) (s : State) (u : Nat) (ps : List DWord) : Rehearsal :=
  let p := s.placeOf j u
  match p.2 with
  | .error (.suspend va wr true) => (p.1, addPage p.1 j.g.asid ps va wr true, false)
  | .error _ => (p.1, ps, true)
  | .ok pl =>
    let a := pl.src.foldl (j.rehearsePiece false j.cmd.src 0) (p.1, ps, false)
    let b := (pl.dst.zipIdx).foldl (fun a r => r.1.foldl (j.rehearsePiece true j.cmd.dst r.2) a) a
    pl.ret.foldl (j.rehearsePiece true none 0) b

/-- Act rehearse: a suspended command looks at one more unit; rehearsal ends at 33 pages, at the end of the command, at a fault that
cannot be resolved, or 2^20 elements past E (13 R323). -/
def rehearse (core engine ctx : Nat) (s : State) : State :=
  let x := (s.core core).ctx engine ctx
  match x.phase with
  | .rehearsal ps n =>
    let ready := fun (s : State) (ps : List DWord) => s.modCtx core engine ctx (fun x => { x with phase := .batchReady (ps.take 33) })
    match s.job core engine ctx with
    | none => ready s ps
    | some j =>
      if 33 ≤ ps.length ∨ j.f.units ≤ n ∨ j.cleared s * j.f.per + 2 ^ 20 < n * j.f.per then ready s ps
      else
        let r := j.rehearse s n ps
        if r.2.2 then ready r.1 r.2.1 else r.1.modCtx core engine ctx (fun x => { x with phase := .rehearsal r.2.1 (n + 1) })
  | _ => s

/-- The words of a fault-queue entry (13 Table 8). -/
def batchWords (c engine ctx : Nat) (m : Cmd) (kind batch e : Nat) (ps : List DWord) : List Nat :=
  [m.asid * 2 ^ 48 + c * 2 ^ 40 + ctx * 2 ^ 36 + engine * 2 ^ 35 + ps.length * 2 ^ 29, batch % 2 ^ 64, e,
   m.tl * 2 ^ 60 + kind * 2 ^ 56 + m.seq % 2 ^ 56] ++ ps.map BitVec.toNat ++ List.replicate (36 - ps.length) 0

/-- Whether a command has packets of the kind `p` not acknowledged, multicast packets not delivered, or at a wide scope write-throughs
(11 R278; 15 R381). -/
def State.cmdPending (s : State) (c e x : Nat) (m : Cmd) (p : OutPacket → Bool) : Bool :=
  (s.packetsOf c e x m.cid).any p || s.dies.any (fun d => d.2.mcast.any (fun p => p.core == c && p.cid == m.cid)) ||
  (m.wide && (s.die (dieOf c)).outstanding (fun w => w.core == c && w.cid == m.cid))

/-- Whether a job has written, or sent, its units below `u`, and returned their old values. -/
def Job.wroteAll (j : Job) (s : State) (u : Nat) : Bool :=
  let x := j.ctx s
  if j.f.ds = 3 then decide (u ≤ x.sent) && x.olds.isEmpty else decide (u ≤ x.pre)

/-- FAULT_BATCH_POST: a batch is placed in the die's fault queue when it has room, and the command awaits its verdict (13 R323, R324;
18 R447). Everything before E has been performed by then (R321). -/
def execFaultBatchPost (core engine ctx : Nat) (s : State) : Host.Outcome State Fault Refusal :=
  let x := (s.core core).ctx engine ctx
  let d := dieOf core
  let r := (s.die d).fq
  match x.phase, x.cmd with
  | .batchReady ps, some m =>
    let jb := s.job core engine ctx
    let u := match jb with | some j => j.cleared s | none => 0
    let done := match jb with | some j => j.wroteAll s u | none => true
    if !r.hasRoom || !done || s.cmdPending core engine ctx m (fun o => o.kind != 1) then .next s
    else
      let e := match jb with | some j => u * j.f.per | none => 0
      let kind := match jb with | some j => j.f.kind | none => 3
      let pa := r.base.toNat / 64 * 64 + 320 * (r.tail.toNat % 2 ^ r.log2n)
      let bs := (batchWords core engine ctx m kind (x.batch + 1) e ps).flatMap (fun v => toBytes v 8)
      let s1 := (s.writePhys pa bs).modDie d (fun k => { k with fq := { k.fq with tail := k.fq.tail + 1 } })
      .next ((s1.countCore core 0x0C 1).modCtx core engine ctx (fun x => { x with phase := .awaiting, batch := x.batch + 1 }))
  | _, _ => .next s

/-- A verdict on batch `n` of a context: the command resumes, or fails with a status (13 R325). Whether there was such a batch. -/
def State.verdict (s : State) (core engine ctx n : Nat) (fail : Option Nat) : State × Bool :=
  let x := (s.core core).ctx engine ctx
  if x.phase != .awaiting || x.batch % 2 ^ 64 != n then (s, false)
  else
    match fail with
    | none => (s.modCtx core engine ctx (fun x => { x with phase := .running }), true)
    | some st =>
      let u := match s.job core engine ctx with | some j => j.cleared s | none => 0
      (s.modCtx core engine ctx (fun x => { x with phase := .failed st u (BitVec.ofNat 64 x.stop) 0 }), true)

/-! ## Stall hints (02 R47; 15 R382) -/

/-- The devices of the windows that a command uses, its FLAG's among them. -/
def Cmd.peers (s : State) (m : Cmd) : List Nat :=
  let dev := fun (a : Nat) => (s.window m.asid (bitsOf a 63 56)).dev
  match m.what with
  | .amo a => if a.win then [dev a.addr.toNat] else []
  | .slate r =>
    let f := slateOf r
    (if f.ss = 3 then [dev f.src] else []) ++ (if f.kind = 4 then [dev f.aux1] else []) ++
    (if f.ds = 3 then (List.range f.reps).map (fun q => (s.window m.asid (bitsOf f.dst 63 56 + q)).dev) else [])

/-- Whether a timeline of a group has a pending command that targets peer `dev`. -/
def State.tlTargets (s : State) (c gid tl dev : Nat) : Bool :=
  let k := s.core c
  (k.copyQ ++ k.ctxs.flatMap (fun p => p.2.cmd.toList)).any (fun m => m.gid == gid && m.tl == tl && (m.peers s).contains dev) ||
  (s.die (dieOf c)).coll.any (fun p => p.2.core == c && p.2.gid == gid && p.2.tl == tl && p.2.members.any (fun q => q.1 == dev))

/-- The warps of a group that have not exited, with their slots. -/
def Core.unexited (k : Core) (gid : Nat) : List (Nat × Warp) := k.warps.filter (fun p => p.2.gid == gid && p.2.exited != BitVec.allOnes 32)

/-- Whether a warp is blocked in TLWAIT, on a timeline that `f` holds of. -/
def Warp.inTlwait (w : Warp) (f : Nat → Bool) : Bool :=
  match w.waiting.map Waiting.instr with
  | some (.tlwait x) => f (tlField x)
  | _ => false

/-- Whether every warp of a group that has not exited is blocked in TLWAIT on a timeline with pending commands that target `dev`. -/
def State.blockedOn (s : State) (c gid dev : Nat) : Bool :=
  let ws := (s.core c).unexited gid
  !ws.isEmpty && ws.all (fun p => p.2.inTlwait (fun n => s.tlTargets c gid n dev))

/-- Whether no warp of those that a lowering found waiting has become ready since. -/
def State.stillWait (s : State) (c : Nat) (ws : List (Nat × Nat)) : Bool :=
  ws.all (fun p => match s.warp? c p.1 with | some w => w.inTlwait (fun _ => true) && w.since == p.2 | none => false)

/-- The devices whose stall hints are current. -/
def State.hinting (s : State) : List Nat := ((s.pkg.streams.filter (fun x => x.2.hint)).map (fun x => x.1 / 4)).dedup

/-- Whether a stall hint lowers a group: while the hint is current, a group blocked on commands that target the peer, and one that was so and
of whose waiting warps none has become ready (02 R47; 15 R382). -/
def State.lowered (s : State) (c : Nat) (gid : Nat) (g : Group) : Bool :=
  s.hinting.any (fun dev => s.blockedOn c gid dev || g.low.any (fun p => p.1 == dev && s.stillWait c p.2))

/-- A command of a group that targets peers ends: what their hints lower stays so until one of its warps becomes ready. -/
def State.keepLow (s : State) (c gid : Nat) (devs : List Nat) : State :=
  let on := devs.filter (fun d => s.hinting.contains d && s.blockedOn c gid d)
  if on.isEmpty then s
  else
    let ws := ((s.core c).unexited gid).map (fun p => (p.1, p.2.since))
    s.modGroup c gid (fun g => { g with low := g.low.filter (fun p => !(on.contains p.1)) ++ on.map (fun d => (d, ws)) })

/-- A stall hint of peer `dev` becomes current: what an earlier one lowered is forgotten. -/
def State.takeHint (s : State) (dev : Nat) : State :=
  if s.hinted dev then s
  else { s with cores := Tab.mapVal s.cores (fun _ k =>
    { k with groups := Tab.mapVal k.groups (fun _ g => { g with low := g.low.filter (fun p => p.1 != dev) }) }) }

/-! ## COPY_COMPLETE (13 R307, R327, R328) -/

/-- A context released: its request at the port goes with it, and the streams that its command holds. -/
def State.freeCtx (s : State) (c e x : Nat) : State :=
  let cid := match ((s.core c).ctx e x).cmd with | some m => m.cid | none => 0
  ((s.releaseStreams (c, e, x, cid)).modCtx c e x (fun k => { EngCtx.reset with batch := k.batch })).modCore c (fun k =>
    { k with port := { k.port with waiting := k.port.waiting.filter (fun r => !(r.2 == (e, x))) } })

/-- What an AMO that ends with a status gives s[d+1]: its old value, the poison pattern after NACK-POISON, nothing after any other failure
(13 R333). -/
def EngCtx.amoValue (k : EngCtx) (a : AmoArgs) (status : Nat) : Option Nat :=
  if status = 0 then k.result else if status = 0x18 then some (atomPoison a.size) else none

/-- The end of a command with a status: `at_` gives E, the failing address and its space. -/
def State.endCmd (s : State) (c e x : Nat) (m : Cmd) (status n : Nat) (at_ : Nat × DWord × Nat) : State :=
  let k := (s.core c).ctx e x
  let d := match m.what with
    | .slate r => let f := slateOf r; (f.kind, f.cscope, if f.baren then some f.bar else none)
    | .amo a => (3, a.scope, none)
  let s1 := match m.what with
    | .amo a =>
      match k.amoValue a status with
      | some v => s.modWarp c a.slot (fun w => if w.gid = m.gid ∧ a.reg < 63 then w.putS a.reg (BitVec.ofNat 64 v) else w)
      | none => s
    | .slate _ => s.countCore c 0x0B 1
  let s2 := (s1.keepLow c m.gid (m.peers s)).freeCtx c e x
  s2.complete c m.gid m.tl m.seq status m.pc (if status = 0 then n else at_.1) at_.2.1
    (recordWord d.1 at_.2.2 e m.poster d.2.1 (k.fseq.getD 0)) d.2.2

/-- COPY_COMPLETE: a command that has written everything before its end is signalled (13 R307, R328). A failed one does not wait for
packets from its end on that have stayed unacknowledged for the limit (15 R378). -/
def execCopyComplete (core engine ctx : Nat) (s : State) : Host.Outcome State Fault Refusal :=
  let x := (s.core core).ctx engine ctx
  match x.cmd with
  | none => .next s
  | some m =>
    let per := match s.job core engine ctx with | some j => j.f.per | none => 1
    let units := match s.job core engine ctx with | some j => j.f.units | none => 1
    let wrote := fun (u : Nat) => match s.job core engine ctx, s.amoOf core engine ctx with
      | some j, _ => j.wroteAll s u
      | none, some (_, a, _) => decide (u ≤ if a.win then x.sent else x.pre)
      | none, none => decide (u ≤ x.pre)
    let flagDone := match s.job core engine ctx with | some j => j.f.kind != 4 || x.flag == 2 | none => true
    let amount := match s.amoOf core engine ctx with | some _ => 0 | none => units * per
    match x.phase with
    | .running =>
      if !(wrote units) || !flagDone || s.cmdPending core engine ctx m (fun _ => true) then .next s
      else
        match x.poisonAt with
        | some p => .next (s.endCmd core engine ctx m 0x01 amount p)
        | none => .next (s.endCmd core engine ctx m 0 amount (0, 0, 0))
    | .failed st u addr sp =>
      if !(wrote u) || s.cmdPending core engine ctx m (fun o => decide (o.unit < u) || (st != 0x16 && !(s.overdue o))) then .next s
      else .next (s.endCmd core engine ctx m st amount (u * per, addr, sp))
    | _ => .next s

/-- LINK_ABSENCE_TIMEOUT: a command that needs companion memory fails once both links have been away for 1 ms, that is 3,300,000
uncore cycles (18 R432, R439). -/
def execLinkAbsenceTimeout (core engine ctx : Nat) (s : State) : Host.Outcome State Fault Refusal :=
  match s.job core engine ctx with
  | none => .next s
  | some j =>
    let x := j.ctx s
    let wr := j.f.ds == 4
    let u := if wr then x.pre else j.cleared s
    if (j.servable s false && j.servable s true) || x.phase != .running || decide (j.f.units ≤ u) || decide (s.ucycle.toNat < s.pkg.linksLost + 3300000) then .next s
    else .next (j.failAt s u 0x16 (BitVec.ofNat 64 (if wr then j.f.dst else j.f.src)) 4)

/-! ## Write-throughs (11 R276) -/

/-- Act throughHome: the head write-through of a guest line is performed at the home slice. One that fails there is dropped. -/
def throughHome (die asid line : Nat) (s : State) : State :=
  match (s.die die).guestLine asid line with
  | none => s
  | some h =>
    match h.wts with
    | [] => s
    | w :: _ =>
      if h.sent then s
      else
        let r := s.writeHome asid (128 * line + w.off) w.bytes w.bad
        (r.1.countDie die 0x4A w.bytes.length).modDie die (fun d => d.putGuest { h with sent := true })

/-- WRITE_THROUGH_ACK: the home die acknowledges the head write-through; a line with none left is no longer pinned, and goes if a
flush dropped it (11 R276; 16 R408). -/
def execWriteThroughAck (die asid line : Nat) (s : State) : Host.Outcome State Fault Refusal :=
  match (s.die die).guestLine asid line with
  | none => .next s
  | some h =>
    if !h.sent then .next s
    else
      let h1 := { h with wts := h.wts.drop 1, sent := false }
      if h1.wts.isEmpty && h1.drop.isSome then
        .next (s.modDie die (fun d => { d with guest := d.guest.filter (fun x => !(x.asid == asid && x.line == line)) }))
      else .next (s.modDie die (fun d => d.putGuest h1))

/-! ## CPSTAT (13 R329) -/

/-- The units of a job performed at its completion scope. -/
def State.performedUnits (s : State) (j : Job) : Nat :=
  let x := j.ctx s
  let mine := fun (c cid : Nat) => c == j.c && cid == j.cmd.cid
  let lows := if j.f.ds = 3 then (s.packetsOf j.c j.e j.x j.cmd.cid).map OutPacket.unit ++ x.olds.map Prod.fst
    else
      s.dies.flatMap (fun d => (d.2.mcast.filter (fun p => mine p.core p.cid)).map McPacket.unit) ++
      (if j.cmd.wide then (s.die (dieOf j.c)).guest.flatMap (fun h => (h.wts.filter (fun w => mine w.core w.cid)).map WThrough.unit) else [])
  lows.foldl min (if j.f.ds = 3 then x.sent else x.pre)

/-- State 2 or 3 of a command in an engine; 3 does not occur for an AMO. -/
def ctxState (x : EngCtx) : Nat :=
  let amo := match x.cmd with | some m => (match m.what with | .amo _ => true | .slate _ => false) | none => false
  match x.phase with | .running => 2 | .failed _ _ _ _ => 2 | _ => if amo then 2 else 3

/-- The state and P of a command that has not ended, by its timeline and number. -/
def State.liveState (s : State) (c gid tl seq : Nat) : Option (Nat × Nat) :=
  let k := s.core c
  let hit := fun (m : Cmd) => m.gid == gid && m.tl == tl && m.seq == seq
  let inCtx := (List.range 16).find? (fun i => match (k.ctx (i / 8) (i % 8)).cmd with | some m => hit m | none => false)
  if k.copyQ.any hit then some (1, 0)
  else
    match inCtx with
    | some i =>
      let p := match s.job c (i / 8) (i % 8) with | some j => s.performedUnits j * j.f.per | none => 0
      some (ctxState (k.ctx (i / 8) (i % 8)), p)
    | none =>
      if k.matBack.any (fun b => b.cmd.gid == gid && b.cmd.tl == tl && b.cmd.seq == seq) then some (2, 0) else
      match k.matQ.findIdx? (fun m => m.gid == gid && m.tl == tl && m.seq == seq && m.what.takesEntry) with
      | some i => some (if i = 0 ∧ k.matRun.isSome then 2 else 1, 0)
      | none =>
        match k.scanQ.findIdx? (fun m => m.gid == gid && m.tl == tl && m.seq == seq) with
        | some i => some (if i = 0 ∧ k.scanRun.isSome then 2 else 1, 0)
        | none =>
          match (s.die (dieOf c)).coll.find? (fun p => p.2.core == c && p.2.gid == gid && p.2.tl == tl && p.2.seq == seq) with
          | some p => some (if p.2.phase < 2 then 1 else 2, 0)
          | none =>
            match s.group? c gid with
            | some g => if g.flushes.any (fun f => f.tl == tl && f.seq == seq) then some (2, 0) else none
            | none => none

/-- CPSTAT of a numbered command. -/
def State.cmdStat (s : State) (c gid : Nat) (g : Group) (tl seq : Nat) : Nat :=
  let t := g.tl tl
  match s.liveState c gid tl seq with
  | some (st, p) => st * 2 ^ 61 + p % 2 ^ 48
  | none =>
    if seq = 0 ∨ t.next ≤ seq then 5 * 2 ^ 61
    else
      let st := if seq ≤ t.value then 0 else Tab.getD t.ended seq 0
      (if st = 0 then 0 else 4) * 2 ^ 61 + st * 2 ^ 48 + Tab.getD t.counts seq 0 % 2 ^ 48

/-- The free contexts of an engine. -/
def Core.freeCtxs (k : Core) (e : Nat) : Nat := ((List.range 8).filter (fun x => (k.ctx e x).cmd.isNone)).length

/-- CPSTAT. -/
def cpstatSpec (x : Ext) : Spec :=
  let what := modField x 1 0
  let tl := modField x 5 2
  Spec.plain { cntShape 0x3F#10 (if what = 1 then cntPos64 else none) none with bad := decide (2 ≤ what) } (fun i =>
    if i.g.nTl ≤ tl then .trap { cause := 0x0A, tval := BitVec.ofNat 64 tl }
    else if what = 0 then
      i.out (fun _ => i.g.recs % 65536 * 2 ^ 32 + i.k.freeCtxs 1 * 2 ^ 20 + i.k.freeCtxs 0 * 2 ^ 16 + (copyCapacity - i.k.copyQ.length))
    else i.out (fun _ => i.s.cmdStat i.c i.w.gid i.g tl (i.a 0)))
/-- CPSTAT (13 R329). -/
def execCpstat (x : Ext) (s : State) : Host.Outcome State Fault Refusal := runExt cpstatSpec x s

end Sys2Proof.Machine
end

