-- ==== Sys2Proof/Machine/Coll.lean ====
section
/-! DEFINITION. Collectives: COLL, matching, the operations and their nested fold, gateway combining and completion (15 R360 to R369),
and the gateways' multicast buffers (R370). -/

namespace Sys2Proof.Machine

/-! ## The collective block (15 R362) -/

/-- The fields of a collective block (15 Tables 1 and 2). -/
structure CollBlock where
  op : Nat
  tl : Nat
  baren : Bool
  bar : Nat
  group : Nat
  cscope : Nat
  qos : Nat
  tc : Nat
  rop : Nat
  nat : Bool
  fmt : Nat
  ss : Nat
  ds : Nat
  src : Nat
  dst : Nat
  root : Nat
  count : Nat
  deriving DecidableEq, Repr

/-- The fields that four registers hold. -/
def collOf (r : List DWord) : CollBlock :=
  let h := fun hi lo => bitsOf (sreg r 0) hi lo
  { op := h 63 60, tl := h 59 56, baren := hdrBit r 55, bar := h 54 49, group := h 48 44, cscope := h 43 39, qos := h 38 36, tc := h 35 34
    rop := h 33 30, nat := hdrBit r 29, fmt := h 28 25, ss := h 24 22, ds := h 21 19, src := sreg r 1, dst := sreg r 2
    root := bitsOf (sreg r 3) 63 32, count := bitsOf (sreg r 3) 31 0 }

/-- The bytes of an element. -/
def CollBlock.size (b : CollBlock) : Nat := engBytes b.fmt
/-- Whether an operation folds (15 R364). -/
def CollBlock.folds (b : CollBlock) : Bool := b.op == 1 || b.op == 2
/-- Whether member `m` has a source that is read (15 Table 4). -/
def CollBlock.reads (b : CollBlock) (m : Option Nat) : Bool := b.op != 5 && (b.op != 4 || m == some b.root)
/-- The elements of a source among `n` members. -/
def CollBlock.srcLen (b : CollBlock) (n : Nat) : Nat := if b.op = 1 ∨ b.op = 3 then n * b.count else b.count
/-- The elements of a destination among `n` members. -/
def CollBlock.dstLen (b : CollBlock) (n : Nat) : Nat := if b.op = 5 then 0 else if b.op = 0 ∨ b.op = 3 then n * b.count else b.count

/-- The sides of a collective that are used: space, base and elements. SRC is looked at only where it is read. -/
def CollBlock.sides (b : CollBlock) (n : Nat) (m : Option Nat) : List (Nat × Nat × Nat) :=
  (if b.reads m then [(b.ss, b.src, b.srcLen n)] else []) ++ (if b.op = 5 then [] else [(b.ds, b.dst, b.dstLen n)])

/-! ## Checks (15 Table 3) -/

/-- The offending bits of the header under order 1. -/
def collHeaderBad (r : List DWord) (b : CollBlock) : Option Nat :=
  let on := fun (p : Bool) (n : Nat) => if p then some n else none
  lowestOf [lowBit (sreg r 0) 18 0, on (decide (2 < b.ds)) 19, on (decide (2 < b.ss)) 22, on (decide (7 < b.fmt)) 25,
    on (b.folds && b.rop == 0xA && (ieeeOf b.fmt).isNone) 25, on (b.folds && b.rop != 0xA && b.fmt != 3 && b.fmt != 6) 25,
    on (b.nat && !(b.folds && (b.rop == 1 || b.rop == 2))) 29,
    on (if b.folds then decide (5 < b.rop) && b.rop != 0xA else b.rop != 0) 30, on (decide (5 < b.op)) 60]

/-- The lowest offending bit of a base. -/
def collBaseBad (b : CollBlock) (sp v : Nat) : Option Nat := baseBad v sp (if sp = 1 then 1 else max 1 b.size)

/-- The offending bits of s[k+3] among `n` members. -/
def collCountBad (r : List DWord) (b : CollBlock) (n : Option Nat) : Option Nat :=
  if b.op = 5 then lowBit (sreg r 3) 63 0
  else lowestOf [if b.count = 0 then some 0 else none,
    if b.op = 4 then (match n with | some n => if n ≤ b.root then some 32 else none | none => none) else lowBit (sreg r 3) 63 32]

/-- The first register that offends under order 1, with its lowest offending bit (log 14). -/
def collBad (r : List DWord) (b : CollBlock) (n m : Option Nat) : Option (Nat × Nat) :=
  let five := b.op == 5
  let regs := [collHeaderBad r b, if five then lowBit b.src 63 0 else if b.reads m then collBaseBad b b.ss b.src else none,
    if five then lowBit b.dst 63 0 else collBaseBad b b.ds b.dst, collCountBad r b n]
  ((regs.zip [0, 1, 2, 3]).filterMap (fun p => p.1.map (fun n => (p.2, n)))).head?

/-- Whether a handle cannot serve a side of `len` elements. -/
def collTileBad (e : TileEntry) (b : CollBlock) (base len : Nat) : Bool :=
  !e.bound || e.lvl || e.fmt != b.fmt || decide (e.rows * e.cols < baseElem base + len)

/-- The trap of COLL's checks; `o` is the operand that a handle trap names. -/
def collCheck (s : State) (c : Nat) (g : Group) (o : Nat) (r : List DWord) : Option Trap :=
  let b := collOf r
  let e := s.scope? c g.asid b.group
  let m := e.bind (fun e => e.index s.pkg.devid.toNat c)
  let n := e.map Scope.count
  let sides := b.sides (n.getD 0) m
  (collBad r b n m).map (fun p => slateTrap p.1 p.2) <|>
  (lowestOf [if s.scopeOk c g.asid b.cscope then none else some 39, if m.isSome then none else some 44,
    if b.baren && decide (g.nBar ≤ b.bar) then some 49 else none, if g.nTl ≤ b.tl then some 56 else none]).map (slateTrap 0) <|>
  ((((sides.filter (fun p => p.1 == 1)).map (fun p => baseHandle p.2.1)).filter (fun h => decide (g.nTile ≤ h))).min?).map
    (fun h => { cause := 0x05, tval := BitVec.ofNat 64 (o + 1024 + 4096 * h) }) <|>
  ((sides.find? (fun p => p.1 == 1 && collTileBad (handleEntry (s.core c) g (baseHandle p.2.1)) b p.2.1 p.2.2)).map
    (fun p => { cause := 0x09, tval := BitVec.ofNat 64 (baseHandle p.2.1) })) <|>
  ((((sides.filter (fun p => p.1 == 2 && decide (g.scrSize < bitsOf p.2.1 31 0 + p.2.2 * b.size))).map (fun p => max (bitsOf p.2.1 31 0) g.scrSize)).min?).map
    (fun a => { cause := 0x08, tval := BitVec.ofNat 64 a }))

/-! ## COLL -/

/-- The members of a scope entry for device `own`: devices ascending, then cores ascending (15 R360). -/
def Scope.members (e : Scope) (own : Nat) : List (Nat × Nat) := (insertNat e.peers own).flatMap (fun d => e.cores.map (fun c => (d, c)))

/-- The rank of a context's own member. -/
def CollCtx.rank (x : CollCtx) (own : Nat) : Nat := x.members.idxOf (own, x.core)
/-- The block of a context. -/
def CollCtx.b (x : CollCtx) : CollBlock := collOf x.blk

/-- The lowest free context of a die's collective engine. -/
def Die.freeColl (d : Die) : Option Nat := (List.range 64).find? (fun i => (Tab.get? d.coll i).isNone)

/-- The state with a collective context changed. -/
def State.modColl (s : State) (d i : Nat) (f : CollCtx → CollCtx) : State :=
  match Tab.get? (s.die d).coll i with
  | none => s
  | some x => s.modDie d (fun k => { k with coll := Tab.set k.coll i (f x) })

/-- A collective posted into context `i`: the number it took (15 R362, R363). -/
def State.postColl (s : State) (i : Issue) (n : Nat) (r : List DWord) (e : Scope) : State × Nat :=
  let b := collOf r
  let k := s.core i.c
  let count := Tab.getD k.collCount e.tag 0
  let sq := s.takeSeq i.c i.w.gid b.tl
  let m := e.index s.pkg.devid.toNat i.c
  let x : CollCtx := {
    core := i.c, gid := i.w.gid, asid := i.g.asid, cid := k.cid, tl := b.tl, seq := sq.2, pc := i.w.pc.setWidth 64, slot := i.slot, blk := r
    key := { tag := BitVec.ofNat 16 e.tag, k := count }, members := e.members s.pkg.devid.toNat, wide := s.scopeWide i.c i.g.asid b.cscope
    srcTile := if b.reads m then sideTile k i.g b.ss b.src else none, dstTile := if b.op = 5 then none else sideTile k i.g b.ds b.dst
    dstTaskRead := b.op != 5 && b.ds == 1 && taskRead i.g (baseHandle b.dst)
    phase := 0, src := none, status := 0, addr := 0, space := 0, told := [], fseq := none, grants := 0, asked := false, reads := [], wrote := []
    paid := [] }
  let s1 := (sq.1.modGroup i.c i.w.gid (fun g => g.arm k.cid)).modCore i.c (fun k =>
    { k with cid := k.cid + 1, collCount := Tab.set k.collCount e.tag (count + 1) })
  (s1.modDie (dieOf i.c) (fun d => { d with coll := Tab.set d.coll n x }), sq.2)

/-- COLL. -/
def collSpec (x : Ext) : Spec :=
  { Spec.plain { Shape.bare with anyGuard := true, dst := some Dst.uni, a := some (Pos.of [.uni] 64) } (fun i =>
      if !(i.grd.has i.elected) then i.to i.s
      else
        let s := i.s.drain i.c i.slot
        let r := blockRegs i.w (uniNum x.a.op) 4
        match collCheck s i.c i.g x.a.op.code.toNat r with
        | some t => .final (s.trapHere i.c i.slot t)
        | none =>
          match (s.die (dieOf i.c)).freeColl, s.scope? i.c i.g.asid (collOf r).group with
          | some n, some e => let p := s.postColl i n r e; i.posted p.1 p.2
          | _, _ => i.posted s 0)
    with chk := fun _ => blockTrap x }
/-- COLL (15 R362). -/
def execColl (x : Ext) (s : State) : Host.Outcome State Fault Refusal := runExt collSpec x s

/-! ## Failure (15 R366) -/

/-- Whether a context belongs to the collective of another: the same key, and each a member of the other. -/
def CollCtx.with_ (x y : CollCtx) (own : Nat) : Bool := x.key == y.key && x.members.contains (own, y.core) && y.members.contains (own, x.core)

/-- The other members of a context's collective that have not failed are aborted. -/
def State.collAbort (s : State) (x : CollCtx) : State :=
  { s with dies := Tab.mapVal s.dies (fun _ k => { k with coll := Tab.mapVal k.coll (fun _ y =>
      if y.status = 0 ∧ x.with_ y s.pkg.devid.toNat then { y with status := 0x1A } else y) }) }

/-- Member `i` of die `d` fails with a status; every other member that has not failed is aborted. -/
def State.collFail (s : State) (d i status : Nat) (addr : DWord) (space : Nat) : State :=
  match Tab.get? (s.die d).coll i with
  | none => s
  | some x =>
    if x.status ≠ 0 then s else (s.modColl d i (fun x => { x with status := status, addr := addr, space := space })).collAbort x

/-! ## Matching (15 R363) -/

/-- Whether a collective with acceptance number `n` may begin: no mark before it still waits for a command of another kind. An earlier
collective may still run, and the acquire of such a mark is done for the later one (19 R451; log 49). -/
def State.collUnmarked (s : State) (c gid n : Nat) : State × Bool :=
  let u := s.unmarked c gid n
  match u.1.group? c gid with
  | none => u
  | some g =>
    let ms := g.marks.filter (fun m => decide (m.1 ≤ n))
    if ms.all (fun m => u.1.markOver false c gid m.1 m.2) then
      (if ms.any (fun m => m.2.acq && m.2.wide) then u.1.raiseG (dieOf c) else u.1, true)
    else (u.1, false)

/-- A context that is not behind a fence mark begins (13 R334; 11 R279). -/
def State.collBegin (s : State) (d i : Nat) (x : CollCtx) : State :=
  if x.phase ≠ 0 then s
  else
    let u := s.collUnmarked x.core x.gid x.cid
    if u.2 then u.1.modColl d i (fun x => { x with phase := 1 }) else u.1

/-- The parameters that every packet of a member carries. -/
def CollCtx.params (x : CollCtx) : List Nat :=
  let b := x.b
  [b.op, b.fmt, b.rop, flag b.nat, b.count, b.root, x.members.length]

/-- The parameters of a packet of a peer member. -/
def peerParams (p : CollPacket) : List Nat :=
  let b := collOf [p.header, 0#64, 0#64, 0#64]
  [b.op, b.fmt, b.rop, flag b.nat, p.count.toNat, p.root.toNat, p.nmem]

/-- The cores that a context's members name, on every device of the collective (15 R360). -/
def CollCtx.cores (x : CollCtx) (own : Nat) : List Nat := (x.members.filter (fun m => m.1 == own)).map Prod.snd

/-- The packets of a member of another device in a collective: only a device whose entry has the same cores is reached (15 R360). -/
def State.peerPackets (s : State) (x : CollCtx) (m : Nat × Nat) : List CollPacket :=
  s.pkg.peerColl.filter (fun p => p.key == x.key && p.src.toNat == m.1 && p.core == m.2 && p.cores == x.cores s.pkg.devid.toNat)

/-- The context of a member of this device. -/
def State.memberCtx (s : State) (key : CollKey) (c : Nat) : Option CollCtx :=
  ((s.die (dieOf c)).coll.map Prod.snd).find? (fun y => y.key == key && y.core == c)

/-- Whether a core has posted its collective on a key. -/
def Core.countPast (k : Core) (key : CollKey) : Bool := decide (key.k < Tab.getD k.collCount key.tag.toNat 0)

/-- Whether a member has posted, and begun, the collective of context `x`. -/
def State.hasPosted (s : State) (x : CollCtx) (m : Nat × Nat) : Bool :=
  if m.1 = s.pkg.devid.toNat then
    match s.memberCtx x.key m.2 with
    | some y => y.phase != 0
    | none => (s.core m.2).countPast x.key
  else !(s.peerPackets x m).isEmpty

/-- Whether a member's values, as context `x` has received them, differ from its own. -/
def State.differs (s : State) (x : CollCtx) (m : Nat × Nat) : Bool :=
  if m.1 = s.pkg.devid.toNat then
    match s.memberCtx x.key m.2 with
    | some y => y.phase != 0 && !(y.params == x.params && y.members == x.members)
    | none => false
  else (s.peerPackets x m).any (fun p => peerParams p != x.params)

/-- Every context of a key that has received differing values fails with COLL-MISMATCH, whatever else it hears, and the collective aborts
(15 R363, R366). -/
def State.mismatch (s : State) (key : CollKey) : State :=
  let bad := s.dies.flatMap (fun p => (p.2.coll.filter (fun q => q.2.key == key && q.2.phase != 0 && q.2.members.any (s.differs q.2))).map (fun q => (p.1, q.1)))
  let s1 := bad.foldl (fun t p => t.modColl p.1 p.2 (fun x => if x.status = 0 then { x with status := 0x19 } else x)) s
  bad.foldl (fun t p => match Tab.get? (t.die p.1).coll p.2 with | some x => t.collAbort x | none => t) s1

/-- A context that has received differing values fails with them. -/
def State.collCompare (s : State) (x : CollCtx) : State :=
  if x.phase ≠ 0 && x.status == 0 && x.members.any (s.differs x) then s.mismatch x.key else s

/-- A context all of whose members have posted is matched; one that has its source then goes on to its destination. -/
def State.collMatch (s : State) (d i : Nat) (x : CollCtx) : State :=
  if x.status ≠ 0 || !(x.phase == 1 || x.phase == 2) || !(x.members.all (s.hasPosted x)) then s
  else s.modColl d i (fun x => { x with phase := if x.src.isSome then 3 else 2 })

/-! ## Reading a source (15 R364, R365; 17 R422) -/

/-- A context asks its engine's port for one more request (17 R422). -/
def State.askColl (s : State) (d i : Nat) : State :=
  match Tab.get? (s.die d).coll i with
  | none => s
  | some x =>
    if x.asked then s
    else (s.modColl d i (fun x => { x with asked := true })).modDie d (fun k =>
      { k with collPort := { k.collPort with waiting := k.collPort.waiting ++ [(x.b.qos, 3, i)] } })

/-- The 128 bytes that element `e` of a side lies in. -/
def CollBlock.line (b : CollBlock) (sp base e : Nat) : Nat := ((if sp = 0 then base else 0) + e * b.size) / 128

/-- The state in which a context may use 128 bytes of its source, or destination: a request of its own for them has passed the port. -/
def State.payColl (s : State) (d i : Nat) (x : CollCtx) (wr : Bool) (line : Nat) : Option State :=
  if x.paid.contains (wr, line) then some s
  else if x.grants = 0 then none
  else some (s.modColl d i (fun x => { x with grants := x.grants - 1, paid := x.paid ++ [(wr, line)] }))

/-- Where element `e` of a tile lies, in bytes from the tile's start. -/
def tileElemAt (t : TileRef) (size e : Nat) : Nat := if t.cols = 0 then 0 else e / t.cols * t.rstride + e % t.cols * size

/-- The failure of an access of device memory: the engine does not suspend (15 R366). -/
def collErr (e : UnitErr) : Nat × DWord × Nat :=
  match e with
  | .suspend va _ _ => (0x10, BitVec.ofNat 64 va, 0)
  | .fail st a sp => (st, a, sp)

/-- Element `e` of a member's source read. -/
def State.collElem (s : State) (x : CollCtx) (e : Nat) : State × Except UnitErr Marked :=
  let b := x.b
  let n := b.size
  match s.group? x.core x.gid with
  | none => (s, .ok (List.replicate n (0#8, false)))
  | some g =>
    match x.srcTile with
    | some t =>
      let bs := tileRead s x.core t (tileElemAt t n (baseElem b.src + e)) n
      (s.countRead x.core (some t) { space := 1, addr := 0, len := n } bs, .ok bs)
    | none =>
      let a := (if b.ss = 2 then bitsOf b.src 31 0 else b.src) + e * n
      if b.ss = 2 then
        let k := s.core x.core
        let bs := (List.range n).map (fun i => (localByte k g (a + i), localPoison k g (a + i)))
        (s.countRead x.core none { space := 2, addr := a, len := n } bs, .ok bs)
      else if 2 ^ 52 < a + n then (s, .error (.fail 0x10 (BitVec.ofNat 64 (2 ^ 52)) 0))
      else s.readVa (dieOf x.core) x.asid false (n + 1) a n

/-- Whether a member's destination may be written (15 R366). -/
def State.collMayWrite (s : State) (x : CollCtx) : State × Option UnitErr :=
  let b := x.b
  let n := b.dstLen x.members.length * b.size
  if x.dstTaskRead then (s, some (.fail 0x13 (BitVec.ofNat 64 b.dst) 1))
  else if b.op = 5 ∨ b.ds ≠ 0 then (s, none)
  else if 2 ^ 52 < b.dst + n then (s, some (.fail 0x10 (BitVec.ofNat 64 (2 ^ 52)) 0))
  else s.mayWriteSpan x.asid (n / 65536 + 2) b.dst n

/-- A source with its marked elements as poison (13 R312). -/
def collPoison (fmt : Nat) (bs : Marked) : Elem :=
  match ieeeOf fmt with
  | some q =>
    let n := engBytes fmt
    { bytes := (List.range (bs.length / max 1 n)).flatMap (fun i =>
        if (elemOf fmt bs i).bad then toBytes q.poison n else (elemOf fmt bs i).map Prod.fst), bad := [] }
  | none => Marked.elem bs

/-- The elements of the source that a context reads. -/
def CollCtx.srcCount (x : CollCtx) (own : Nat) : Nat := if x.b.reads (some (x.rank own)) then x.b.srcLen x.members.length else 0

/-- The elements of a context's destination. -/
def CollCtx.dstCount (x : CollCtx) : Nat := x.b.dstLen x.members.length

/-- A context may read its source: it has begun, and has not read it yet (15 R363; 19 R451). -/
def CollCtx.reading (x : CollCtx) : Bool := (x.phase == 1 || x.phase == 2) && x.status == 0 && x.src.isNone

/-- A context that has read its whole source looks at its destination, and its source is there; an uncorrectable error fails it with
POISON. -/
def State.collLoaded (s : State) (d i : Nat) (x : CollCtx) : State :=
  let n := x.srcCount s.pkg.devid.toNat
  if !x.reading || decide (x.reads.length < n) then s
  else
    let bs : Marked := x.reads.flatMap (fun p => p.2.bytes.zipIdx.map (fun q => (q.1, p.2.bad.contains q.2)))
    let w := s.collMayWrite x
    match w.2 with
    | some e => let f := collErr e; w.1.collFail d i f.1 f.2.1 f.2.2
    | none =>
      let s1 := w.1.modColl d i (fun x => { x with src := some (collPoison x.b.fmt bs), reads := [] })
      match x.reads.find? (fun p => !p.2.bad.isEmpty) with
      | none => s1
      | some (e, _) =>
        let sp := x.b.ss
        s1.collFail d i 0x01 (badAddr sp x.b.src (if sp = 1 then ((baseElem x.b.src + e : Nat) : Int) else ((bitsOf x.b.src 51 0 + e * x.b.size : Nat) : Int))) sp

/-- Act collRead: a context reads element `e` of its source. -/
def collRead (die ctx e : Nat) (s : State) : State :=
  match Tab.get? (s.die die).coll ctx with
  | none => s
  | some x =>
    if !x.reading || decide (x.srcCount s.pkg.devid.toNat ≤ e) || (Tab.get? x.reads e).isSome then s
    else
      match s.payColl die ctx x false (x.b.line x.b.ss x.b.src e) with
      | none => s.askColl die ctx
      | some s1 =>
        let r := s1.collElem x e
        match r.2 with
        | .error err => let f := collErr err; r.1.collFail die ctx f.1 f.2.1 f.2.2
        | .ok bs => r.1.modColl die ctx (fun x => { x with reads := Tab.set x.reads e (Marked.elem bs) })

/-! ## Packets to peers (15 R371) -/

/-- The peers of a context. -/
def CollCtx.peers (x : CollCtx) (own : Nat) : List Nat := ((x.members.map Prod.fst).dedup).filter (fun p => p != own)

/-- The packets that a context has for each peer by now: its source once read, in one packet at least, and one that tells of its
failure. -/
def CollCtx.packets (x : CollCtx) : Nat :=
  if x.phase = 0 then 0
  else (match x.src with | some e => max 1 ((e.bytes.length + 255) / 256) | none => 0) + (if x.status = 0 then 0 else 1)

/-- Packet `n` of a context to a device: its source in pieces, and last that it has failed; each carries its parameters. -/
def CollCtx.packet (x : CollCtx) (own : BitVec 12) (port n : Nat) : CollPacket :=
  let r := fun (k : Nat) => x.blk.getD k 0#64
  let src := match x.src with | some e => e.bytes | none => []
  { port := port, src := own, tc := BitVec.ofNat 2 x.b.tc, q := 0, core := x.core, cores := x.cores own.toNat, key := x.key, header := r 0
    count := BitVec.ofNat 32 x.b.count, root := BitVec.ofNat 32 x.b.root, nmem := x.members.length, off := 256 * n, data := (src.drop (256 * n)).take 256
    failed := x.status != 0 && n + 1 == x.packets }

/-- One packet of a context sent to a peer, if one is due and its stream has room. The context holds the stream until its last, so that
their numbers are consecutive (15 R375; log 15). -/
def State.collTell (s : State) (d i dev : Nat) : State :=
  match Tab.get? (s.die d).coll i with
  | none => s
  | some x =>
    let n := Tab.getD x.told dev 0
    let port := (s.route dev).port
    let p := x.packet s.pkg.devid port n
    let cost := max 1 ((p.data.length + 127) / 128)
    if x.packets ≤ n then s
    else if (s.route dev).primary == 0x1F then s.collFail d i 0x15 0 0
    else if !(s.streamsReady (x.core, 2, i, x.cid) [dev] x.b.tc 1) then s
    else if x.grants < cost then s.askColl d i
    else
      let r := s.sendPacket dev x.b.tc none
        { q := 0, core := x.core, eng := 2, ctx := i, cid := x.cid, unit := 0, count := 0, off := p.off, kind := 4, flits := flitsOf p.data.length
          born := 0, body := .coll p, stale := false }
      let own := if n + 1 < x.packets then some (x.core, 2, i, x.cid) else none
      (r.1.modStream dev x.b.tc (fun t => { t with owner := own })).modColl d i (fun x => { x with told := Tab.set x.told dev (n + 1), fseq := x.fseq <|> some r.2.toNat, grants := x.grants - cost })

/-- A packet due to each peer. -/
def State.collTellAll (s : State) (d i : Nat) (x : CollCtx) : State := (x.peers s.pkg.devid.toNat).foldl (fun s p => s.collTell d i p) s

/-- Whether a context hears that another member has failed: a peer tells so, or a member of this device has failed, or is gone though it
has posted; after its own destination is written, members of this device may be gone with success (15 R366). -/
def State.hearsFailure (s : State) (x : CollCtx) (m : Nat × Nat) : Bool :=
  if m.1 ≠ s.pkg.devid.toNat then (s.peerPackets x m).any CollPacket.failed
  else
    match s.memberCtx x.key m.2 with
    | some y => y.status != 0
    | none => decide (x.phase < 4) && (s.core m.2).countPast x.key

/-- A context that hears of another member's failure is aborted. -/
def State.collHear (s : State) (d i : Nat) (x : CollCtx) : State :=
  if x.phase ≠ 0 && x.members.any (s.hearsFailure x) then s.collFail d i 0x1A 0 0 else s

/-- One move of a context: it begins, has read its source, tells its peers, compares their values, hears of them, is matched. -/
def State.collMove (s : State) (d i : Nat) : State :=
  let step := fun (s : State) (f : State → CollCtx → State) => match Tab.get? (s.die d).coll i with | some x => f s x | none => s
  let s1 := step s (fun s x => s.collBegin d i x)
  let s2 := step s1 (fun s x => s.collLoaded d i x)
  let s3 := step s2 (fun s x => s.collTellAll d i x)
  let s4 := step s3 (fun s x => s.collCompare x)
  let s5 := step s4 (fun s x => s.collHear d i x)
  step s5 (fun s x => s.collMatch d i x)

/-- COLLECTIVE_MATCHED: the contexts of a collective begin; once every member has posted, it starts, and its sources are read
(15 R363). -/
def execCollectiveMatched (key : CollKey) (s : State) : Host.Outcome State Fault Refusal :=
  let at_ := s.dies.flatMap (fun p => (p.2.coll.filter (fun q => q.2.key == key)).map (fun q => (p.1, q.1)))
  .next (at_.foldl (fun s p => s.collMove p.1 p.2) s)

/-! ## The fold (15 R365) -/

/-- The format in which a collective folds. -/
def CollBlock.foldFmt (b : CollBlock) : Fmt := if b.fmt = 7 then .f64 else .f32

/-- x ⊕ y. -/
def CollBlock.plus (b : CollBlock) (x y : Nat) : Nat :=
  if b.rop = 0xA then (b.foldFmt.addFp 0 (b.foldFmt.unpack x) (b.foldFmt.unpack y)).1 else atomInt b.rop (8 * b.size) b.nat x y 0

/-- fold(x1, …, xr). -/
def CollBlock.fold (b : CollBlock) (xs : List Nat) : Nat := match xs with | [] => 0 | x :: t => t.foldl b.plus x

/-- An element as the fold takes it: BF16 and FP16 exactly as binary32. -/
def CollBlock.up (b : CollBlock) (v : Nat) : Nat :=
  match ieeeOf b.fmt with
  | some q => if b.rop = 0xA ∧ b.size = 2 then (Fmt.f32.convert 0 (q.unpack v)).1 else v
  | none => v

/-- A fold's value rounded once to the format. -/
def CollBlock.down (b : CollBlock) (v : Nat) : Nat :=
  match ieeeOf b.fmt with
  | some q => if b.rop = 0xA ∧ b.size = 2 then (q.convert 0 (Fmt.f32.unpack v)).1 else v
  | none => v

/-- Element `j` of bytes. -/
def CollBlock.elem (b : CollBlock) (bs : List Byte) (j : Nat) : Nat := ofBytes ((bs.drop (j * b.size)).take b.size)

/-- The bytes of a peer member's source, when its packets hold all `n` of them. -/
def State.peerBytes (s : State) (x : CollCtx) (m : Nat × Nat) (n : Nat) : Option (List Byte) :=
  let ps := s.peerPackets x m
  (List.range ((n + 255) / 256)).foldl (fun (t : Option (List Byte)) i =>
    match t, ps.find? (fun p => p.off == 256 * i && p.data.length == min 256 (n - 256 * i) && !p.data.isEmpty) with
    | some bs, some p => some (bs ++ p.data)
    | _, _ => none) (some [])

/-- The source of a member of a collective, once it is there. -/
def State.memberBytes (s : State) (x : CollCtx) (m : Nat × Nat) : Option (List Byte) :=
  let b := x.b
  let n := if b.reads (some (x.members.idxOf m)) then b.srcLen x.members.length * b.size else 0
  if m.1 = s.pkg.devid.toNat then
    match s.memberCtx x.key m.2 with
    | some y => y.src.map Elem.bytes
    | none => none
  else s.peerBytes x m n

/-- The fold of the members of one die of one device, over element `j` of every source. -/
def State.dieFold (s : State) (x : CollCtx) (dev die j : Nat) : Nat :=
  x.b.fold ((x.members.filter (fun m => m.1 == dev && dieOf m.2 == die)).map (fun m => x.b.up (x.b.elem ((s.memberBytes x m).getD []) j)))

/-- The partial that die `dst` holds of die `src`. -/
def State.partial? (s : State) (x : CollCtx) (src dst : Nat) : Option Partial :=
  (s.die dst).partials.find? (fun p => p.key == x.key && p.members == x.members && p.src == src)

/-- The contribution of a die to element `j` as die `at_` has it: its own fold, that of a peer's die, or the partial that crossed
the gateway. -/
def State.dieTerm (s : State) (x : CollCtx) (at_ dev die j : Nat) : Nat :=
  if dev = s.pkg.devid.toNat ∧ die ≠ at_ then (match s.partial? x die at_ with | some p => p.data.getD j 0 | none => 0)
  else s.dieFold x dev die j

/-- The fold over all members for element `j`. -/
def State.memberFold (s : State) (x : CollCtx) (at_ j : Nat) : Nat :=
  let b := x.b
  match x.members with
  | [m] => b.elem ((s.memberBytes x m).getD []) j
  | ms =>
    let devs := (ms.map Prod.fst).dedup
    b.down (b.fold (devs.map (fun dev =>
      b.fold ((([0, 1, 2, 3].filter (fun d => ms.any (fun m => m.1 == dev && dieOf m.2 == d)))).map (fun d => s.dieTerm x at_ dev d j)))))

/-- Element `e` of a member's destination (15 Table 4). -/
def State.collValue (s : State) (x : CollCtx) (at_ e : Nat) : Nat :=
  let b := x.b
  let m := x.rank s.pkg.devid.toNat
  let c := max 1 b.count
  let from_ := fun (i j : Nat) => b.elem ((s.memberBytes x (x.members.getD i (0, 0))).getD []) j
  match b.op with
  | 0 => from_ (e / c) (e % c)
  | 1 => s.memberFold x at_ (m * b.count + e)
  | 2 => s.memberFold x at_ e
  | 3 => from_ (e / c) (m * b.count + e % c)
  | 4 => from_ b.root e
  | _ => 0

/-! ## Gateways (15 R369) -/

/-- GATEWAY_COMBINE: the gateway from die `src` to die `dst`, holding every contribution of its die, folds them in ascending core ID and
sends one partial (15 R369). -/
def execGatewayCombine (key : CollKey) (src dst : Nat) (s : State) : Host.Outcome State Fault Refusal :=
  let own := s.pkg.devid.toNat
  let ready := fun (x : CollCtx) =>
    x.key == key && x.b.folds && x.status == 0 && x.members.any (fun m => m.1 == own && dieOf m.2 == dst) && (s.partial? x src dst).isNone &&
    (x.members.filter (fun m => m.1 == own && dieOf m.2 == src)).all (fun m => (s.memberBytes x m).isSome)
  match if src = dst then none else ((s.die src).coll.map Prod.snd).find? ready with
  | none => .next s
  | some x =>
    let data := (List.range (x.b.srcLen x.members.length)).map (s.dieFold x own src)
    .next ((s.modDie dst (fun d => { d with partials := d.partials ++ [{ key := key, members := x.members, src := src, dst := dst, data := data }] })).countDie
      src 0x4A (data.length * x.b.size) |>.countDie src 0x4B data.length)

/-! ## COLL_MEMBER_COMPLETE (15 R366) -/

/-- Whether everything that a member's result needs is at its die. -/
def State.collReady (s : State) (x : CollCtx) (d : Nat) : Bool :=
  let own := s.pkg.devid.toNat
  let fars := [0, 1, 2, 3].filter (fun k => k != d && x.members.any (fun m => m.1 == own && dieOf m.2 == k))
  x.members.all (fun m => (s.memberBytes x m).isSome) && (!x.b.folds || fars.all (fun k => (s.partial? x k d).isSome))

/-- Element `e` of a member's destination written. -/
def State.collWriteAt (s : State) (x : CollCtx) (e : Nat) (bs : List Byte) : State × Option UnitErr :=
  let b := x.b
  let el : Elem := { bytes := bs, bad := [] }
  match s.group? x.core x.gid, x.dstTile with
  | none, _ => (s, none)
  | some _, some t => (s.writeTileBytes x.core t (tileElemAt t b.size (baseElem b.dst + e)) el, none)
  | some g, none =>
    if b.ds = 2 then (s.writeLocal x.core g (bitsOf b.dst 31 0 + e * b.size) el false, none)
    else
      let r := s.writeVa (dieOf x.core) x.asid { core := x.core, gid := x.gid, cid := x.cid, unit := 0 } (bs.length + 1) (b.dst + e * b.size) el
      (r.1, r.2.map (fun err => ((r.1.collMayWrite x).2).getD (memUnit err b.dst true false)))

/-- A context all of whose destination has been written moves on. -/
def CollCtx.stored (x : CollCtx) : CollCtx := if x.phase = 3 ∧ x.dstCount ≤ x.wrote.length then { x with phase := 4 } else x

/-- The die of this device from which element `e` of a context's destination comes as it is; none where it is folded, or of a peer. -/
def CollCtx.comesFrom (x : CollCtx) (own e : Nat) : Option Nat :=
  let at_ := fun (i : Nat) => let m := x.members.getD i (own, x.core); if m.1 = own then some (dieOf m.2) else none
  match x.b.op with
  | 0 => at_ (e / max 1 x.b.count)
  | 3 => at_ (e / max 1 x.b.count)
  | 4 => at_ x.b.root
  | _ => none

/-- Act collWrite: a context writes element `e` of its destination, once everything that its result needs is at its die. -/
def collWrite (die ctx e : Nat) (s : State) : State :=
  match Tab.get? (s.die die).coll ctx with
  | none => s
  | some x =>
    if x.phase ≠ 3 || x.status != 0 || decide (x.dstCount ≤ e) || x.wrote.contains e || !(s.collReady x die) then s
    else
      match s.payColl die ctx x true (x.b.line x.b.ds x.b.dst e) with
      | none => s.askColl die ctx
      | some s1 =>
        let r := s1.collWriteAt x e (toBytes (s.collValue x die e) x.b.size)
        match r.2 with
        | some err => let f := collErr err; r.1.collFail die ctx f.1 f.2.1 f.2.2
        | none => (r.1.gateway ((x.comesFrom s.pkg.devid.toNat e).getD die) die x.b.size).modColl die ctx (fun x => ({ x with wrote := insertNat x.wrote e } : CollCtx).stored)

/-- A failed member's destination: each element holds its old value or that of Table 4, as the part chooses (15 R366; log 4). -/
def State.collFailedStore (s : State) (d : Nat) (x : CollCtx) : State :=
  let marked := x.members.any (fun m => m.1 == s.pkg.devid.toNat && (match s.memberCtx x.key m.2 with
    | some y => (match y.src with | some e => !e.bad.isEmpty | none => false)
    | none => false))
  if x.phase ≠ 3 || x.dstTaskRead || marked || !(s.collReady x d) then s
  else
    let n := s.free
    let left := (List.range x.dstCount).filter (fun e => !(x.wrote.contains e))
    left.foldl (fun t e => if Config.freeChoice (n + e) % 2 = 0 then t else (t.collWriteAt x e (toBytes (s.collValue x d e) x.b.size)).1)
      { s with free := n + x.dstCount }

/-- Whether a member's collective waits for nothing more: every local member has written or failed, every packet to a peer has been
acknowledged, and at a wide scope its write-throughs have (11 R278). A failed member waits only until it has told its peers; with TIMEOUT
not for one that has left a packet of it unacknowledged for the limit (log 25). -/
def State.collOver (s : State) (d i : Nat) (x : CollCtx) : Bool :=
  let own := s.pkg.devid.toNat
  let silent := fun (p : Nat) => x.status == 0x16 &&
    (s.stream p x.b.tc).unacked.any (fun o => o.eng == 2 && o.core == x.core && o.ctx == i && o.cid == x.cid && s.overdue o)
  let sent := (x.peers own).all (fun p => (s.route p).primary == 0x1F || decide (x.packets ≤ Tab.getD x.told p 0) || silent p)
  (x.status != 0 || x.members.all (fun m => m.1 != own || (match s.memberCtx x.key m.2 with | some y => y.phase == 4 || y.status != 0 | none => true))) &&
  sent && (x.status != 0 || (s.packetsOf x.core 2 i x.cid).isEmpty) &&
  !(x.wide && (s.die d).outstanding (fun w => w.core == x.core && w.cid == x.cid))

/-- What a finished collective leaves behind is dropped once every member of this device has posted: partials and packets that no context
uses. -/
def State.collTidy (s : State) (x : CollCtx) : State :=
  let own := s.pkg.devid.toNat
  let used := s.dies.any (fun p => p.2.coll.any (fun q => q.2.key == x.key && q.2.members == x.members))
  if used || !((x.cores own).all (fun c => (s.core c).countPast x.key)) then s
  else { s with
    dies := Tab.mapVal s.dies (fun _ d => { d with partials := d.partials.filter (fun p => !(p.key == x.key && p.members == x.members)) })
    pkg := { s.pkg with peerColl := s.pkg.peerColl.filter (fun p => !(p.key == x.key && p.cores == x.cores own && x.members.contains (p.src.toNat, p.core))) } }

/-- Whether a context is the last of its collective on its die: the die's other members have posted theirs, and are done with it. -/
def State.collLast (s : State) (d i : Nat) (x : CollCtx) : Bool :=
  (s.die d).coll.all (fun p => p.1 == i || p.2.key != x.key) &&
  (x.cores s.pkg.devid.toNat).all (fun c => dieOf c != d || (s.core c).countPast x.key)

/-- A member's collective ends: its context is free and its completion is signalled (15 R366); with the last of its die the die has
completed it (17 Table 4). E is 0. -/
def State.collEnd (s : State) (d i : Nat) (x : CollCtx) : State :=
  let s1 := (((((s.releaseStreams (x.core, 2, i, x.cid)).keepLow x.core x.gid (x.peers s.pkg.devid.toNat)).modDie d (fun k => { k with
    coll := Tab.erase k.coll i, collPort := { k.collPort with waiting := k.collPort.waiting.filter (fun r => !(r.2 == (3, i))) } }))).countDie d 0x50 (if s.collLast d i x then 1 else 0)).collTidy x
  s1.complete x.core x.gid x.tl x.seq x.status x.pc 0 x.addr (recordWord 0 x.space 0 x.slot x.b.cscope (x.fseq.getD 0))
    (if x.b.baren then some x.b.bar else none)

/-- COLL_MEMBER_COMPLETE: when a member's destination is written, or the member has failed, its COLL completes and is signalled; what a
failed member still writes is performed under CSCOPE first (15 R366; 11 R278). -/
def execCollMemberComplete (die ctx : Nat) (s : State) : Host.Outcome State Fault Refusal :=
  match Tab.get? (s.die die).coll ctx with
  | none => .next s
  | some x =>
    if x.status ≠ 0 then
      .next (if !(s.collOver die ctx x) then s
        else if x.phase = 3 then (s.collFailedStore die x).modColl die ctx (fun x => { x with phase := 4 })
        else s.collEnd die ctx x)
    else if x.phase = 3 then .next (if s.collReady x die then s.modColl die ctx CollCtx.stored else s)
    else if x.phase = 4 ∧ s.collOver die ctx x then .next (s.collEnd die ctx x)
    else .next s

/-! ## Multicast at the gateways (15 R370) -/

/-- The first packet of a list that `p` selects, changed. -/
def modFirst (p : McPacket → Bool) (f : McPacket → McPacket) : List McPacket → List McPacket
  | [] => []
  | m :: t => if p m then f m :: t else m :: modFirst p f t

/-- MULTICAST_PACKET_ARRIVAL: the next packet from die `src` takes an entry of the buffer of 64 at die `dst` (15 R370). -/
def execMulticastPacketArrival (src dst : Nat) (s : State) : Host.Outcome State Fault Refusal :=
  if 64 ≤ ((s.die dst).mcast.filter (fun m => m.src == src && m.buffered)).length then .next s
  else .next (s.modDie dst (fun d => { d with mcast := modFirst (fun m => m.src == src && !m.buffered) (fun m => { m with buffered := true }) d.mcast }))

/-- Bytes that may cross lines, written at their coherence points; a line that fails is left as it is. -/
def State.writeSpan (s : State) (asid : Nat) (bad : Bool) : Nat → Nat → List Byte → State
  | 0, _, _ => s
  | fuel + 1, va, bs =>
    if bs.isEmpty then s
    else
      let m := min bs.length (128 - va % 128)
      (s.writeHome asid va (bs.take m) bad).1.writeSpan asid bad fuel (va + m) (bs.drop m)

/-- Act branch: a home slice accepts the bytes of a buffered packet that go to `va`; the entry is free once every branch has accepted. -/
def branch (src dst va : Nat) (s : State) : State :=
  let sel := fun (m : McPacket) => m.src == src && m.buffered && m.vas.any (fun v => v.1 == va)
  match (s.die dst).mcast.find? sel with
  | none => s
  | some m =>
    match m.vas.find? (fun v => v.1 == va) with
    | none => s
    | some (_, off, n) =>
      let e := m.data.part off n
      let s1 := s.writeSpan m.asid (!e.bad.isEmpty) (n + 1) va e.bytes
      let left := fun (m : McPacket) => { m with vas := m.vas.erase (va, off, n) }
      s1.modDie dst (fun d => { d with mcast := (modFirst sel left d.mcast).filter (fun m => !(m.buffered && m.vas.isEmpty)) })

end Sys2Proof.Machine
end

