-- ==== Sys2Proof/Machine/Place.lean ====
section
/-! DEFINITION. Placing a group on a core and releasing it: the resources of 02 Table 6, the dealing of warps, the state that a placed
group starts from, grips at attach, and the clearing of released resources (02 R42 to R45; 14 R338, R354; 09 R237, R238). -/

namespace Sys2Proof.Machine

/-! ## What a kernel declares (16 Table 11) -/

/-- NGRAN. -/
def KernelEntry.ngran (e : KernelEntry) : Nat := e.hdr 59 54
/-- SCRKIB. -/
def KernelEntry.scrKib (e : KernelEntry) : Nat := e.hdr 53 45
/-- WBUF. -/
def KernelEntry.wbuf (e : KernelEntry) : Nat := e.hdr 44 41
/-- NACC. -/
def KernelEntry.nacc (e : KernelEntry) : Nat := e.hdr 40 36
/-- Tile handles. -/
def KernelEntry.ntile (e : KernelEntry) : Nat := 16 * e.hdr 35 31
/-- NBAR. -/
def KernelEntry.nbar (e : KernelEntry) : Nat := e.hdr 30 24
/-- NTL. -/
def KernelEntry.ntl (e : KernelEntry) : Nat := e.hdr 23 19

/-! ## Free resources (02 R42, R43) -/

/-- Register granules free on a scheduler. -/
def Core.granFree (k : Core) (q : Nat) : Nat :=
  256 - ((k.warps.filter (fun p => schedOf p.1 == q)).map (fun p => p.2.ngran)).sum

/-- The scheduler with the most free granules, a tie going to the lower index. -/
def Core.mostFree (k : Core) : Nat := [1, 2, 3].foldl (fun b q => if k.granFree b < k.granFree q then q else b) 0

/-- The lowest slot of scheduler `q` that is free and not in `taken`, where the scheduler has `n` granules left. -/
def Core.slotIn (k : Core) (n : Nat) (taken : List (Nat × Nat)) (q : Nat) : Option Nat :=
  let mine := (taken.filter (fun p => schedOf p.2 == q)).length
  if k.granFree q < (mine + 1) * n then none
  else ((List.range 16).map (fun i => 16 * q + i)).find? (fun i => (Tab.get? k.warps i).isNone && !(taken.any (fun p => p.2 == i)))

/-- Warps dealt in index order, the next one from scheduler `q` on (02 R43): warp indexes with their slots. -/
def Core.deal (k : Core) (n : Nat) : Nat → Nat → Nat → List (Nat × Nat) → Option (List (Nat × Nat))
  | 0, _, _, acc => some acc
  | left + 1, w, q, acc =>
    match ([0, 1, 2, 3].map (fun i => (q + i) % 4)).findSome? (fun q => k.slotIn n acc q) with
    | none => none
    | some i => k.deal n left (w + 1) ((schedOf i + 1) % 4) (acc ++ [(w, i)])

/-- The lowest start of `n` contiguous units among `total` that misses every used run. -/
def freeStart (used : List (Nat × Nat)) (total n : Nat) : Option Nat :=
  (List.range (total + 1 - n)).find? (fun b => used.all (fun u => decide (u.1 + u.2 ≤ b) || decide (b + n ≤ u.1)))

/-- The lowest `n` units below `total` that are not used. -/
def freeUnits (used : List Nat) (total n : Nat) : Option (List Nat) :=
  let f := (List.range total).filter (fun u => !(used.contains u))
  if f.length < n then none else some (f.take n)

/-- Where a group's resources lie on a core. -/
structure Alloc where
  slots : List (Nat × Nat)
  scrBase : Nat
  accs : List Nat
  wunits : List Nat
  tileBase : Nat
  deriving DecidableEq, Repr

/-- The resources of a group beside its warp slots; none where one is lacking. Which free accumulators, weight units, and runs of
scratchpad and of tile handles a group takes, the specification leaves to the core: the lowest (DESIGN CHOICE, log 41). -/
def Core.allocRest (k : Core) (e : KernelEntry) (slots : List (Nat × Nat)) : Option Alloc :=
  let gs := k.groups.map Prod.snd
  let room := decide ((gs.map Group.nBar).sum + e.nbar ≤ 64) && decide ((gs.map Group.nTl).sum + e.ntl ≤ 16) &&
    !(e.gripsOn && gs.any (fun g => g.kernel.gripsOn))
  match freeStart (gs.map (fun g => (g.scrBase / 1024, g.scrSize / 1024))) 256 e.scrKib,
      freeUnits (gs.flatMap Group.accs) 16 e.nacc, freeUnits (gs.flatMap Group.wunits) 8 e.wbuf,
      freeStart (gs.map (fun g => (g.tileBase, g.nTile))) 256 e.ntile with
  | some b, some a, some w, some t => if room then some { slots := slots, scrBase := 1024 * b, accs := a, wunits := w, tileBase := t } else none
  | _, _, _, _ => none

/-- Whether a group of `w` warps fits on a core, and where (02 R42, R43). -/
def Core.fit (k : Core) (e : KernelEntry) (w : Nat) : Option Alloc :=
  if k.held then none else (k.deal e.ngran w 0 k.mostFree []).bind (k.allocRest e)

/-- Whether a restored group fits in its recorded slots (09 R239). -/
def Core.fitSlots (k : Core) (e : KernelEntry) (slots : List (Nat × Nat)) : Option Alloc :=
  if k.held || !(slots.all (fun p => (Tab.get? k.warps p.2).isNone)) ||
      !([0, 1, 2, 3].all (fun q => decide ((slots.filter (fun p => schedOf p.2 == q)).length * e.ngran ≤ k.granFree q))) then none
  else k.allocRest e slots

/-- A core as it would be without some groups. -/
def Core.without (k : Core) (gids : List Nat) : Core :=
  { k with warps := k.warps.filter (fun p => !(gids.contains p.2.gid)), groups := k.groups.filter (fun p => !(gids.contains p.1)) }

/-! ## A group's start (02 R45; 14 R338) -/

/-- What a launch gives a group. -/
structure Birth where
  asid : Nat
  kid : Nat
  kernel : KernelEntry
  gridId : Nat
  taskIdx : Option Nat
  idgrid : Nat
  idgroup : Nat
  idclus : Nat
  nWarps : Nat
  nGroups : Nat
  nClusters : Nat
  prio : Nat
  deadchk : Bool
  cast : Bool
  args : List DWord
  tslice : Nat
  deriving DecidableEq, Repr

/-- A group right after placement. -/
def freshGroup (b : Birth) (a : Alloc) : Group :=
  { asid := b.asid, kid := b.kid, kernel := b.kernel, gridId := b.gridId, taskIdx := b.taskIdx, idgrid := b.idgrid,
    idgroup := b.idgroup, idclus := b.idclus, nWarps := b.nWarps, nGroups := b.nGroups, nClusters := b.nClusters,
    basePrio := b.prio, deadchk := b.deadchk, args := b.args, scrBase := a.scrBase, scrSize := 1024 * b.kernel.scrKib,
    accs := a.accs, wunits := a.wunits, tileBase := a.tileBase, nTile := b.kernel.ntile, nBar := b.kernel.nbar,
    nTl := b.kernel.ntl, tslice := b.tslice, slice := 0, fpEn := 0, fpFlags := 0, clen := 2, thresh := 0x100, nfail := 0,
    fstat := 0, ftl := 0, fseq := 0, fatal := false, asyncen := false, err := false, bars := [], tls := [], recs := 0,
    castOpen := b.cast, castQ := [], castNew := 0, low := [], flushes := [], drained := [], redFail := none, mark := none, marks := [],
    stopped := false, restoring := false, saving := false, reported := false }

/-- ITEM of a lane at placement. -/
def argItems (args : List DWord) : Tab DWord := (List.range 8).map (fun l => (l, args.getD l 0))

/-- A warp right after placement: first instruction next. -/
def freshWarp (b : Birth) (gid widx now : Nat) : Warp :=
  let pc := BitVec.ofNat 52 (b.kernel.codeVa + b.kernel.entry)
  { gid := gid, widx := widx, ngran := b.kernel.ngran, pc := pc, runStart := pc, runPos := 0, handler := false,
    active := BitVec.allOnes 32, idle := 0, exited := 0, split := [], v := [], s := [], p := [], m := [],
    iditem := argItems b.args, cache := [], ld := 0, st := 0, cp := 0, tl := 0, storeQ := [], sqSeq := 0, loads := [],
    loadId := 0, tiles := [], tcause := 0, tpc := 0, tval := 0, trunpc := pc.setWidth 64,
    tframe := BitVec.ofNat 18 (b.kernel.fbase + 0x400 * widx), splCount := 0, splLimit := BitVec.ofNat 12 b.kernel.spllim,
    splBase := BitVec.ofNat 18 b.kernel.splbase, sslo := 0, sshiW := false, sshiMask := 0, waiting := none, pend := none,
    preempt := false, halted := false, bpSkip := false, relatch := none, since := now, issueFrom := now, due := [], regPoison := [], tagPoison := [] }

/-- A warp placed for restore (09 R238). -/
def restoredWarp (b : Birth) (gid widx now : Nat) (vector : VAddr) : Warp :=
  { freshWarp b gid widx now with
    pc := vector, runStart := vector, handler := true, tcause := 0x30, tval := 1, trunpc := vector.setWidth 64 }

/-! ## Clearing (02 R45) -/

/-- A run of scratchpad cleared: words 0, tags empty. -/
def Core.clearScratch (k : Core) (base n : Nat) : Core :=
  let out := fun (x : Nat) => !(decide (base ≤ 4 * x) && decide (4 * x < base + n))
  { k with scratch := Memory.clear k.scratch base n, full := k.full.filter out, scratchPoison := k.scratchPoison.filter out }

/-- Accumulators cleared to +0. -/
def Core.clearAccs (k : Core) (accs : List Nat) : Core :=
  accs.foldl (fun k a => { k with
    acc := Memory.clear k.acc (16384 * a) 16384
    accPoison := k.accPoison.filter (fun u => u / 2048 != a)
    accOrder := Tab.erase k.accOrder a }) k

/-- Weight units emptied. -/
def Core.clearWeights (k : Core) (ws : List Nat) : Core :=
  ws.foldl (fun k w => { k with
    weight := Memory.clear k.weight (65536 * w) 65536
    loaded := k.loaded.filter (fun u => u / 1024 != w)
    weightPoison := k.weightPoison.filter (fun u => u / 8192 != w) }) k

/-- The resources of a group cleared. -/
def Core.clearFor (k : Core) (g : Group) : Core :=
  let k1 := ((k.clearScratch g.scrBase g.scrSize).clearAccs g.accs).clearWeights g.wunits
  { k1 with tileTable := k1.tileTable.filter (fun p => !(decide (g.tileBase ≤ p.1) && decide (p.1 < g.tileBase + g.nTile))) }

/-- A scheduler whose warp is gone selects again. -/
def Scheduler.forget (q : Scheduler) (slots : List Nat) : Scheduler :=
  match q.cur with
  | some i => if slots.contains i then { q.clearLatches with cur := none, midRun := false, lposn := [] } else q
  | none => q

/-- A group's resources released and cleared (02 R45, R52; 09 R237). Items left in its casting queue go with it (14 R349); a running
grip stops where it stands (14 R357). -/
def State.release (s : State) (c gid : Nat) : State :=
  match s.group? c gid with
  | none => s
  | some g =>
    s.modCore c (fun k =>
      let slots := k.slotsOf gid
      let k1 := k.clearFor g
      { k1 with
        warps := k1.warps.filter (fun p => p.2.gid != gid)
        groups := Tab.erase k1.groups gid
        scheds := Tab.mapVal k1.scheds (fun _ q => q.forget slots)
        grips := Tab.mapVal k1.grips (fun _ x => if x.gid = some gid then Grip.reset else x)
        red := Tab.mapVal k1.red (fun _ es => es.filter (fun e => e.gid != gid))
        tagQ := k1.tagQ.filter (fun t => match t with
          | .warp i => !(slots.contains i)
          | .grip x => (k.grip x).gid != some gid) })

/-! ## Grips at attach (14 R354) -/

/-- The VA and the length of an image: 0 the loader's, 1 the storer's. -/
def KernelEntry.image (e : KernelEntry) (g : Nat) : Nat × Nat := (e.dword (5 + g), bitsOf (e.dword 7) (16 * g + 15) (16 * g))

/-- A grip's instruction store loaded; an image that cannot be read leaves a fetch fault at pc 0. -/
def State.loadImage (s : State) (c g asid : Nat) (e : KernelEntry) : State :=
  let im := e.image g
  let r := s.readVa (dieOf c) asid false 258 im.1 im.2
  match r.2 with
  | .error _ => r.1.modGrip c g (fun x => { x with istore := [], ipoison := [], fetchFault := true })
  | .ok bs =>
    r.1.modGrip c g (fun x => { x with
      istore := Memory.writeN [] 0 (bs.map Prod.fst)
      ipoison := (bs.marks.map (fun i => i / 8)).dedup, fetchFault := false })

/-- A grip attached to a group: `run` 1, or 0 while its group waits for its restore handler. -/
def State.attachGrip (s : State) (c gid g : Nat) (b : Birth) (run : Nat) : State :=
  (s.modGrip c g (fun _ => { Grip.reset with gid := some gid, run := run, x := (List.range 8).map (fun i => (10 + i, b.args.getD i 0)) })).loadImage
    c g b.asid b.kernel

/-! ## Placing -/

/-- TSLICE of a context as it stands (16 R393; 02 R49). -/
def State.tsliceOf (s : State) (asid : Nat) : Nat := bitsOf (s.ctxDword asid 0x0A10) 31 0

/-- A group placed on a core: its number on the package, its resources cleared, its warps in their slots, its grips attached. -/
def State.placeGroup (s : State) (c : Nat) (b : Birth) (a : Alloc) (warp : Nat → Nat → Nat → Warp) (grips : Nat) : State :=
  let gid := s.pkg.nextGid
  let g := freshGroup b a
  let s1 := (s.modPkg (fun p => { p with nextGid := gid + 1 })).modCore c (fun k =>
    let k1 := k.clearFor g
    { k1 with
      groups := Tab.set k1.groups gid g
      warps := a.slots.foldl (fun t p => Tab.set t p.2 (warp gid p.1 k.cycle.toNat)) k1.warps })
  if b.kernel.gripsOn then [0, 1].foldl (fun s g => s.attachGrip c gid g b grips) s1 else s1

/-- A group placed for the first time. -/
def State.placeNew (s : State) (c : Nat) (b : Birth) (a : Alloc) : State := s.placeGroup c b a (freshWarp b) 1

end Sys2Proof.Machine
end

