-- ==== Sys2Proof/Machine/Tables.lean ====
section
/-! DEFINITION. The table instructions: TLBFLUSH, TLBSYNC, ASIDRET, SGWR, TTRD and BWSET, and how a retired ASID becomes free (16 R384,
R391 to R410). -/

namespace Sys2Proof.Machine

/-- IL-OPC of an instruction that only a system kernel may execute (16 R384). -/
def sysOnly (i : Issue) : Option Trap := if i.g.kernel.sys then none else raise 0x01 0

/-- A system instruction. -/
def sysSpec (sh : Shape) (body : Issue → Eff) : Spec := { Spec.plain sh body with pre := sysOnly }

/-- SLATE of an ASID operand with bits [31:16] set (16 R407). -/
def asidTrap (v : Nat) : Option Trap := if 0x10000 ≤ v then raise 0x0A 0 else none

/-! ## TLBFLUSH and TLBSYNC (16 R408, R409) -/

/-- Translations of an ASID removed from a stack's base die. -/
def Stack.flush (k : Stack) (asid : Nat) : Stack :=
  { k with tlb := k.tlb.filter (fun e => e.asid != asid), walk := k.walk.filter (fun e => e.asid != asid) }

/-- Every dirty home line of an ASID on a die written back. -/
def State.cleanDie (s : State) (d asid : Nat) : State :=
  ((s.die d).home.filter (fun h => h.asid == asid)).foldl (fun s h => s.writeBack h) s

/-- A die's lines of an ASID after flush number `n`: home lines clean and without TV; guest lines dropped, pinned ones when they are
acknowledged. -/
def Die.flush (d : Die) (asid n : Nat) : Die :=
  { d with
    home := d.home.map (fun h => if h.asid = asid then { h with tv := false, dirty := false } else h)
    guest := (d.guest.filter (fun h => h.asid != asid || h.pinned)).map (fun h => if h.asid = asid then { h with drop := h.drop <|> some n } else h) }

/-- TLBFLUSH of one ASID (16 R408): nothing if it is free. -/
def State.tlbFlush (s : State) (asid : Nat) : State :=
  if (s.asid asid).state = 0 then s
  else
    let s1 := [0, 1, 2, 3].foldl (fun s d => s.cleanDie d asid) s
    { s1 with
      pkg := { s1.pkg with hstacks := Tab.mapVal s1.pkg.hstacks (fun _ k => k.flush asid), flushNum := s.pkg.flushNum + 1 }
      dies := Tab.mapVal s1.dies (fun _ d => d.flush asid s.pkg.flushNum) }

/-- TLBFLUSH. -/
def tlbflushSpec (_x : Ext) : Spec :=
  sysSpec { Shape.bare with a := cntPos } (fun i =>
    match asidTrap (i.a 0) with
    | some t => .trap t
    | none => i.to (i.s.tlbFlush (i.a 0)))
/-- TLBFLUSH (16 R408). -/
def execTlbflush (x : Ext) (s : State) : Host.Outcome State Fault Refusal := runExt tlbflushSpec x s

/-- Whether the first `n` flushes and retirements have finished: no guest line that they drop and no ASID that they retire is left
(16 R409). -/
def State.flushesDone (s : State) (n : Nat) : Bool :=
  s.dies.all (fun p => p.2.guest.all (fun h => match h.drop with | some k => decide (n ≤ k) | none => true)) &&
  s.pkg.asids.all (fun p => p.2.state != 2 || decide (n < p.2.ret))

/-- TLBSYNC: it waits for the flushes and retirements issued before it. -/
def tlbsyncSpec (x : Ext) : Spec :=
  sysSpec Shape.bare (fun i =>
    let n := match i.w.waiting with | some t => t.flushes | none => i.s.pkg.flushNum
    if i.s.flushesDone n then i.to i.s else .hold { i.wait (.tlbsync x) with flushes := n } i.s)
/-- TLBSYNC (16 R409). -/
def execTlbsync (x : Ext) (s : State) : Host.Outcome State Fault Refusal := runExt tlbsyncSpec x s

/-- TLBSYNC_DONE: every earlier flush has finished (16 R409). -/
def execTlbsyncDone (core slot : Nat) (s : State) : Host.Outcome State Fault Refusal :=
  match s.waitOf core slot with
  | some t => match t.instr with
    | .tlbsync x => if s.flushesDone t.flushes then resume s core slot (execTlbsync x) else .next s
    | _ => .next s
  | none => .next s

/-! ## ASIDRET (16 R410) -/

/-- Whether a command of an ASID has not completed on a core: in its copy queue, engines, reduction buffers or drains, or for one of its
groups in the matrix and scan queues or among its flushes. -/
def Core.commandOf (k : Core) (a : Nat) : Bool :=
  let own := fun (gid : Nat) => match Tab.get? k.groups gid with | some g => g.asid == a | none => false
  k.copyQ.any (fun m => m.asid == a) || k.ctxs.any (fun p => p.2.cmd.any (fun m => m.asid == a)) ||
  k.red.any (fun p => p.2.any (fun e => e.asid == a)) || k.contribs.any (fun x => x.entry.asid == a) ||
  k.matQ.any (fun m => own m.gid) || k.matBack.any (fun b => own b.cmd.gid) || k.scanQ.any (fun m => own m.gid)

/-- Whether an ASID is in use: groups, pending work, a call sheet, an enabled launch queue, a command, or an inbound packet. -/
def State.asidInUse (s : State) (a : Nat) : Bool :=
  s.cores.any (fun p => p.2.commandOf a) || s.dies.any (fun d => d.2.coll.any (fun x => x.2.asid == a) || d.2.mcast.any (fun x => x.asid == a)) ||
  s.cores.any (fun p => p.2.groups.any (fun g => g.2.asid == a) || p.2.tasks.any (fun t => t.asid == a && decide (t.state < 3))) ||
  s.pkg.halted.any (fun h => h.asid == a) || s.pkg.grids.any (fun g => g.2.asid == a && decide (g.2.state < 2)) ||
  s.pkg.arriving.any (fun m => m.2.asid == a) || (List.range 8).any (fun q => let l := Tab.getD s.pkg.lqs (8 * a + q) LaunchQueue.reset; l.en || l.sheet.isSome) || s.pkg.sheets.any (fun x => x.2.asid == a) ||
  s.pkg.targets.any (fun t => t.2.held.any (fun i => match i with
    | .write p => p.asid.toNat == a
    | .read p => p.asid.toNat == a
    | .atomic p => p.asid.toNat == a
    | .flag p => p.asid.toNat == a
    | .coll _ => false))

/-- The status of a retirement asked by a group of ASID `own`, if any: the checks in the order 1, 3, 2. -/
def State.retireStatus (s : State) (own : Option Nat) (a : Nat) : Nat :=
  if (s.asid a).state ≠ 1 then 1 else if own = some a then 3 else if s.asidInUse a then 2 else 0

/-- An ASID's STATE replaced. -/
def State.setAsidState (s : State) (a st : Nat) : State :=
  s.modPkg (fun p => { p with asids := Tab.set p.asids a { (s.asid a) with state := st } })

/-- A retirement accepted: the ASID is retiring, and its translations and lines go (16 R410). -/
def State.beginRetire (s : State) (a : Nat) : State :=
  let n := s.pkg.flushNum
  (s.modPkg (fun p => { p with asids := Tab.set p.asids a { (s.asid a) with state := 2, ret := n + 1 } })).tlbFlush a

/-- ASIDRET. -/
def asidretSpec (_x : Ext) : Spec :=
  sysSpec (cntShape 0 cntPos none) (fun i =>
    match asidTrap (i.a 0) with
    | some t => .trap t
    | none =>
      let st := i.s.retireStatus (some i.g.asid) (i.a 0)
      .done { i.res with s := if st = 0 then i.s.beginRetire (i.a 0) else i.s, out := fun _ => st })
/-- ASIDRET (16 R410). -/
def execAsidret (x : Ext) (s : State) : Host.Outcome State Fault Refusal := runExt asidretSpec x s

/-- ASID_FREED: a retiring ASID's lines are gone and its STATE becomes free (16 R410). A pinned guest line holds it up. -/
def execAsidFreed (asid : Nat) (s : State) : Host.Outcome State Fault Refusal :=
  if (s.asid asid).state ≠ 2 then .next s
  else
    let s1 := s.tlbFlush asid
    if s1.dies.any (fun p => p.2.guest.any (fun h => h.asid == asid)) then .next s1
    else
      let s2 := { s1 with dies := Tab.mapVal s1.dies (fun _ d => { d with home := d.home.filter (fun h => h.asid != asid) }) }
      .next (s2.setAsidState asid 0)

/-! ## SGWR (16 R399) -/

/-- Dwords of a local image. -/
def localDwords (k : Core) (g : Group) (a n : Nat) : List Nat := (List.range n).map (fun i => ofBytes (localRead k g (a + 8 * i) 8))

/-- A scope entry of a context written. -/
def State.writeScope (s : State) (asid g : Nat) (bs : List Byte) : State := s.writePhys ((s.asid asid).ctx + 64 * g) bs

/-- The trap of SGWR's checks; a poisoned word of the image raises POISON. -/
def sgwrTrap (s : State) (i : Issue) : Option Trap :=
  let g := i.a 0
  let a := i.b 0
  let k := s.core i.c
  if g < 4 ∨ 31 < g then raise 0x0A 0
  else if a % 64 ≠ 0 ∨ i.g.scrSize < a + 64 then raise 0x08 a
  else
    match (List.range 64).find? (fun j => localPoison k i.g (a + j)) with
    | some j => raise 0x11 (a + j / 4 * 4)
    | none =>
      let dws := localDwords k i.g a 8
      if bitsOf (dws.getD 3 0) 63 63 == 1 && !(imageOk s.pkg.devid.toNat dws) then raise 0x0A 0 else none

/-- SGWR: the entry is written at once, and the warp waits in place until every die holds it (log 5). -/
def sgwrSpec (x : Ext) : Spec :=
  sysSpec { Shape.bare with a := cntPos, b := cntPos } (fun i =>
    if i.w.waiting.isSome then i.to i.s
    else
      let s := i.s.drain i.c i.slot
      match sgwrTrap s i with
      | some t => .final (s.trapRead i.c i.slot t)
      | none => .hold (i.wait (.sgwr x)) (s.writeScope i.g.asid (i.a 0) (localRead (s.core i.c) i.g (i.b 0) 64)))
/-- SGWR (16 R399). -/
def execSgwr (x : Ext) (s : State) : Host.Outcome State Fault Refusal := runExt sgwrSpec x s

/-- SGWR_DONE: every die holds the new entry (16 R399). -/
def execSgwrDone (core slot : Nat) (s : State) : Host.Outcome State Fault Refusal :=
  match (s.waitOf core slot).map Waiting.instr with
  | some (.sgwr x) => resume s core slot (execSgwr x)
  | _ => .next s

/-! ## TTRD and BWSET (16 R394, R395, R406) -/

/-- The two dwords of a tile-table entry; an unbound one reads as zero (16 Table 6). -/
def TileEntry.words (e : TileEntry) : Nat × Nat :=
  if e.bound then
    (2 ^ 63 + flag e.lvl * 2 ^ 62 + e.fmt * 2 ^ 58 + e.rows * 2 ^ 40 + e.cols * 2 ^ 24 + e.rstride * 2 ^ 12,
     e.gen * 2 ^ 48 + e.name * 2 ^ 40 + flag e.task * 2 ^ 39 + e.banks * 2 ^ 36 + e.base)
  else (0, 0)

/-- A pair of uniform registers written from s[n]; s63 and beyond discard. -/
def Warp.putPair (w : Warp) (n lo hi : Nat) : Warp :=
  let w1 := w.putS n (BitVec.ofNat 64 lo)
  if n + 1 < 63 then w1.putS (n + 1) (BitVec.ofNat 64 hi) else w1

/-- TTRD. -/
def ttrdSpec (x : Ext) : Spec :=
  { Spec.plain { Shape.bare with dst := some Dst.uni, a := cntPos } (fun i =>
      let e := (handleEntry i.k i.g (i.a 0)).words
      i.to (i.s.modWarp i.c i.slot (fun w => w.putPair (uniNum x.dst) e.1 e.2)))
    with chk := fun i => handleTrap i.g x.a.op (i.a 0) 1 }
/-- TTRD (16 R395). -/
def execTtrd (x : Ext) (s : State) : Host.Outcome State Fault Refusal := runExt ttrdSpec x s

/-- Whether a die's weights still sum to at most 256 with one replaced. -/
def weightsOk (w : List Nat) : Bool := decide (w.sum ≤ 256)

/-- BWSET. -/
def bwsetSpec (x : Ext) : Spec :=
  sysSpec (cntShape 1#10 cntPos cntPos) (fun i =>
    if 7 < i.a 0 ∨ 255 < i.b 0 then .trap { cause := 0x0A, tval := 0 }
    else
      let ds := if modBit x 0 then [0, 1, 2, 3] else [dieOf i.c]
      let new := fun d => List.set (i.s.die d).weights (i.a 0) (i.b 0)
      if ds.all (fun d => weightsOk (new d)) then
        i.to (ds.foldl (fun s d => s.modDie d (fun k => { k with weights := new d })) i.s)
      else i.out (fun _ => 1))
/-- BWSET (16 R406). -/
def execBwset (x : Ext) (s : State) : Host.Outcome State Fault Refusal := runExt bwsetSpec x s

end Sys2Proof.Machine
end

