-- ==== Sys2Proof/Machine/Launch.lean ====
section
/-! DEFINITION. The launch unit: kernel-table checks, grid records, launch queues, call sheets, LAUNCH, pending clusters and the
event that takes a launch entry (14 R336 to R342; 16 R400, R401; 02 R44, R46). -/

namespace Sys2Proof.Machine

/-! ## Reports (14 R337, R340) -/

/-- A LAUNCH-FAULT event of a die's launch unit: `what` 0 ring entry, 1 node, 2 STATUS, 3 DONE. -/
def State.launchFault (s : State) (d asid cause what queue va : Nat) : State :=
  s.event d (dieSource d 0) 0x08 asid 0xFF 0 (cause * 2 ^ 56 + what * 256 + queue) va

/-- The launch units as writers of the record at an address: the completion word of a record waits for its STATUS (14 R340). -/
def launchWriter (recVa : Nat) : Writer := { core := 0x1FD, gid := 0, cid := recVa, unit := 0 }

/-- Whether a STATUS of a record is still on its way home. -/
def State.statusPending (s : State) (d recVa : Nat) : Bool := (s.die d).outstanding (fun w => w.core == 0x1FD && w.cid == recVa)

/-- STATUS written at a record by the launch unit of die `d`; a write that faults is dropped and reported. -/
def State.putStatus (s : State) (d asid queue recVa state reason nfg : Nat) : State :=
  let r := s.writeDev d asid (recVa + 8) (toBytes (state * 2 ^ 56 + reason * 2 ^ 48 + nfg) 8) false (launchWriter recVa)
  match r.2 with
  | none => r.1
  | some e => r.1.launchFault d asid (memStatus e) 2 queue (recVa + 8)

/-- `n` added to a completion word, 0 meaning none; an access that fails is dropped and reported. -/
def State.addDone (s : State) (d asid queue va n : Nat) : State :=
  if va = 0 then s
  else
    let r := s.atomFrom d asid (va / 8 * 8) 8 (fun o => (o + n) % 2 ^ 64)
    match r.2 with
    | .old _ => r.1
    | .fail e => r.1.launchFault d asid (memStatus e) 3 queue va
    | .poison => r.1.launchFault d asid 0x01 3 queue va

/-- A record's dwords read by the launch unit of die `x`, or the cause of the failure. A guest copy serves only while it is pinned, since
the read observes every write that completed at a wide scope (14 R341; 11 R277; log 48). -/
def State.readRecord (s : State) (x asid va : Nat) : State × Except Nat (List DWord) :=
  let s1 := s.modDie x (fun k => { k with guest := k.guest.filter (fun h => h.pinned || !(h.asid == asid && h.line == va / 128)) })
  let r := s1.readDev x asid va 128
  match r.2 with
  | .error e => (r.1, .error (memStatus e))
  | .ok bs =>
    if bs.any Prod.snd then (r.1, .error 0x01)
    else (r.1, .ok ((List.range 16).map (fun i => BitVec.ofNat 64 (ofBytes (((bs.drop (8 * i)).take 8).map Prod.fst)))))

/-! ## The kernel table (16 R400, R401) -/

/-- Entry `kid` of a context's kernel table; none beyond its count, or where a read meets an uncorrectable error (log 12). -/
def State.kernelEntry (s : State) (asid kid : Nat) : Option KernelEntry :=
  let pa := bitsOf (s.ctxDword asid 0x0A00) 51 7 * 128 + 128 * kid
  if bitsOf (s.ctxDword asid 0x0A08) 16 0 ≤ kid ∨ s.physPoison pa 128 then none
  else some ((List.range 16).map (fun i => BitVec.ofNat 64 (s.readPhys (pa + 8 * i) 8)))

/-- Whether KHDR breaks its table. -/
def KernelEntry.headerBad (e : KernelEntry) : Bool :=
  e.hdr 63 63 == 0 || e.hdr 18 0 != 0 || e.ngran == 0 || decide (32 < e.ngran) || decide (256 < e.scrKib) || decide (8 < e.wbuf) ||
  decide (16 < e.nacc) || decide (256 < e.ntile) || decide (64 < e.nbar) || decide (16 < e.ntl)

/-- Whether a field after KHDR breaks its table, or ENTRY is not below CODELEN. -/
def KernelEntry.bodyBad (e : KernelEntry) : Bool :=
  bitsOf (e.dword 1) 63 52 != 0 || e.codeVa % 128 != 0 || e.entry % 4 != 0 || e.codeLen % 4 != 0 || decide (e.codeLen < 4) ||
  decide (2 ^ 24 < e.codeLen) || decide (e.codeLen ≤ e.entry) || decide (2 ^ 52 < e.codeVa + e.codeLen) ||
  bitsOf (e.dword 3) 63 18 != 0 || e.fbase % 1024 != 0 || bitsOf (e.dword 4) 63 52 != 0 || bitsOf (e.dword 4) 8 0 != 0 ||
  (!e.gripsOn && (e.dword 5 != 0 || e.dword 6 != 0)) || decide (2 ^ 52 < e.dword 5 + (e.image 0).2) ||
  decide (2 ^ 52 < e.dword 6 + (e.image 1).2) || bitsOf (e.dword 7) 63 32 != 0 || decide (32768 < (e.image 0).2) ||
  decide (32768 < (e.image 1).2) || bitsOf (e.dword 8) 63 44 != 0 || bitsOf (e.dword 8) 31 18 != 0 ||
  (List.range 7).any (fun i => e.dword (9 + i) != 0)

/-- Whether `n` pages from page `p` on are mapped, with X = 1 where code lies there. -/
def State.pagesOk (s : State) (asid : Nat) (code : Bool) : Nat → Nat → State × Bool
  | 0, _ => (s, true)
  | n + 1, p =>
    let r := s.translate asid (65536 * p)
    match r.2 with
    | .error _ => (r.1, false)
    | .ok t => if code && !(pteX t) then (r.1, false) else r.1.pagesOk asid code n (p + 1)

/-- Whether the pages of [va, va + n) are mapped. -/
def State.spanOk (s : State) (asid : Nat) (code : Bool) (va n : Nat) : State × Bool :=
  if n = 0 then (s, true) else s.pagesOk asid code ((va + n + 65535) / 65536 - va / 65536) (va / 65536)

/-- The end of the scratchpad that kernel data may use. -/
def KernelEntry.limit (e : KernelEntry) : Nat := 1024 * e.scrKib - (if e.gripsOn then 0x8400 else 0)

/-- REASON 0x03: a frame or spill area that does not fit, or more of a resource than a core holds. -/
def KernelEntry.tooBig (e : KernelEntry) (w : Nat) : Bool :=
  (e.gripsOn && decide (1024 * e.scrKib < 0x8400)) || decide (e.limit < e.fbase + 0x400 * w + 512) ||
  decide (e.limit < e.splbase + 16 * e.spllim) || e.splbase % 16 != 0 || (Core.reset.fit e w).isNone

/-- The kernel-table entry that a launch of `w` warps uses, or its REASON. -/
def State.checkKernel (s : State) (asid kid w : Nat) : State × Except Nat KernelEntry :=
  match s.kernelEntry asid kid with
  | none => (s, .error 2)
  | some e =>
    if e.headerBad || e.bodyBad then (s, .error 2)
    else
      let r := s.spanOk asid true e.codeVa e.codeLen
      let r1 := if r.2 && e.gripsOn then r.1.spanOk asid false (e.image 0).1 (e.image 0).2 else r
      let r2 := if r1.2 && e.gripsOn then r1.1.spanOk asid false (e.image 1).1 (e.image 1).2 else r1
      if !r2.2 then (r2.1, .error 2) else if e.tooBig w then (r2.1, .error 3) else (r2.1, .ok e)

/-! ## Grids (14 R336, R340) -/

/-- Bits of GHD. -/
def ghd (r : List DWord) (hi lo : Nat) : Nat := bitsOf (r.getD 0 0).toNat hi lo

/-- The dies that DIES names, ascending. -/
def diesOf (n : Nat) : List Nat := [0, 1, 2, 3].filter (fun d => n.testBit d)

/-- REASON 0x01 of a grid record: a shape outside 02 R25, or a TYPE that is none of a grid's. -/
def shapeBad (r : List DWord) : Bool :=
  ghd r 63 62 != 0 || decide (11 < ghd r 35 32) || ghd r 31 0 == 0 || ghd r 61 58 == 0 || decide (2 ^ 32 ≤ (ghd r 35 32 + 1) * ghd r 31 0)

/-- A grid as its record gives it. -/
def gridOf (src : GridSrc) (asid prio recVa : Nat) (r : List DWord) (e : KernelEntry) (state reason : Nat) : Grid :=
  { src := src, recVa := recVa, doneVa := bitsOf (r.getD 10 0).toNat 51 0, asid := asid, kid := ghd r 57 42, kernel := e,
    nWarps := ghd r 39 36 + 1, nGroups := ghd r 35 32 + 1, nClusters := ghd r 31 0, dies := diesOf (ghd r 61 58),
    deadchk := ghd r 41 41 == 1, cast := ghd r 40 40 == 1, args := (List.range 8).map (fun i => r.getD (2 + i) 0), prio := prio,
    state := state, reason := reason, placed := 0, resident := 0, halted := 0, nfg := 0, gids := [], told := false }

/-- A grid entered in the launch unit's table. -/
def State.addGrid (s : State) (g : Grid) : State :=
  s.modPkg (fun p => { p with grids := Tab.set p.grids p.nextGrid g, nextGrid := p.nextGrid + 1 })

/-- The clusters of a grid wait, one place in line for each of its dies (14 R340). -/
def State.addPending (s : State) (id : Nat) (dies : List Nat) (n : Nat) : State :=
  s.modPkg (fun p =>
    let new := ((List.range dies.length).filter (fun k => decide (k < n))).map (fun k =>
      ({ gridId := id, die := dies.getD k 0, next := k, waited := 0, age := p.pendNum + k, restore := none } : Pending))
    { p with pending := p.pending ++ new, pendNum := p.pendNum + new.length })

/-- A grid taken: checked, and its clusters pending; or failed with nothing placed. -/
def State.startGrid (s : State) (src : GridSrc) (asid prio recVa : Nat) (r : List DWord) : State :=
  if shapeBad r then s.addGrid (gridOf src asid prio recVa r [] 3 1)
  else
    let k := s.checkKernel asid (ghd r 57 42) (ghd r 39 36 + 1)
    match k.2 with
    | .error n => k.1.addGrid (gridOf src asid prio recVa r [] 3 n)
    | .ok e => (k.1.addGrid (gridOf src asid prio recVa r e 0 0)).addPending s.pkg.nextGrid (diesOf (ghd r 61 58)) (ghd r 31 0)

/-! ## Launch queues (14 R339, R340) -/

/-- Launch queue `q` of a context. -/
def State.lq (s : State) (asid q : Nat) : LaunchQueue := Tab.getD s.pkg.lqs (8 * asid + q) LaunchQueue.reset

/-- The state with a launch queue changed. -/
def State.modLq (s : State) (asid q : Nat) (f : LaunchQueue → LaunchQueue) : State :=
  s.modPkg (fun p => { p with lqs := Tab.set p.lqs (8 * asid + q) (f (Tab.getD p.lqs (8 * asid + q) LaunchQueue.reset)) })

/-- The VA of entry `n`. -/
def LaunchQueue.entryVa (l : LaunchQueue) (n : Nat) : Nat := l.base + 128 * (n % 2 ^ l.log2n)

/-- Whether a grid or sheet came from entry `n` of a queue. -/
def GridSrc.isRing (g : GridSrc) (asid q : Nat) : Option Nat :=
  match g with
  | .ring a b n => if a = asid ∧ b = q then some n else none
  | _ => none

/-- The entries of a queue that have been taken and have not ended. -/
def State.openEntries (s : State) (asid q : Nat) : List Nat :=
  s.pkg.grids.filterMap (fun p => p.2.src.isRing asid q) ++
  (s.pkg.sheets.filter (fun p => p.2.asid == asid && p.2.queue == q)).map (fun p => p.2.idx) ++
  ((s.lq asid q).sheet.map TakenSheet.idx).toList

/-- HEAD advanced over every leading entry that has ended. -/
def LaunchQueue.advance (l : LaunchQueue) (live : List Nat) : Nat → LaunchQueue
  | 0 => l
  | n + 1 => if l.head = l.taken ∨ live.contains l.head.toNat then l else { l with head := l.head + 1 }.advance live n

/-- HEAD of a queue brought up to date. -/
def State.advanceHead (s : State) (asid q : Nat) : State :=
  s.modLq asid q (fun l => l.advance (s.openEntries asid q) (l.taken - l.head).toNat)

/-- Whether every cluster of the entry last taken from a queue has been placed. -/
def State.queueFree (s : State) (asid q : Nat) : Bool :=
  s.pkg.pending.all (fun p => p.restore.isSome || (match Tab.get? s.pkg.grids p.gridId with
    | some g => (g.src.isRing asid q).isNone
    | none => true))

/-! ## Call sheets (14 R341) -/

/-- Nodes of a sheet read in order; a read that fails is reported and stops the walk. -/
def State.readNodes (s : State) (d asid q sv : Nat) : Nat → Nat → State × Option (List (List DWord))
  | 0, _ => (s, some [])
  | n + 1, i =>
    let r := s.readRecord d asid (sv + 128 * i)
    match r.2 with
    | .error c => (r.1.launchFault d asid c 1 q (sv + 128 * i), none)
    | .ok dw =>
      let t := r.1.readNodes d asid q sv n (i + 1)
      (t.1, t.2.map (fun l => dw :: l))

/-- The state with a sheet changed. -/
def State.modSheet (s : State) (id : Nat) (f : Sheet → Sheet) : State :=
  match Tab.get? s.pkg.sheets id with
  | none => s
  | some x => s.modPkg (fun p => { p with sheets := Tab.set p.sheets id (f x) })

/-- A node of a sheet started as a grid. -/
def State.startNode (s : State) (id i : Nat) : State :=
  match Tab.get? s.pkg.sheets id with
  | none => s
  | some x => (s.modSheet id (fun x => { x with st := List.set x.st i 1 })).startGrid (.sheet id i) x.asid x.prio (x.base + 128 * i) (x.nodes.getD i [])

/-- How a sheet with no running node ends: its STATE and REASON. -/
def Sheet.outcome (x : Sheet) : Nat × Nat :=
  if !x.bad && !x.failedNode && x.st.all (fun t => t == 2) then (2, 0) else if x.bad then (4, 6) else if x.failedNode then (4, 5) else (4, 6)

/-- A sheet none of whose nodes runs writes its last STATUS (14 R340, R341). -/
def State.endSheet (s : State) (id : Nat) : State :=
  match Tab.get? s.pkg.sheets id with
  | none => s
  | some x =>
    if x.told || x.st.any (fun t => t == 1) then s
    else (s.putStatus x.die x.asid x.queue x.recVa x.outcome.1 x.outcome.2 0).modSheet id (fun x => { x with told := true })

/-- Act sheetEnd: once STATUS has been performed, DONE counts the sheet, its slot is free and HEAD advances (14 R340). -/
def sheetEnd (id : Nat) (s : State) : State :=
  match Tab.get? s.pkg.sheets id with
  | none => s
  | some x =>
    if !x.told || s.statusPending x.die x.recVa then s
    else ((s.addDone x.die x.asid x.queue x.doneVa 1).modPkg (fun p => { p with sheets := Tab.erase p.sheets id })).advanceHead x.asid x.queue

/-- One successor of a completed node. -/
def State.successor (s : State) (id t : Nat) : State :=
  match Tab.get? s.pkg.sheets id with
  | none => s
  | some x =>
    if x.bad || x.failedNode || t == 0xFF then s
    else if x.nodes.length ≤ t ∨ x.rem.getD t 0 = 0 then s.modSheet id (fun x => { x with bad := true })
    else
      let n := x.rem.getD t 0 - 1
      let s1 := s.modSheet id (fun x => { x with rem := List.set x.rem t n })
      if n = 0 then s1.startNode id t else s1

/-- What follows the end of node `i` in a state. -/
def State.nodeEnded (s : State) (id i state : Nat) : State :=
  match Tab.get? s.pkg.sheets id with
  | none => s
  | some x =>
    if state = 2 then
      let w := ((x.nodes.getD i []).getD 11 0).toNat
      ([0, 1, 2, 3].foldl (fun s k => s.successor id (bitsOf w (8 * k + 7) (8 * k))) (s.modSheet id (fun x => { x with st := List.set x.st i 2 }))).endSheet id
    else (s.modSheet id (fun x => { x with st := List.set x.st i 3, failedNode := true })).endSheet id

/-- A sheet takes a slot of its die: its nodes are read, and those with no predecessor start. -/
def State.startSheet (s : State) (asid q : Nat) (t : TakenSheet) : State :=
  let r := t.node
  let d := (diesOf (ghd r 61 58)).headD 0
  let n := ghd r 31 0
  let sv := (r.getD 2 0).toNat
  let id := s.pkg.nextSheet
  let fits := decide (n ≤ 256) && decide (sv % 128 = 0) && decide (sv + 128 * n ≤ 2 ^ 52)
  let rd := if fits then s.readNodes d asid q sv n 0 else (s, none)
  let nodes := rd.2.getD []
  let x : Sheet := { die := d, asid := asid, queue := q, idx := t.idx, recVa := t.va, doneVa := bitsOf (r.getD 10 0).toNat 51 0,
                     prio := t.prio, base := sv, nodes := nodes, rem := nodes.map (fun w => bitsOf (w.getD 11 0).toNat 63 56),
                     st := nodes.map (fun _ => 0), bad := rd.2.isNone, failedNode := false, told := false }
  let s1 := (rd.1.modPkg (fun p => { p with sheets := Tab.set p.sheets id x, nextSheet := id + 1 })).putStatus d asid q t.va 1 0 0
  let first := (List.range nodes.length).filter (fun i => x.rem.getD i 0 == 0)
  (first.foldl (fun s i => s.startNode id i) s1).endSheet id

/-- The sheets that a die's launch unit walks. -/
def State.sheetsOf (s : State) (d : Nat) : Nat := (s.pkg.sheets.filter (fun p => p.2.die == d)).length

/-! ## Taking an entry (14 R340) -/

/-- The record of a call sheet of one node or more. -/
def isSheet (r : List DWord) : Bool := ghd r 63 62 == 1 && ghd r 61 58 != 0 && ghd r 31 0 != 0

/-- Whether the die that walks a sheet has one of its 16 slots free. -/
def State.sheetRoom (s : State) (r : List DWord) : Bool := decide (s.sheetsOf ((diesOf (ghd r 61 58)).headD 0) < 16)

/-- An entry that has been read is taken: a call sheet waits where its die has no slot free. -/
def State.takeEntry (s : State) (asid q : Nat) (r : List DWord) : State :=
  let l := s.lq asid q
  let n := l.taken.toNat
  let s1 := s.modLq asid q (fun l => { l with taken := l.taken + 1 })
  if !(isSheet r) then s1.startGrid (.ring asid q n) asid l.prio (l.entryVa n) r
  else
    let t : TakenSheet := { node := r, idx := n, va := l.entryVa n, prio := l.prio }
    if s.sheetRoom r then s1.startSheet asid q t else s1.modLq asid q (fun l => { l with sheet := some t })

/-- A waiting sheet takes the slot that has come free, whatever has become of its queue's registers (14 R339). -/
def State.takeSheet (s : State) (asid q : Nat) (t : TakenSheet) : State :=
  if s.sheetRoom t.node then (s.modLq asid q (fun l => { l with sheet := none })).startSheet asid q t else s

/-- LAUNCH_ENTRY_TAKE: once boot has released the cores (18 R434), the launch unit reads the next entry of a queue, once, and takes it
(14 R340); it is the unit of the entry's home die (log 48). A read that fails is reported, and the queue is served no further until it is
tried again. -/
def execLaunchEntryTake (asid queue : Nat) (s : State) : Host.Outcome State Fault Refusal :=
  let l := s.lq asid queue
  if s.pkg.bootState != 4 then .next s
  else
    match l.sheet with
    | some t => .next (s.takeSheet asid queue t)
    | none =>
      if !l.en || (s.asid asid).state != 1 || l.blocked || l.taken == l.tail || !(s.queueFree asid queue) then .next s
      else
        let va := l.entryVa l.taken.toNat
        let r := s.readRecord (homeOf va) asid va
        match r.2 with
        | .error c => .next ((r.1.launchFault 0 asid c 0 queue va).modLq asid queue (fun l => { l with blocked := true }))
        | .ok dw => .next (r.1.takeEntry asid queue dw)

/-! ## LAUNCH (14 R342) -/

/-- Whether LAUNCH raises SLATE. -/
def launchBad (i : Issue) (dies : Nat) : Bool :=
  let l := i.s.lq i.g.asid (i.b 0)
  i.a 0 % 128 != 0 || decide (2 ^ 52 ≤ i.a 0) || decide (7 < i.b 0) || !l.en || !l.owner || i.d 0 == 0 || decide (256 < i.d 0) || dies == 0

/-- The entry that LAUNCH appends. -/
def launchEntry (va n dies : Nat) : List Byte :=
  toBytes (2 ^ 62 + dies * 2 ^ 58 + n) 8 ++ toBytes 0 8 ++ toBytes va 8 ++ toBytes 0 104

/-- LAUNCH: the launch unit of the entry's home die writes it (log 48), so that the write is performed there before TAIL advances. An entry
whose write faults is dropped, and TAIL advances. -/
def launchSpec (x : Ext) : Spec :=
  let dies := modField x 3 0
  Spec.plain { Shape.bare with m := 0xF#10, anyGuard := true, dst := some Dst.uni, a := some (Pos.of [.uni, .lit, .idUni] 64), b := cntPos, c := cntPos } (fun i =>
    if !(i.grd.has i.elected) then i.to i.s
    else
      let s := i.s.drain i.c i.slot
      if launchBad i dies then .final (s.trapHere i.c i.slot { cause := 0x0A, tval := 0 })
      else
        let l := s.lq i.g.asid (i.b 0)
        if 2 ^ l.log2n ≤ (l.tail - l.head).toNat then i.posted s 0
        else
          let s1 := (s.writeHome i.g.asid (l.entryVa l.tail.toNat) (launchEntry (i.a 0) (i.d 0) dies) false).1
          i.posted (s1.modLq i.g.asid (i.b 0) (fun l => { l with tail := l.tail + 1 })) 1)
/-- LAUNCH (14 R342). -/
def execLaunch (x : Ext) (s : State) : Host.Outcome State Fault Refusal := runExt launchSpec x s

end Sys2Proof.Machine
end

