-- ==== Sys2Proof/Machine/Task.lean ====
section
/-! DEFINITION. Tasks, their names and dependences, TSKPOST, and the casting queue with ITEMPUT (14 R343 to R350; 16 R396). -/

namespace Sys2Proof.Machine

/-! ## Records (14 R343, R344) -/

/-- A dword of a task record. -/
def recWord (r : List DWord) (i : Nat) : Nat := (r.getD i 0).toNat
/-- KID. -/
def recKid (r : List DWord) : Nat := bitsOf (recWord r 0) 15 0
/-- W. -/
def recWarps (r : List DWord) : Nat := bitsOf (recWord r 1) 3 0 + 1
/-- The read names. -/
def recReads (r : List DWord) : List Nat := (List.range (bitsOf (recWord r 1) 11 8)).map (fun i => bitsOf (recWord r 10) (8 * i + 7) (8 * i))
/-- The write names. -/
def recWrites (r : List DWord) : List Nat := (List.range (bitsOf (recWord r 1) 14 12)).map (fun i => bitsOf (recWord r 11) (8 * i + 7) (8 * i))
/-- DONE. -/
def recDone (r : List DWord) : Nat := bitsOf (recWord r 12) 51 0

/-- The dwords that MASK selects, ascending. -/
def maskBits (mask : Nat) : List Nat := (List.range 13).filter (fun i => mask.testBit i)

/-- The lowest reserved bit that is set in dword `i` of a record. -/
def recReserved (i v : Nat) : Option Nat :=
  match i with
  | 0 => lowBit v 63 16
  | 1 => lowestOf [lowBit v 7 6, lowBit v 63 15]
  | 11 => lowBit v 63 32
  | 12 => lowBit v 63 54
  | _ => none

/-- The bit that SLATE names for an expanded record: NRD, NWR or DONE. -/
def recBad (r : List DWord) : Option Nat :=
  if 8 < bitsOf (recWord r 1) 11 8 then some 8
  else if 4 < bitsOf (recWord r 1) 14 12 then some 12
  else lowBit (recWord r 12) 2 0

/-! ## Posting a task (14 R345) -/

/-- LOCAL-ADDR of a block of `n` bytes. -/
def blockAddrTrap (g : Group) (a n : Nat) : Option Trap := if a % 8 ≠ 0 ∨ g.scrSize < a + n then raise 0x08 a else none

/-- POISON of a block: the first poisoned word. -/
def blockPoisonTrap (k : Core) (g : Group) (a n : Nat) : Option Trap :=
  ((List.range (n / 4)).find? (fun i => localPoison k g (a + 4 * i))).bind (fun i => raise 0x11 (a + 4 * i))

/-- A base block after expansion: the fields of `bits` from the delta's dwords. -/
def expand (base : List Nat) (bits : List Nat) (delta : List Nat) : List DWord :=
  (List.range 13).map (fun i => BitVec.ofNat 64 (
    match (bits.zip (delta.drop 1)).find? (fun p => p.1 == i) with
    | some p => p.2
    | none => base.getD i 0))

/-- The traps of a task post, in order: addresses, poison, reserved bits of the delta, the expanded record, the target. -/
def taskTrap (k : Core) (g : Group) (a b target : Nat) : Option Trap :=
  let mask := if g.scrSize < a + 8 then 0 else ofBytes (localRead k g a 8)
  let bits := maskBits mask
  let n := 8 * (1 + bits.length)
  let delta := localDwords k g a (1 + bits.length)
  blockAddrTrap g a n <|> blockAddrTrap g b 128 <|> blockPoisonTrap k g a n <|> blockPoisonTrap k g b 104 <|>
  ((lowBit mask 63 13).bind (fun v => raise 0x0A v)) <|>
  (((bits.zip (delta.drop 1)).findSome? (fun p => recReserved p.1 p.2)).bind (fun v => raise 0x0A v)) <|>
  ((recBad (expand (localDwords k g b 13) bits delta)).bind (fun v => raise 0x0A v)) <|>
  (if 192 ≤ target ∧ target ≠ 0xFFFFFFFF then raise 0x0A 0 else none)

/-- A task that has not retired. -/
def Task.live (t : Task) : Bool := decide (t.state < 3)

/-- The tasks in flight to a core or recorded there and not retired (14 R345). -/
def State.taskCount (s : State) (c : Nat) : Nat :=
  ((s.core c).tasks.filter Task.live).length + (s.pkg.arriving.filter (fun p => p.1 == c)).length

/-- A task posted by a core: 1 and the base block rewritten, or 0. `unit` is the scheduler, or 4 and 5 for the grips: it orders
the posts that arrive in one cycle (14 R347). -/
def State.postTask (s : State) (c : Nat) (g : Group) (a b target poster unit : Nat) : Except Trap (State × Nat) :=
  let k := s.core c
  match taskTrap k g a b target with
  | some t => .error t
  | none =>
    let dest := if target = 0xFFFFFFFF then c else target
    if 64 ≤ s.taskCount dest then .ok (s, 0)
    else
      let bits := maskBits (ofBytes (localRead k g a 8))
      let r := expand (localDwords k g b 13) bits (localDwords k g a (1 + bits.length))
      let bytes := bits.flatMap (fun i => withAddrs (b + 8 * i) (toBytes (recWord r i) 8))
      .ok ((s.setCore c (localWrite k g bytes)).modPkg (fun p => { p with
        arriving := p.arriving ++ [(dest, { rcd := r, asid := g.asid, poster := poster, rank := 256 * unit + c })] }), 1)

/-- TSKPOST. -/
def tskpostSpec (_x : Ext) : Spec :=
  Spec.plain { Shape.bare with anyGuard := true, dst := some Dst.uni, a := cntPos, b := cntPos, c := cntPos } (fun i =>
    if !(i.grd.has i.elected) then i.to i.s
    else
      let s := i.s.drain i.c i.slot
      match s.postTask i.c i.g (i.a 0) (i.b 0) (i.d 0) i.c (schedOf i.slot) with
      | .error t => .final (s.trapRead i.c i.slot t)
      | .ok r => i.posted r.1 r.2)
/-- TSKPOST (14 R345). -/
def execTskpost (x : Ext) (s : State) : Host.Outcome State Fault Refusal := runExt tskpostSpec x s

/-! ## The dependence table (14 R346, R347) -/

/-- The newest entry of a name. -/
def Core.nameEntry (k : Core) (n : Nat) : TileEntry := Tab.getD k.taskNames n { TileEntry.unbound with name := n, task := true }

/-- The entry of a generation of a name, the newest or one still held. -/
def Core.genEntry (k : Core) (n gen : Nat) : TileEntry :=
  if (k.nameEntry n).gen = gen then k.nameEntry n
  else match k.gens.find? (fun x => x.name == n && x.gen == gen) with
    | some x => x.entry
    | none => TileEntry.unbound

/-- Whether a task names a generation. -/
def Task.names (t : Task) (n gen : Nat) : Bool := t.reads.contains (n, gen) || t.writes.contains (n, gen)

/-- Whether a task names a name at all. -/
def Task.touches (t : Task) (n : Nat) : Bool := t.reads.any (fun p => p.1 == n) || t.writes.any (fun p => p.1 == n)

/-- The live tasks of a core. -/
def Core.liveTasks (k : Core) : List Task := k.tasks.filter Task.live

/-- A new generation of a bound name on fresh granules, which read zero; none where no run is long enough. The old one is held for the
tasks that name it. -/
def State.rename (s : State) (c n : Nat) : Option State :=
  let e := (s.core c).nameEntry n
  if !e.bound then none
  else
    let r := newTile (s.modPkg (fun p => { p with nextGid := p.nextGid + 1 })) c s.pkg.nextGid false e.fmt e.rows e.cols
    match r.2 with
    | none => none
    | some f =>
      some (r.1.modCore c (fun k => { k with
        gens := k.gens ++ [{ name := n, gen := e.gen, entry := e }]
        taskNames := Tab.set k.taskNames n { f with gen := (e.gen + 1) % 65536, name := n, task := true } }))

/-- One write name of a new task: renamed where an earlier live task names it, or the tasks that it must wait for. -/
def State.claimName (s : State) (c n : Nat) : State × List Nat :=
  let us := (s.core c).liveTasks.filter (fun u => u.touches n)
  if us.isEmpty then (s, [])
  else
    match s.rename c n with
    | some t => (t, [])
    | none => (s, us.map Task.num)

/-- The write names of a new task in order. -/
def State.claimNames (s : State) (c : Nat) : List Nat → State × List Nat
  | [] => (s, [])
  | n :: t =>
    let r := s.claimName c n
    let q := r.1.claimNames c t
    (q.1, r.2 ++ q.2)

/-- Generations that no live task names any more are freed, and retired tasks that hold none leave the table. -/
def Core.pruneTasks (k : Core) : Core :=
  let gens := k.gens.filter (fun x => k.tasks.any (fun t => t.live && t.names x.name x.gen))
  { k with gens := gens, tasks := k.tasks.filter (fun t => t.live || gens.any (fun x => t.names x.name x.gen)) }

/-- A task retired for the dependence table. -/
def State.retireTask (s : State) (c num : Nat) : State :=
  s.modCore c (fun k => Core.pruneTasks { k with
    tasks := k.tasks.map (fun t => { (if t.num = num then { t with state := 3 } else t) with waits := t.waits.filter (fun n => n != num) }) })

/-- A task that failed: its event, and its DONE word (14 R345). -/
def State.taskFailed (s : State) (c asid poster reason : Nat) (r : List DWord) : State :=
  (s.event (dieOf c) c 0x07 asid c 0 (reason * 2 ^ 56 + poster * 2 ^ 40 + recKid r) (recDone r)).addDone (dieOf c) asid 0 (recDone r) (2 ^ 32)

/-- The free entries of a core's dependence table. -/
def Core.freeEntries (k : Core) : List Nat := (List.range 64).filter (fun i => k.tasks.all (fun u => u.entry != i))

/-- A task entered in a core's dependence table, its kernel checked as a grid's is; which free entry it takes is the part's choice. A
generation that it supersedes and that no task names is freed (14 R347). -/
def State.acceptTask (s : State) (c : Nat) (m : TaskMsg) : State :=
  let num := (s.core c).taskNum
  let r := s.checkKernel m.asid (recKid m.rcd) (recWarps m.rcd)
  let k := r.1.core c
  let reads := (recReads m.rcd).map (fun n => (n, (k.nameEntry n).gen))
  let raw := (k.liveTasks.filter (fun u => reads.any (fun p => u.writes.contains p))).map Task.num
  let w := r.1.claimNames c (recWrites m.rcd)
  let writes := (recWrites m.rcd).map (fun n => (n, ((w.1.core c).nameEntry n).gen))
  let free := k.freeEntries
  let t : Task := { num := num, entry := free.getD (Config.freeChoice s.free % free.length) 0, state := 1, rcd := m.rcd, asid := m.asid, poster := m.poster, reads := reads, writes := writes,
                    waits := (raw ++ w.2).dedup, kernel := (match r.2 with | .ok e => e | .error _ => []), gid := 0,
                    prio := bitsOf (recWord m.rcd 12) 53 52, waited := 0 }
  let s1 := ({ w.1 with free := w.1.free + 1 }.modCore c (fun k => Core.pruneTasks { k with tasks := k.tasks ++ [t], taskNum := num + 1 })).countCore c 0x25 1
  match r.2 with
  | .ok _ => s1
  | .error n => (s1.retireTask c num).taskFailed c m.asid m.poster n m.rcd

/-- TASK_ARRIVAL: message `idx` among those for a core is accepted where an entry is free. Messages of one core keep their order, and those
accepted in one cycle come in the order of their posters: by scheduler, loader grip and storer grip, and then by core (14 R347). -/
def execTaskArrival (core idx : Nat) (s : State) : Host.Outcome State Fault Refusal :=
  let mine := s.pkg.arriving.filter (fun p => p.1 == core)
  match mine[idx]? with
  | none => .next s
  | some m =>
    if (mine.take idx).any (fun p => p.2.rank % 256 == m.2.rank % 256) || decide (m.2.rank < (s.core core).tskRank) ||
        (s.core core).freeEntries.isEmpty then .next s
    else
      .next (((s.modPkg (fun p => { p with arriving := p.arriving.erase m })).modCore core (fun k => { k with tskRank := m.2.rank })).acceptTask
        core m.2)

/-! ## Who is placed next (02 R46, R47) -/

/-- An effective priority of something that waits to be placed. -/
def risenPrio (base waited : Nat) : Nat := min 3 (base + waited / 2 ^ 20)

/-- Something that waits to be placed: entry `i` of the pending clusters, or a task of a core. -/
inductive Waiter where
  | cluster (i : Nat)
  | task (core num : Nat)
  deriving DecidableEq, Repr

/-- The task of a core by its number. -/
def State.task? (s : State) (c n : Nat) : Option Task := (s.core c).tasks.find? (fun t => t.num == n)

/-- Whether a task waits for nothing but its place. -/
def Task.ready (t : Task) : Bool := t.state == 1 && t.waits.isEmpty

/-- The grid of a pending cluster. -/
def State.gridOfPending (s : State) (i : Nat) : Option (Pending × Grid) :=
  (s.pkg.pending[i]?).bind (fun p => (Tab.get? s.pkg.grids p.gridId).map (fun g => (p, g)))

/-- Priority, waiting time, kind and age of a waiter. -/
def State.rank (s : State) (w : Waiter) : Nat × Nat × Nat × Nat :=
  match w with
  | .cluster i => match s.gridOfPending i with
    | some (p, g) => (risenPrio g.prio p.waited, p.waited, 0, p.age)
    | none => (0, 0, 0, 0)
  | .task c n => match s.task? c n with
    | some t => (risenPrio t.prio t.waited, t.waited, 1, n)
    | none => (0, 0, 1, n)

/-- Whether one rank is served before another: by priority, then age; clusters before tasks of one age. -/
def rankBefore (a b : Nat × Nat × Nat × Nat) : Bool :=
  if a.1 ≠ b.1 then decide (b.1 < a.1)
  else if a.2.1 ≠ b.2.1 then decide (b.2.1 < a.2.1)
  else if a.2.2.1 ≠ b.2.2.1 then decide (a.2.2.1 < b.2.2.1)
  else decide (a.2.2.2 < b.2.2.2)

/-- The dies that a waiter may be placed on. -/
def State.waiterDies (s : State) (w : Waiter) : List Nat :=
  match w with
  | .cluster i => match s.pkg.pending[i]? with
    | some p => match p.restore with | some r => r.2.2.2.2 | none => [p.die]
    | none => []
  | .task c _ => [dieOf c]

/-- The cores on which a cluster of a die fits, were the groups `drop` gone (02 R44): the first quadrant with enough of them. -/
def State.clusterCores (s : State) (die : Nat) (g : Grid) (drop : List Nat) : Option (List Nat) :=
  ([0, 1, 2, 3].map (fun q => (List.range Config.coresPerQuadrant).map (fun i => Config.coresPerDie * die + Config.coresPerQuadrant * q + i))).findSome?
    (fun cs =>
      let fit := cs.filter (fun c => (((s.core c).without drop).fit g.kernel g.nWarps).isSome)
      if g.nGroups ≤ fit.length then some (fit.take g.nGroups) else none)

/-- Whether a waiter could be placed, were the groups `drop` gone. -/
def State.fitsWithout (s : State) (w : Waiter) (drop : List Nat) : Bool :=
  match w with
  | .cluster i =>
    match s.gridOfPending i with
    | none => false
    | some (p, g) =>
      match p.restore with
      | none => (s.clusterCores p.die g drop).isSome
      | some r => r.2.2.2.2.any (fun d => (dieCores d).any (fun c => (((s.core c).without drop).fitSlots g.kernel r.2.2.1).isSome))
  | .task c n =>
    match s.task? c n with
    | none => false
    | some t => (((s.core c).without drop).fit t.kernel (recWarps t.rcd)).isSome

/-- Everything that waits to be placed. -/
def State.waiters (s : State) : List Waiter :=
  (List.range s.pkg.pending.length).map Waiter.cluster ++
  s.cores.flatMap (fun p => (p.2.tasks.filter Task.ready).map (fun t => Waiter.task p.1 t.num))

/-- The launch queue that a pending cluster comes from, if it is none that waits for restore. -/
def State.pendQueue (s : State) (p : Pending) : Option (Nat × Nat) :=
  if p.restore.isSome then none
  else
    match Tab.get? s.pkg.grids p.gridId with
    | none => none
    | some g =>
      match g.src with
      | .ring a q _ => some (a, q)
      | .sheet id _ => (Tab.get? s.pkg.sheets id).map (fun x => (x.asid, x.queue))

/-- Whether no cluster of an earlier grid of the same launch queue waits: clusters behind one that waits wait with it (02 R44), and the
nodes of a sheet are placed in the order they start (14 R341). -/
def State.inFront (s : State) (w : Waiter) : Bool :=
  match w with
  | .task _ _ => true
  | .cluster i =>
    match s.pkg.pending[i]? with
    | none => true
    | some p =>
      match s.pendQueue p with
      | none => true
      | some k => s.pkg.pending.all (fun x => x.gridId == p.gridId || s.pendQueue x != some k || decide (p.age < x.age))

/-- Whether a waiter may be placed: it is at the front of its launch queue, and nothing at the front of its own that is served before it on
one of its dies fits now (02 R46). -/
def State.mayPlace (s : State) (w : Waiter) : Bool :=
  s.inFront w &&
  s.waiters.all (fun v => !(rankBefore (s.rank v) (s.rank w)) || !((s.waiterDies v).any (fun d => (s.waiterDies w).contains d)) ||
    !(s.inFront v && s.fitsWithout v []))

/-- Whether a die may begin a wide acquire for a group placed there: every write-through outstanding from it has been acknowledged
(11 R281, Table 8). -/
def State.quietDie (s : State) (d : Nat) : Bool := !((s.die d).outstanding (fun _ => true))

/-! ## Placing a task (14 R346) -/

/-- What a task gives its group. -/
def Task.birth (t : Task) (tslice : Nat) : Birth :=
  { asid := t.asid, kid := recKid t.rcd, kernel := t.kernel, gridId := 0, taskIdx := some t.num, idgrid := 0, idgroup := 0, idclus := 0,
    nWarps := recWarps t.rcd, nGroups := 1, nClusters := 1, prio := t.prio, deadchk := bitsOf (recWord t.rcd 1) 4 4 == 1,
    cast := bitsOf (recWord t.rcd 1) 5 5 == 1, args := (List.range 8).map (fun i => t.rcd.getD (2 + i) 0), tslice := tslice }

/-- The task tiles bound to a group's handles: reads from h0, writes from h8; only handles that the group holds. -/
def Core.bindTask (k : Core) (g : Group) (t : Task) : Core :=
  let put := fun (first : Nat) (ns : List (Nat × Nat)) (tab : Tab TileEntry) =>
    (List.range ns.length).foldl (fun tab i =>
      let n := ns.getD i (0, 0)
      if first + i < g.nTile then Tab.set tab (g.tileBase + first + i) (k.genEntry n.1 n.2) else tab) tab
  { k with tileTable := put 8 t.writes (put 0 t.reads k.tileTable) }

/-- TASK_PLACEMENT: task number `entry` of a core is placed when it waits for nothing and fits (14 R347). -/
def execTaskPlacement (core entry : Nat) (s : State) : Host.Outcome State Fault Refusal :=
  match s.task? core entry with
  | none => .next s
  | some t =>
    match (s.core core).fit t.kernel (recWarps t.rcd) with
    | none => .next s
    | some a =>
      if t.ready && s.mayPlace (.task core entry) && s.quietDie (dieOf core) then
        let gid := s.pkg.nextGid
        let s1 := (s.raiseG (dieOf core)).placeNew core (t.birth (s.tsliceOf t.asid)) a
        .next (s1.modCore core (fun k =>
          let k1 := match Tab.get? k.groups gid with | some g => k.bindTask g t | none => k
          { k1 with tasks := k1.tasks.map (fun u => if u.num = entry then { u with state := 2, gid := gid } else u) }))
      else .next s

/-! ## The casting queue (14 R349, R350) -/

/-- The items of a core's pool. -/
def castPool : Nat := 4096

/-- Items put into a group's queue: the count, or all ones where they are refused. -/
def State.putItems (s : State) (c gid : Nat) (items : List DWord) (close : Bool) : State × Nat :=
  match s.group? c gid with
  | none => (s, allOnes64)
  | some g =>
    let used := ((s.core c).groups.map (fun p => p.2.castQ.length)).sum
    if (!g.castOpen && !items.isEmpty) || decide (castPool < used + items.length) then (s, allOnes64)
    else (s.setGroup c gid { g with castQ := g.castQ ++ items, castNew := g.castNew + items.length, castOpen := g.castOpen && !close }, items.length)

/-- ITEMPUT. -/
def itemputSpec (x : Ext) : Spec :=
  let vec := x.a.op.isCls .vec
  Spec.plain { Shape.bare with m := 1#10, anyGuard := vec, dst := some Dst.uni, a := some (Pos.of [.vec, .uni, .imm, .lit, .idUni] 64) } (fun i =>
    let items := if vec then (lanes.filter i.acts).map (fun l => BitVec.ofNat 64 (i.a l)) else [BitVec.ofNat 64 (i.a 0)]
    let r := i.s.putItems i.c i.w.gid items (modBit x 0)
    i.posted r.1 r.2)
/-- ITEMPUT (14 R350). -/
def execItemput (x : Ext) (s : State) : Host.Outcome State Fault Refusal := runExt itemputSpec x s

end Sys2Proof.Machine
end

