-- ==== Sys2Proof/Machine/Groups.lean ====
section
/-! DEFINITION. The life of a group after its start: placement of clusters, priorities and pre-emption, time slices, halting and
restore, retirement, and the end of a grid (02 R44 to R53; 09 R236 to R239; 14 R337, R340). -/

namespace Sys2Proof.Machine

/-- The state with a grid changed. -/
def State.modGrid (s : State) (id : Nat) (f : Grid → Grid) : State :=
  match Tab.get? s.pkg.grids id with
  | none => s
  | some g => s.modPkg (fun p => { p with grids := Tab.set p.grids id (f g) })

/-! ## Placing a cluster (02 R44) -/

/-- What a grid gives group `j` of cluster `cl`. -/
def Grid.birth (g : Grid) (id cl j tslice : Nat) : Birth :=
  { asid := g.asid, kid := g.kid, kernel := g.kernel, gridId := id, taskIdx := none, idgrid := cl * g.nGroups + j, idgroup := j,
    idclus := cl, nWarps := g.nWarps, nGroups := g.nGroups, nClusters := g.nClusters, prio := g.prio, deadchk := g.deadchk,
    cast := g.cast, args := g.args, tslice := tslice }

/-- The queue whose events a grid's reports name, and the die that reports. -/
def State.gridHome (s : State) (g : Grid) : Nat × Nat :=
  match g.src with
  | .ring _ q _ => (q, 0)
  | .sheet id _ => match Tab.get? s.pkg.sheets id with | some x => (x.queue, x.die) | none => (0, 0)

/-- One group of a cluster placed on its core. -/
def State.placeMember (s : State) (id cl j c : Nat) : State :=
  match Tab.get? s.pkg.grids id with
  | none => s
  | some g =>
    match (s.core c).fit g.kernel g.nWarps with
    | none => s
    | some a =>
      (s.placeNew c (g.birth id cl j (s.tsliceOf g.asid)) a).modGrid id (fun g =>
        { g with resident := g.resident + 1, gids := g.gids ++ [s.pkg.nextGid] })

/-- The next cluster of a pending entry moves on; an entry with none left is done. -/
def State.nextCluster (s : State) (i step n : Nat) : State :=
  s.modPkg (fun p => { p with pending :=
    match p.pending[i]? with
    | none => p.pending
    | some x => if x.next + step < n then List.set p.pending i { x with next := x.next + step } else p.pending.eraseIdx i })

/-- A cluster placed on its cores: STATUS becomes running at the grid's first one, and a grid's first cluster on a die acquires
there (11 R281). -/
def State.placeCluster (s : State) (i : Nat) (p : Pending) (g : Grid) (cs : List Nat) : State :=
  let s0 := if p.next < g.dies.length then s.raiseG p.die else s
  let s1 := (List.range cs.length).foldl (fun s j => s.placeMember p.gridId p.next j (cs.getD j 0)) s0
  let h := s.gridHome g
  let s2 := if g.state = 0 then s1.putStatus h.2 g.asid h.1 g.recVa 1 0 0 else s1
  ((s2.modGrid p.gridId (fun g => { g with state := 1, placed := g.placed + 1 })).countDie p.die 0x51 1).nextCluster i g.dies.length g.nClusters

/-- CLUSTER_PLACEMENT: pending cluster `idx` is placed when its groups fit on cores of one quadrant (02 R44). -/
def execClusterPlacement (idx : Nat) (s : State) : Host.Outcome State Fault Refusal :=
  match s.gridOfPending idx with
  | none => .next s
  | some (p, g) =>
    match s.clusterCores p.die g [] with
    | none => .next s
    | some cs =>
      if p.restore.isNone && s.mayPlace (.cluster idx) && (decide (g.dies.length ≤ p.next) || s.quietDie p.die) then .next (s.placeCluster idx p g cs) else .next s

/-! ## Pre-emption by priority (02 R46 to R49) -/

/-- A resident group's effective priority (02 R46). -/
def State.groupPrio (s : State) (c gid : Nat) (g : Group) : Nat := if s.lowered c gid g then 0 else g.basePrio

/-- Whether hardware may pre-empt a group: its kernel is pre-emptible, and it is neither stopped, held, nor being saved. -/
def Group.eligible (g : Group) : Bool := g.kernel.pre && !g.stopped && !g.saving && !g.reported

/-- The groups on some dies, by core. -/
def State.groupsOn (s : State) (dies : List Nat) : List (Nat × Nat × Group) :=
  (dies.flatMap dieCores).flatMap (fun c => (s.core c).groups.map (fun p => (c, p.1, p.2)))

/-- The groups being saved on a waiter's dies: their resources will come free. -/
def State.leaving (s : State) (w : Waiter) : List Nat := ((s.groupsOn (s.waiterDies w)).filter (fun q => q.2.2.saving)).map (fun q => q.2.1)

/-- The groups of a core, among `low`, that it must lose for a group of `w` warps to fit: as many of the first as suffice. Which of several
sufficient sets is taken the specification does not say; `low` comes in rising effective priority (DESIGN CHOICE, log 28). -/
def Core.victims (k : Core) (gone : List Nat) (e : KernelEntry) (w : Nat) (low : List Nat) : List Nat :=
  let mine := low.filter (fun i => (Tab.get? k.groups i).isSome)
  match (List.range (mine.length + 1)).find? (fun n => ((k.without (mine.take n ++ gone)).fit e w).isSome) with
  | some n => mine.take n
  | none => []

/-- The groups of `low` whose resources a cluster would take where no one of them suffices: those in its way on the cores of the first
quadrant on which it fits without them (02 R44, R48). -/
def State.inTheWay (s : State) (w : Waiter) (gone low : List Nat) : List Nat :=
  match w with
  | .cluster i =>
    match s.gridOfPending i with
    | none => []
    | some (p, g) =>
      match p.restore with
      | none => ((s.clusterCores p.die g (low ++ gone)).getD []).flatMap (fun c => (s.core c).victims gone g.kernel g.nWarps low)
      | some r =>
        match (r.2.2.2.2.flatMap dieCores).find? (fun c => (((s.core c).without (low ++ gone)).fitSlots g.kernel r.2.2.1).isSome) with
        | some c => low.filter (fun i => (Tab.get? (s.core c).groups i).isSome)
        | none => []
  | .task c n =>
    match s.task? c n with
    | none => []
    | some t => (s.core c).victims gone t.kernel (recWarps t.rcd) low

/-- Whether a waiter fits only in resources that a group holds (02 R48, R49): in those of that group alone, or, where no one group suffices,
in those of several of which it is one. `may` says whose resources the waiter may take. -/
def State.holdsUp (s : State) (w : Waiter) (c gid : Nat) (may : Nat → Nat → Group → Bool) : Bool :=
  let gone := s.leaving w
  let taken := (s.groupsOn (s.waiterDies w)).filter (fun q => q.2.2.eligible && may q.1 q.2.1 q.2.2)
  let low := (taken.insertionSort (fun p q => s.groupPrio p.1 p.2.1 p.2.2 ≤ s.groupPrio q.1 q.2.1 q.2.2)).map (fun q => q.2.1)
  (s.waiterDies w).contains (dieOf c) && !(s.fitsWithout w gone) && low.contains gid &&
  (s.fitsWithout w (gid :: gone) ||
   (!(low.any (fun x => s.fitsWithout w (x :: gone))) && (s.inTheWay w gone low).contains gid))

/-- Whether a waiter may take a group's resources at once: its effective priority is strictly higher (02 R48). Without the swap bit of CORECFG
a group stays resident against a waiter that outranks it by the lowering of a stall hint alone (R47; DEDUCED, log 28). -/
def State.mayTake (s : State) (w : Waiter) (c gid : Nat) (g : Group) : Bool :=
  decide (s.groupPrio c gid g < (s.rank w).1) && ((s.core c).swap || decide (g.basePrio < (s.rank w).1))

/-- Whether a waiter of strictly higher effective priority needs a group's resources. -/
def State.outranked (s : State) (c gid : Nat) (g : Group) (w : Waiter) : Bool :=
  g.eligible && s.mayTake w c gid g && s.holdsUp w c gid (s.mayTake w)

/-- PREEMPTION: a trigger of R48 stops the warps of a group; warps that could not stop at once follow (09 R236). -/
def execPreemption (core gid : Nat) (s : State) : Host.Outcome State Fault Refusal :=
  match s.group? core gid with
  | none => .next s
  | some g =>
    if g.saving then .next (s.takePreempts core gid)
    else if s.waiters.any (s.outranked core gid g) then .next (s.startPreempt core gid)
    else .next s

/-- PRIORITY_AGING: a pending cluster has waited 2^20 cycles more, its priority has risen, and groups that it now outranks are
pre-empted for it (02 R46, R48). -/
def execPriorityAging (idx : Nat) (s : State) : Host.Outcome State Fault Refusal :=
  match s.pkg.pending[idx]? with
  | none => .next s
  | some p =>
    if p.waited < 2 ^ 20 then .next s
    else .next ((s.groupsOn (s.waiterDies (.cluster idx))).foldl (fun s q =>
      match s.group? q.1 q.2.1 with
      | some g => if s.outranked q.1 q.2.1 g (.cluster idx) then s.startPreempt q.1 q.2.1 else s
      | none => s) s)

/-- TIME_SLICE_END: a group's slice counter has reached its end: the group is pre-empted for a cluster of at least its priority that
needs its resources, or has another slice (02 R49). -/
def execTimeSliceEnd (core gid : Nat) (s : State) : Host.Outcome State Fault Refusal :=
  match s.group? core gid with
  | none => .next s
  | some g =>
    if g.tslice = 0 ∨ g.slice < g.tslice * 2 ^ 16 then .next s
    else if g.eligible && s.waiters.any (fun w =>
        s.holdsUp w core gid (fun c n h => decide (s.groupPrio c n h ≤ (s.rank w).1))) then
      .next (s.startPreempt core gid)
    else .next (s.setGroup core gid { g with slice := 0 })

/-! ## Work that a group has left behind (02 R52) -/

/-- Whether every command that a group posted has completed. -/
def State.commandsDone (s : State) (c gid : Nat) : Bool :=
  let k := s.core c
  k.copyQ.all (fun m => m.gid != gid) && k.ctxs.all (fun p => p.2.cmd.all (fun m => m.gid != gid)) &&
  k.contribs.all (fun x => !x.gids.contains gid) && k.matQ.all (fun m => m.gid != gid) && k.matBack.all (fun b => b.cmd.gid != gid) && k.scanQ.all (fun m => m.gid != gid) &&
  (s.die (dieOf c)).coll.all (fun p => !(p.2.core == c && p.2.gid == gid)) &&
  (match s.group? c gid with | some g => g.flushes.isEmpty | none => true)

/-- Whether nothing of a group's warps is outstanding on its core. -/
def State.warpsQuiet (s : State) (c gid : Nat) : Bool :=
  (s.core c).warps.all (fun p => p.2.gid != gid || (p.2.storeQ.isEmpty && p.2.loads.isEmpty && p.2.tiles.isEmpty)) &&
  ((s.core c).gripsOf gid).all (fun g => ((s.core c).grip g).run == 1 || ((s.core c).grip g).storeQ.isEmpty)

/-- Whether a write-through of one of some groups is still to be acknowledged. -/
def State.throughsOf (s : State) (gids : List Nat) : Bool := s.dies.any (fun p => p.2.outstanding (fun w => decide (w.core < Config.numCores) && gids.contains w.gid))

/-! ## Retirement, halting and release (02 R52, R53; 09 R237; 18 R446) -/

/-- What a grid or a task counts when one of its groups goes: retired, reported failed with a REASON, or halted. -/
inductive Gone where
  | retired | failed | halted
  deriving DecidableEq, Repr

/-- A task's end (14 R345, R347). A halted task group is never restored, so its task fails (log 16). -/
def State.taskGone (s : State) (c : Nat) (num : Nat) (how : Gone) : State :=
  match s.task? c num with
  | none => s
  | some t =>
    let s1 := s.retireTask c num
    if how = .retired then s1.addDone (dieOf c) t.asid 0 (recDone t.rcd) 1 else s1.taskFailed c t.asid t.poster 4 t.rcd

/-- A group's resources are released, and its grid or task is told. -/
def State.groupGone (s : State) (c gid : Nat) (how : Gone) : State :=
  match s.group? c gid with
  | none => s
  | some g =>
    let s1 := ((s.core c).gripsOf gid).foldl (fun s x => s.gripDrain c x) s
    let s2 := s1.release c gid
    match g.taskIdx with
    | some n => s2.taskGone c n how
    | none =>
      s2.modGrid g.gridId (fun q => { q with
        resident := q.resident - 1
        halted := if how = .halted then q.halted + 1 else q.halted
        nfg := if how = .failed then min (2 ^ 32 - 1) (q.nfg + 1) else q.nfg
        reason := if how = .failed then 4 else q.reason })

/-- GROUP_RETIREMENT: a group whose warps have exited and whose work is done retires; with an error it is reported once and held
(02 R52, R53). A task's group waits for its write-throughs too (11 R281). -/
def execGroupRetirement (core gid : Nat) (s : State) : Host.Outcome State Fault Refusal :=
  match s.group? core gid with
  | none => .next s
  | some g =>
    if g.stopped || g.saving || g.reported || !((s.core core).allExited gid) || !(s.commandsDone core gid) || !(s.warpsQuiet core gid) ||
        (g.taskIdx.isSome && s.throughsOf [gid]) then .next s
    else if g.err || g.fatal then
      .next ((s.setGroup core gid { g with reported := true }).event (dieOf core) core 0x01 g.asid core g.idgrid g.stat 0)
    else .next (s.groupGone core gid .retired)

/-- GROUP_HALT_RELEASE: every warp of a group has halted and its commands have completed: its resources are released and HALTED is
written (09 R237). -/
def execGroupHaltRelease (core gid : Nat) (s : State) : Host.Outcome State Fault Refusal :=
  match s.group? core gid with
  | none => .next s
  | some g =>
    if g.stopped || !((s.core core).warps.all (fun p => p.2.gid != gid || p.2.halted)) || !(s.commandsDone core gid) then .next s
    else
      let s1 := (s.groupGone core gid .halted).event (dieOf core) core 0x03 g.asid core g.idgrid 0 0
      .next (if g.taskIdx.isSome then s1 else s1.modPkg (fun p => { p with halted := p.halted ++
        [{ gridId := g.gridId, asid := g.asid, idgrid := g.idgrid, idgroup := g.idgroup, idclus := g.idclus, cast := g.castOpen, asked := false }] }))

/-- Whether a group is held for the companion processor (02 R53; 09 R243). -/
def Group.heldFor (g : Group) : Bool := g.reported || g.stopped

/-- A held group released at the companion's request. -/
def State.releaseHeld (s : State) (c gid : Nat) : State :=
  match s.group? c gid with
  | none => s
  | some g => if g.heldFor then (s.modCore c (fun k => k.forget gid)).groupGone c gid .failed else s

/-! ## Restore (09 R238, R239; 05 R131 to R137) -/

/-- A header of a save area; none where a byte cannot be read. -/
def State.readHdr (s : State) (asid va : Nat) : State × Option Nat :=
  let r := s.readHome asid va 8
  match r.2 with
  | .ok bs => if bs.any Prod.snd then (r.1, none) else (r.1, some (ofBytes (bs.map Prod.fst)))
  | .error _ => (r.1, none)

/-- Whether GHDR matches a grid: VER and every allocation. -/
def ghdrOk (g : Grid) (h : Nat) : Bool :=
  let e := g.kernel
  bitsOf h 63 60 == 1 && bitsOf h 59 55 == g.nWarps && bitsOf h 54 50 == e.nacc && bitsOf h 49 41 == e.ntile &&
  bitsOf h 40 34 == e.nbar && bitsOf h 33 29 == e.ntl && bitsOf h 27 19 == e.scrKib

/-- The population count of a record's LIVEMASK; none where it cannot be read. -/
def State.liveCount (s : State) (asid va : Nat) : State × Option Nat :=
  [0, 1, 2, 3].foldl (fun r i =>
    match r.2 with
    | none => r
    | some n =>
      let q := r.1.readHdr asid (va + 0x40 + 8 * i)
      (q.1, q.2.map (fun v => n + popcVal 64 v))) (s, some 0)

/-- The warp records of a save area from one VA on: warp indexes with their slots, or none where one is rejected. -/
def State.readRecords (s : State) (asid : Nat) (e : KernelEntry) (w : Nat) : Nat → Nat → State × Option (List (Nat × Nat))
  | 0, _ => (s, some [])
  | n + 1, va =>
    let r := s.readHdr asid va
    match r.2 with
    | none => (r.1, none)
    | some h =>
      let q := r.1.liveCount asid va
      if bitsOf h 63 60 != 1 || bitsOf h 28 23 != e.ngran || decide (w ≤ bitsOf h 16 13) || q.2 != some (bitsOf h 59 51) then (q.1, none)
      else
        let t := q.1.readRecords asid e w n (va + 0x700 + 0x80 * bitsOf h 59 51)
        (t.1, t.2.map (fun l => (bitsOf h 16 13, bitsOf h 22 17) :: l))

/-- The save area of a group checked (09 R239): its warps' slots, or none. -/
def State.readSaveArea (s : State) (g : Grid) (va : Nat) : State × Option (List (Nat × Nat)) :=
  let r := s.readHdr g.asid va
  match r.2 with
  | none => (r.1, none)
  | some h =>
    if !(ghdrOk g h) then (r.1, none)
    else
      let q := r.1.readRecords g.asid g.kernel g.nWarps g.nWarps (va + 0x1300 + 0x4000 * g.kernel.nacc)
      match q.2 with
      | some l => if (l.map Prod.snd).dedup.length = l.length ∧ (l.map Prod.fst).dedup.length = l.length then q else (q.1, none)
      | none => q

/-- A halted group of the grid launched through a record. -/
def State.findHalted (s : State) (asid recVa idgrid : Nat) : Option Halted :=
  s.pkg.halted.find? (fun h => h.asid == asid && h.idgrid == idgrid && !h.asked &&
    (match Tab.get? s.pkg.grids h.gridId with | some g => g.recVa == recVa | none => false))

/-- A restore asked on a link: the status of a refusal, or the group waits as a pending cluster of one group. -/
def State.askRestore (s : State) (link asid recVa idgrid dies va : Nat) : State × Option Nat :=
  match s.findHalted asid recVa idgrid with
  | none => (s, some 1)
  | some h =>
    match Tab.get? s.pkg.grids h.gridId with
    | none => (s, some 1)
    | some g =>
      let r := s.readSaveArea g va
      match r.2 with
      | none => (r.1, some 2)
      | some slots =>
        (r.1.modPkg (fun p => { p with
          halted := p.halted.map (fun x => if x = h then { x with asked := true } else x)
          pending := p.pending ++ [{ gridId := h.gridId, die := 0, next := 0, waited := 0, age := p.pendNum,
                                     restore := some (link, idgrid, slots, va, diesOf dies) }]
          pendNum := p.pendNum + 1 }), none)

/-- A halted group placed again: its warps begin the restore handler in their recorded slots. A bad restore vector is MACHINE (16 R402). -/
def State.placeRestored (s : State) (idx core : Nat) (h : Halted) (g : Grid) (a : Alloc) : State :=
  let gid := s.pkg.nextGid
  let b := { g.birth h.gridId h.idclus h.idgroup (s.tsliceOf g.asid) with cast := h.cast }
  let v := s.vector (freshGroup b a) 0
  let s1 := (s.placeGroup core b a (fun n w t => restoredWarp b n w t (v.getD 0)) 0).modGroup core gid (fun x => { x with restoring := true })
  let s2 := (s1.modGrid h.gridId (fun q => { q with resident := q.resident + 1, halted := q.halted - 1, gids := q.gids ++ [gid] })).modPkg
    (fun p => { p with pending := p.pending.eraseIdx idx, halted := p.halted.erase h })
  match v with
  | some _ => s2
  | none => s2.machineGroup core gid 0 0 0

/-- RESTORE_PLACEMENT: a group that waits for restore is placed on core `core` of an allowed die, where it fits in its recorded slots
(09 R239). -/
def execRestorePlacement (idx core : Nat) (s : State) : Host.Outcome State Fault Refusal :=
  match s.gridOfPending idx with
  | none => .next s
  | some (p, g) =>
    match p.restore with
    | none => .next s
    | some r =>
      match s.pkg.halted.find? (fun h => h.gridId == p.gridId && h.idgrid == r.2.1 && h.asked), (s.core core).fitSlots g.kernel r.2.2.1 with
      | some h, some a =>
        if r.2.2.2.2.contains (dieOf core) && s.mayPlace (.cluster idx) then .next (s.placeRestored idx core h g a) else .next s
      | _, _ => .next s

/-! ## The end of a grid (14 R337, R340, R341) -/

/-- Whether a grid has no cluster or group left to place or to end. -/
def State.gridQuiet (s : State) (id : Nat) (g : Grid) : Bool :=
  g.resident == 0 && s.pkg.pending.all (fun p => p.gridId != id) && !(s.throughsOf g.gids)

/-- STATE and REASON of a grid that ends: one with a halted group that was never restored has failed (09 R237). -/
def Grid.outcome (g : Grid) : Nat × Nat :=
  if g.state = 3 then (3, g.reason) else if g.nfg = 0 ∧ g.halted = 0 then (2, 0) else (4, 4)

/-- GRID_END: STATUS is written; once that is performed DONE counts the grid and HEAD advances; a sheet goes on from the node (14 R340,
R341). With halted groups left, the event ends the grid as failed (log 17). -/
def execGridEnd (gridId : Nat) (s : State) : Host.Outcome State Fault Refusal :=
  match Tab.get? s.pkg.grids gridId with
  | none => .next s
  | some g =>
    let h := s.gridHome g
    let o := g.outcome
    if !(s.gridQuiet gridId g) then .next s
    else if !g.told then .next ((s.putStatus h.2 g.asid h.1 g.recVa o.1 o.2 g.nfg).modGrid gridId (fun g => { g with told := true }))
    else if s.statusPending h.2 g.recVa then .next s
    else
      let s2 := s.addDone h.2 g.asid h.1 g.doneVa 1
      let s3 := s2.modPkg (fun p => { p with grids := Tab.erase p.grids gridId, halted := p.halted.filter (fun x => x.gridId != gridId) })
      match g.src with
      | .ring a q _ => .next (s3.advanceHead a q)
      | .sheet id n => .next (s3.nodeEnded id n o.1)

end Sys2Proof.Machine
end

