-- ==== Sys2Proof/Machine/Fabric.lean ====
section
/-! DEFINITION. The Aupin fabric: inbound request packets at the target (15 R371, R373, R375, R376, R380), and acknowledgements, hints,
routes and time limits at the initiator (R377 to R382). -/

namespace Sys2Proof.Machine

/-! ## The target (15 R373, R375, R376) -/

/-- The stream of a source and class at the target. -/
def State.target (s : State) (src tc : Nat) : Target := Tab.getD s.pkg.targets (4 * src + tc) Target.reset

/-- The state with a target stream changed. -/
def State.modTarget (s : State) (src tc : Nat) (f : Target → Target) : State :=
  s.modPkg (fun p => { p with targets := Tab.set p.targets (4 * src + tc) (f (s.target src tc)) })

/-- The die of an Aupin port, and the port's index there (01 R19). -/
def portPlace (port : Nat) : Nat × Nat := if port < 10 then (port / 5, port % 5) else (2 + (port - 10) / 4, (port - 10) % 4)

/-- The fault cause of a refused page (15 R373). -/
def remoteCause (e : MemErr) : Nat := match e with | .notValid => 0x10 | .perm => 0x11 | .misplaced => 0x12

/-- Every page of an inbound access translated by the target's own tables; a page with P = 0 refuses it. A home line without TV at a VA
that is refused is dropped (16 R408). -/
def State.inboundSpan (s : State) (asid : Nat) (wr : Bool) : Nat → Nat → Nat → State × Option (MemErr × Nat)
  | 0, _, _ => (s, none)
  | fuel + 1, va, n =>
    if n = 0 then (s, none)
    else if 2 ^ 52 ≤ va then (s, some (.notValid, va % 2 ^ 52))
    else
      let r := s.translateFor asid va
      match r.2 with
      | .error e => (r.1, some (e, va))
      | .ok t =>
        let drop := r.1.modDie (homeOf va) (fun k => k.dropHome asid (va / 128))
        if !(paOk (leafPa t va)) then (drop, some (.misplaced, va))
        else if !(pteP t) || (wr && !(pteW t)) then (drop, some (.perm, va))
        else
          let m := min n (65536 - va % 65536)
          r.1.inboundSpan asid wr fuel (va + m) (n - m)

/-- The die through whose L2 a request's accesses go: that of its port (01 R19; 11 R276, R277). -/
def packetDie (p : Packet) : Nat := (portPlace p.port).1

/-- Whose writes a stream's are: no group waits for them, but its FLAGs do (11 R283). -/
def streamWriter (src tc : Nat) : Writer := { core := 1024 + 4 * src + tc, gid := 0, cid := 0, unit := 0 }

/-- Bytes that may cross lines, read from die `x` with their marks. -/
def State.readMarked (s : State) (x asid : Nat) : Nat → Nat → Nat → State × Marked
  | 0, _, _ => (s, [])
  | fuel + 1, va, n =>
    if n = 0 then (s, [])
    else
      let m := min n (128 - va % 128)
      let r := s.readDev x asid va m
      let t := r.1.readMarked x asid fuel (va + m) (n - m)
      (t.1, (match r.2 with | .ok b => b | .error _ => []) ++ t.2)

/-- An inbound request after its checks: refused, faulted with an event, or performed by `f`. -/
def State.inbound (s : State) (p : Packet) (wr : Bool) (n : Nat) (f : State → State × AckKind) : State × AckKind :=
  if (s.asid p.asid.toNat).state ≠ 1 then (s, .remoteNack)
  else
    let r := s.inboundSpan p.asid.toNat wr (n / 65536 + 2) p.va.toNat n
    match r.2 with
    | some (e, va) =>
      let pl := portPlace p.port
      (r.1.event pl.1 (dieSource pl.1 (0x10 + pl.2)) 0x04 p.asid.toNat 0xFF 0
        (p.src.toNat * 2 ^ 52 + p.tc.toNat * 2 ^ 50 + remoteCause e * 2 ^ 40 + p.q.toNat) va, .remoteFault)
    | none => f r.1

/-- An element of an inbound atomic at its coherence point (11 R282; 15 R380). -/
def State.inboundAtom (s : State) (p : Packet) (va v : Nat) (dirty : Bool) : State × AckKind :=
  let op := p.rop.getD 0
  let r := s.atomFrom (packetDie p) p.asid.toNat va p.size (fun o => if dirty then o else atomNew op (8 * p.size) p.nat o v p.cmp)
  match r.2 with
  | .fail _ => (r.1, .remoteFault)
  | .poison => (r.1, .nackPoison)
  | .old o => (if dirty then (r.1.writeHome p.asid.toNat va (toBytes o p.size) true).1 else r.1, .old (BitVec.ofNat 64 o))

/-- A WRITE performed: its bytes, or its elements as atomics (15 Table 6). -/
def State.doWrite (s : State) (p : Packet) : State × AckKind :=
  s.inbound p true p.data.length (fun s =>
    match p.rop with
    | none => ((s.writeVa (packetDie p) p.asid.toNat (streamWriter p.src.toNat p.tc.toNat) (p.data.length + 1) p.va.toNat { bytes := p.data, bad := p.bad }).1, .done)
    | some _ =>
      let e : Elem := { bytes := p.data, bad := p.bad }
      ((List.range (p.data.length / max 1 p.size)).foldl (fun s i =>
        let x := e.part (i * p.size) p.size
        (s.inboundAtom p (p.va.toNat + i * p.size) (ofBytes x.bytes) (!x.bad.isEmpty)).1) s, .done))

/-- A READ performed. -/
def State.doRead (s : State) (p : Packet) : State × AckKind :=
  s.inbound p false p.len (fun s =>
    let r := s.readMarked (packetDie p) p.asid.toNat (p.len + 1) p.va.toNat p.len
    (r.1, .data (r.2.map Prod.fst) (Marked.marks r.2)))

/-- A FLAG performed: the flag's 64-bit word takes 1 more, wrapping (11 R283). -/
def State.doFlag (s : State) (p : Packet) : State × AckKind :=
  s.inbound p true 8 (fun s =>
    let r := s.atomFrom (packetDie p) p.asid.toNat p.va.toNat 8 (fun o => (o + 1) % 2 ^ 64)
    (r.1, match r.2 with | .old _ => .done | .poison => .nackPoison | .fail _ => .remoteFault))

/-- An ATOMIC performed, with what the result cache keeps of it. -/
def State.doAtomic (s : State) (p : Packet) : State × AckKind :=
  s.inbound p true p.size (fun s => s.inboundAtom p p.va.toNat (ofBytes p.data) (!p.bad.isEmpty))

/-- The source, class and number of a request. -/
def streamOf (i : Request) : Nat × Nat × BitVec 32 :=
  match i with
  | .write p => (p.src.toNat, p.tc.toNat, p.q)
  | .read p => (p.src.toNat, p.tc.toNat, p.q)
  | .atomic p => (p.src.toNat, p.tc.toNat, p.q)
  | .flag p => (p.src.toNat, p.tc.toNat, p.q)
  | .coll p => (p.src.toNat, p.tc.toNat, p.q)

/-- A request's effect. -/
def State.perform (s : State) (i : Request) : State × AckKind :=
  match i with
  | .write p => s.doWrite p
  | .read p => s.doRead p
  | .atomic p => s.doAtomic p
  | .flag p => s.doFlag p
  | .coll p => (s.modPkg (fun k => { k with peerColl := k.peerColl ++ [p] }), .done)

/-- What the result cache keeps of an answer. -/
def cacheOf (i : Request) (a : AckKind) : Option CacheResult :=
  match i with
  | .atomic _ => (match a with | .old v => some (.old v) | .nackPoison => some .poison | _ => none)
  | _ => none

/-- An answer sent to a peer. -/
def State.answer (s : State) (q : BitVec 32) (a : AckKind) : State := { s with out := { s.out with answers := s.out.answers ++ [(q, a)] } }

/-- A request that is next in its stream performed and answered; NEXT advances. -/
def State.performNext (s : State) (i : Request) : State :=
  let k := streamOf i
  let r := s.perform i
  (r.1.modTarget k.1 k.2.1 (fun t => { t with
    next := t.next + 1, performed := t.performed + 1
    cache := match cacheOf i r.2 with | some x => Tab.set t.cache (k.2.2.toNat % 1024) (k.2.2, x) | none => t.cache })).answer k.2.2 r.2

/-- Whether a request that is next in its stream must wait: a FLAG, until every write-through of the stream's data has been acknowledged
(11 R283). -/
def State.mustWait (s : State) (i : Request) : Bool :=
  match i with
  | .flag p => s.dies.any (fun d => d.2.outstanding (fun w => w.core == (streamWriter p.src.toNat p.tc.toNat).core))
  | _ => false

/-- Held requests performed as long as the next number is among them. -/
def State.performHeld (s : State) (src tc : Nat) : Nat → State
  | 0 => s
  | n + 1 =>
    let t := s.target src tc
    match t.held.find? (fun i => (streamOf i).2.2 == t.next) with
    | none => s
    | some i => if s.mustWait i then s else ((s.modTarget src tc (fun t => { t with held := t.held.erase i })).performNext i).performHeld src tc n

/-- The answer to a duplicate (15 Table 7). One of an ATOMIC that is not in the result cache, or of a number before a reset, is
refused. -/
def State.duplicate (s : State) (i : Request) : State × AckKind :=
  let k := streamOf i
  let t := s.target k.1 k.2.1
  if t.performed < (t.next - k.2.2).toNat then (s, .remoteNack)
  else
    match i with
    | .atomic _ =>
      (s, match Tab.get? t.cache (k.2.2.toNat % 1024) with
        | some (q, .old v) => if q = k.2.2 then .old v else .remoteNack
        | some (q, .poison) => if q = k.2.2 then .nackPoison else .remoteNack
        | none => .remoteNack)
    | .read p => s.doRead p
    | _ => (s, .done)

/-- How full the inbound buffer of a port's class is: 1 above three quarters, 2 full. -/
def State.inLevel (s : State) (port tc : Nat) : Nat := Tab.getD s.pkg.inbuf (4 * port + tc) 0

/-- Whether a response may leave by a port in a class: there are credits, and none waits for one (15 R371). -/
def State.mayRespond (s : State) (port tc : Nat) : Bool :=
  !(s.pkg.dryResp.contains (port, tc)) && !(s.pkg.owed.any (fun r => r.port == port && r.tc == tc))

/-- What a target sends back for a request that arrived on a port: ACK(n), with its HINT (15 R376, R382), and the answers so far. Without
a credit it waits (R371). -/
def State.acknowledge (s : State) (port src tc : Nat) : State :=
  if s.mayRespond port tc then
    { s with out := { s.out with acked := some (s.target src tc).next, hint := decide (1 ≤ s.inLevel port tc) } }
  else
    { s with out := { s.out with answers := [] }
             pkg := { s.pkg with owed := s.pkg.owed ++ [{ port := port, tc := tc, src := src, answers := s.out.answers }] } }

/-- Ports and classes with `p` added, or taken out. -/
def markPort (ps : List (Nat × Nat)) (p : Nat × Nat) (into : Bool) : List (Nat × Nat) :=
  if into then (if ps.contains p then ps else ps ++ [p]) else ps.filter (fun q => !(q == p))

/-- Act respCredit: without credits responses of the class wait; a credit sends the oldest of them (15 R371). -/
def respCredit (port tc : Nat) (has : Bool) (s : State) : State :=
  let s1 := s.modPkg (fun p => { p with dryResp := markPort p.dryResp (port, tc) (!has) })
  match if has then s1.pkg.owed.find? (fun r => r.port == port && r.tc == tc) else none with
  | none => s1
  | some r =>
    { s1 with out := { Out.reset with answers := r.answers, acked := some (s.target r.src tc).next, hint := decide (1 ≤ s.inLevel port tc) }
              pkg := { s1.pkg with owed := s1.pkg.owed.erase r } }

/-- Act streamFirst: a stream that has been reset learns its NEXT from the initiator's first number, though its packet be lost or late
(15 R379; log 26). -/
def streamFirst (src tc : Nat) (q : BitVec 32) (s : State) : State :=
  s.modTarget src tc (fun t => if t.fresh then { t with fresh := false, next := q } else t)

/-- The port of a request. -/
def portOf (i : Request) : Nat :=
  match i with
  | .write p => p.port
  | .read p => p.port
  | .atomic p => p.port
  | .flag p => p.port
  | .coll p => p.port

/-- A request kept in the window of its stream. -/
def Target.hold (t : Target) (i : Request) : Target :=
  if t.held.any (fun x => (streamOf x).2.2 == (streamOf i).2.2) then t else { t with held := t.held ++ [i] }

/-- A request judged by its number (15 Table 7). One that finds its inbound buffer full is dropped without an answer (18 R436), and so is
one after a failed boot (R434). -/
def State.receive (s0 : State) (i : Request) : State :=
  let k := streamOf i
  let s1 : State := { s0 with out := Out.reset }
  if s1.bootFailed || decide (2 ≤ s1.inLevel (portOf i) k.2.1) then s1
  else
    let s := s1.modTarget k.1 k.2.1 (fun t => if t.fresh then { t with fresh := false, next := k.2.2 } else t)
    let d := (k.2.2 - (s.target k.1 k.2.1).next).toNat
    let acked := fun (s : State) => s.acknowledge (portOf i) k.1 k.2.1
    if d = 0 && !(s.mustWait i) then
      let s1 := s.performNext i
      acked (s1.performHeld k.1 k.2.1 (s1.target k.1 k.2.1).held.length)
    else if d ≤ 1023 then acked (s.modTarget k.1 k.2.1 (fun t => t.hold i))
    else if d < 2 ^ 31 then s
    else if 2 ^ 32 - 1024 ≤ d then
      let r := s.duplicate i
      acked (r.1.answer k.2.2 r.2)
    else acked (s.answer k.2.2 .remoteNack)

/-- Act serve: a held request whose turn has come is performed, once it need not wait any more. -/
def serve (src tc : Nat) (s : State) : State :=
  let t := s.target src tc
  match t.held.find? (fun i => (streamOf i).2.2 == t.next) with
  | none => s
  | some i => if s.mustWait i then s else (({ s with out := Out.reset } : State).performHeld src tc t.held.length).acknowledge (portOf i) src tc

/-- Act inbuf. -/
def inbufLevel (port tc level : Nat) (s : State) : State := s.modPkg (fun p => { p with inbuf := Tab.set p.inbuf (4 * port + tc) level })

/-- Act credit: without credits no new request of the class leaves by the port; other classes go on (15 R371). -/
def setCredit (port tc : Nat) (has : Bool) (s : State) : State :=
  s.modPkg (fun p => { p with dry := markPort p.dry (port, tc) (!has) })

/-- WRITE_PACKET (15 R376). -/
def execWritePacket (p : Packet) (s : State) : Host.Outcome State Fault Refusal := .next (s.receive (.write p))
/-- READ_PACKET (15 R376). -/
def execReadPacket (p : Packet) (s : State) : Host.Outcome State Fault Refusal := .next (s.receive (.read p))
/-- ATOMIC_PACKET (15 R376). -/
def execAtomicPacket (p : Packet) (s : State) : Host.Outcome State Fault Refusal := .next (s.receive (.atomic p))
/-- FLAG_PACKET (11 R283; 15 R376). -/
def execFlagPacket (p : Packet) (s : State) : Host.Outcome State Fault Refusal := .next (s.receive (.flag p))
/-- COLL_PACKET: the packet is handed to the collective engines (15 R371). -/
def execCollPacket (p : CollPacket) (s : State) : Host.Outcome State Fault Refusal := .next (s.receive (.coll p))

/-! ## Failure of a packet's command at the initiator (15 R378, R381) -/

/-- The window address of unit `u` of a job: its source's where that is a window, else its first replica's. -/
def Job.windowAddr (j : Job) (s : State) (u : Nat) : DWord :=
  if j.f.units ≤ u then BitVec.ofNat 64 j.f.aux1
  else
    match (s.placeOf j u).2 with
    | .ok pl =>
      match (if j.f.ss = 3 then pl.src else pl.dst.headD []) with
      | p :: _ => BitVec.ofNat 64 (j.windowId 0 * 2 ^ 56 + p.addr)
      | [] => BitVec.ofNat 64 (if j.f.ss = 3 then j.f.src else j.f.dst)
    | .error _ => BitVec.ofNat 64 (if j.f.ss = 3 then j.f.src else j.f.dst)

/-- The job that a packet belongs to, while its command is there. -/
def State.jobOf (s : State) (o : OutPacket) : Option Job := (s.job o.core o.eng o.ctx).filter (fun j => j.cmd.cid == o.cid)

/-- The command of a packet fails at the packet's element. -/
def State.failPacket (s : State) (o : OutPacket) (status : Nat) : State :=
  if o.eng = 2 then
    let d := dieOf o.core
    match Tab.get? (s.die d).coll o.ctx with
    | some x => if x.core = o.core ∧ x.cid = o.cid then s.collFail d o.ctx status 0 0 else s
    | none => s
  else
    match s.jobOf o with
    | some j => j.failAt s o.unit status (j.windowAddr s o.unit) 3
    | none =>
      match s.amoOf o.core o.eng o.ctx with
      | some (m, a, _) =>
        s.modCtx o.core o.eng o.ctx (fun x => if m.cid = o.cid ∧ x.phase = .running then { x with phase := .failed status 0 a.addr 3 } else x)
      | none => s

/-! ## ACK_RECEIVED (15 R376, R381, R382) -/

/-- The bytes of a READ's units, once every packet of them has been sent and answered. -/
def Job.readAnswered (j : Job) (s : State) (o : OutPacket) (e : Elem) : State :=
  let s1 := j.mod s (fun x => { x with parts := x.parts ++ [(o.unit, o.off, e)] })
  if decide ((j.ctx s1).sent ≤ o.unit) || (s1.packetsOf j.c j.e j.x j.cmd.cid).any (fun p => p.kind == 1 && p.unit == o.unit && p.q != o.q) then s1
  else
    let ps := (j.ctx s1).parts.filter (fun p => p.1 == o.unit)
    let bs : Marked := (List.range ps.length).flatMap (fun i => match ps.find? (fun p => p.2.1 == 256 * i) with
      | some p => (p.2.2.bytes.zip (List.range p.2.2.bytes.length)).map (fun b => (b.1, p.2.2.bad.contains b.2))
      | none => [])
    let s2 := j.mod s1 (fun x => { x with parts := x.parts.filter (fun p => p.1 != o.unit) })
    ((List.range o.count).foldl (fun (t : State × Nat) i =>
      match (t.1.placeOf j (o.unit + i)).2 with
      | .error _ => t
      | .ok pl =>
        let n := (pl.src.map Piece.len).sum
        let u := o.unit + i
        let x := j.ctx t.1
        (if x.has false u || !(x.wants u) then t.1 else j.store t.1 u (j.clearBytes pl u (Marked.sub bs t.2 n)), t.2 + n)) (s2, 0)).1

/-- The old value of atomic element `u` has come back; with RET it is still to be returned (13 R317). -/
def Job.answered (j : Job) (s : State) (u v : Nat) : State :=
  j.mod s (fun x => if j.f.ret && x.wants u then { x with olds := Tab.set x.olds u v } else x)

/-- An atomic element meets NACK-POISON: the command fails there, and the element's result is the poison value (15 R380). -/
def Job.struck (j : Job) (s : State) (u : Nat) : State :=
  let y := (j.ctx s).wants u && j.f.kind == 3 && j.f.ret
  let s1 := j.failAt s u 0x18 (j.windowAddr s u) 3
  j.mod s1 (fun x => if y then { x with olds := Tab.set x.olds u (atomPoison (engBytes j.f.dfmt)) } else x)

/-- An answer taken by the command of its packet; whether the packet is done with. That of a READ no longer waited for is not used. -/
def State.takeAnswer (s : State) (o : OutPacket) (a : AckKind) : State × Bool :=
  if o.stale then (s, true)
  else
    match a with
    | .done => (s, o.kind != 1 && o.kind != 2)
    | .remoteNack => (s.failPacket o 0x15, true)
    | .remoteFault => (s.failPacket o 0x17, true)
    | .data bs bad => (match s.jobOf o with | some j => j.readAnswered s o { bytes := bs, bad := bad } | none => s, true)
    | .old v =>
      match s.jobOf o with
      | some j => (j.answered s o.unit v.toNat, true)
      | none =>
        match s.amoOf o.core o.eng o.ctx with
        | some (m, a, _) =>
          (s.modCtx o.core o.eng o.ctx (fun x => if m.cid = o.cid ∧ x.phase = .running then { x with result := some (v.toNat % 2 ^ (8 * a.size)) } else x), true)
        | none => (s, true)
    | .nackPoison => (match s.jobOf o with | some j => j.struck s o.unit | none => s.failPacket o 0x18, true)

/-- A packet leaves the retry buffer; an acknowledged FLAG ends its put. -/
def State.dropPacket (s : State) (dev tc : Nat) (o : OutPacket) (ok : Bool) : State :=
  let s1 := s.modStream dev tc (fun t => { t with unacked := t.unacked.erase o })
  if ok && o.kind == 3 then
    match s1.jobOf o with
    | some j => j.mod s1 (fun x => { x with flag := 2 })
    | none => s1
  else s1

/-- Whether a packet's number lies below `n`, modulo 2^32. -/
def OutPacket.below (o : OutPacket) (n : BitVec 32) : Bool := decide (0 < (n - o.q).toNat) && decide ((n - o.q).toNat < 2 ^ 31)

/-- Packets that an ACK(n) alone ends: READ and ATOMIC wait for their answers. -/
def State.ackBelow (s : State) (dev tc : Nat) (n : BitVec 32) : State :=
  ((s.stream dev tc).unacked.filter (fun o => o.below n && o.kind != 1 && o.kind != 2)).foldl (fun s o => s.dropPacket dev tc o true) s

/-- An answer to number `q`: to each packet that carries it. -/
def State.ackAnswer (s : State) (dev tc : Nat) (q : BitVec 32) (a : AckKind) : State :=
  ((s.stream dev tc).unacked.filter (fun o => o.q == q)).foldl (fun s o =>
    let r := s.takeAnswer o a
    if r.2 then r.1.dropPacket dev tc o (a == .done) else r.1) s

/-- The state with a route changed. -/
def State.modRoute (s : State) (dev : Nat) (f : Route → Route) : State :=
  s.modPkg (fun p => { p with routes := Tab.set p.routes dev (f (s.route dev)) })

/-- Whether every route to a device has failed. -/
def Route.allFailed (r : Route) : Bool := r.pf && (r.sf || r.second == 0x1F)

/-- An acknowledgement from a device, with or without HINT: the hint that it returns becomes current, or what was current ends
(15 R382). -/
def State.hintFrom (s : State) (dev tc : Nat) (hint : Bool) : State :=
  if hint then (s.takeHint dev).modStream dev tc (fun t => { t with hint := true, hintAt := s.ucycle.toNat })
  else [0, 1, 2, 3].foldl (fun s c => if (s.stream dev c).hint then s.modStream dev c (fun t => { t with hint := false }) else s) s

/-- ACK_RECEIVED: an answer, a cumulative acknowledgement and a hint; a failed route on which it came back works again (15 R376, R381,
R382; 16 R404). -/
def execAckReceived (a : Ack) (s : State) : Host.Outcome State Fault Refusal :=
  let dev := a.dev.toNat
  let tc := a.tc.toNat
  let now := s.ucycle.toNat
  let s1 := match a.answer with | some (q, k) => s.ackAnswer dev tc q k | none => s
  let s2 := ((s1.ackBelow dev tc a.upTo).modStream dev tc (fun t => { t with ackAt := now })).hintFrom dev tc a.hint
  let r := s2.route dev
  let s2 := if a.hint && decide (r.port < 18) then s2.countDie (portPlace r.port).1 0x4E 1 else s2
  .next (if r.allFailed then s2.modRoute dev (fun r => if r.port = r.primary then { r with pf := false } else { r with sf := false }) else s2)

/-- STALL_HINT_EXPIRY: a hint ends 65,536 cycles after the last hinted acknowledgement (15 R382). -/
def execStallHintExpiry (dev tc : Nat) (s : State) : Host.Outcome State Fault Refusal :=
  let t := s.stream dev tc
  if t.hint && decide (t.hintAt + 65536 ≤ s.ucycle.toNat) then .next (s.modStream dev tc (fun t => { t with hint := false })) else .next s

/-! ## Routes (15 R377) -/

/-- The route in use to a device fails: its packets are sent again over the other one. -/
def Route.fail (r : Route) (port now : Nat) : Route :=
  let pf := r.pf || r.primary == port
  let sf := r.sf || r.second == port
  { r with pf := pf, sf := sf, alt := if pf && sf && !(r.pf && r.sf) then false else r.alt,
           tried := if pf && (sf || r.second == 0x1F) && !r.allFailed then now else r.tried }

/-- Unacknowledged packets of a stream in the order of their numbers, modulo 2^32 within 2^31 of the next (15 R375, R377). -/
def Stream.inOrder (t : Stream) : List OutPacket :=
  let key := fun (o : OutPacket) => (o.q - t.next + BitVec.ofNat 32 (2 ^ 31)).toNat
  t.unacked.insertionSort (fun a b => key a ≤ key b)

/-- Every unacknowledged packet for a device sent again over the route now in use, in the order of each stream, and counted (15 R377;
17 Table 4). Each stream is heard anew from now on; one whose class has no credits on the port is replayed later (R371). -/
def State.replay (s : State) (dev : Nat) : State :=
  let p := (s.route dev).port
  let now := s.ucycle.toNat
  [0, 1, 2, 3].foldl (fun s tc =>
    let os := (s.stream dev tc).inOrder
    if os.isEmpty || s.pkg.dry.contains (p, tc) then s
    else
      let s1 := (s.modStream dev tc (fun t => { t with ackAt := now })).transmit dev (os.map OutPacket.body)
      if p < 18 then s1.countDie (portPlace p).1 0x4D os.length else s1) s

/-- LINK_DOWN: every route over a port whose link went down fails (15 R377). -/
def execLinkDown (port : Nat) (s : State) : Host.Outcome State Fault Refusal :=
  let now := s.ucycle.toNat
  let hit := fun (r : Route) => r.primary == port || r.second == port
  let used := (s.pkg.routes.filter (fun r => hit r.2 && r.2.port == port && !r.2.allFailed)).map Prod.fst
  .next (used.foldl (fun s d => s.replay d) (s.modPkg (fun p => { p with routes := Tab.mapVal p.routes (fun _ r => if hit r then r.fail port now else r) })))

/-- ACK_TIMEOUT: a stream with unacknowledged packets that hears nothing for 20,000 ns, or 66,000 uncore cycles, fails the device's route,
and every stream on it is replayed over the second (15 R377). -/
def execAckTimeout (dev tc : Nat) (s : State) : Host.Outcome State Fault Refusal :=
  let t := s.stream dev tc
  let r := s.route dev
  let now := s.ucycle.toNat
  if t.unacked.isEmpty || decide (now < t.ackAt + 66000) || r.allFailed then .next s
  else .next ((s.modRoute dev (fun r => r.fail r.port now)).replay dev)

/-- The uncore cycles between two tries: each route is tried once every 20,000 ns. -/
def Route.interval (r : Route) : Nat := if r.second = 0x1F then 66000 else 33000

/-- ROUTE_RETRY: with every route failed, the initiator tries them in turn (15 R377; 16 R404). -/
def execRouteRetry (dev : Nat) (s : State) : Host.Outcome State Fault Refusal :=
  let r := s.route dev
  let now := s.ucycle.toNat
  if !r.allFailed || decide (now < r.tried + r.interval) then .next s
  else .next ((s.modRoute dev (fun r => { r with alt := !r.alt && r.second != 0x1F, tried := now })).replay dev)

/-! ## FABRIC_TIMEOUT (15 R378) -/

/-- The packet of the lowest element. -/
def lowestPacket (os : List OutPacket) : Option OutPacket :=
  os.foldl (fun t o => match t with | none => some o | some m => if o.unit < m.unit then some o else some m) none

/-- The acceptance number of the command in a context. -/
def State.cidOf (s : State) (c e x : Nat) : Option Nat :=
  if e = 2 then ((Tab.get? (s.die (dieOf c)).coll x).filter (fun k => k.core == c)).map CollCtx.cid
  else (((s.core c).ctx e x).cmd).map Cmd.cid

/-- FABRIC_TIMEOUT: a command whose packet has stayed unacknowledged for the limit fails at its first element not acknowledged. The
packets stay in the retry buffer (15 R378). -/
def execFabricTimeout (core engine ctx : Nat) (s : State) : Host.Outcome State Fault Refusal :=
  match s.cidOf core engine ctx with
  | none => .next s
  | some cid =>
    let os := s.packetsOf core engine ctx cid
    match if os.any s.overdue then lowestPacket os else none with
    | none => .next s
    | some o => .next (s.failPacket o 0x16)

end Sys2Proof.Machine
end

