-- ==== Sys2Proof/Machine/Grip.lean ====
section
/-! DEFINITION. The grips: RV64IMAC, Zicsr and machine mode, the custom instructions, and tag waits that end (14 R351 to R357; 11 R272;
10 R261). -/

namespace Sys2Proof.Machine

/-! ## Running one instruction -/

/-- The state with which a grip's instruction is done: rd written, the pc moved, the instruction counted. -/
def State.gripRetire (s : State) (c g : Nat) (rd : Nat) (v : Nat) (pc : DWord) : State :=
  s.modGrip c g (fun k => { k.putReg rd (BitVec.ofNat 64 v) with pc := pc, minstret := k.minstret + 1 })

/-- A grip's custom instruction done. -/
def State.gripNext (s : State) (c g : Nat) (rd : BitVec 5) (v : Nat) : State :=
  s.gripRetire c g rd.toNat v (((s.core c).grip g).pc + 4)

/-- The acting grip's instruction; `f` is given the core, the grip, its group's number and its group. -/
def runGrip (f : Nat → Nat → Nat → Group → State) (s : State) : Host.Outcome State Fault Refusal :=
  match s.cur with
  | .grip c g =>
    match ((s.core c).grip g).gid with
    | none => .fault .noActor
    | some gid =>
      match s.group? c gid with
      | none => .fault .noActor
      | some gr => .next (f c g gid gr)
  | _ => .fault .noActor

/-- A register of the grip that acts. -/
def State.gx (s : State) (c g : Nat) (r : BitVec 5) : DWord := ((s.core c).grip g).reg r.toNat

/-- The exception that a trap of a shared check becomes (14 R356): local addresses, tiles and handles, poison, and SLATE. -/
def State.gripTrap (s : State) (c g : Nat) (t : Trap) : State :=
  let v := t.tval.toNat
  match t.cause with
  | 0x05 => s.gripExcept c g 25 (v / 4096)
  | 0x08 => s.gripExcept c g (if v % 8 = 0 then 5 else 4) v
  | 0x09 => s.gripExcept c g 25 v
  | 0x11 => (s.uncorrectable c 0x04).gripExcept c g 27 v
  | _ => s.gripExcept c g 24 v

/-! ## The address map (14 Table 7) -/

/-- What an access of `n` bytes at a grip address reaches. -/
inductive GripPlace where
  | istore (a : Nat)
  | dstore (a : Nat)
  | loc (a : Nat)
  | none
  deriving DecidableEq, Repr

/-- The place of an access. -/
def gripPlace (k : Core) (gid : Nat) (gr : Group) (a n : Nat) : GripPlace :=
  if a + n ≤ 0x8000 then .istore a
  else if 0x10000 ≤ a ∧ a + n ≤ 0x14000 then .dstore (a - 0x10000)
  else if 0x20000000 ≤ a ∧ localOk k gid gr (a - 0x20000000) n true then .loc (a - 0x20000000)
  else .none

/-- A load's value and whether it met an uncorrectable error; none for an access fault. -/
def gripLoad (k : Core) (g gid : Nat) (gr : Group) (a n : Nat) : Option (Nat × Bool) :=
  let x := k.grip g
  match gripPlace k gid gr a n with
  | .istore p => some (Memory.readV x.istore p n, x.ipoison.contains (p / 8))
  | .dstore p => some (Memory.readV x.dstore p n, x.poison.contains (p / 8))
  | .loc p => some (loadValue k gr x.storeQ x.sqSeq p n)
  | .none => none

/-- Where reservations on the data store are kept, beside physical scratchpad addresses. -/
def resvData : Nat := 2 ^ 32

/-- Bytes written to a grip's data store: a unit covered whole loses its poison, and its own reservation on them is lost. -/
def Grip.putData (x : Grip) (p n v : Nat) : Grip :=
  { x with
    dstore := Memory.writeV x.dstore p n v
    poison := if n = 8 then x.poison.filter (fun u => u != p / 8) else x.poison
    resv := match x.resv with
      | some (a, m) => if a < resvData + p + n ∧ resvData + p < a + m then none else x.resv
      | none => none }

/-- An entry put at the tail of a grip's store queue. -/
def Grip.enqueue (x : Grip) (b : SqBody) : Grip :=
  { x with storeQ := x.storeQ ++ [{ seq := x.sqSeq, counted := false, body := b }], sqSeq := x.sqSeq + 1 }

/-- ERRSTAT's unit of a grip access that met an uncorrectable error (09 Table 7). -/
def gripUnit (a : Nat) : Nat := if a < 0x20000000 then 0x09 else localUnit (a - 0x20000000)

/-- Whether a load has to wait: a queued atomic of its own grip covers what it reads (11 R272; DEDUCED, log 18). -/
def gripHeld (k : Core) (g : Nat) (p : GripPlace) (n : Nat) : Bool :=
  match p with
  | .loc a => sqAtomic (k.grip g).storeQ (k.grip g).sqSeq a n
  | _ => false

/-- A load of a grip. -/
def gripDoLoad (s : State) (c g gid : Nat) (gr : Group) (a n : Nat) (uns : Bool) (rd : Nat) (pc : DWord) : State :=
  if a % n ≠ 0 then s.gripExcept c g 4 a
  else if gripHeld (s.core c) g (gripPlace (s.core c) gid gr a n) n then s
  else
    match gripLoad (s.core c) g gid gr a n with
    | none => s.gripExcept c g 5 a
    | some (v, bad) => if bad then (s.uncorrectable c (gripUnit a)).gripExcept c g 27 a else s.gripRetire c g rd (gripValue v n uns) pc

/-- A store of a grip: to scratchpad and window through its queue, which it waits for when it is full (11 R272). -/
def gripDoStore (s : State) (c g gid : Nat) (gr : Group) (a n v : Nat) (pc : DWord) : State :=
  if a % n ≠ 0 then s.gripExcept c g 6 a
  else
    match gripPlace (s.core c) gid gr a n with
    | .dstore p => (s.modGrip c g (fun x => x.putData p n v)).gripRetire c g 0 0 pc
    | .loc p =>
      if sqCapacity ≤ ((s.core c).grip g).storeQ.length then s
      else (s.modGrip c g (fun x => x.enqueue (.store (withAddrs p (toBytes v n))))).gripRetire c g 0 0 pc
    | _ => s.gripExcept c g 7 a

/-! ## Atomics (14 R351; 11 R272) -/

/-- The code of 12 Table 3 and the comparison of an AMO. -/
def rvAmoOp (op : RvAmo) : Nat × Bool :=
  match op with
  | .add => (0, false)
  | .min => (1, false)
  | .max => (2, false)
  | .minu => (1, true)
  | .maxu => (2, true)
  | .and => (3, false)
  | .or => (4, false)
  | .xor => (5, false)
  | _ => (6, false)

/-- The key of a reservation on an access. -/
def resvKey (gr : Group) (p : GripPlace) : Option Nat :=
  match p with
  | .dstore a => some (resvData + a)
  | .loc a => if a < gr.scrSize then some (gr.scrBase + a) else none
  | _ => none

/-- An atomic on the data store, which no one else reaches: performed at once. -/
def gripDataAmo (s : State) (c g : Nat) (op : RvAmo) (n rd p v : Nat) (pc : DWord) : State :=
  let x := (s.core c).grip g
  let o := Memory.readV x.dstore p n
  let bad := x.poison.contains (p / 8)
  match op with
  | .sc =>
    let held := match x.resv with
      | some (b, m) => decide (b ≤ resvData + p) && decide (resvData + p + n ≤ b + m)
      | none => false
    (s.modGrip c g (fun x => { (if held then x.putData p n v else x) with resv := none })).gripRetire c g rd (if held then 0 else 1) pc
  | .lr =>
    if bad then (s.uncorrectable c 0x09).gripExcept c g 27 (0x10000 + p)
    else (s.modGrip c g (fun x => { x with resv := some (resvData + p, n) })).gripRetire c g rd (gripValue o n false) pc
  | _ =>
    let r := rvAmoOp op
    if bad then (s.uncorrectable c 0x09).gripExcept c g 27 (0x10000 + p)
    else (s.modGrip c g (fun x => x.putData p n (atomInt r.1 (8 * n) r.2 o (v % 2 ^ (8 * n)) 0))).gripRetire c g rd (gripValue o n false) pc

/-- The entry that an atomic on scratchpad is (11 R272). -/
def gripAmoEntry (op : RvAmo) (n rd p v : Nat) : SqBody :=
  match op with
  | .lr => .resv false n rd p 0
  | .sc => .resv true n rd p v
  | _ => .atomic (rvAmoOp op).1 n (rvAmoOp op).2 [{ lane := 0, addr := p, operand := v % 2 ^ (8 * n), cmp := 0 }] (some rd)

/-- An A-extension instruction (11 R272): on scratchpad it is an entry of the store queue, and with aq or rl set it drains the queue as
FENCE does; a full queue makes it wait. -/
def gripDoAmo (s : State) (c g gid : Nat) (gr : Group) (op : RvAmo) (drains : Bool) (n : Nat) (rd : Nat) (a v : Nat) (pc : DWord) : State :=
  let isLoad := op == .lr
  let p := gripPlace (s.core c) gid gr a n
  if a % n ≠ 0 then s.gripExcept c g (if isLoad then 4 else 6) a
  else
    match resvKey gr p, p with
    | some _, .dstore q => gripDataAmo (if drains then s.gripDrain c g else s) c g op n rd q v pc
    | some _, .loc q =>
      if sqCapacity ≤ ((s.core c).grip g).storeQ.length then s
      else
        let s1 := (s.modGrip c g (fun x => x.enqueue (gripAmoEntry op n rd q v))).gripRetire c g 0 0 pc
        if drains then s1.gripDrain c g else s1
    | _, _ => s.gripExcept c g (if isLoad then 5 else 7) a

/-! ## Arithmetic -/

/-- An integer operation on `w`-bit operands, as the unprivileged specification gives it. -/
def rvArith (op : RvOp) (w a b : Nat) : Nat :=
  let sa := sextNat a w
  let sb := sextNat b w
  let ua := a % 2 ^ w
  let ub := b % 2 ^ w
  let sh := b % w
  match op with
  | .add => (ua + ub) % 2 ^ w
  | .sub => wrapInt (sa - sb) w
  | .sll => ua * 2 ^ sh % 2 ^ w
  | .slt => if sa < sb then 1 else 0
  | .sltu => if ua < ub then 1 else 0
  | .xor => ua ^^^ ub
  | .srl => ua / 2 ^ sh
  | .sra => wrapInt (sa / 2 ^ sh) w
  | .or => ua ||| ub
  | .and => ua &&& ub
  | .mul => wrapInt (sa * sb) w
  | .mulh => wrapInt (sa * sb / 2 ^ w) w
  | .mulhsu => wrapInt (sa * ub / 2 ^ w) w
  | .mulhu => ua * ub / 2 ^ w
  | .div => if sb = 0 then 2 ^ w - 1 else wrapInt (sa.tdiv sb) w
  | .divu => if ub = 0 then 2 ^ w - 1 else ua / ub
  | .rem => if sb = 0 then ua else wrapInt (sa.tmod sb) w
  | .remu => if ub = 0 then ua else ua % ub

/-- The result of an integer instruction: a word operation sign-extends its 32 bits. -/
def rvResult (op : RvOp) (word : Bool) (a b : Nat) : Nat :=
  if word then wrapInt (sextNat (rvArith op 32 a b) 32) 64 else rvArith op 64 a b

/-- Whether a branch is taken. -/
def rvTaken (c : RvBranch) (a b : DWord) : Bool :=
  match c with
  | .beq => a == b
  | .bne => a != b
  | .blt => a.slt b
  | .bge => !(a.slt b)
  | .bltu => a.ult b
  | .bgeu => !(a.ult b)

/-! ## CSRs (14 R353) -/

/-- The value of a CSR; none where the number is not a grip's. -/
def csrRead (c g : Nat) (x : Grip) (n : Nat) : Option Nat :=
  match n with
  | 0xF11 => some 0
  | 0xF12 => some 0
  | 0xF13 => some 1
  | 0xF14 => some (2 * c + g)
  | 0x300 => some x.mstatus.toNat
  | 0x301 => some 0x8000000000001105
  | 0x304 => some 0
  | 0x305 => some x.mtvec.toNat
  | 0x340 => some x.mscratch.toNat
  | 0x341 => some x.mepc.toNat
  | 0x342 => some x.mcause.toNat
  | 0x343 => some x.mtval.toNat
  | 0x344 => some 0
  | 0xB00 => some x.mcycle.toNat
  | 0xB02 => some x.minstret.toNat
  | 0xC00 => some x.mcycle.toNat
  | 0xC02 => some x.minstret.toNat
  | 0x320 => some 0
  | _ => if (0xB03 ≤ n ∧ n ≤ 0xB1F) ∨ (0x323 ≤ n ∧ n ≤ 0x33F) then some 0 else none

/-- A CSR written: fields that are not writable keep what they read. -/
def csrWrite (x : Grip) (n : Nat) (v : Nat) : Grip :=
  match n with
  | 0x300 => { x with mstatus := BitVec.ofNat 64 (v &&& 0x88 ||| 0x1800) }
  | 0x305 => { x with mtvec := BitVec.ofNat 64 (v / 4 * 4) }
  | 0x340 => { x with mscratch := BitVec.ofNat 64 v }
  | 0x341 => { x with mepc := BitVec.ofNat 64 (v / 2 * 2) }
  | 0x342 => { x with mcause := BitVec.ofNat 64 v }
  | 0x343 => { x with mtval := BitVec.ofNat 64 v }
  | 0xB00 => { x with mcycle := BitVec.ofNat 64 v }
  | 0xB02 => { x with minstret := BitVec.ofNat 64 v }
  | _ => x

/-- The word of a standard instruction, for mtval of an illegal-instruction exception. -/
def rvWord (r : Rv) : Nat := (encodeRv r).toNat

/-- A CSR instruction. A write of minstret wins over its count. -/
def gripCsr (s : State) (c g : Nat) (op : RvCsr) (immForm : Bool) (rd rs1 : BitVec 5) (num : BitVec 12) (pc : DWord) : State :=
  let n := num.toNat
  let src := if immForm then rs1.toNat else (s.gx c g rs1).toNat
  let writes := op == .rw || rs1 != 0
  match csrRead c g ((s.core c).grip g) n with
  | none => s.gripExcept c g 2 (rvWord (.csr op immForm rd rs1 num))
  | some old =>
    if writes && decide (0xC00 ≤ n) then s.gripExcept c g 2 (rvWord (.csr op immForm rd rs1 num))
    else
      let new := match op with
        | .rw => src
        | .rs => old ||| src
        | .rc => old &&& (2 ^ 64 - 1 - src)
      let s1 := s.gripRetire c g rd.toNat old pc
      if writes then s1.modGrip c g (fun x => csrWrite x n new) else s1

/-! ## The standard instructions (14 R351) -/

/-- mtval of a breakpoint: the machine-level specification leaves the pc or 0 to the part (log 4). -/
def ebreakVal (s : State) (pc : DWord) : Nat := if Config.freeChoice s.free % 2 = 0 then 0 else pc.toNat

/-- One standard instruction, whose next instruction stands at `nx`. -/
def rvStep (s : State) (c g gid : Nat) (gr : Group) (r : Rv) (nx : DWord) : State :=
  let x := (s.core c).grip g
  let rg := fun (n : BitVec 5) => x.reg n.toNat
  let ea := fun (rs1 : BitVec 5) (off : BitVec 12) => (rg rs1 + off.signExtend 64).toNat
  let jump := fun (rd : Nat) (v : Nat) (t : DWord) => s.gripRetire c g rd v t
  match r with
  | .lui rd imm => jump rd.toNat ((imm ++ 0#12).signExtend 64).toNat nx
  | .auipc rd imm => jump rd.toNat (x.pc + (imm ++ 0#12).signExtend 64).toNat nx
  | .jal rd off => jump rd.toNat nx.toNat (x.pc + off.signExtend 64)
  | .jalr rd rs1 off => jump rd.toNat nx.toNat (BitVec.ofNat 64 (ea rs1 off / 2 * 2))
  | .branch cond rs1 rs2 off => jump 0 0 (if rvTaken cond (rg rs1) (rg rs2) then x.pc + off.signExtend 64 else nx)
  | .load size uns rd rs1 off => gripDoLoad s c g gid gr (ea rs1 off) (2 ^ size.toNat) uns rd.toNat nx
  | .store size rs1 rs2 off => gripDoStore s c g gid gr (ea rs1 off) (2 ^ size.toNat) (rg rs2).toNat nx
  | .opImm op w rd rs1 imm => jump rd.toNat (rvResult op w (rg rs1).toNat (imm.signExtend 64).toNat) nx
  | .op op w rd rs1 rs2 => jump rd.toNat (rvResult op w (rg rs1).toNat (rg rs2).toNat) nx
  | .amo op dbl aq rl rd rs1 rs2 => gripDoAmo s c g gid gr op (aq || rl) (if dbl then 8 else 4) rd.toNat (rg rs1).toNat (rg rs2).toNat nx
  | .fence _ _ => (s.gripDrain c g).gripRetire c g 0 0 nx
  | .csr op immForm rd rs1 num => gripCsr s c g op immForm rd rs1 num nx
  | .ecall => s.gripExcept c g 11 0
  | .ebreak => { s with free := s.free + 1 }.gripExcept c g 3 (ebreakVal s x.pc)
  | .mret => s.modGrip c g (fun k => { k with pc := k.mepc, mstatus := retStatus k.mstatus, minstret := k.minstret + 1 })
  | .wfi => jump 0 0 nx
  | .illegal word => s.gripExcept c g 2 word.toNat

/-- GRIP_STANDARD_INSTRUCTION (14 R351). -/
def execGripStandardInstruction (r : Rv) (short : Bool) (s : State) : Host.Outcome State Fault Refusal :=
  runGrip (fun c g gid gr => rvStep s c g gid gr r (((s.core c).grip g).pc + (if short then 2 else 4))) s

/-! ## The custom instructions (14 R355) -/

/-- The exception of a local image of `n` dwords at an address: misaligned, outside, or poisoned. -/
def imageTrap (s : State) (c g gid : Nat) (gr : Group) (a n : Nat) : Option State :=
  let k := s.core c
  if a % 8 ≠ 0 then some (s.gripExcept c g 4 a)
  else
    match (List.range n).find? (fun i => !(localOk k gid gr (a + 8 * i) 8 true)) with
    | some i => some (s.gripExcept c g 5 (a + 8 * i))
    | none =>
      match (List.range (2 * n)).find? (fun i => localPoison k gr (a + 4 * i)) with
      | some i => some ((s.uncorrectable c (localUnit a)).gripExcept c g 27 (a + 4 * i))
      | none => none

/-- g.post (14 R355): it waits for an entry with nothing done. -/
def execGPost (rd rs1 : BitVec 5) (s : State) : Host.Outcome State Fault Refusal :=
  runGrip (fun c g gid gr =>
    let s1 := s.gripDrain c g
    if copyCapacity ≤ (s1.core c).copyQ.length then s1
    else
      let a := (s.gx c g rs1).toNat
      match imageTrap s1 c g gid gr a 16 with
      | some t => t
      | none =>
        let r := (localDwords (s1.core c) gr a 16).map (BitVec.ofNat 64)
        match slateCheck s1 c gr 0 r with
        | some t => s1.gripTrap c g t
        | none =>
          let p := s1.postSlate c gid (0x40 + g) ((s1.core c).grip g).pc r
          p.1.gripNext c g rd p.2) s

/-- g.tlwait (14 R355): it waits with nothing done until the timeline is there, or held below by a failure. -/
def execGTlwait (rd rs1 rs2 : BitVec 5) (s : State) : Host.Outcome State Fault Refusal :=
  runGrip (fun c g _ gr =>
    let n := (s.gx c g rs1).toNat
    if gr.nTl ≤ n then s.gripExcept c g 24 n
    else
      match (gr.tl n).waitDone (s.gx c g rs2).toNat with
      | none => s
      | some _ => s.gripNext c g rd (gr.tl n).value) s

/-- g.tlrd (14 R355). -/
def execGTlrd (rd rs1 : BitVec 5) (s : State) : Host.Outcome State Fault Refusal :=
  runGrip (fun c g _ gr =>
    let n := (s.gx c g rs1).toNat
    if gr.nTl ≤ n then s.gripExcept c g 24 n else s.gripNext c g rd (gr.tl n).value) s

/-- A grip's tag access at a local word: it drains the queue and acts when the word is ready and no one is before it; else it waits
(10 R261, R262; 11 R272). -/
def gripTag (s : State) (c g gid : Nat) (gr : Group) (a : Nat) (full : Bool) (act : State → State) : State :=
  if a % 4 ≠ 0 then s.gripExcept c g (if full then 4 else 6) a
  else if !(localOk (s.core c) gid gr a 4 false) then s.gripExcept c g (if full then 5 else 7) a
  else
    let s1 := s.gripDrain c g
    let k := s1.core c
    let ws := tagWords gr a 4
    if wordsReady k ws full && k.untagged ws && !(someoneFirst k (.grip g) ws) then
      act (s1.modCore c (fun k => (setTags k ws (!full)).unwait (.grip g)) |>.modGrip c g (fun x => { x with wtag := none }))
    else
      match (k.grip g).wtag with
      | some _ => s1
      | none =>
        ((s1.modGrip c g (fun x => { x with wtag := some (a, full), wstart := k.cycle.toNat })).modCore c
          (fun k => { k with tagQ := k.tagQ ++ [.grip g] })).countCore c 0x22 1

/-- g.ldf (14 R355). -/
def execGLdf (rd rs1 : BitVec 5) (s : State) : Host.Outcome State Fault Refusal :=
  runGrip (fun c g gid gr =>
    let a := (s.gx c g rs1).toNat
    gripTag s c g gid gr a true (fun t =>
      if localPoison (t.core c) gr a then (t.uncorrectable c 0x04).gripExcept c g 27 a
      else t.gripNext c g rd (gripValue (ofBytes (localRead (t.core c) gr a 4)) 4 false))) s

/-- g.ste (14 R355). -/
def execGSte (rs1 rs2 : BitVec 5) (s : State) : Host.Outcome State Fault Refusal :=
  runGrip (fun c g gid gr =>
    let a := (s.gx c g rs1).toNat
    gripTag s c g gid gr a false (fun t =>
      (t.setCore c (localWrite (t.core c) gr (withAddrs a (toBytes (s.gx c g rs2).toNat 4)))).gripNext c g 0 0)) s

/-- ITEMPUT of one item by a grip. -/
def gripItem (close : Bool) (rd rs1 : BitVec 5) (s : State) : Host.Outcome State Fault Refusal :=
  runGrip (fun c g gid _ =>
    let r := s.putItems c gid [s.gx c g rs1] close
    r.1.gripNext c g rd r.2) s
/-- g.item (14 R355). -/
def execGItem (rd rs1 : BitVec 5) (s : State) : Host.Outcome State Fault Refusal := gripItem false rd rs1 s
/-- g.item with funct7 1 (14 R355). -/
def execGItemClose (rd rs1 : BitVec 5) (s : State) : Host.Outcome State Fault Refusal := gripItem true rd rs1 s

/-- g.task (14 R355): the queue drains as TSKPOST's does. -/
def execGTask (rd rs1 rs2 : BitVec 5) (s : State) : Host.Outcome State Fault Refusal :=
  runGrip (fun c g _ gr =>
    let s1 := s.gripDrain c g
    match s1.postTask c gr (bitsOf (s.gx c g rs1).toNat 31 0) (bitsOf (s.gx c g rs2).toNat 31 0) (bitsOf (s.gx c g rs2).toNat 63 32) 0xFF (4 + g) with
    | .error t => s1.gripTrap c g t
    | .ok r => r.1.gripNext c g rd r.2) s

/-- g.barv (14 R355): the arrival enters the store queue, which it waits for when it is full. -/
def execGBarv (rd rs1 : BitVec 5) (s : State) : Host.Outcome State Fault Refusal :=
  runGrip (fun c g _ gr =>
    let n := (s.gx c g rs1).toNat
    if gr.nBar ≤ n then s.gripExcept c g 24 n
    else if (gr.bar n).expected = 0 then s.gripExcept c g 24 (0x100 + n)
    else if sqCapacity ≤ ((s.core c).grip g).storeQ.length then s
    else (s.modGrip c g (fun x => x.enqueue (.arrive n 1))).gripNext c g rd (gr.bar n).phase.toNat) s

/-- g.evt with funct7 0 (14 R355; 17 R428). -/
def execGEvt (rs1 : BitVec 5) (s : State) : Host.Outcome State Fault Refusal :=
  runGrip (fun c g _ _ => (s.countCore c 0x24 (bitsOf (s.gx c g rs1).toNat 15 0)).gripNext c g 0 0) s

/-- g.evt with funct7 1: the grip ends (14 R355). -/
def execGEvtEnd (_rs1 : BitVec 5) (s : State) : Host.Outcome State Fault Refusal :=
  runGrip (fun c g _ _ => (s.gripNext c g 0 0).modGrip c g (fun x => { x with run := 2, resv := none })) s

/-- g.evt with funct7 2: the grip fails with a code (14 R357). -/
def execGEvtFail (rs1 : BitVec 5) (s : State) : Host.Outcome State Fault Refusal :=
  runGrip (fun c g _ _ => s.gripFail c g (bitsOf (s.gx c g rs1).toNat 7 0) ((s.core c).grip g).mtval) s

/-! ## Fetch, and tag waits that end -/

/-- A grip's instruction word; none where the pc lies outside the instruction store. A 4-byte instruction may lack its second half. -/
def Grip.word (x : Grip) : Option Word :=
  let a := x.pc.toNat
  if a + 2 ≤ 0x8000 then some (BitVec.ofNat 32 (Memory.readV x.istore a 4)) else none

/-- What stops a grip's fetch: the POISON of an atomic that its queue has performed, a failure for an uncorrectable error in the store,
an instruction access fault at an address, or a pc that is odd, which only a save record can give (14 R351, R359). -/
inductive FetchStop where
  | poison
  | fail
  | fault (a : Nat)
  | misaligned (a : Nat)
  deriving DecidableEq, Repr

/-- A grip's fetch at its pc. -/
def Grip.fetch (x : Grip) : Except FetchStop Instr :=
  let a := x.pc.toNat
  if x.struck.isSome then .error .poison
  else if a % 2 = 1 then .error (.misaligned a)
  else if x.fetchFault then .error (.fault a)
  else
    match x.word with
    | none => .error (.fault a)
    | some w =>
      let n := if w.toNat % 4 = 3 then 4 else 2
      if x.ipoison.contains (a / 8) then .error .fail
      else if 0x8000 < a + n then .error (.fault (a + 2))
      else if x.ipoison.contains ((a + n - 1) / 8) then .error .fail
      else .ok (decodeGrip w)

/-- TAG_WAIT_SATISFIED: a waiting access finds its words ready, and acts (10 R261). -/
def execTagWaitSatisfied (core : Nat) (who : TagWaiter) (s : State) : Host.Outcome State Fault Refusal :=
  match who with
  | .warp slot =>
    match (s.waitOf core slot).map Waiting.instr with
    | some (.ldsfMem b) => resume s core slot (execLdsfMem b)
    | some (.ldsfExt x) => resume s core slot (execLdsfExt x)
    | some (.stseMem b) => resume s core slot (execStseMem b)
    | some (.stseExt x) => resume s core slot (execStseExt x)
    | _ => .next s
  | .grip g =>
    let x := (s.core core).grip g
    if x.run = 1 ∧ x.wtag.isSome then
      match x.fetch with
      | .ok (.gLdf rd rs1) => match execGLdf rd rs1 { s with cur := .grip core g } with
        | .next t => .next { t with cur := s.cur }
        | o => o
      | .ok (.gSte rs1 rs2) => match execGSte rs1 rs2 { s with cur := .grip core g } with
        | .next t => .next { t with cur := s.cur }
        | o => o
      | _ => .next s
    else .next s

end Sys2Proof.Machine
end

