-- ==== Sys2Proof/Machine/Lane.lean ====
section
/-! DEFINITION. Quad operations, lane exchange, votes, folds and intersection (07 R182, R184 to R189). -/

namespace Sys2Proof.Machine

/-! ## Quad operations (07 R182) -/

/-- QSWZ or QBC: lane 4q + p takes srcA of lane 4q + `pick p`. -/
def quadMove (m : BitVec 10) (pick : Nat → Nat) (x : Ext) : Spec :=
  let w := if modBit x 9 then 64 else 32
  Spec.plain (intShape m (Dst.lane w) (some (Pos.lane w)) none none) (fun i => i.out (fun l => i.a (l / 4 * 4 + pick (l % 4))))
/-- QSWZ. -/
def qswzSpec (x : Ext) : Spec := quadMove 0b1011111111#10 (fun p => modField x 7 0 / 4 ^ p % 4) x
/-- QSWZ (07 Table 5). -/
def execQswz (x : Ext) (s : State) : Host.Outcome State Fault Refusal := runExt qswzSpec x s
/-- QBC. -/
def qbcSpec (x : Ext) : Spec := quadMove 0b1000000011#10 (fun _ => modField x 1 0) x
/-- QBC (07 Table 5). -/
def execQbc (x : Ext) (s : State) : Host.Outcome State Fault Refusal := runExt qbcSpec x s

/-- QDX or QDY: the difference of two lanes of the quad, by the position in it. -/
def quadDiff (pick : Nat → Nat × Nat) (_x : Ext) : Spec :=
  Spec.plain (intShape 1#10 (Dst.lane 32) (some (Pos.fp .f32)) none none) (fun i =>
    i.outFp (fun l =>
      let q := pick (l % 4)
      subOp .f32 0 (i.a (l / 4 * 4 + q.1)) (i.a (l / 4 * 4 + q.2)) 0))
/-- QDX. -/
def qdxSpec (x : Ext) : Spec := quadDiff (fun p => if modBit x 0 ∨ p < 2 then (1, 0) else (3, 2)) x
/-- QDX (07 Table 5). -/
def execQdx (x : Ext) (s : State) : Host.Outcome State Fault Refusal := runExt qdxSpec x s
/-- QDY. -/
def qdySpec (x : Ext) : Spec := quadDiff (fun p => if modBit x 0 ∨ p % 2 = 0 then (2, 0) else (3, 1)) x
/-- QDY (07 Table 5). -/
def execQdy (x : Ext) (s : State) : Host.Outcome State Fault Refusal := runExt qdySpec x s

/-! ## LXCH (07 R185) -/

/-- The source lane of LXCH, or none where it is out of range. -/
def lxchLane (mode w l d : Nat) : Option Nat :=
  let base := l - l % w
  match mode with
  | 0 => some (base + d % w)
  | 1 => if d ≤ l - base then some (l - d) else none
  | 2 => if l + d < base + w then some (l + d) else none
  | _ => some (base + Nat.xor (l - base) (d % w))

/-- LXCH. -/
def lxchSpec (x : Ext) : Spec :=
  let width := if modBit x 9 then 64 else 32
  let seg := modField x 4 2
  let fill := modBit x 5
  let src := fun (i : Issue) (l : Nat) => lxchLane (modField x 1 0) (32 / 2 ^ seg) l (i.b l)
  let sh := intShape 0b1000111111#10 (Dst.lane width) (some (Pos.lane width)) (some (Pos.lane 32)) (if fill then some (Pos.lane width) else none)
  Spec.plain { sh with m2 := 7#6, bad := decide (6 ≤ seg) } (fun i =>
    .done { i.res with
      out := fun l => match src i l with
        | some j => i.a j
        | none => if fill then i.d l else i.a l
      preds := [(bitsOf x.mods2.toNat 2 0, i.run, maskOf (fun l => match src i l with
        | some j => i.w.active.has j || i.hlp.has j
        | none => false))] })
/-- LXCH (07 R185). -/
def execLxch (x : Ext) (s : State) : Host.Outcome State Fault Refusal := runExt lxchSpec x s

/-! ## QRM and PEER (07 R184, R186, R187) -/

/-- The participants: active lanes that are not helpers and whose guard is 1 (07 R184). -/
def Issue.parts (i : Issue) : List Nat := (i.w.active &&& i.grd).list

/-- QRM. -/
def qrmSpec (x : Ext) : Spec :=
  let mode := modField x 1 0
  let sh := { Shape.bare with m := 3#10, m3 := 15#6, anyGuard := true, fixed := true }
  Spec.plain (if mode = 3 then { sh with dst := some Dst.uni } else { sh with m2 := 7#6 }) (fun i =>
    let v := fun l => i.predIn (bitsOf x.mods3.toNat 2 0) (x.mods3.getLsbD 3) l
    let on := i.parts.filter v
    if mode = 3 then i.out (fun _ => (maskOf (fun l => on.contains l)).toNat + 2 ^ 32 * on.length)
    else
      let r := match mode with
        | 0 => decide (on.length = i.parts.length)
        | 1 => !on.isEmpty
        | _ => decide (on.length = i.parts.length) || on.isEmpty
      .done { i.res with preds := [(bitsOf x.mods2.toNat 2 0, i.w.active ||| i.hlp, if r then i.w.active else 0)] })
/-- QRM (07 R186). -/
def execQrm (x : Ext) (s : State) : Host.Outcome State Fault Refusal := runExt qrmSpec x s

/-- PEER. -/
def peerSpec (x : Ext) : Spec :=
  let unanim := modBit x 0
  let sh := intShape 0b1000000001#10 (Dst.lane 32) (some (Pos.lane (if modBit x 9 then 64 else 32))) none none
  Spec.plain { sh with m2 := if unanim then 7#6 else 0 } (fun i =>
    let ps := i.parts
    let pm := maskOf (fun l => ps.contains l)
    if unanim then
      let same := ps.all (fun l => i.a l == i.a (ps.headD 0))
      .done { i.res with
        out := fun l => if same && pm.has l then pm.toNat else 0
        preds := [(bitsOf x.mods2.toNat 2 0, i.run, if same then pm else 0)] }
    else i.out (fun l => if pm.has l then (maskOf (fun j => pm.has j && decide (i.a j = i.a l))).toNat else 0))
/-- PEER (07 R187). -/
def execPeer (x : Ext) (s : State) : Host.Outcome State Fault Refusal := runExt peerSpec x s

/-! ## WFOLD and PREFIX (07 R188) -/

/-- Whether a reduction code is listed in 07 Table 7. -/
def foldListed (op : Nat) : Bool := decide (op ≤ 5) || (decide (8 ≤ op) && decide (op ≤ 10))

/-- `combine` of 07 Table 7: the value and the flags. -/
def foldCombine (op w : Nat) (nat : Bool) (a b : Nat) : Nat × Nat :=
  match op with
  | 8 => addOp .f32 0 a b 0
  | 9 => Fmt.f32.minMax false a b
  | 10 => Fmt.f32.minMax true a b
  | _ => (atomInt op w nat a b 0, 0)

/-- The identity for EXCL. -/
def foldIdentity (op w : Nat) (nat : Bool) : Nat :=
  match op with
  | 1 => if nat then 2 ^ w - 1 else 2 ^ (w - 1) - 1
  | 2 => if nat then 0 else 2 ^ (w - 1)
  | 3 => 2 ^ w - 1
  | 8 => Fmt.f32.signBit
  | 9 => Fmt.f32.inf
  | 10 => Fmt.f32.signed true Fmt.f32.inf
  | _ => 0

/-- Two places of the tree combined: an absent one gives the other, with no rounding. -/
def foldPair (f : Nat → Nat → Nat × Nat) (a b : Option Nat) : Option Nat × Nat :=
  match a, b with
  | some u, some v => (some (f u v).1, (f u v).2)
  | some u, none => (some u, 0)
  | none, v => (v, 0)

/-- One level of the tree. -/
def foldLevel (f : Nat → Nat → Nat × Nat) : List (Option Nat) → List (Option Nat) × Nat
  | a :: b :: t =>
    let p := foldPair f a b
    let r := foldLevel f t
    (p.1 :: r.1, p.2 ||| r.2)
  | l => (l, 0)

/-- `n` levels, with the flags of all. -/
def foldTree (f : Nat → Nat → Nat × Nat) : Nat → List (Option Nat) → Option Nat × Nat
  | 0, l => (l.headD none, 0)
  | n + 1, l =>
    let p := foldLevel f l
    let r := foldTree f n p.1
    (r.1, p.2 ||| r.2)

/-- The shape of WFOLD and PREFIX. -/
def foldShape (m : BitVec 10) (x : Ext) : Shape :=
  let op := modField x 3 0
  let w := if modBit x 5 then 64 else 32
  let p := if 8 ≤ op then Pos.fp .f32 else Pos.lane w
  { intShape m (Dst.lane w) (some p) none none with
    bad := !(foldListed op) || (modBit x 4 && !(decide (op = 1 ∨ op = 2))) || (modBit x 5 && decide (8 ≤ op)) }

/-- WFOLD. -/
def wfoldSpec (x : Ext) : Spec :=
  let op := modField x 3 0
  let w := if modBit x 5 then 64 else 32
  Spec.plain (foldShape 0b111111#10 x) (fun i =>
    let ps := i.parts
    let r := foldTree (foldCombine op w (modBit x 4)) 5 (lanes.map (fun l => if ps.contains l then some (i.a l) else none))
    .done { i.res with out := fun l => if ps.contains l then r.1.getD 0 else 0, flags := r.2 })
/-- WFOLD (07 R188). -/
def execWfold (x : Ext) (s : State) : Host.Outcome State Fault Refusal := runExt wfoldSpec x s

/-- The running folds of a list: each value's own, and the flags of all. -/
def prefixFold (f : Nat → Nat → Nat × Nat) : Option Nat → List Nat → List Nat × Nat
  | _, [] => ([], 0)
  | acc, a :: t =>
    let p := match acc with
      | none => (a, 0)
      | some u => f u a
    let r := prefixFold f (some p.1) t
    (p.1 :: r.1, p.2 ||| r.2)

/-- PREFIX: with EXCL the participant of rank r gets the fold of the ranks below it. -/
def prefixSpec (x : Ext) : Spec :=
  let op := modField x 3 0
  let w := if modBit x 5 then 64 else 32
  let excl := modBit x 6
  Spec.plain (foldShape 0b1111111#10 x) (fun i =>
    let ps := i.parts
    let vals := ps.map i.a
    let r := prefixFold (foldCombine op w (modBit x 4)) none (if excl then vals.dropLast else vals)
    let outs := if excl then foldIdentity op w (modBit x 4) :: r.1 else r.1
    .done { i.res with
      out := fun l => match (ps.zip outs).find? (fun p => p.1 == l) with | some p => p.2 | none => 0
      flags := r.2 })
/-- PREFIX (07 R188). -/
def execPrefix (x : Ext) (s : State) : Host.Outcome State Fault Refusal := runExt prefixSpec x s

/-! ## ISECT (07 R189) -/

/-- The merge loop of ISECT: the matches, and the final i and j. -/
def isectLoop (lt : Nat → Nat → Bool) : Nat → List Nat → List Nat → Nat → Nat → List (Nat × Nat) × Nat × Nat
  | 0, _, _, i, j => ([], i, j)
  | fuel + 1, a :: ta, b :: tb, i, j =>
    if a = b then
      let r := isectLoop lt fuel ta tb (i + 1) (j + 1)
      ((i, j) :: r.1, r.2)
    else if lt a b then isectLoop lt fuel ta (b :: tb) (i + 1) j
    else isectLoop lt fuel (a :: ta) tb i (j + 1)
  | _, _, _, i, j => ([], i, j)

/-- ISECT. -/
def isectSpec (x : Ext) : Spec :=
  let nat := natM x
  let sh := intShape 2#10 (Dst.lane 32) (some (Pos.lane 32)) (some (Pos.lane 32)) (some (Pos.uni 32))
  Spec.plain { sh with m2 := 7#6 } (fun i =>
    let ps := i.parts
    let lim := fun n => min (n % 64) ps.length
    let r := isectLoop (fun u v => decide (intVal nat u 32 < intVal nat v 32)) 64
      ((ps.map i.a).take (lim (i.d 0))) ((ps.map i.b).take (lim (i.d 0 / 256))) 0 0
    let rank := fun l => (ps.filter (fun j => decide (j < l))).length
    .done { i.res with
      out := fun l =>
        if ps.contains l then
          r.2.2 * 2 ^ 24 + r.2.1 * 2 ^ 16 + (match r.1[rank l]? with | some p => p.2 * 256 + p.1 | none => 0)
        else 0
      preds := [(bitsOf x.mods2.toNat 2 0, i.run, maskOf (fun l => ps.contains l && decide (rank l < r.1.length)))] })
/-- ISECT (07 R189). -/
def execIsect (x : Ext) (s : State) : Host.Outcome State Fault Refusal := runExt isectSpec x s

end Sys2Proof.Machine
end

