-- ==== Sys2Proof/Machine/Interlock.lean ====
section
/-! DEFINITION. The words of a warp's next instruction (03 R69 to R73); what an instruction reads and writes, the interlock over results of
fixed latency, the banks and a PC that moves (02 R32; 03 R74, R75; 05 R122; 06 R141, R159); readiness and the choice of the next run (02 R33
to R35). -/

namespace Sys2Proof.Machine

/-! ## Fetch -/

/-- What a warp's fetch gives: an instruction, or the trap that its words raise. -/
inductive Fetched where
  | instr (i : Instr)
  | trap (t : Trap)
  deriving DecidableEq, Repr

/-- The trap of words that decode to nothing: IL-RSV for a branch form with a literal, else IL-OPC (03 Table 7; 06 R156). -/
def undecodedTrap (w0 : Word) : Trap :=
  if w0.extractLsb' 0 2 = 1 ∧ (ofBase (w0.extractLsb' 3 7).toNat w0 none).isSome then { cause := 0x02, tval := 0 } else { cause := 0x01, tval := 0 }

/-- The words of an instruction from address `a` on, through the instruction cache; the first word that lies outside the registered
code, or whose line is not there, stops the fetch (03 R72; 16 R401). -/
def fetchWords (s : State) (c : Nat) (g : Group) : Nat → Nat → State × List Word × Option Nat
  | 0, _ => (s, [], none)
  | n + 1, a =>
    if !(g.isCode a) then (s, [], some a)
    else
      let s1 := s.fetchLine c g.asid a
      match (s1.core c).codeWord g.asid a with
      | none => (s1, [], some a)
      | some w =>
        let r := fetchWords s1 c g n (a + 4)
        (r.1, w :: r.2.1, r.2.2)

/-- The instruction at address `a`. -/
def fetchInstr (s : State) (c : Nat) (g : Group) (a : Nat) : State × Fetched :=
  let h := fetchWords s c g 1 a
  match h.2.1 with
  | [] => (h.1, .trap { cause := 0x01, tval := BitVec.ofNat 64 a })
  | w0 :: _ =>
    let r := fetchWords h.1 c g (lenOf w0 / 4) a
    match r.2.2 with
    | some b => (r.1, .trap { cause := 0x01, tval := BitVec.ofNat 64 b })
    | none =>
      match decode r.2.1 with
      | some i => (r.1, .instr i)
      | none => (r.1, .trap (undecodedTrap w0))

/-! ## What an instruction reads and writes (03 R74, R75; 06 R141) -/

/-- An instruction as the interlock sees it: the latency of its results (0 for a counter class, whose results are not interlocked), its shape
and fields, its length, and what it reads and writes beside its sources and DST. -/
structure Use where
  lat : Nat
  shape : Shape
  x : Ext
  len : Nat
  reads : List RegName
  writes : List RegName

/-- An instruction that reads its sources and writes DST. -/
def use (lat : Nat) (sp : Spec) (x : Ext) (len : Nat) : Use := { lat := lat, shape := sp.shape, x := x, len := len, reads := [], writes := [] }

/-- The same of an extended instruction. -/
def useExt (lat : Nat) (f : Ext → Spec) (x : Ext) : Use := use lat (f x) x (extLen x)

/-- The same of a B-ALU form. -/
def useAlu (lat : Nat) (f : Ext → Spec) (b : BAlu) : Use :=
  let x := b.toExt (f extZero).shape
  use lat (f x) x (baseLen b.lit)

/-- The same of a B-IMM form. -/
def useImm (lat : Nat) (f : Ext → Spec) (b : BImm) : Use :=
  let x := b.toExt (f extZero).shape
  use lat (f x) x (baseLen b.lit)

/-- The same of a B-MEM form. -/
def useMem (lat : Nat) (load : Bool) (f : Ext → Spec) (b : BMem) : Use :=
  let x := b.toExt load (f extZero).shape
  use lat (f x) x (baseLen b.lit)

/-- The predicate that MODS2[28:26] names. -/
def pdOf (x : Ext) : RegName := .p (bitsOf x.mods2.toNat 2 0)

/-- The predicate that MODS3[28:26] names. -/
def paOf (x : Ext) : RegName := .p (bitsOf x.mods3.toNat 2 0)

/-- The uniform registers of a block of `n` that SRCA names. -/
def blockNames (x : Ext) (n : Nat) : List RegName := (List.range n).map (fun i => .s (uniNum x.a.op + i))

/-- The edge masks, which MMA2 to MMA8, MMAW and SCAN read (08 R193, R208). -/
def edgeNames : List RegName := [.m 0, .m 1, .m 2, .m 3]

/-- What PMOV reads beside its sources (06 Table 4). -/
def pmovReads (x : Ext) : List RegName :=
  match modField x 2 0 with
  | 1 => [paOf x]
  | 2 => [paOf x]
  | 5 => [.m (modField x 4 3)]
  | _ => []

/-- What PMOV writes beside DST (06 Table 4). -/
def pmovWrites (x : Ext) : List RegName :=
  match modField x 2 0 with
  | 0 => [pdOf x]
  | 3 => [pdOf x]
  | 4 => [.m (modField x 4 3)]
  | _ => []

/-- An instruction of a warp as the interlock sees it, with its latency of 03 Table 10. -/
def useOf (i : Instr) : Option Use :=
  match i with
  | .braBr b => some (use 6 braSpec (bbrExt b (.v 0)) 4)
  | .braExt x => some (useExt 6 (fun _ => braSpec) x)
  | .brp x => some (useExt 6 brpSpec x)
  | .brx x => some (useExt 6 (fun _ => brxSpec) x)
  | .joinAlu b => some (useAlu 6 joinSpec b)
  | .joinExt x => some (useExt 6 joinSpec x)
  | .callBr b => some (use 6 callSpec (bbrExt b (.s 15)) 4)
  | .callExt x => some (useExt 6 (fun _ => callSpec) x)
  | .calliAlu b => some (useAlu 6 (indirectSpec false true) b)
  | .calliExt x => some (useExt 6 (indirectSpec true true) x)
  | .retAlu b => some (useAlu 6 (indirectSpec false false) b)
  | .retExt x => some (useExt 6 (indirectSpec true false) x)
  | .jmpiAlu b => some (useAlu 6 (indirectSpec false false) b)
  | .jmpiExt x => some (useExt 6 (indirectSpec true false) x)
  | .exitAlu b => some (useAlu 6 exitSpec b)
  | .exitExt x => some (useExt 6 exitSpec x)
  | .recast x => some (useExt 6 recastSpec x)
  | .yieldAlu b => some (useAlu 6 yieldSpec b)
  | .yieldExt x => some (useExt 6 yieldSpec x)
  | .nopAlu b => some (useAlu 6 nopSpec b)
  | .nopExt x => some (useExt 6 nopSpec x)
  | .bkptImm b => some (useImm 6 (codeTrapSpec 0x21 false) b)
  | .bkptExt x => some (useExt 6 (codeTrapSpec 0x21 false) x)
  | .trapImm b => some (useImm 6 (codeTrapSpec 0x22 false) b)
  | .trapExt x => some (useExt 6 (codeTrapSpec 0x22 false) x)
  | .svcImm b => some (useImm 6 (codeTrapSpec 0x20 true) b)
  | .svcExt x => some (useExt 6 (codeTrapSpec 0x20 true) x)
  | .iaddAlu b => some (useAlu 4 iaddSpec b)
  | .iaddImm b => some (useImm 4 iaddSpec b)
  | .iaddExt x => some (useExt 4 iaddSpec x)
  | .isubAlu b => some (useAlu 4 isubSpec b)
  | .isubImm b => some (useImm 4 isubSpec b)
  | .isubExt x => some (useExt 4 isubSpec x)
  | .iaddc x => some { useExt 4 iaddcSpec x with reads := [paOf x], writes := [pdOf x] }
  | .imulAlu b => some (useAlu 4 imulSpec b)
  | .imulImm b => some (useImm 4 imulSpec b)
  | .imulExt x => some (useExt 4 imulSpec x)
  | .imulhAlu b => some (useAlu 4 imulhSpec b)
  | .imulhImm b => some (useImm 4 imulhSpec b)
  | .imulhExt x => some (useExt 4 imulhSpec x)
  | .imad x => some (useExt 4 imadSpec x)
  | .imadw x => some (useExt 4 imadwSpec x)
  | .ishlAlu b => some (useAlu 4 (shiftOp 1#10 shlVal) b)
  | .ishlImm b => some (useImm 4 (shiftOp 1#10 shlVal) b)
  | .ishlExt x => some (useExt 4 (shiftOp 1#10 shlVal) x)
  | .ishrAlu b => some (useAlu 4 (shiftOp 1#10 shrVal) b)
  | .ishrImm b => some (useImm 4 (shiftOp 1#10 shrVal) b)
  | .ishrExt x => some (useExt 4 (shiftOp 1#10 shrVal) x)
  | .isarAlu b => some (useAlu 4 (shiftOp 1#10 sarVal) b)
  | .isarImm b => some (useImm 4 (shiftOp 1#10 sarVal) b)
  | .isarExt x => some (useExt 4 (shiftOp 1#10 sarVal) x)
  | .irotAlu b => some (useAlu 4 irotSpec b)
  | .irotImm b => some (useImm 4 irotSpec b)
  | .irotExt x => some (useExt 4 irotSpec x)
  | .andAlu b => some (useAlu 4 (logicOp andVal) b)
  | .andImm b => some (useImm 4 (logicOp andVal) b)
  | .andExt x => some (useExt 4 (logicOp andVal) x)
  | .orAlu b => some (useAlu 4 (logicOp orVal) b)
  | .orImm b => some (useImm 4 (logicOp orVal) b)
  | .orExt x => some (useExt 4 (logicOp orVal) x)
  | .xorAlu b => some (useAlu 4 (logicOp xorVal) b)
  | .xorImm b => some (useImm 4 (logicOp xorVal) b)
  | .xorExt x => some (useExt 4 (logicOp xorVal) x)
  | .andnAlu b => some (useAlu 4 (logicOp andnVal) b)
  | .andnImm b => some (useImm 4 (logicOp andnVal) b)
  | .andnExt x => some (useExt 4 (logicOp andnVal) x)
  | .lmix x => some (useExt 4 lmixSpec x)
  | .bfx x => some (useExt 4 bfxSpec x)
  | .bfi x => some (useExt 4 bfiSpec x)
  | .iminAlu b => some (useAlu 4 (iminmaxSpec false) b)
  | .iminImm b => some (useImm 4 (iminmaxSpec false) b)
  | .iminExt x => some (useExt 4 (iminmaxSpec false) x)
  | .imaxAlu b => some (useAlu 4 (iminmaxSpec true) b)
  | .imaxImm b => some (useImm 4 (iminmaxSpec true) b)
  | .imaxExt x => some (useExt 4 (iminmaxSpec true) x)
  | .iabsAlu b => some (useAlu 4 iabsSpec b)
  | .iabsExt x => some (useExt 4 iabsSpec x)
  | .isel x => some { useExt 4 iselSpec x with reads := [.p (modField x 5 3)] }
  | .idot4 x => some (useExt 4 idot4Spec x)
  | .lea x => some (useExt 4 leaSpec x)
  | .iadd64Alu b => some (useAlu 4 iadd64Spec b)
  | .iadd64Imm b => some (useImm 4 iadd64Spec b)
  | .iadd64Ext x => some (useExt 4 iadd64Spec x)
  | .ldiAlu b => some (useAlu 4 ldiSpec b)
  | .ldiExt x => some (useExt 4 ldiSpec x)
  | .clz x => some (useExt 4 (bitOp false clzVal) x)
  | .ctz x => some (useExt 4 (bitOp false ctzVal) x)
  | .popc x => some (useExt 4 (bitOp false popcVal) x)
  | .brev x => some (useExt 4 (bitOp true brevVal) x)
  | .iset x => some { useExt 4 isetSpec x with reads := [paOf x], writes := [pdOf x] }
  | .pset x => some { useExt 4 psetSpec x with reads := [paOf x, .p (bitsOf x.mods3.toNat 5 3), .p (bitsOf x.mods2.toNat 5 3)], writes := [pdOf x] }
  | .pmov x => some { useExt 4 pmovSpec x with reads := pmovReads x, writes := pmovWrites x }
  | .pcnt x => some { useExt 6 pcntSpec x with reads := [paOf x] }
  | .vtos x => some (useExt 6 vtosSpec x)
  | .stov x => some (useExt 4 stovSpec x)
  | .elect x => some { useExt 6 electSpec x with writes := [pdOf x] }
  | .faddAlu b => some (useAlu 4 faddSpec b)
  | .faddImm b => some (useImm 4 faddSpec b)
  | .faddExt x => some (useExt 4 faddSpec x)
  | .fsubAlu b => some (useAlu 4 fsubSpec b)
  | .fsubImm b => some (useImm 4 fsubSpec b)
  | .fsubExt x => some (useExt 4 fsubSpec x)
  | .fmulAlu b => some (useAlu 4 fmulSpec b)
  | .fmulImm b => some (useImm 4 fmulSpec b)
  | .fmulExt x => some (useExt 4 fmulSpec x)
  | .ffma x => some (useExt 4 ffmaSpec x)
  | .fminAlu b => some (useAlu 4 (fminmaxSpec false) b)
  | .fminImm b => some (useImm 4 (fminmaxSpec false) b)
  | .fminExt x => some (useExt 4 (fminmaxSpec false) x)
  | .fmaxAlu b => some (useAlu 4 (fminmaxSpec true) b)
  | .fmaxImm b => some (useImm 4 (fminmaxSpec true) b)
  | .fmaxExt x => some (useExt 4 (fminmaxSpec true) x)
  | .fset x => some { useExt 4 fsetSpec x with reads := [paOf x], writes := [pdOf x] }
  | .fclass x => some (useExt 4 fclassSpec x)
  | .frcp x => some (useExt 16 (transSpec 0) x)
  | .frsq x => some (useExt 16 (transSpec 1) x)
  | .fsqrt x => some (useExt 16 (transSpec 2) x)
  | .fexp2 x => some (useExt 16 (transSpec 3) x)
  | .flog2 x => some (useExt 16 (transSpec 4) x)
  | .fsin x => some (useExt 16 (transSpec 5) x)
  | .fcos x => some (useExt 16 (transSpec 6) x)
  | .ftanh x => some (useExt 16 (transSpec 7) x)
  | .daddAlu b => some (useAlu 8 daddSpec b)
  | .daddExt x => some (useExt 8 daddSpec x)
  | .dmulAlu b => some (useAlu 8 dmulSpec b)
  | .dmulExt x => some (useExt 8 dmulSpec x)
  | .dfma x => some (useExt 8 dfmaSpec x)
  | .pkaddAlu b => some (useAlu 4 pkaddSpec b)
  | .pkaddExt x => some (useExt 4 pkaddSpec x)
  | .pkmulAlu b => some (useAlu 4 pkmulSpec b)
  | .pkmulExt x => some (useExt 4 pkmulSpec x)
  | .pkfma x => some (useExt 4 pkfmaSpec x)
  | .cvt x => some (useExt 4 cvtSpec x)
  | .cvtq x => some (useExt 6 cvtqSpec x)
  | .bqdot x => some (useExt 6 bqdotSpec x)
  | .bqscl x => some (useExt 6 bqsclSpec x)
  | .qswz x => some (useExt 6 qswzSpec x)
  | .qbc x => some (useExt 6 qbcSpec x)
  | .qdx x => some (useExt 6 qdxSpec x)
  | .qdy x => some (useExt 6 qdySpec x)
  | .lxch x => some { useExt 6 lxchSpec x with writes := [pdOf x] }
  | .qrm x => some { useExt 6 qrmSpec x with reads := [paOf x], writes := (if modField x 1 0 = 3 then [] else [pdOf x]) }
  | .peer x => some { useExt 6 peerSpec x with writes := (if modBit x 0 then [pdOf x] else []) }
  | .wfold x => some (useExt 6 wfoldSpec x)
  | .prefixFold x => some (useExt 6 prefixSpec x)
  | .isect x => some { useExt 6 isectSpec x with writes := [pdOf x] }
  | .mma2 x => some { useExt 0 (mmaSpec 2 (.mma2 x)) x with reads := blockNames x 3 ++ edgeNames }
  | .mma3 x => some { useExt 0 (mmaSpec 3 (.mma3 x)) x with reads := blockNames x 3 ++ edgeNames }
  | .mma4 x => some { useExt 0 (mmaSpec 4 (.mma4 x)) x with reads := blockNames x 3 ++ edgeNames }
  | .mma5 x => some { useExt 0 (mmaSpec 5 (.mma5 x)) x with reads := blockNames x 3 ++ edgeNames }
  | .mma6 x => some { useExt 0 (mmaSpec 6 (.mma6 x)) x with reads := blockNames x 3 ++ edgeNames }
  | .mma7 x => some { useExt 0 (mmaSpec 7 (.mma7 x)) x with reads := blockNames x 3 ++ edgeNames }
  | .mma8 x => some { useExt 0 (mmaSpec 8 (.mma8 x)) x with reads := blockNames x 3 ++ edgeNames }
  | .mmaw x => some { useExt 0 (mmaSpec 16 (.mmaw x)) x with reads := blockNames x 3 ++ edgeNames }
  | .wbld x => some (useExt 0 wbldSpec x)
  | .wbinv x => some (useExt 6 wbinvSpec x)
  | .aclr x => some (useExt 6 aclrSpec x)
  | .ard x => some { useExt 0 ardSpec x with writes := (regRange x.dst (rangeCount x)).map .v }
  | .awr x => some (useExt 0 awrSpec x)
  | .scan x => some { useExt 0 scanSpec x with reads := blockNames x 3 ++ edgeNames }
  | .scanst x => some (useExt 0 scanstSpec x)
  | .mfs x => some (useExt 4 mfsSpec x)
  | .mts x => some (useExt 6 mtsSpec x)
  | .sscmdSpill x => some (useExt 6 (sscmdSpec doSpill) x)
  | .sscmdFill x => some (useExt 6 (sscmdSpec doFill) x)
  | .sscmdPop x => some (useExt 6 (sscmdSpec doPop) x)
  | .sscmdPush x => some (useExt 6 (sscmdSpec doPush) x)
  | .eret x => some (useExt 6 eretSpec x)
  | .halt x => some (useExt 6 haltSpec x)
  | .clrerr x => some (useExt 6 clrerrSpec x)
  | .tlbflush x => some (useExt 6 tlbflushSpec x)
  | .tlbsync x => some (useExt 6 tlbsyncSpec x)
  | .asidret x => some (useExt 6 asidretSpec x)
  | .sgwr x => some (useExt 6 sgwrSpec x)
  | .ttrd x => some { useExt 6 ttrdSpec x with writes := [.s (uniNum x.dst + 1)] }
  | .bwset x => some (useExt 6 bwsetSpec x)
  | .ldsMem b => some (useMem 0 true ldsSpec b)
  | .ldsExt x => some (useExt 0 ldsSpec x)
  | .stsMem b => some (useMem 0 false stsSpec b)
  | .stsExt x => some (useExt 0 stsSpec x)
  | .ldsfMem b => some (useMem 0 true (ldsfSpec (.ldsfMem b)) b)
  | .ldsfExt x => some (useExt 0 (ldsfSpec (.ldsfExt x)) x)
  | .stseMem b => some (useMem 0 false (stseSpec (.stseMem b)) b)
  | .stseExt x => some (useExt 0 (stseSpec (.stseExt x)) x)
  | .ldsp x => some { useExt 0 ldspSpec x with writes := [pdOf x] }
  | .tags x => some (useExt 6 (tagsSpec .tags) x)
  | .tagc x => some (useExt 6 (tagsSpec .tagc) x)
  | .ats x => some (useExt 0 (atsSpec true) x)
  | .atsn x => some (useExt 0 (atsSpec false) x)
  | .talloc x => some (useExt 6 tallocSpec x)
  | .tfree x => some (useExt 6 tfreeSpec x)
  | .tld x => some { useExt 0 tldSpec x with writes := (regRange x.dst (rangeCount x)).map .v }
  | .tst x => some (useExt 0 tstSpec x)
  | .fence x => some (useExt 6 fenceSpec x)
  | .icinv x => some (useExt 6 icinvSpec x)
  | .cpost x => some { useExt 0 cpostSpec x with reads := blockNames x 16 }
  | .red x => some (useExt 0 redSpec x)
  | .amo x => some { useExt 0 amoSpec x with writes := [.s (uniNum x.dst + 1)] }
  | .redflush x => some (useExt 0 redflushSpec x)
  | .cfence x => some (useExt 6 cfenceSpec x)
  | .cpstat x => some (useExt 6 cpstatSpec x)
  | .coll x => some { useExt 0 collSpec x with reads := blockNames x 4 }
  | .cgrp x => some (useExt 6 cgrpSpec x)
  | .fxwin x => some (useExt 6 fxwinSpec x)
  | .tskpost x => some (useExt 0 tskpostSpec x)
  | .launch x => some (useExt 0 launchSpec x)
  | .itemput x => some (useExt 0 itemputSpec x)
  | .waitc x => some (useExt 6 waitcSpec x)
  | .tlwait x => some { useExt 6 tlwaitSpec x with writes := [pdOf x] }
  | .tlrd x => some { useExt 6 tlrdSpec x with writes := [pdOf x] }
  | .balloc x => some (useExt 6 ballocSpec x)
  | .bfree x => some (useExt 6 bfreeSpec x)
  | .barv x => some (useExt 6 barvSpec x)
  | .barvw x => some (useExt 6 barvwSpec x)
  | .bwait x => some { useExt 6 bwaitSpec x with writes := [pdOf x] }
  | .ecrd x => some (useExt 6 ecrdSpec x)
  | .ecsel x => some (useExt 6 ecselSpec x)
  | .gPost _ _ => none
  | .gTlwait _ _ _ => none
  | .gTlrd _ _ => none
  | .gLdf _ _ => none
  | .gSte _ _ => none
  | .gItem _ _ => none
  | .gItemClose _ _ => none
  | .gTask _ _ _ => none
  | .gBarv _ _ => none
  | .gEvt _ => none
  | .gEvtEnd _ => none
  | .gEvtFail _ => none
  | .gripStandardInstruction _ _ => none
  | .trapEntry _ _ => none
  | .tagwait _ _ => none
  | .machine _ => none
  | .breakpointHit _ _ _ => none
  | .dbgctlResume _ _ => none
  | .schedulerSelect _ _ => none
  | .storeQueuePerform _ _ => none
  | .gripStorePerform _ _ => none
  | .loadLand _ _ _ _ => none
  | .tileAccessLand _ _ _ => none
  | .tagWaitSatisfied _ _ => none
  | .waitcReturn _ _ => none
  | .tlwaitReturn _ _ => none
  | .bwaitReturn _ _ => none
  | .recastWake _ _ => none
  | .cpostAccept _ _ => none
  | .mmaAccept _ _ => none
  | .fenceDrained _ _ => none
  | .icinvDone _ _ => none
  | .sgwrDone _ _ => none
  | .tlbsyncDone _ _ => none
  | .atomicElementPerform _ => none
  | .writeThroughAck _ _ _ => none
  | .scrubPass _ _ => none
  | .copyDispatch _ _ _ => none
  | .copyFaultSuspend _ _ _ => none
  | .faultBatchPost _ _ _ => none
  | .copyComplete _ _ _ => none
  | .matrixUnitStart _ => none
  | .matrixCommandComplete _ => none
  | .gafferWindow _ => none
  | .wbldRun _ => none
  | .wbldComplete _ => none
  | .wbinvEffect _ => none
  | .scanStart _ => none
  | .scanComplete _ => none
  | .scanstComplete _ => none
  | .tokenRefill _ => none
  | .portSend _ => none
  | .priorityAging _ => none
  | .timeSliceEnd _ _ => none
  | .clusterPlacement _ => none
  | .preemption _ _ => none
  | .groupHaltRelease _ _ => none
  | .restorePlacement _ _ => none
  | .groupRetirement _ _ => none
  | .launchEntryTake _ _ => none
  | .gridEnd _ => none
  | .taskArrival _ _ => none
  | .taskPlacement _ _ => none
  | .collectiveMatched _ => none
  | .collMemberComplete _ _ => none
  | .gatewayCombine _ _ _ => none
  | .multicastPacketArrival _ _ => none
  | .writePacket _ => none
  | .readPacket _ => none
  | .atomicPacket _ => none
  | .flagPacket _ => none
  | .collPacket _ => none
  | .ackReceived _ => none
  | .stallHintExpiry _ _ => none
  | .linkDown _ => none
  | .ackTimeout _ _ => none
  | .routeRetry _ => none
  | .fabricTimeout _ _ _ => none
  | .asidFreed _ => none
  | .coldReset => none
  | .warmReset => none
  | .resetctlWarm => none
  | .bootctlStart => none
  | .bootbufWrite _ => none
  | .bootctlGo _ => none
  | .linkStateChange _ _ => none
  | .sidebandRegisterWrite _ _ _ => none
  | .errstatRead _ => none
  | .lqd0Write _ _ _ => none
  | .lqd1TailWrite _ _ _ => none
  | .diememWrite _ _ => none
  | .bwtabWrite _ _ => none
  | .fqctlHeadWrite _ _ => none
  | .eqctlHeadWrite _ _ => none
  | .islopWrite _ _ => none
  | .asidBind _ => none
  | .asidReroot _ => none
  | .tlbFlush _ => none
  | .asidRetire _ => none
  | .faultVerdict _ => none
  | .groupRelease _ => none
  | .restore _ => none
  | .preempt _ => none
  | .streamReset _ => none
  | .windowSync _ => none
  | .scopeWrite _ => none
  | .taskName _ => none
  | .attest _ _ => none
  | .coreRelease _ => none
  | .sidebandCommandFinish _ => none
  | .thermalThreshold _ _ => none
  | .thermalUndo _ _ => none
  | .jtagExtest _ => none
  | .jtagIdcode => none
  | .jtagSamplePreload _ => none
  | .jtagBypass _ => none
  | .companionDeviceMemoryAccess _ => none
  | .linkAbsenceTimeout _ _ _ => none

/-- What one source reads: vector registers and cache slots among them where `file`, all else where not. -/
def srcNames (w : Warp) (file : Bool) (p : Option Pos) (f : Src) : List RegName :=
  match p with
  | none => []
  | some _ =>
    match f.op with
    | .s n => if file then [] else [.s n.toNat]
    | .la => if file then [] else [.la]
    | .lb => if file then [] else [.lb]
    | .c n => if file then .cache n.toNat :: (readRegs w p f).map .v else []
    | _ => if file then (readRegs w p f).map .v else []

/-- What an instruction reads from the operand cache and the file. -/
def Use.fileNames (u : Use) (w : Warp) : List RegName :=
  srcNames w true u.shape.a u.x.a ++ (if u.shape.srcs = 1 then srcNames w true u.shape.b u.x.b else (u.shape.readsB w u.x.b).map .v) ++
  srcNames w true u.shape.c u.x.c

/-- Everything that an instruction reads: its guard and the words at its PC among it. -/
def Use.allReads (u : Use) (w : Warp) : List RegName :=
  .pc :: .p u.x.guard.p.toNat :: u.fileNames w ++ srcNames w false u.shape.a u.x.a ++ srcNames w false u.shape.b u.x.b ++
  srcNames w false u.shape.c u.x.c ++ u.reads

/-- Everything that an instruction writes but the latches, which shift. -/
def Use.allWrites (u : Use) : List RegName :=
  (match u.shape.dst, u.x.dst with
   | some d, .v n => (dstRegs n.toNat d.w).map .v ++ (if u.x.cfen then [.cache u.x.cfslot.toNat] else [])
   | some _, .s n => [.s n.toNat]
   | _, _ => []) ++ u.writes

/-! ## The interlock -/

/-- The cycle in which the last of some results is produced. -/
def Warp.dueAt (w : Warp) (ns : List RegName) : Nat := w.due.foldl (fun t d => if ns.contains d.1 then max t d.2 else t) 0

/-- The cycle from which a warp's next instruction may issue: its operands and its destinations' earlier results are produced (03 R75; 06
R141, R159), and its bank delay has passed (05 R122). -/
def Use.earliest (u : Use) (w : Warp) : Nat :=
  max w.issueFrom (w.dueAt (u.allReads w ++ u.allWrites)) + bankDelay (fileReads w u.shape u.x)

/-- Whether a warp's next instruction waits in place (02 R32). -/
def State.inPlace (s : State) (c : Nat) (w : Warp) (i : Instr) : Bool :=
  match useOf i with
  | none => false
  | some u => decide ((s.core c).cycle.toNat < u.earliest w)

/-- The results on their way after a warp's instruction issued in cycle `now`: each destination has its own (03 R74), `lb` takes what `la` had
where the latches shift (05 R112), and a PC that moved waits for its words (06 R159). s63 and p7 are never written. -/
def Warp.after (w : Warp) (u : Use) (now : Nat) (moved : Bool) : List (RegName × Nat) :=
  let new := if u.lat = 0 then [] else (u.allWrites.filter (fun n => n != .s 63 && n != .p 7)).map (fun n => (n, now + u.lat))
  let latch := if shifts u.shape u.x then [(RegName.la, now + u.lat), (RegName.lb, w.dueAt [.la])] else []
  let taken := if moved then [(RegName.pc, now + 3)] else []
  let names := (new ++ latch ++ taken).map Prod.fst
  w.due.filter (fun d => decide (now < d.2) && !names.contains d.1) ++ new ++ latch ++ taken

/-- A warp's results noted after its instruction, unless it trapped or returned from a trap, which leave none on their way (09 R227). -/
def State.noteResults (s t : State) (c slot : Nat) (i : Instr) : State :=
  match s.warp? c slot, t.warp? c slot, useOf i with
  | some w, some w1, some u =>
    if w.handler == w1.handler then
      t.setWarp c slot { w1 with due := w.after u (s.core c).cycle.toNat (w1.waiting.isNone && w1.pc != w.pc + BitVec.ofNat 52 u.len) }
    else t
  | _, _, _ => t

/-! ## Choosing the next run (02 R33 to R35) -/

/-- Whether the fetch of the word at `a` has ended: its line is there, or cannot be read, or the word is no registered code. -/
def State.wordFetched (s : State) (c : Nat) (g : Group) (a : Nat) : Bool :=
  !(g.isCode a) || ((s.core c).codeWord g.asid a).isSome || (((s.fetchLine c g.asid a).core c).codeWord g.asid a).isNone

/-- Whether the instruction at `a` has been fetched (02 R33). -/
def State.fetched (s : State) (c : Nat) (g : Group) (a : Nat) : Bool :=
  s.wordFetched c g a &&
  (List.range (lenOf (((s.core c).codeWord g.asid a).getD 0) / 4)).all (fun i => s.wordFetched c g (a + 4 * i))

/-- Whether what a warp's next instruction reads from the operand cache or the file has been produced, and a PC that moved has its words (02
R33; 06 R159). A register that a counter class writes is not interlocked (03 R76). -/
def State.produced (s : State) (c : Nat) (g : Group) (w : Warp) : Bool :=
  match (fetchInstr s c g w.pc.toNat).2 with
  | .trap _ => true
  | .instr i =>
    match useOf i with
    | none => true
    | some u => decide (w.dueAt (.pc :: u.fileNames w) ≤ (s.core c).cycle.toNat)

/-- Whether a warp is ready (02 R33). -/
def State.ready (s : State) (c slot : Nat) : Bool :=
  s.mayRun c slot &&
  (match s.warp? c slot with
   | some w => w.waiting.isNone && w.pend.isNone && !(w.preempt && !w.handler) && w.active != 0 &&
     (match s.group? c w.gid with | some g => s.fetched c g w.pc.toNat && s.produced c g w | none => false)
   | none => false)

/-- The ready warp that has waited longest, a tie going to the lower slot. -/
def oldest (k : Core) (slots : List Nat) : Option Nat :=
  slots.foldl (fun b i =>
    let t := fun j => match Tab.get? k.warps j with | some w => w.since | none => 0
    match b with
    | none => some i
    | some j => if t i < t j then some i else some j) none

/-- The warp that a scheduler selects, and whether it continues its count of runs. -/
def State.pick (s : State) (c sched : Nat) : Option (Nat × Bool) :=
  let k := s.core c
  let q := k.sched sched
  let slots := ((List.range 16).map (fun i => 16 * sched + i)).filter (fun i => s.ready c i)
  let spent := q.yielded || decide (16 ≤ q.runs)
  match q.cur with
  | none => (oldest k slots).map (fun i => (i, false))
  | some p =>
    if slots.contains p && !spent then some (p, true)
    else
      match oldest k (slots.filter (fun i => !(i == p && spent))) with
      | some i => some (i, false)
      | none => if slots.contains p then some (p, false) else none

/-- The scheduler with a warp selected: both latches are invalid unless the warp brings its own (02 R35; 05 R115). -/
def Scheduler.take (q : Scheduler) (slot : Nat) (go : Bool) (lt : Option (Latch × Latch)) : Scheduler :=
  { q with
    cur := some slot, midRun := true, runs := if go then q.runs + 1 else 1, yielded := false
    la := match lt with | some p => p.1 | none => Latch.clear
    lb := match lt with | some p => p.2 | none => Latch.clear
    lposn := [] }

/-- SCHEDULER_SELECT: a scheduler between runs chooses the warp whose run issues next (02 R34). -/
def execSchedulerSelect (core sched : Nat) (s : State) : Host.Outcome State Fault Refusal :=
  let q := (s.core core).sched sched
  if q.midRun || q.frozen then .next s
  else
    match s.pick core sched with
    | none => .next s
    | some (i, go) =>
      let s1 := match q.cur with
        | some p => if p = i then s else s.modWarp core p Warp.clearCache
        | none => s
      let lt := (s1.warp? core i).bind Warp.relatch
      .next ((s1.modSched core sched (fun q => q.take i go lt)).modWarp core i (fun w => { w with relatch := none, issueFrom := (s.core core).cycle.toNat + 1 }))

end Sys2Proof.Machine
end

