-- ==== Sys2Proof/Machine/Digest.lean ====
section
/-! DEFINITION. The digest and the signatures of boot and attestation: SHA-256, and ECDSA over the NIST P-256 curve (18 R434, R435, R437,
R438 name the standards FIPS 180-4 and FIPS 186). -/

namespace Sys2Proof.Machine

/-! ## SHA-256 -/

/-- The greatest x of at most `bits` bits with x ^ e at most `v`. -/
def intRoot (e v : Nat) : Nat → Nat
  | 0 => 0
  | b + 1 =>
    let rec go : Nat → Nat → Nat
      | 0, x => x
      | k + 1, x => let y := x + 2 ^ k; go k (if y ^ e ≤ v then y else x)
    go (b + 1) 0

/-- The first primes, up to 311. -/
def smallPrimes : List Nat := (List.range 312).filter (fun n => 2 ≤ n ∧ (List.range n).all (fun d => d < 2 || n % d != 0))

/-- The first 32 bits of the fraction of the `e`-th root of `n`. -/
def rootFraction (e n : Nat) : Word := BitVec.ofNat 32 (intRoot e (n * 2 ^ (32 * e)) 40)

/-- The constants of the 64 rounds: cube roots of the first 64 primes. -/
def digestKeys : List Word := smallPrimes.map (rootFraction 3)

/-- The chaining value that a digest starts from: square roots of the first eight primes. -/
def digestStart : List Word := (smallPrimes.take 8).map (rootFraction 2)

/-- A word rotated right by each of some amounts, exclusive-or'ed together. -/
def rotations (ns : List Nat) (w : Word) : Word := ns.foldl (fun a n => a ^^^ w.rotateRight n) 0

/-- The sixteen words of a block of 64 bytes, each with its most significant byte first. -/
def blockWords (bs : List Byte) : List Word :=
  (List.range 16).map (fun i => (List.range 4).foldl (fun (v : Word) j => v * 256#32 + (bs.getD (4 * i + j) 0).setWidth 32) 0)

/-- The words of a block's schedule, the latest first, `n` of them after the sixteen of the block. -/
def schedule (bs : List Byte) : Nat → List Word
  | 0 => (blockWords bs).reverse
  | n + 1 =>
    let ws := schedule bs n
    let far := ws.getD 14 0
    let near := ws.getD 1 0
    ((rotations [17, 19] near ^^^ near >>> 10) + ws.getD 6 0 + (rotations [7, 18] far ^^^ far >>> 3) + ws.getD 15 0) :: ws

/-- The eight working words, moved on by one round: `kw` is its constant plus its schedule word. -/
def digestRound (s : List Word) (kw : Word) : List Word :=
  let at_ := fun i => s.getD i 0
  let pick := at_ 6 ^^^ (at_ 4 &&& (at_ 5 ^^^ at_ 6))
  let most := (at_ 0 &&& at_ 1) ||| (at_ 2 &&& (at_ 0 ||| at_ 1))
  let t := kw + at_ 7 + rotations [6, 11, 25] (at_ 4) + pick
  (t + rotations [2, 13, 22] (at_ 0) + most) :: at_ 0 :: at_ 1 :: at_ 2 :: (at_ 3 + t) :: (s.drop 4).take 3

/-- A chaining value moved on by one block. -/
def digestBlock (h : List Word) (bs : List Byte) : List Word :=
  List.zipWith (· + ·) h ((List.zipWith (· + ·) digestKeys (schedule bs 48).reverse).foldl digestRound h)

/-- The bytes of a number, most significant first. -/
def bigEndian (v n : Nat) : List Byte := (toBytes v n).reverse

/-- The chaining value after `n` blocks of a padded message. -/
def digestRun (m : List Byte) : Nat → List Word
  | 0 => digestStart
  | n + 1 => digestBlock (digestRun m n) ((m.drop (64 * n)).take 64)

/-- SHA-256 of a message, as 32 bytes. -/
def sha256 (m : List Byte) : List Byte :=
  let blocks := (m.length + 72) / 64
  let padded := m ++ 0x80#8 :: List.replicate (64 * blocks - 9 - m.length) 0#8 ++ bigEndian (8 * m.length) 8
  (digestRun padded blocks).flatMap (fun w => bigEndian w.toNat 4)

/-- A digest as a number. -/
def digestNat (bs : List Byte) : Nat := ofBytes bs.reverse

/-! ## The curve P-256 -/

/-- The prime of the field. -/
def curveP : Nat := 2 ^ 256 - 2 ^ 224 + 2 ^ 192 + 2 ^ 96 - 1
/-- The order of the base point. -/
def curveN : Nat := 0xFFFFFFFF00000000FFFFFFFFFFFFFFFFBCE6FAADA7179E84F3B9CAC2FC632551
/-- The base point. -/
def curveG : Nat × Nat :=
  (0x6B17D1F2E12C4247F8BCE6E563A440F277037D812DEB33A0F4A13945D898C296, 0x4FE342E2FE1A7F9B8EE7EB4A7C0F9E162BCE33576B315ECECBB6406837BF51F5)

/-- x ^ e modulo m, for e below 2 ^ `bits`. -/
def powMod (m x : Nat) : Nat → Nat → Nat
  | 0, _ => 1 % m
  | b + 1, e => let h := powMod m x b (e / 2); if e % 2 = 1 then h * h % m * x % m else h * h % m

/-- The inverse modulo a prime of 256 bits. -/
def invMod (m x : Nat) : Nat := powMod m x 256 (m - 2)

/-- A point of the curve as (X, Y, Z) with x = X / Z² and y = Y / Z³; Z = 0 is the point at infinity. -/
structure CurvePoint where
  x : Nat
  y : Nat
  z : Nat

/-- The point at infinity. -/
def CurvePoint.zero : CurvePoint := { x := 1, y := 1, z := 0 }

/-- x − y in the field. -/
def subP (x y : Nat) : Nat := (x + curveP - y % curveP) % curveP

/-- Twice a point: the curve has a = −3. -/
def CurvePoint.twice (p : CurvePoint) : CurvePoint :=
  let d := p.z * p.z % curveP
  let g := p.y * p.y % curveP
  let b := 4 * p.x * g % curveP
  let a := 3 * subP p.x d * (p.x + d) % curveP
  let x := subP (a * a) (2 * b)
  { x := x, y := subP (a * subP b x) (8 * g * g), z := 2 * p.y * p.z % curveP }

/-- The sum of two points. -/
def CurvePoint.add (p q : CurvePoint) : CurvePoint :=
  if p.z = 0 then q else if q.z = 0 then p
  else
    let u := p.x * q.z % curveP * q.z % curveP
    let v := q.x * p.z % curveP * p.z % curveP
    let s := p.y * q.z % curveP * q.z % curveP * q.z % curveP
    let t := q.y * p.z % curveP * p.z % curveP * p.z % curveP
    let h := subP v u
    let r := subP t s
    if h = 0 then (if r = 0 then p.twice else .zero)
    else
      let hh := h * h % curveP
      let hu := u * hh % curveP
      let x := subP (subP (r * r) (h * hh)) (2 * hu)
      { x := x, y := subP (r * subP hu x) (s * (h * hh % curveP)), z := p.z * q.z % curveP * h % curveP }

/-- `k` times a point, for k below 2 ^ `bits`. -/
def CurvePoint.times (p : CurvePoint) : Nat → Nat → CurvePoint
  | 0, _ => .zero
  | b + 1, k => let d := (p.times b (k / 2)).twice; if k % 2 = 1 then d.add p else d

/-- The x coordinate of a point that is not at infinity. -/
def CurvePoint.affineX (p : CurvePoint) : Nat := let i := invMod curveP p.z; p.x * i % curveP * i % curveP

/-- A point by its coordinates. -/
def CurvePoint.of (p : Nat × Nat) : CurvePoint := { x := p.1, y := p.2, z := 1 }

/-! ## ECDSA -/

/-- Whether (r, s) is a signature of a digest under a public key. -/
def ecdsaVerifies (key : Nat × Nat) (digest r s : Nat) : Bool :=
  let w := invMod curveN s
  let p := ((CurvePoint.of curveG).times 256 (digest * w % curveN)).add ((CurvePoint.of key).times 256 (r * w % curveN))
  decide (0 < r) && decide (r < curveN) && decide (0 < s) && decide (s < curveN) && p.z != 0 && p.affineX % curveN == r

/-- The signature of a digest under a private key, with the secret number `k` of this signature: r, then s. -/
def ecdsaSign (d k digest : Nat) : Nat × Nat :=
  let r := ((CurvePoint.of curveG).times 256 k).affineX % curveN
  (r, invMod curveN k * (digest + r * d) % curveN)

end Sys2Proof.Machine
end

