-- ==== Sys2Proof/Machine/Sideband.lean ====
section
/-! DEFINITION. The management sideband: its registers and commands (18 R439 to R447), launch-queue descriptors (14 R339), and device
memory accesses of the companion processor (10 R259). -/

namespace Sys2Proof.Machine

/-! ## Launch-queue descriptors (14 R339) -/

/-- Queue `q` of a context. -/
def State.queueOf (s : State) (a q : Nat) : LaunchQueue := Tab.getD s.pkg.lqs (8 * a + q) LaunchQueue.reset

/-- The state with a queue replaced; it is tried again. -/
def State.putQueue (s : State) (a q : Nat) (l : LaunchQueue) : State :=
  s.modPkg (fun p => { p with lqs := Tab.set p.lqs (8 * a + q) { l with blocked := false } })

/-- A write of LQD0: whole only while EN = 0. EN is set only where it may be. -/
def LaunchQueue.write0 (l : LaunchQueue) (may : Bool) (v : Nat) : LaunchQueue :=
  let en := may && bitsOf v 63 63 == 1
  if l.en then { l with en := en }
  else { l with en := en, owner := bitsOf v 62 62 == 1, prio := bitsOf v 61 60, log2n := min 12 (max 4 (bitsOf v 59 56)), base := bitsOf v 51 7 * 128 }

/-- A write of TAIL: ignored where LAUNCH alone appends, not stored where it overfills the ring. -/
def LaunchQueue.write1 (l : LaunchQueue) (v : Nat) : LaunchQueue :=
  let t := BitVec.ofNat 32 (bitsOf v 63 32)
  if l.owner || decide (2 ^ l.log2n < (t - l.head).toNat) then l else { l with tail := t }

/-- A write of LQD0. From the acceptance of an ASID's retirement to its next binding, EN stays 0: the queue is never served (16 R410; DEDUCED,
log 34). -/
def State.writeLqd0 (s : State) (asid queue v : Nat) : State :=
  s.putQueue asid queue ((s.queueOf asid queue).write0 ((s.asid asid).ret == 0) v)

/-- LQD0_WRITE (14 R339). -/
def execLqd0Write (asid queue : Nat) (value : DWord) (s : State) : Host.Outcome State Fault Refusal :=
  .next (s.transact (fun s => (s.writeLqd0 asid queue value.toNat, true)))
/-- LQD1_TAIL_WRITE (14 R339). -/
def execLqd1TailWrite (asid queue : Nat) (value : DWord) (s : State) : Host.Outcome State Fault Refusal :=
  .next (s.transact (fun s => (s.putQueue asid queue ((s.queueOf asid queue).write1 value.toNat), true)))

/-! ## Die registers (10 R253; 16 R405; 18 R444, R447) -/

/-- Whether no ASID is live or retiring. -/
def State.noAsid (s : State) : Bool := s.pkg.asids.all (fun a => a.2.state == 0)

/-- A write of DIEMEM: no effect while an ASID is live or retiring. -/
def State.writeDiemem (s : State) (d v : Nat) : State :=
  if s.noAsid then s.modDie d (fun k => { k with
    scrubh := BitVec.ofNat 8 (bitsOf v 39 32), stagew := min 4 (bitsOf v 10 8), guestw := min 8 (bitsOf v 7 4) })
  else s

/-- The weights of a BWTAB value. -/
def bwWeights (v : Nat) : List Nat := (List.range 8).map (fun c => bitsOf v (8 * c + 7) (8 * c))

/-- A write of BWTAB: refused where the weights sum to more than 256. -/
def State.writeBwtab (s : State) (d v : Nat) : State × Bool :=
  if weightsOk (bwWeights v) then (s.modDie d (fun k => { k with weights := bwWeights v }), true) else (s, false)

/-- LOG2N of a ring as stored. -/
def ringSize (v hi : Nat) : Nat := let n := bitsOf v 4 0; if n = 0 then 0 else min hi (max 4 n)

/-- DIEMEM_WRITE (10 R253). -/
def execDiememWrite (die : Nat) (value : DWord) (s : State) : Host.Outcome State Fault Refusal :=
  .next (s.transact (fun s => (s.writeDiemem die value.toNat, true)))
/-- BWTAB_WRITE (16 R405). -/
def execBwtabWrite (die : Nat) (value : DWord) (s : State) : Host.Outcome State Fault Refusal :=
  .next (s.transact (fun s => s.writeBwtab die value.toNat))
/-- FQCTL_HEAD_WRITE: HEAD of the fault ring (18 R447). -/
def execFqctlHeadWrite (die : Nat) (value : DWord) (s : State) : Host.Outcome State Fault Refusal :=
  .next (s.transact (fun s => (s.modDie die (fun k => { k with fq := { k.fq with head := value.setWidth 32 } }), true)))
/-- EQCTL_HEAD_WRITE: HEAD of the event ring (18 R447). -/
def execEqctlHeadWrite (die : Nat) (value : DWord) (s : State) : Host.Outcome State Fault Refusal :=
  .next (s.transact (fun s => (s.modDie die (fun k => { k with eq := { k.eq with head := value.setWidth 32 } }), true)))

/-! ## Operating points (18 R431) -/

/-- An island. -/
def State.island (s : State) (i : Nat) : Island := Tab.getD s.pkg.islands i Island.reset

/-- CUR: the slower of REQ and the thermal limit. -/
def Island.cur (x : Island) : Nat := max x.req x.limit

/-- The four cores of island `i` (01 R12) entered in the state, as their CYCLEs leave the uncore clock's. -/
def State.listIsland (s : State) (i : Nat) : State :=
  [0, 1, 2, 3].foldl (fun t j => t.setCore (4 * i + j) (t.core (4 * i + j))) s

/-- A write of ISLOP. -/
def State.writeIslop (s : State) (i v : Nat) : State :=
  (s.listIsland i).modPkg (fun p => { p with islands := Tab.set p.islands i { (s.island i) with req := min 2 (v % 4) } })

/-- ISLOP_WRITE: a point is requested; no state is lost (18 R431). -/
def execIslopWrite (island : Nat) (value : DWord) (s : State) : Host.Outcome State Fault Refusal :=
  .next (s.transact (fun s => (s.writeIslop island value.toNat, true)))

/-! ## Reads (18 R444) -/

/-- A route-table entry's word (16 Table 13). -/
def Route.word (r : Route) : Nat := flag r.pf * 2 ^ 15 + flag r.sf * 2 ^ 14 + r.second * 256 + r.primary

/-- A launch queue's two registers (14 Table 4). -/
def LaunchQueue.words (l : LaunchQueue) : Nat × Nat :=
  (flag l.en * 2 ^ 63 + flag l.owner * 2 ^ 62 + l.prio * 2 ^ 60 + l.log2n * 2 ^ 56 + l.base, l.tail.toNat * 2 ^ 32 + l.head.toNat)

/-- An ASID state entry's two dwords (16 Table 4). -/
def AsidEntry.words (e : AsidEntry) : Nat × Nat := (e.state * 2 ^ 62 + flag e.merged * 2 ^ 61 + e.root, e.ctx)

/-- BOOTSTAT (18 Table 4). -/
def Package.bootstat (p : Package) : Nat := p.boots.toNat * 256 + flag p.idok * 16 + p.bootState

/-- SBRES of a link (18 Table 11). -/
def Sideband.res (b : Sideband) : Nat := flag b.busy * 2 ^ 63 + b.code * 2 ^ 32 + b.status

/-- The bytes of a task's dependence-table entry (16 Table 7). -/
def Task.bytes (t : Task) : List Byte :=
  let name := fun (l : List (Nat × Nat)) (i : Nat) => match l[i]? with | some p => toBytes p.1 1 ++ toBytes p.2 2 | none => toBytes 0 3
  toBytes (t.state * 2 ^ 62 + t.waits.length % 64 * 2 ^ 56 + recKid t.rcd * 2 ^ 40 + t.poster * 2 ^ 32) 8 ++
  (List.range 8).flatMap (name t.reads) ++ (List.range 4).flatMap (name t.writes) ++
  toBytes (t.writes.length * 16 + t.reads.length) 4 ++ toBytes t.num 8 ++ toBytes 0 8

/-- A dword of a core's dependence table. -/
def Core.taskDword (k : Core) (e w : Nat) : Nat :=
  match k.tasks.find? (fun t => t.entry == e) with
  | some t => ofBytes ((t.bytes.drop (8 * w)).take 8)
  | none => 0

/-- Whether a core's dump windows may be read: the core is stopped by MACHINE of its own scope or the package's, or every scheduler is
frozen (09 R243; 18 R444). -/
def Core.dumpable (k : Core) (frozen : Bool) : Bool :=
  frozen || k.held || [0, 1, 2, 3].all (fun q => (k.sched q).frozen)

/-- System register `n` of the warp in a slot, or 0. -/
def Core.dumpSys (k : Core) (slot n : Nat) : Nat :=
  match Tab.get? k.warps slot with
  | none => 0
  | some w => match Tab.get? k.groups w.gid with | some g => sysRead k g w n | none => 0

/-- A dword of hardware split-stack entry `e`, counted from the bottom, of the warp in a slot. -/
def Core.dumpSplit (k : Core) (slot e h : Nat) : Nat :=
  match (Tab.get? k.warps slot).bind (fun w => w.split.reverse[e]?) with
  | some x => ofBytes ((x.bytes.drop (8 * h)).take 8)
  | none => 0

/-- A core register. -/
def Core.sbRead (k : Core) (frozen : Bool) (o : Nat) : Option Nat :=
  let dump := fun (v : Nat) => if k.dumpable frozen then some v else none
  if o = 0 then some (k.taglim.toNat * 65536 + flag k.swap)
  else if o = 0x08 then some k.budgetNext
  else if o = 0x10 then some k.gafstl.toNat
  else if o = 0x18 then some k.cycle.toNat
  else if o = 0x20 then some k.errstat
  else if o = 0x28 then some k.dbgctl
  else if 0x30 ≤ o ∧ o < 0x50 then some (Tab.getD k.bpa ((o - 0x30) / 8) 0).toNat
  else if 0x80 ≤ o ∧ o < 0xC0 then some (Tab.getD k.evctrs ((o - 0x80) / 8) EvCtr.reset).word
  else if 0x1000 ≤ o ∧ o < 0x2000 then some (k.taskDword ((o - 0x1000) / 64) ((o - 0x1000) % 64 / 8))
  else if 0x2000 ≤ o ∧ o < 0x3000 then
    let w := (k.nameEntry ((o - 0x2000) / 16)).words
    some (if o % 16 = 0 then w.1 else w.2)
  else if 0x4000 ≤ o ∧ o < 0xC000 then dump (k.dumpSys ((o - 0x4000) / 0x200) ((o - 0x4000) % 0x200 / 8))
  else if 0x10000 ≤ o ∧ o < 0x14000 then dump (k.dumpSplit ((o - 0x10000) / 256) ((o - 0x10000) % 256 / 16) (o % 16 / 8))
  else if 0x80000 ≤ o ∧ o < 0xC0000 then dump (Memory.readV k.scratch (o - 0x80000) 8)
  else none

/-- A die register. -/
def State.dieRead (s : State) (d o : Nat) : Option Nat :=
  let k := s.die d
  if o = 0 then some (k.scrubh.toNat * 2 ^ 32 + k.stagew * 256 + k.guestw * 16)
  else if o = 0x08 then some (ofBytes (k.weights.map (BitVec.ofNat 8)))
  else if o = 0x10 then some k.eq.base.toNat
  else if o = 0x18 then some (k.eq.tail.toNat * 2 ^ 32 + k.eq.head.toNat)
  else if o = 0x20 then some k.eq.log2n
  else if o = 0x28 then some k.fq.base.toNat
  else if o = 0x30 then some (k.fq.tail.toNat * 2 ^ 32 + k.fq.head.toNat)
  else if o = 0x38 then some k.fq.log2n
  else if o = 0x40 then some s.ucycle.toNat
  else if 0x100 ≤ o ∧ o < 0x180 then some (Tab.getD k.evctrs ((o - 0x100) / 8) EvCtr.reset).word
  else none

/-- A register of the package block. WO registers read 0. -/
def State.packageRead (s : State) (o : Nat) : Option Nat :=
  if o = 0 then some s.pkg.bootstat
  else if o = 0x08 then some s.pkg.devid.toNat
  else if o = 0x10 then some s.pkg.ftimeout.toNat
  else if o = 0x18 ∨ o = 0x20 ∨ o = 0x28 then some 0
  else if 0x100 ≤ o ∧ o < 0x280 then let x := s.island ((o - 0x100) / 8); some (x.cur * 256 + x.req)
  else if 0x400 ≤ o ∧ o < 0x5E0 then some (Tab.getD s.pkg.sensors ((o - 0x400) / 8) 0).toNat
  else if 0x10000 ≤ o ∧ o < 0x18000 then some (s.route ((o - 0x10000) / 8)).word
  else none

/-- A link's command registers. -/
def State.sbOf (s : State) (link : Nat) : Sideband := Tab.getD s.pkg.sb link Sideband.reset

/-- What a sideband read of an address returns; none where it is refused. -/
def State.sbValue (s : State) (addr : Nat) : Option Nat :=
  let o := addr % 2 ^ 32
  let i := bitsOf addr 39 32
  if 2 ^ 48 ≤ addr ∨ o % 8 ≠ 0 then none
  else
    match bitsOf addr 47 40 with
    | 0 => if i = 0 then s.packageRead o else none
    | 1 =>
      if 2 ≤ i then none
      else if o = 0 then some 0
      else if o < 0x48 then some ((s.sbOf i).args.getD ((o - 8) / 8) 0).toNat
      else if o = 0x48 then some (s.sbOf i).res
      else none
    | 2 => if i < 4 then s.dieRead i o else none
    | 3 => if i < Config.numCores then (s.core i).sbRead s.pkg.frozen o else none
    | 4 => if i = 0 ∧ o < 2 ^ 23 then let w := (s.queueOf (o / 128) (o % 128 / 16)).words; some (if o % 16 = 0 then w.1 else w.2) else none
    | 5 => if i = 0 ∧ o < 2 ^ 20 then let w := (s.asid (o / 16)).words; some (if o % 16 = 0 then w.1 else w.2) else none
    | _ => none

/-- A refused read returns 0 (18 R443). -/
def State.refuseRead (s : State) : State := { s with out := { Out.reset with refused := true, data := toBytes 0 8 } }

/-- Act sbRead: a sideband read. One of ERRSTAT clears its RC fields (18 R444). -/
def sbRead (link : Nat) (addr : DWord) (s : State) : State :=
  if !(s.linkOpen link) || (s.bootFailed && addr != 0) then s.refuseRead
  else
    match s.sbValue addr.toNat with
    | none => s.refuseRead
    | some v =>
      let a := addr.toNat
      let s1 := if bitsOf a 47 40 = 3 ∧ a % 2 ^ 32 = 0x20 then s.modCore (bitsOf a 39 32) Core.readErrstat else s
      { s1 with out := { Out.reset with data := toBytes v 8 } }

/-- ERRSTAT_READ (09 R223). -/
def execErrstatRead (core : Nat) (s : State) : Host.Outcome State Fault Refusal :=
  .next (if s.anyOpen && !s.bootFailed then
    { s.modCore core Core.readErrstat with out := { Out.reset with data := toBytes (s.core core).errstat 8 } } else s.refuse)

/-! ## Commands (18 R445, R446) -/

/-- The state with a link's command registers changed. -/
def State.modSb (s : State) (link : Nat) (f : Sideband → Sideband) : State :=
  s.modPkg (fun p => { p with sb := Tab.set p.sb link (f (s.sbOf link)) })

/-- What a command does at once: the state, its status, and the groups whose halting it waits for. -/
abbrev CmdEffect := State × Nat × List (Nat × Nat)

/-- A command's arguments: a range for each named one; every other is 0. -/
def argsOk (named : List (Nat → Bool)) (args : List Nat) : Bool :=
  (List.range 8).all (fun i => let v := args.getD i 0; match named[i]? with | some p => p v | none => v == 0)

/-- Range of an ASID. -/
def argAsid (v : Nat) : Bool := decide (v ≤ 0xFFFF)
/-- Range of a core ID. -/
def argCore (v : Nat) : Bool := decide (v < Config.numCores)
/-- Range of an address. -/
def argAddr (v : Nat) : Bool := decide (v < 2 ^ 52)
/-- Range below a bound. -/
def argBelow (n v : Nat) : Bool := decide (v < n)
/-- Any value. -/
def argAny (_v : Nat) : Bool := true

/-- A command's registers as it starts: BUSY, its code, and its outcome to be. -/
def State.command (s : State) (link code : Nat) (named : List (Nat → Bool)) (f : List Nat → State → CmdEffect) : State × Bool :=
  let b := s.sbOf link
  if b.busy then (s, false)
  else
    let args := b.args.map BitVec.toNat
    let r : CmdEffect := if argsOk named args then f args s else (s, 0xFFFFFFFF, [])
    (r.1.modSb link (fun b => { b with busy := true, code := code, status := r.2.1, waits := r.2.2, flushes := r.1.pkg.flushNum }), true)

/-- A sideband command written on a link. -/
def State.runCommand (s : State) (link : Nat) (f : State → State × Bool) : State :=
  if s.linkOpen link && !s.bootFailed then s.told (f s) else s.refuse

/-- Queues of a context tried again (14 R340). -/
def State.unblockQueues (s : State) (a : Nat) : State :=
  s.modPkg (fun p => { p with lqs := Tab.mapVal p.lqs (fun k l => if k / 8 = a then { l with blocked := false } else l) })

/-- The roots of a context. -/
def State.putRoot (s : State) (a root merged ctx : Nat) : State :=
  s.modPkg (fun p => { p with asids := Tab.set p.asids a { state := 1, merged := merged == 1, root := bitsOf root 51 12 * 4096, ctx := ctx, ret := 0 } })

/-- ASID-BIND. -/
def cmdBind (s : State) (link : Nat) : State × Bool :=
  s.command link 0x01 [argAsid, argAddr, argAddr, argBelow 2] (fun a s =>
    let n := a.getD 0 0
    if (s.asid n).state = 0 then (s.putRoot n (a.getD 2 0) (a.getD 3 0) (bitsOf (a.getD 1 0) 51 13 * 8192), 0, []) else (s, 1, []))
/-- ASID_BIND (16 R392). -/
def execAsidBind (link : Nat) (s : State) : Host.Outcome State Fault Refusal := .next (s.runCommand link (fun s => cmdBind s link))

/-- ASID-REROOT. -/
def cmdReroot (s : State) (link : Nat) : State × Bool :=
  s.command link 0x02 [argAsid, argBelow 1, argAddr, argBelow 2] (fun a s =>
    let n := a.getD 0 0
    if (s.asid n).state = 1 then ((s.putRoot n (a.getD 2 0) (a.getD 3 0) (s.asid n).ctx).unblockQueues n, 0, []) else (s, 1, []))
/-- ASID_REROOT (16 R392). -/
def execAsidReroot (link : Nat) (s : State) : Host.Outcome State Fault Refusal := .next (s.runCommand link (fun s => cmdReroot s link))

/-- TLB-FLUSH. -/
def cmdTlbFlush (s : State) (link : Nat) : State × Bool :=
  s.command link 0x03 [argAsid] (fun a s => ((s.tlbFlush (a.getD 0 0)).unblockQueues (a.getD 0 0), 0, []))
/-- TLB_FLUSH (16 R408, R409). -/
def execTlbFlush (link : Nat) (s : State) : Host.Outcome State Fault Refusal := .next (s.runCommand link (fun s => cmdTlbFlush s link))

/-- ASID-RETIRE. -/
def cmdRetire (s : State) (link : Nat) : State × Bool :=
  s.command link 0x04 [argAsid] (fun a s =>
    let n := a.getD 0 0
    let st := s.retireStatus none n
    (if st = 0 then s.beginRetire n else s, st, []))
/-- ASID_RETIRE (16 R410). -/
def execAsidRetire (link : Nat) (s : State) : Host.Outcome State Fault Refusal := .next (s.runCommand link (fun s => cmdRetire s link))

/-- FAULT-VERDICT. -/
def cmdVerdict (s : State) (link : Nat) : State × Bool :=
  s.command link 0x05 [argCore, argBelow 2, argBelow 8, argAny, argBelow 3] (fun a s =>
    let v := a.getD 4 0
    let r := s.verdict (a.getD 0 0) (a.getD 1 0) (a.getD 2 0) (a.getD 3 0) (if v = 0 then none else some (if v = 1 then 0x10 else 0x11))
    (r.1, if r.2 then 0 else 1, []))
/-- FAULT_VERDICT (13 R325). -/
def execFaultVerdict (link : Nat) (s : State) : Host.Outcome State Fault Refusal := .next (s.runCommand link (fun s => cmdVerdict s link))

/-- GROUP-RELEASE. -/
def cmdRelease (s : State) (link : Nat) : State × Bool :=
  s.command link 0x06 [argAsid, argCore, argBelow (2 ^ 32)] (fun a s =>
    let c := a.getD 1 0
    match (s.core c).groups.find? (fun g => g.2.asid == a.getD 0 0 && g.2.idgrid == a.getD 2 0 && g.2.heldFor) with
    | some g => (s.releaseHeld c g.1, 0, [])
    | none => (s, 1, []))
/-- GROUP_RELEASE (18 R446). -/
def execGroupRelease (link : Nat) (s : State) : Host.Outcome State Fault Refusal := .next (s.runCommand link (fun s => cmdRelease s link))

/-- RESTORE. -/
def cmdRestore (s : State) (link : Nat) : State × Bool :=
  s.command link 0x07 [argAsid, argAddr, argBelow (2 ^ 32), fun v => v != 0 && decide (v < 16), argAddr] (fun a s =>
    let r := s.askRestore link (a.getD 0 0) (a.getD 1 0) (a.getD 2 0) (a.getD 3 0) (a.getD 4 0)
    (r.1, r.2.getD 0, []))
/-- RESTORE (09 R239). -/
def execRestore (link : Nat) (s : State) : Host.Outcome State Fault Refusal := .next (s.runCommand link (fun s => cmdRestore s link))

/-- The groups that a PREEMPT matches. -/
def State.preemptees (s : State) (a c g : Nat) : List (Nat × Nat) :=
  (s.cores.filter (fun k => c == 0xFFFF || k.1 == c)).flatMap (fun k =>
    (k.2.groups.filter (fun x => x.2.asid == a && (g == 0xFFFFFFFF || x.2.idgrid == g) && !x.2.heldFor)).map (fun x => (k.1, x.1)))

/-- PREEMPT: also of kernels that are not pre-emptible (02 R48). -/
def cmdPreempt (s : State) (link : Nat) : State × Bool :=
  s.command link 0x08 [argAsid, fun v => argCore v || v == 0xFFFF, argBelow (2 ^ 32)] (fun a s =>
    let gs := s.preemptees (a.getD 0 0) (a.getD 1 0) (a.getD 2 0)
    (gs.foldl (fun s g => s.startPreempt g.1 g.2) s, gs.length, gs))
/-- PREEMPT (18 R446). -/
def execPreempt (link : Nat) (s : State) : Host.Outcome State Fault Refusal := .next (s.runCommand link (fun s => cmdPreempt s link))

/-- A stream reset on this device: as initiator its packets are discarded and their commands fail with REMOTE-NACK; as target its
window and result cache are cleared, and NEXT is what the peer uses next (15 R379). -/
def State.resetStream (s : State) (dev tc : Nat) : State :=
  let os := (s.stream dev tc).unacked
  let s1 := os.foldl (fun s o => s.failPacket o 0x15) s
  (s1.modStream dev tc (fun t => { t with unacked := [], drawn := 0 })).modTarget dev tc (fun t => { t with fresh := true, performed := 0, held := [], cache := [] })

/-- STREAM-RESET. -/
def cmdStreamReset (s : State) (link : Nat) : State × Bool :=
  s.command link 0x09 [argBelow 4096, argBelow 4] (fun a s => (s.resetStream (a.getD 0 0) (a.getD 1 0), 0, []))
/-- STREAM_RESET (15 R379). -/
def execStreamReset (link : Nat) (s : State) : Host.Outcome State Fault Refusal := .next (s.runCommand link (fun s => cmdStreamReset s link))

/-- WINDOW-SYNC: windows are read when a command first uses them, so later commands use the new entries. -/
def cmdWindowSync (s : State) (link : Nat) : State × Bool := s.command link 0x0A [argAsid] (fun _ s => (s, 0, []))
/-- WINDOW_SYNC (16 R403). -/
def execWindowSync (link : Nat) (s : State) : Host.Outcome State Fault Refusal := .next (s.runCommand link (fun s => cmdWindowSync s link))

/-- SCOPE-WRITE; a context that is not live has no entries, and an image may meet an uncorrectable error: the specification gives neither
a status of its own (log 20). -/
def cmdScopeWrite (s : State) (link : Nat) : State × Bool :=
  s.command link 0x0B [argAsid, argAny, argAddr] (fun a s =>
    let g := a.getD 1 0
    let n := a.getD 0 0
    let bs := Memory.readN s.pkg.hbm (a.getD 2 0) 64
    let dws := (List.range 8).map (fun i => ofBytes ((bs.drop (8 * i)).take 8))
    if g < 4 ∨ 31 < g ∨ (s.asid n).state ≠ 1 ∨ s.physPoison (a.getD 2 0) 64 ∨ (bitsOf (dws.getD 3 0) 63 63 = 1 ∧ !(imageOk s.pkg.devid.toNat dws)) then (s, 1, [])
    else (s.writeScope n g bs, 0, []))
/-- SCOPE_WRITE (16 R399). -/
def execScopeWrite (link : Nat) (s : State) : Host.Outcome State Fault Refusal := .next (s.runCommand link (fun s => cmdScopeWrite s link))

/-- A task name unbound. -/
def Core.unbindName (k : Core) (n : Nat) : Core :=
  { k with taskNames := Tab.set k.taskNames n { TileEntry.unbound with gen := (k.nameEntry n).gen, name := n, task := true } }

/-- A task name bound to fresh level-0 storage, as a new generation; none where no run of granules is long enough. -/
def State.bindName (s : State) (c n v : Nat) : Option State :=
  let gen := ((s.core c).nameEntry n).gen
  let s1 := s.modCore c (fun k => k.unbindName n)
  if tallocHuge false (bitsOf v 47 44) (bitsOf v 15 0) (bitsOf v 31 16) then none
  else
    let r := newTile (s1.modPkg (fun p => { p with nextGid := p.nextGid + 1 })) c s.pkg.nextGid false (bitsOf v 47 44) (bitsOf v 15 0) (bitsOf v 31 16)
    r.2.map (fun f => r.1.modCore c (fun k => { k with taskNames := Tab.set k.taskNames n { f with gen := (gen + 1) % 65536, name := n, task := true } }))

/-- TASK-NAME. -/
def cmdTaskName (s : State) (link : Nat) : State × Bool :=
  s.command link 0x0C [argCore, argBelow 256, fun v => v == 0 || ((tallocBad v).isNone && bitsOf v 48 48 == 0)] (fun a s =>
    let c := a.getD 0 0
    let n := a.getD 1 0
    let v := a.getD 2 0
    if (s.core c).liveTasks.any (fun u => u.touches n) then (s, 2, [])
    else if v = 0 then (s.modCore c (fun k => k.unbindName n), 0, [])
    else match s.bindName c n v with | some t => (t, 0, []) | none => (s, 1, []))
/-- TASK_NAME (14 R346). -/
def execTaskName (link : Nat) (s : State) : Host.Outcome State Fault Refusal := .next (s.runCommand link (fun s => cmdTaskName s link))

/-- `n` bytes of a list, zero beyond its end. -/
def padBytes (bs : List Byte) (n : Nat) : List Byte := (List.range n).map (fun i => bs.getD i 0)

/-- The attestation report up to its signature (18 Table 6). -/
def Package.reportBody (p : Package) (nonce : List Byte) : List Byte :=
  toBytes 0x54414C55 4 ++ toBytes 1 2 ++ toBytes (if p.idok then 0 else 2) 2 ++ toBytes Config.serial 16 ++ padBytes p.blobHash 32 ++
  toBytes p.svn.toNat 4 ++ toBytes p.devid.toNat 2 ++ toBytes 0 2 ++ padBytes p.recHash 32 ++ nonce ++ toBytes p.boots.toNat 8 ++ toBytes 0 8

/-- The secret number of a signature that a choice of the part makes: any from 1 to n − 1 (log 4). -/
def signNumber (k : Nat) : Nat := k % (curveN - 1) + 1

/-- The attestation report: its signature is the identity key's over the digest of the bytes before it, or 0 without an identity (18 R438). -/
def Package.report (p : Package) (nonce : List Byte) (k : Nat) : List Byte :=
  let body := p.reportBody nonce
  let sig := ecdsaSign Config.identityKey k (digestNat (sha256 body))
  body ++ (if p.idok then bigEndian sig.1 32 ++ bigEndian sig.2 32 else toBytes 0 64)

/-- ATTEST: `secret` is the part's choice of the signature's secret number (18 R438; log 4). -/
def cmdAttest (s : State) (link secret : Nat) : State × Bool :=
  s.command link 0x0D [argAny, argAny, argAny, argAny, argAddr] (fun a s =>
    let nonce := (List.range 4).flatMap (fun i => toBytes (a.getD i 0) 8)
    (({ s with free := s.free + 1 } : State).writePhys (a.getD 4 0) (s.pkg.report nonce (signNumber secret)), if s.pkg.idok then 0 else 2, []))
/-- ATTEST (18 R438). -/
def execAttest (link secret : Nat) (s : State) : Host.Outcome State Fault Refusal := .next (s.runCommand link (fun s => cmdAttest s link secret))

/-- CORE-RELEASE. -/
def cmdCoreRelease (s : State) (link : Nat) : State × Bool :=
  s.command link 0x0E [argCore] (fun a s =>
    let c := a.getD 0 0
    if (s.core c).held then
      ((((s.core c).groups.map Prod.fst).foldl (fun s g => s.releaseHeld c g) s).modCore c (fun k => { k with held := false }), 0, [])
    else (s, 1, []))
/-- CORE_RELEASE (09 R243; 18 R446). -/
def execCoreRelease (link : Nat) (s : State) : Host.Outcome State Fault Refusal := .next (s.runCommand link (fun s => cmdCoreRelease s link))

/-- Whether the running command of a link may finish: its flush, retirement, groups or restore are done. -/
def State.commandOver (s : State) (link : Nat) (b : Sideband) : Bool :=
  let bad := b.status == 0xFFFFFFFF
  bad ||
  ((b.code != 0x03 || s.flushesDone b.flushes) && (b.code != 0x04 || b.status != 0 || (s.asid ((b.args.getD 0 0).toNat)).state == 0) &&
   b.waits.all (fun w => match s.group? w.1 w.2 with | some g => g.stopped | none => true) &&
   (b.code != 0x07 || s.pkg.pending.all (fun p => match p.restore with | some r => r.1 != link | none => true)))

/-- SIDEBAND_COMMAND_FINISH: a command's work is done, and SBRES shows its outcome (18 R445). -/
def execSidebandCommandFinish (link : Nat) (s : State) : Host.Outcome State Fault Refusal :=
  let b := s.sbOf link
  if b.busy && s.commandOver link b then .next (s.modSb link (fun b => { b with busy := false, waits := [] })) else .next s

/-- A write of SBCMD: the command of its code. -/
def State.writeSbcmd (s : State) (link v : Nat) : State × Bool :=
  match v with
  | 0x01 => cmdBind s link
  | 0x02 => cmdReroot s link
  | 0x03 => cmdTlbFlush s link
  | 0x04 => cmdRetire s link
  | 0x05 => cmdVerdict s link
  | 0x06 => cmdRelease s link
  | 0x07 => cmdRestore s link
  | 0x08 => cmdPreempt s link
  | 0x09 => cmdStreamReset s link
  | 0x0A => cmdWindowSync s link
  | 0x0B => cmdScopeWrite s link
  | 0x0C => cmdTaskName s link
  | 0x0D => cmdAttest s link (Config.freeChoice s.free)
  | 0x0E => cmdCoreRelease s link
  | _ => (s, false)

/-! ## Writes (18 R443, R444) -/

/-- A port of the route table as stored (16 R404). -/
def storedPort (v : Nat) : Nat := if 18 ≤ v then 0x1F else v

/-- A write of a route-table entry. -/
def Route.write (r : Route) (v : Nat) : Route :=
  { r with primary := storedPort (bitsOf v 4 0), second := storedPort (bitsOf v 12 8), pf := r.pf && bitsOf v 15 15 == 0, sf := r.sf && bitsOf v 14 14 == 0 }

/-- A write of the package block; the registers of boot and reset are not among these. -/
def State.packageWrite (s : State) (o v : Nat) : State × Bool :=
  if o = 0x08 then (s.modPkg (fun p => { p with devid := BitVec.ofNat 12 v }), true)
  else if o = 0x10 then (s.modPkg (fun p => { p with ftimeout := BitVec.ofNat 32 (min 1000000000 (max 10000 (v % 2 ^ 32))) }), true)
  else if 0x100 ≤ o ∧ o < 0x280 then (s.writeIslop ((o - 0x100) / 8) v, true)
  else if 0x10000 ≤ o ∧ o < 0x18000 then (s.modRoute ((o - 0x10000) / 8) (fun r => r.write v), true)
  else (s, false)

/-- A write of a die's block. -/
def State.dieWrite (s : State) (d o v : Nat) : State × Bool :=
  let put := fun (f : Die → Die) => (s.modDie d f, true)
  if o = 0 then (s.writeDiemem d v, true)
  else if o = 0x08 then s.writeBwtab d v
  else if o = 0x10 then put (fun k => { k with eq := { k.eq with base := BitVec.ofNat 64 (bitsOf v 51 5 * 32) } })
  else if o = 0x18 then put (fun k => { k with eq := { k.eq with head := BitVec.ofNat 32 v } })
  else if o = 0x20 then put (fun k => { k with eq := { k.eq with log2n := ringSize v 20 } })
  else if o = 0x28 then put (fun k => { k with fq := { k.fq with base := BitVec.ofNat 64 (bitsOf v 51 6 * 64) } })
  else if o = 0x30 then put (fun k => { k with fq := { k.fq with head := BitVec.ofNat 32 v } })
  else if o = 0x38 then put (fun k => { k with fq := { k.fq with log2n := ringSize v 16 } })
  else (s, false)

/-- A write of a core's block. -/
def State.coreWrite (s : State) (c o v : Nat) : State × Bool :=
  let put := fun (f : Core → Core) => (s.modCore c f, true)
  if o = 0 then put (fun k => { k with taglim := BitVec.ofNat 16 (bitsOf v 31 16), swap := v % 2 == 1 })
  else if o = 0x08 then put (fun k => k.writeGafcfg v)
  else if o = 0x28 then put (fun k => k.writeDbgctl v)
  else if 0x30 ≤ o ∧ o < 0x50 then put (fun k => { k with bpa := Tab.set k.bpa ((o - 0x30) / 8) (BitVec.ofNat 52 (bitsOf v 51 2 * 4)) })
  else (s, false)

/-- A write of a link's command block. -/
def State.linkWrite (s : State) (i o v : Nat) : State × Bool :=
  if o = 0 then s.writeSbcmd i v
  else if 8 ≤ o ∧ o < 0x48 ∧ !(s.sbOf i).busy then (s.modSb i (fun b => { b with args := List.set b.args ((o - 8) / 8) (BitVec.ofNat 64 v) }), true)
  else (s, false)

/-- A sideband write of a register other than those of boot and reset; whether it was performed. -/
def State.sbWrite (s : State) (addr v : Nat) : State × Bool :=
  let o := addr % 2 ^ 32
  let i := bitsOf addr 39 32
  if 2 ^ 48 ≤ addr ∨ o % 8 ≠ 0 then (s, false)
  else
    match bitsOf addr 47 40 with
    | 0 => if i = 0 then s.packageWrite o v else (s, false)
    | 1 => if i < 2 then s.linkWrite i o v else (s, false)
    | 2 => if i < 4 then s.dieWrite i o v else (s, false)
    | 3 => if i < Config.numCores then s.coreWrite i o v else (s, false)
    | 4 =>
      if i = 0 ∧ o < 2 ^ 23 then
        let a := o / 128
        let q := o % 128 / 16
        (if o % 16 = 0 then s.writeLqd0 a q v else s.putQueue a q ((s.queueOf a q).write1 v), true)
      else (s, false)
    | _ => (s, false)

/-! ## The companion processor's memory accesses (10 R247, R258, R259; 11 R281; 16 R383, R393) -/

/-- The companion processor's write `n` on a link, as a writer: no group waits for it, but its acknowledgement does (11 R281). -/
def companionWriter (link n : Nat) : Writer := { core := 0x1FE + link, gid := 0, cid := n, unit := 0 }

/-- The number of a link's next write: one more than those that are not acknowledged. -/
def State.nextWrite (s : State) (link : Nat) : Nat := ((s.pkg.compWait.filter (fun w => w.1 == link)).map Prod.snd).foldl max 0 + 1

/-- Bytes that may cross lines, read at the home slice of each line; none where a part fails or meets an uncorrectable error. -/
def State.readGood (s : State) (asid : Nat) : Nat → Nat → Nat → State × Option (List Byte)
  | 0, _, _ => (s, some [])
  | fuel + 1, va, n =>
    if n = 0 then (s, some [])
    else
      let m := min n (128 - va % 128)
      let r := s.readHome asid va m
      match r.2 with
      | .error _ => (r.1, none)
      | .ok b =>
        if Marked.bad b then (r.1, none)
        else let t := r.1.readGood asid fuel (va + m) (n - m); (t.1, t.2.map (fun bs => b.map Prod.fst ++ bs))

/-- COMPANION_DEVICE_MEMORY_ACCESS: an access on an UP link enters the die of the link; one that a page refuses, and a read that meets an
uncorrectable error, is refused whole (10 R259, R264; log 21), and so is every access after a failed boot (18 R434). -/
def execCompanionDeviceMemoryAccess (a : CompanionAccess) (s : State) : Host.Outcome State Fault Refusal :=
  let die := if a.link = 0 then 0 else 2
  let asid := a.asid.toNat
  let va := a.va.toNat
  if s.bootFailed || Tab.getD s.pkg.links a.link LinkState.down != .up then .next s.refuse
  else
    match a.data with
    | none =>
      let r := s.readGood asid (a.len + 1) va a.len
      match r.2 with
      | some bs => .next { r.1 with out := { Out.reset with data := bs } }
      | none => .next r.1.refuse
    | some bs =>
      let c := s.mayWriteSpan asid (bs.length / 65536 + 2) va bs.length
      match c.2 with
      | some _ => .next c.1.refuse
      | none =>
        let n := s.nextWrite a.link
        let r := c.1.writeVa die asid (companionWriter a.link n) (bs.length + 1) va { bytes := bs, bad := [] }
        .next { r.1.modPkg (fun p => { p with compWait := p.compWait ++ [(a.link, n)] }) with out := Out.reset }

/-- Act linkAck: a link's oldest write is acknowledged once its write-throughs have been (11 R276, R281). -/
def linkAck (link : Nat) (s : State) : State :=
  match s.pkg.compWait.find? (fun w => w.1 == link) with
  | none => s
  | some w =>
    if s.dies.any (fun d => d.2.outstanding (fun t => t.core == (companionWriter link w.2).core && t.cid == w.2)) then s
    else { s.modPkg (fun p => { p with compWait := p.compWait.erase w }) with out := { Out.reset with acks := [w.2] } }

/-- Act compStore: the companion processor's own stores to its memory (10 R247, R258). -/
def compStore (addr : Nat) (bytes : List Byte) (s : State) : State := s.modPkg (fun p => { p with comp := Memory.writeN p.comp (addr % 2 ^ 52) bytes })

/-- Act companionPhys: HBM4 read or written by physical address over a link that is UP, as firmware builds page tables, context blocks and
kernel tables and reads the wrap dump (09 R246; 16 R383, R393; 18 R433). The specification gives the access no form: one that leaves the
stacks, a read that meets an uncorrectable error, and one after a failed boot (18 R434), is refused (log 21). -/
def companionPhys (pa len : Nat) (data : Option (List Byte)) (s : State) : State :=
  let n := match data with | some bs => bs.length | none => len
  let up := fun l => Tab.getD s.pkg.links l LinkState.down == .up
  if s.bootFailed || !(up 0 || up 1) || decide (2 ^ 39 < pa + n) || decide (0xC00000000 < pa % 2 ^ 36 + n) then s.refuse
  else
    match data with
    | some bs => { s.writePhys pa bs with out := Out.reset }
    | none => if s.physPoison pa n then s.refuse else { s with out := { Out.reset with data := Memory.readN s.pkg.hbm pa n } }

end Sys2Proof.Machine
end

