-- ==== Sys2Proof/Machine/Platform.lean ====
section
/-! DEFINITION. The part on its board: MACHINE errors and the wrap dump (09 R242 to R246), scrubbing (10 R263 to R265), resets and boot
(18 R433 to R436), links and register writes (18 R439, R440), thermal actions (18 R441), and the TAP (18 R442). -/

namespace Sys2Proof.Machine

/-! ## MACHINE (09 R242, R243) -/

/-- A unit code counted as an error of a core; unit 0 names a program condition (09 R223). -/
def State.countUnit (s : State) (c u : Nat) : State := if u = 0 then s else s.uncorrectable c u

/-- The four dwords of a package MACHINE's record (09 Table 16). -/
def machineRecord (s : State) (source unit addr : Nat) : List DWord :=
  [BitVec.ofNat 64 (2 * 2 ^ 56 + source * 2 ^ 44 + (Tab.getD s.pkg.seqs source 0#32).toNat), BitVec.ofNat 64 (0xFF * 2 ^ 40),
   BitVec.ofNat 64 (0x200 + unit), BitVec.ofNat 64 addr]

/-- A MACHINE of scope 1: every group of the core is stopped, and the core takes no placement (09 R243). -/
def State.machineCore (s : State) (c unit addr : Nat) : State :=
  (((s.core c).groups.map Prod.fst).foldl (fun s g => s.machineGroup c g 1 unit addr) s).modCore c
    (fun k => { k with held := true, mchk := true })

/-- A MACHINE of scope 2: its event is written, and everything freezes (09 R243). -/
def State.machinePackage (s : State) (c unit addr : Nat) : State :=
  let d := dieOf c
  let src := dieSource d (unit % 64)
  (s.event d src 0x02 0 0xFF 0 (0x200 + unit) addr).modPkg (fun p => { p with frozen := true, macRecord := machineRecord s src unit addr })

/-- MACHINE: an error of the hardware at group, core or package scope (09 R243). -/
def execMachine (m : MachineError) (s : State) : Host.Outcome State Fault Refusal :=
  let u := m.unit.toNat
  let a := m.addr.toNat
  match m.scope with
  | 0 => .next (if (s.group? m.core m.gid).isSome then (s.countUnit m.core u).machineGroup m.core m.gid 0 u a else s)
  | 1 => .next ((s.countUnit m.core u).machineCore m.core u a)
  | _ => .next (s.machinePackage m.core u a)

/-! ## The wrap dump (09 R246) -/

/-- Section 0x01: the system registers that each core holds, in SYS order; those that a warp or a group holds read 0 (log 23). -/
def Core.dumpRegs (k : Core) : List Byte :=
  (List.range 64).flatMap (fun n => toBytes (match n with
    | 0x30 => k.taglim.toNat * 65536 + flag k.swap
    | 0x31 => k.errstat
    | 0x32 => k.budgetNext
    | 0x33 => k.gafstl.toNat
    | 0x34 => k.cycle.toNat
    | 0x38 => k.dbgctl
    | n => if 0x39 ≤ n ∧ n ≤ 0x3C then (Tab.getD k.bpa (n - 0x39) 0).toNat else 0) 8)

/-- Section 0x02 of a core: each resident warp's trap frame, 1 KiB of scratchpad at TFRAME, and its sixteen hardware split-stack entries from
the bottom up (log 23). -/
def Core.dumpWarps (k : Core) : List Byte :=
  k.warps.flatMap (fun p =>
    let frame := match Tab.get? k.groups p.2.gid with | some g => localRead k g p.2.tframe.toNat 1024 | none => toBytes 0 1024
    frame ++ padBytes (p.2.split.reverse.flatMap SplitEntry.bytes) 256)

/-- Section 0x04: TAIL and HEAD, as one dword, of the event and fault rings of D0 to D3 and of every launch queue that has been written, each
of these after its number 8 × ASID + queue (log 23). -/
def State.dumpQueues (s : State) : List Byte :=
  let word := fun (tail head : BitVec 32) => toBytes (tail.toNat * 2 ^ 32 + head.toNat) 8
  [0, 1, 2, 3].flatMap (fun d => word (s.die d).eq.tail (s.die d).eq.head) ++ [0, 1, 2, 3].flatMap (fun d => word (s.die d).fq.tail (s.die d).fq.head) ++
  s.pkg.lqs.flatMap (fun q => toBytes q.1 8 ++ word q.2.tail q.2.head)

/-- The sections of a wrap dump, by ID (09 R246). SEQ of a source's last event is one less than its next; a source with no event yet shows
0xFFFFFFFF (log 23). -/
def State.wrapSections (s : State) : List (Nat × List Byte) :=
  let cores := List.range Config.numCores
  [(1, cores.flatMap (fun c => (s.core c).dumpRegs)), (2, cores.flatMap (fun c => (s.core c).dumpWarps)),
   (3, cores.flatMap (fun c => toBytes (s.core c).errstat 8)), (4, s.dumpQueues),
   (5, (List.range 0x200).flatMap (fun n => toBytes (Tab.getD s.pkg.seqs n 0#32 - 1).toNat 4))]

/-- The section table: each section's ID and its place, `at_` being that of the first. -/
def sectionTable : List (Nat × List Byte) → Nat → List Byte
  | [], _ => []
  | x :: t, at_ => toBytes x.1 8 ++ toBytes at_ 8 ++ sectionTable t (at_ + x.2.length)

/-- The bytes of a wrap dump: header, section table and sections. -/
def State.wrapBytes (s : State) : List Byte :=
  let secs := s.wrapSections
  toBytes 0x50415257 4 ++ toBytes 1 4 ++ (List.range 4).flatMap (fun i => toBytes (s.pkg.macRecord.getD i 0#64).toNat 8) ++
  toBytes (s.core 0).cycle.toNat 8 ++ toBytes secs.length 4 ++ toBytes 0 12 ++ sectionTable secs (64 + 16 * secs.length) ++ secs.flatMap Prod.snd

/-- Act wrapDump: firmware writes the wrap dump to the region that boot reserved (09 R246; 18 R436). -/
def wrapDump (s : State) : State := s.writePhys 0xBC0000000 s.wrapBytes

/-! ## Scrubbing (10 R263 to R265) -/

/-- The group that a byte of a core's scratchpad belongs to. -/
def Core.scratchOwner (k : Core) (p : Nat) : Option (Nat × Group) :=
  k.groups.find? (fun g => decide (g.2.scrBase ≤ p) && decide (p < g.2.scrBase + g.2.scrSize))

/-- The ASID of the group that a byte of die staging is granted to; 0 for a free one. -/
def State.stageAsid (s : State) (d a : Nat) : Nat :=
  match Tab.get? (s.die d).stageOwner (a / 65536) with
  | none => 0
  | some gid => (s.cores.findSome? (fun k => (Tab.get? k.2.groups gid).map Group.asid)).getD 0

/-- What a SCRUB-UE record says of a unit: the die that holds the ring, source, ASID, core ID, group number, DATA0, DATA1. A line of die
staging has no VA, and what the record gives for it is free (log 4). -/
def State.scrubRecord (s : State) (u : StoreUnit) : Option (Nat × Nat × Nat × Nat × Nat × Nat × Nat) :=
  let core := fun (c code a : Nat) (g : Option Group) =>
    some (dieOf c, c, (match g with | some g => g.asid | none => 0), c, (match g with | some g => g.idgrid | none => 0), code, a)
  match u with
  | .register c slot r l =>
    core c 0x01 (0x1000000 + slot * 2 ^ 15 + r * 2 ^ 7 + l * 4) ((s.warp? c slot).bind (fun w => s.group? c w.gid))
  | .scratch c a =>
    match (s.core c).scratchOwner a with
    | some g => core c 0x04 ((a - g.2.scrBase) / 4 * 4) (some g.2)
    | none => core c 0x04 (a / 4 * 4) none
  | .tile c a => core c 0x05 (a / 8 * 8) none
  | .weight c a => core c 0x06 (a / 8 * 8) none
  | .acc c a => core c 0x07 (a / 8 * 8) none
  | .gripInstr c _ a => core c 0x09 (a / 8 * 8) none
  | .gripData c _ a => core c 0x09 (a / 8 * 8) none
  | .staging d a => some (d, dieSource d 0x02, s.stageAsid d a, 0xFF, 0, 0x10, Config.freeChoice s.free % 2 ^ 45 * 128)
  | .l2Home d asid line _ => some (d, dieSource d 0x02, asid, 0xFF, 0, 0x10, line * 128)
  | .l2Guest d asid line _ => some (d, dieSource d 0x02, asid, 0xFF, 0, 0x10, line * 128)
  | .hbm t => let k := t / 2 ^ 31; some (k / 2, dieSource (k / 2) (0x08 + k % 2), 0, 0xFF, 0, 0x18, t * 32)
  | .latch _ _ _ _ => none
  | .cacheTag _ _ _ => none
  | .cacheData _ _ _ => none
  | .icache _ _ => none

/-- A unit marked as poisoned (10 R264); a warp's latch or tag as one with bad parity (05 R116, R121). A cache slot whose data has bad parity
misses from now on, and a line of the instruction cache is fetched again. -/
def State.markUnit (s : State) (u : StoreUnit) : State :=
  match u with
  | .register c slot r l => s.modWarp c slot (fun w => { w with regPoison := (r, l) :: w.regPoison.filter (fun p => !(p == (r, l))) })
  | .latch c q which l => s.modSched c q (fun k => { k with lposn := (which, l) :: k.lposn.filter (fun p => !(p == (which, l))) })
  | .cacheTag c slot i => s.modWarp c slot (fun w => { w with tagPoison := insertNat w.tagPoison i })
  | .cacheData c slot i => s.modWarp c slot (fun w => { w with cache := Tab.mapVal w.cache (fun n x => if n = i then { x with valid := false } else x) })
  | .scratch c a => s.modCore c (fun k => { k with scratchPoison := insertNat k.scratchPoison (a / 4) })
  | .tile c a => s.modCore c (fun k => { k with tilePoison := insertNat k.tilePoison (a / 8) })
  | .weight c a => s.modCore c (fun k => { k with weightPoison := insertNat k.weightPoison (a / 8) })
  | .acc c a => s.modCore c (fun k => { k with accPoison := insertNat k.accPoison (a / 8) })
  | .icache c line => s.modCore c (fun k => { k with icache := k.icache.filter (fun l => l.line != line) })
  | .gripInstr c g a => s.modGrip c g (fun x => { x with ipoison := insertNat x.ipoison (a / 8) })
  | .gripData c g a => s.modGrip c g (fun x => { x with poison := insertNat x.poison (a / 8) })
  | .staging d a => s.modDie d (fun k => { k with stagePoison := insertNat k.stagePoison (a / 8) })
  | .l2Home d asid line w => s.modDie d (fun k => { k with home := k.home.map (fun h =>
      if h.asid == asid && h.line == line then { h with poison := insertNat h.poison w } else h) })
  | .l2Guest d asid line w => s.modDie d (fun k => { k with guest := k.guest.map (fun h =>
      if h.asid == asid && h.line == line then { h with poison := insertNat h.poison w } else h) })
  | .hbm t => s.modPkg (fun p => { p with hbmPoison := insertNat p.hbmPoison t })

/-- The core that holds a unit, and its ERRSTAT.UNIT code. -/
def unitCore (u : StoreUnit) : Option (Nat × Nat) :=
  match u with
  | .register c _ _ _ => some (c, 0x01)
  | .latch c _ _ _ => some (c, 0x02)
  | .cacheTag c _ _ => some (c, 0x03)
  | .cacheData c _ _ => some (c, 0x03)
  | .scratch c _ => some (c, 0x04)
  | .tile c _ => some (c, 0x05)
  | .weight c _ => some (c, 0x06)
  | .acc c _ => some (c, 0x07)
  | .icache c _ => some (c, 0x08)
  | .gripInstr c _ _ => some (c, 0x09)
  | .gripData c _ _ => some (c, 0x09)
  | .staging _ _ => none
  | .l2Home _ _ _ _ => none
  | .l2Guest _ _ _ _ => none
  | .hbm _ => none

/-- An error corrected in a unit, counted where it lies (10 R263). -/
def State.correctedUnit (s : State) (u : StoreUnit) : State :=
  match u with
  | .staging d _ => s.countDie d 0x46 1
  | .l2Home d _ _ _ => s.countDie d 0x46 1
  | .l2Guest d _ _ _ => s.countDie d 0x46 1
  | .hbm t => s.countDie (t / 2 ^ 32) 0x47 1
  | u => match unitCore u with | some p => s.corrected p.1 | none => s

/-- Whether a unit is poisoned already, or has bad parity. -/
def State.unitMarked (s : State) (u : StoreUnit) : Bool :=
  match u with
  | .register c slot r l => match s.warp? c slot with | some w => w.regPoison.contains (r, l) | none => false
  | .latch c q which l => ((s.core c).sched q).lposn.contains (which, l)
  | .cacheTag c slot i => match s.warp? c slot with | some w => w.tagPoison.contains i | none => false
  | .scratch c a => (s.core c).scratchPoison.contains (a / 4)
  | .tile c a => (s.core c).tilePoison.contains (a / 8)
  | .weight c a => (s.core c).weightPoison.contains (a / 8)
  | .acc c a => (s.core c).accPoison.contains (a / 8)
  | .gripInstr c g a => ((s.core c).grip g).ipoison.contains (a / 8)
  | .gripData c g a => ((s.core c).grip g).poison.contains (a / 8)
  | .staging d a => (s.die d).stagePoison.contains (a / 8)
  | .l2Home d asid line w => (s.die d).home.any (fun h => h.asid == asid && h.line == line && h.poison.contains w)
  | .l2Guest d asid line w => (s.die d).guest.any (fun h => h.asid == asid && h.line == line && h.poison.contains w)
  | .hbm t => s.pkg.hbmPoison.contains t
  | .cacheData _ _ _ => false
  | .icache _ _ => false

/-- An uncorrectable error that a scrub meets in a unit: it is poisoned, counted on a core, and reported; a unit poisoned already causes
nothing further (10 R265). A parity error of a latch or a tag is met by the instruction that reads it. -/
def State.badUnit (s : State) (u : StoreUnit) : State :=
  if s.unitMarked u then s else
  match s.scrubRecord u with
  | none => s.markUnit u
  | some (d, src, asid, cid, idg, d0, d1) =>
    let s1 := s.markUnit u
    let s2 := match unitCore u with | some p => s1.uncorrectable p.1 p.2 | none => { s1 with free := s1.free + 1 }
    s2.event d src 0x05 asid cid idg d0 d1

/-- Whether a unit's errors always act as corrected: parity of the instruction cache or of operand-cache data (10 R263; 05 R121). -/
def refetched (u : StoreUnit) : Bool := match u with | .icache _ _ => true | .cacheData _ _ _ => true | _ => false

/-- Whether HBM4 is scrubbed: SCRUBH of its die is not 0 (10 R253, R265). -/
def State.scrubs (s : State) (u : StoreUnit) : Bool := match u with | .hbm t => (s.die (t / 2 ^ 32)).scrubh != 0 | _ => true

/-- SCRUB_PASS: a unit is read, and what the code finds is acted on (10 R263, R265). -/
def execScrubPass (u : StoreUnit) (found : ScrubFound) (s : State) : Host.Outcome State Fault Refusal :=
  .next (if !(s.scrubs u) || found == .clean then s
    else if refetched u then (s.markUnit u).correctedUnit u
    else if found == .corrected then s.correctedUnit u
    else s.badUnit u)

/-- Act unitError: an access other than a scrub's is the next to meet an error in a unit: one that the code corrects counts where it lies;
one that it does not poisons the unit for that access, which counts and reports it as R264 has it (10 R263). -/
def unitError (u : StoreUnit) (found : ScrubFound) (s : State) : State :=
  match found with
  | .clean => s
  | .corrected => s.correctedUnit u
  | .uncorrectable => if refetched u then (s.markUnit u).correctedUnit u else s.markUnit u

/-! ## Resets (18 R432, R433) -/

/-- COLD_RESET: every state and all HBM4 contents are lost. The companion processor's memory is no part of the package (18 R433). -/
def execColdReset (s : State) : Host.Outcome State Fault Refusal :=
  .next { State.reset with agenda := s.agenda, free := s.free, pkg := { Package.reset with comp := s.pkg.comp, coldHeld := true } }

/-- A warm reset: HBM4 with its poison marks survives, and with it the fabric stream state that boot reserves there, the windows with the
packets that they hold among it; BOOTS counts it (15 R375; 18 R433, R436; log 26). -/
def State.warm (s : State) : State :=
  { State.reset with
    agenda := s.agenda, free := s.free
    pkg := { Package.reset with comp := s.pkg.comp, hbm := s.pkg.hbm, hbmPoison := s.pkg.hbmPoison, boots := s.pkg.boots + 1, targets := s.pkg.targets } }

/-- WARM_RESET: the board signal (18 R433). -/
def execWarmReset (s : State) : Host.Outcome State Fault Refusal := .next s.warm

/-- RESETCTL_WARM: the sideband's request (18 R444). -/
def execResetctlWarm (s : State) : Host.Outcome State Fault Refusal := .next (if s.anyOpen && !s.bootFailed then s.warm else s.refuse)

/-! ## Boot (18 R434 to R437) -/

/-- `n` bytes of a blob from an offset. -/
def blobBytes (b : List Byte) (off n : Nat) : List Byte := (b.drop off).take n

/-- A number of `n` bytes of a blob. -/
def blobNat (b : List Byte) (off n : Nat) : Nat := ofBytes (blobBytes b off n)

/-- Whether a boot buffer holds a blob as 18 Table 5 lays it out. -/
def blobOk (b : List Byte) : Bool :=
  let len := blobNat b 0x0C 4
  blobNat b 0 4 == 0x46424C55 && blobNat b 4 4 == 1 && decide (96 ≤ len) && decide (len ≤ 2 ^ 24) && decide (len ≤ b.length) &&
  decide (blobNat b 0x10 4 + 16 * blobNat b 0x14 4 ≤ len)

/-- Whether a blob is signed with Frebevan's root key: (r, s) stands at its end, and signs the digest of all before it (18 R435). -/
def blobSigned (b : List Byte) : Bool :=
  let n := b.length - 64
  ecdsaVerifies Config.rootKey (digestNat (sha256 (b.take n))) (digestNat (blobBytes b n 32)) (digestNat (blobBytes b (n + 32) 32))

/-- The bytes of a blob's configuration records. -/
def blobRecords (b : List Byte) : List Byte := blobBytes b (blobNat b 0x10 4) (16 * blobNat b 0x14 4)

/-- A write of a register of boot or reset, or of any other, as a configuration record makes it: during boot BOOTBUF appends, BOOTCTL has
nothing to start, and a warm reset is asked for (log 22). The second answer tells whether it was performed, the third the reset. -/
def State.configWrite (s : State) (addr v : Nat) : State × Bool × Bool :=
  if addr = 0x18 then (s.modPkg (fun p => { p with bootBuf := p.bootBuf ++ [BitVec.ofNat 64 v] }), true, false)
  else if addr = 0x20 then (s, true, false)
  else if addr = 0x28 then (s, true, v % 2 == 1)
  else let r := s.sbWrite addr v; (r.1, r.2, false)

/-- Configuration records applied in their order until one is refused or asks for a reset (18 R435). -/
def State.applyRecords (b : List Byte) : Nat → Nat → State → State × Bool × Bool
  | 0, _, s => (s, true, false)
  | n + 1, off, s =>
    let r := s.configWrite (blobNat b off 8) (blobNat b (off + 8) 8)
    if r.2.1 && !r.2.2 then State.applyRecords b n (off + 16) r.1 else r

/-- BOOTSTAT.STATE set. -/
def State.boot (s : State) (st : Nat) : State := s.modPkg (fun p => { p with bootState := st })

/-- The cores are released, and boot is over: every core and die is there from now on. -/
def State.releaseCores (s : State) : State :=
  let s1 := (List.range Config.numCores).foldl (fun s c => s.modCore c (fun k => k)) s
  ((List.range 4).foldl (fun s d => s.modDie d (fun k => k)) s1).boot 4

/-- Steps 4 and 5 of boot, up to the training of HBM4 (18 Table 3). -/
def State.bootGo (s : State) (x : BootOutcome) : State :=
  let raw := s.pkg.bootBuf.flatMap (fun d => toBytes d.toNat 8)
  let b := raw.take (blobNat raw 0x0C 4)
  if !(blobOk raw) || !(blobSigned b) then s.boot 2
  else
    let s1 := s.modPkg (fun p => { p with blobHash := sha256 b, svn := BitVec.ofNat 32 (blobNat b 8 4) })
    let r := s1.applyRecords b (blobNat b 0x14 4) (blobNat b 0x10 4)
    if r.2.2 then r.1.warm
    else if !r.2.1 then r.1.boot 6
    else (r.1.modPkg (fun p => { p with recHash := sha256 (blobRecords b), booting := some x })).boot 3

/-- Act bootFinish: steps 6 to 8 of boot: training ends, the identity key is derived, and the cores are released (18 Table 3). -/
def bootFinish (s : State) : State :=
  match if s.pkg.bootState = 3 then s.pkg.booting else none with
  | none => s
  | some x =>
    let s1 := s.modPkg (fun p => { p with booting := none })
    if !x.trainingOk then s1.boot 5 else (s1.modPkg (fun p => { p with idok := x.identityOk })).releaseCores

/-- BOOTCTL.START. -/
def State.bootStart (s : State) : State := s.modPkg (fun p => { p with bootState := 1, bootBuf := [], booting := none })

/-- A write of BOOTBUF, refused while STATE is not 0x1. -/
def State.bootAppend (s : State) (v : DWord) : State × Bool :=
  if s.pkg.bootState = 1 then (s.modPkg (fun p => { p with bootBuf := p.bootBuf ++ [v] }), true) else (s, false)

/-- BOOTCTL.GO: nothing to do where no load is under way. -/
def State.bootRun (s : State) (x : BootOutcome) : State := if s.pkg.bootState = 1 then s.bootGo x else s

/-- BOOTCTL_START (18 R434). -/
def execBootctlStart (s : State) : Host.Outcome State Fault Refusal := .next (if s.anyOpen then s.told (s.bootStart, true) else s.refuse)

/-- BOOTBUF_WRITE (18 R444). -/
def execBootbufWrite (value : DWord) (s : State) : Host.Outcome State Fault Refusal :=
  .next (if s.anyOpen then s.told (s.bootAppend value) else s.refuse)

/-- BOOTCTL_GO: the training and the identity key will answer `outcome` (18 R434, R437). -/
def execBootctlGo (outcome : BootOutcome) (s : State) : Host.Outcome State Fault Refusal :=
  .next (if s.anyOpen then s.told (s.bootRun outcome, true) else s.refuse)

/-! ## Links and register writes (18 R439, R440) -/

/-- The place of a state on a link's way up. -/
def linkRank (l : LinkState) : Nat := match l with | .down => 0 | .train => 1 | .mgmt => 2 | .up => 3

/-- Whether a link may go from a state to another: up one state at a time, or back (18 R439; DEDUCED, log 22). -/
def linkMoves (a b : LinkState) : Bool := linkRank b == linkRank a + 1 || decide (linkRank b < linkRank a)

/-- LINK_STATE_CHANGE: a link goes UP only once STATE is 0x4; the end of the last UP link starts an absence (18 R439; 13 Table 9). -/
def execLinkStateChange (link : Nat) (dest : LinkState) (s : State) : Host.Outcome State Fault Refusal :=
  if !(linkMoves (Tab.getD s.pkg.links link .down) dest) || (dest == .up && s.pkg.bootState != 4) then .next s
  else
    let up := fun (p : Package) => p.links.any (fun l => l.2 == .up)
    .next (s.modPkg (fun p =>
      let q := { p with links := Tab.set p.links link dest, coldHeld := false, tap := { p.tap with driven := false } }
      if up p && !(up q) then { q with linksLost := s.ucycle.toNat } else q))

/-- What boot finds when a register write starts it: free choices (log 4). -/
def freeOutcome (n : Nat) : BootOutcome :=
  { trainingOk := Config.freeChoice n % 2 == 1, identityOk := Config.freeChoice (n + 1) % 2 == 1 }

/-- A write of a register of boot or reset. -/
def State.bootWrite (s : State) (o : Nat) (v : DWord) : State × Bool :=
  if o = 0x18 then s.bootAppend v
  else if o = 0x20 then
    let s1 := if v.toNat % 2 = 1 then s.bootStart else s
    (if bitsOf v.toNat 1 1 = 1 then ({ s1 with free := s1.free + 2 }).bootRun (freeOutcome s1.free) else s1, true)
  else if s.bootFailed then (s, false)
  else (if v.toNat % 2 = 1 then s.warm else s, true)

/-- SIDEBAND_REGISTER_WRITE: after a failed boot step only a new load is accepted (18 R434, R440, R443). -/
def execSidebandRegisterWrite (link : Nat) (addr value : DWord) (s : State) : Host.Outcome State Fault Refusal :=
  let a := addr.toNat
  if !(s.linkOpen link) then .next s.refuse
  else if a = 0x18 ∨ a = 0x20 ∨ a = 0x28 then .next (s.told (s.bootWrite a value))
  else if s.bootFailed then .next s.refuse
  else .next (s.told (s.sbWrite a value.toNat))

/-! ## Thermal actions (18 R441) -/

/-- A temperature in 1/16 °C. -/
def degrees (t : Nat) : Int := 16 * (t : Int)

/-- The die that a sensor lies on (18 Table 7). -/
def sensorDie (n : Nat) : Nat := if n < 0x30 then n / 12 else if n < 0x34 then n - 0x30 else (n - 0x34) / 2

/-- A THERMAL event. -/
def State.thermalEvent (s : State) (n code : Nat) (t : BitVec 16) : State :=
  let d := sensorDie n
  s.event d (dieSource d 0x20) 0x06 0 0xFF 0 (code * 256 + n) (t.signExtend 64).toNat

/-- An island's thermal limit set. -/
def Package.limit (p : Package) (n v : Nat) : Package :=
  { p with islands := Tab.set p.islands n { (Tab.getD p.islands n Island.reset) with limit := v } }

/-- A stack changed. -/
def Package.onStack (p : Package) (n : Nat) (f : Stack → Stack) : Package :=
  { p with hstacks := Tab.set p.hstacks n (f (Tab.getD p.hstacks n Stack.reset)) }

/-- The temperature in °C from which on a sensor's highest action stays: 5 °C below its threshold (18 R441). -/
def Package.stays (p : Package) (n : Nat) : Option Nat :=
  if n < 0x30 then
    let l := (Tab.getD p.islands n Island.reset).limit
    if l = 2 then some 100 else if l = 1 then some 90 else none
  else if n < 0x34 then none
  else
    let x := Tab.getD p.hstacks (n - 0x34) Stack.reset
    if x.halfBw then some 90 else if x.refresh2 then some 80 else none

/-- Since when a sensor has been at least 5 °C below the threshold of its highest action, if it is: the uncore cycle, which starts anew
with each action and its undoing. -/
def Package.watch (p : Package) (now : Nat) (anew : Bool) (n : Nat) : Package :=
  let t := Tab.getD p.sensors n 0
  { p with cool := match p.stays n with
      | none => Tab.erase p.cool n
      | some d =>
        if degrees d < t.toInt then Tab.erase p.cool n
        else if anew || (Tab.get? p.cool n).isNone then Tab.set p.cool n now else p.cool }

/-- A sensor's reading kept. -/
def State.sensed (s : State) (n : Nat) (t : BitVec 16) : State :=
  s.modPkg (fun p => ({ p with sensors := Tab.set p.sensors n t } : Package).watch s.ucycle.toNat false n)

/-- Whether a sensor has stayed below for 10 ms, 33,000,000 uncore cycles (18 R431, R441). -/
def State.cooled (s : State) (n : Nat) : Bool :=
  match Tab.get? s.pkg.cool n with
  | some t => decide (t + 33000000 ≤ s.ucycle.toNat)
  | none => false

/-- A thermal action with its event. -/
def State.thermalAct (s : State) (n code : Nat) (t : BitVec 16) (f : Package → Package) : State :=
  (s.modPkg (fun p => (f p).watch s.ucycle.toNat true n)).thermalEvent n code t

/-- The threshold of `deg` °C, crossed upward: its action is taken. -/
def State.cross (s : State) (old new : BitVec 16) (deg n code : Nat) (f : Package → Package) : State :=
  if old.toInt < degrees deg ∧ degrees deg ≤ new.toInt then s.thermalAct n code new f else s

/-- A thermal trip: every rail but VHBM is dropped. -/
def tripOff (p : Package) : Package := { p with tripped := true }

/-- THERMAL_THRESHOLD: the thresholds that a sensor's new temperature crosses take their actions in ascending order (18 Table 7). -/
def execThermalThreshold (sensor : Nat) (temp : BitVec 16) (s : State) : Host.Outcome State Fault Refusal :=
  let old := Tab.getD s.pkg.sensors sensor 0
  let s0 := s.sensed sensor temp
  let k := sensor - 0x34
  .next (
    if sensor < 0x30 then
      let s1 := (s0.listIsland sensor).cross old temp 95 sensor 0x01 (fun p => p.limit sensor (min 2 ((Tab.getD p.islands sensor Island.reset).limit + 1)))
      (s1.cross old temp 105 sensor 0x01 (fun p => p.limit sensor 2)).cross old temp 115 sensor 0x07 tripOff
    else if sensor < 0x34 then s0.cross old temp 115 sensor 0x07 tripOff
    else
      let s1 := s0.cross old temp 85 sensor 0x03 (fun p => p.onStack k (fun x => { x with refresh2 := true }))
      (s1.cross old temp 95 sensor 0x05 (fun p => p.onStack k (fun x => { x with halfBw := true }))).cross old temp 105 sensor 0x07 tripOff)

/-- THERMAL_UNDO: a sensor has been at least 5 °C below a threshold for 10 ms, and one action is undone, the highest first (18 R441). -/
def execThermalUndo (sensor : Nat) (temp : BitVec 16) (s : State) : Host.Outcome State Fault Refusal :=
  let s0 := s.sensed sensor temp
  let k := sensor - 0x34
  .next (
    if !(s0.cooled sensor) then s0 else
    if sensor < 0x30 then
      let s0 := s0.listIsland sensor
      let l := (s0.island sensor).limit
      s0.thermalAct sensor 0x02 temp (fun p => p.limit sensor (l - 1))
    else if sensor < 0x34 then s0
    else
      let x := s0.stack k
      if x.halfBw then s0.thermalAct sensor 0x06 temp (fun p => p.onStack k (fun x => { x with halfBw := false }))
      else s0.thermalAct sensor 0x04 temp (fun p => p.onStack k (fun x => { x with refresh2 := false })))

/-! ## The TAP (18 R442) -/

/-- The TAP changed. -/
def State.modTap (s : State) (f : Tap → Tap) : State := s.modPkg (fun p => { p with tap := f p.tap })

/-- JTAG_EXTEST: the boundary register drives the pins while MRST_N holds the part in cold reset; at any other time it acts as BYPASS. -/
def execJtagExtest (pins : List Bool) (s : State) : Host.Outcome State Fault Refusal :=
  .next (if s.pkg.coldHeld then s.modTap (fun t => { t with ir := 0, boundary := pins, driven := true })
    else s.modTap (fun t => { t with ir := 0, driven := false }))
/-- JTAG_IDCODE: the identification is shifted out. -/
def execJtagIdcode (s : State) : Host.Outcome State Fault Refusal :=
  .next { s.modTap (fun t => { t with ir := 1, driven := false }) with out := { Out.reset with data := toBytes 0x19600E2B 4 } }
/-- JTAG_SAMPLE_PRELOAD: the boundary register takes what is sampled or shifted in; no pin is driven. -/
def execJtagSamplePreload (pins : List Bool) (s : State) : Host.Outcome State Fault Refusal :=
  .next (s.modTap (fun t => { t with ir := 2, boundary := pins, driven := false }))
/-- JTAG_BYPASS: also every unassigned code. -/
def execJtagBypass (code : BitVec 4) (s : State) : Host.Outcome State Fault Refusal :=
  .next (s.modTap (fun t => { t with ir := code, driven := false }))

/-- The controller's next state (IEEE 1149.1; PRESUMED, log 50). -/
def TapState.next (t : TapState) (tms : Bool) : TapState :=
  match t with
  | .testLogicReset => if tms then .testLogicReset else .runTestIdle
  | .runTestIdle => if tms then .selectDr else .runTestIdle
  | .selectDr => if tms then .selectIr else .captureDr
  | .captureDr => if tms then .exit1Dr else .shiftDr
  | .shiftDr => if tms then .exit1Dr else .shiftDr
  | .exit1Dr => if tms then .updateDr else .pauseDr
  | .pauseDr => if tms then .exit2Dr else .pauseDr
  | .exit2Dr => if tms then .updateDr else .shiftDr
  | .updateDr => if tms then .selectDr else .runTestIdle
  | .selectIr => if tms then .testLogicReset else .captureIr
  | .captureIr => if tms then .exit1Ir else .shiftIr
  | .shiftIr => if tms then .exit1Ir else .shiftIr
  | .exit1Ir => if tms then .updateIr else .pauseIr
  | .pauseIr => if tms then .exit2Ir else .pauseIr
  | .exit2Ir => if tms then .updateIr else .shiftIr
  | .updateIr => if tms then .selectDr else .runTestIdle

/-- Whether the boundary register is the data register in use: EXTEST outside a cold reset acts as BYPASS. -/
def Tap.usesBoundary (t : Tap) (held : Bool) : Bool := t.ir == 2 || (t.ir == 0 && held)

/-- The low bits of a number, the lowest first. -/
def lowBits (n v : Nat) : List Bool := (List.range n).map v.testBit

/-- What the data register in use captures: the pins, the identification, or the one bit of BYPASS. -/
def Tap.captured (t : Tap) (held : Bool) (pins : List Bool) : List Bool :=
  if t.usesBoundary held then pins else if t.ir = 1 then lowBits 32 0x19600E2B else [false]

/-- What a clock does in the controller's state. -/
def Tap.clock (t : Tap) (held tms tdi : Bool) (pins : List Bool) : Tap :=
  let u : Tap := match t.state with
    | .testLogicReset => { t with ir := 1, driven := false }
    | .captureDr => { t with dr := t.captured held pins }
    | .shiftDr => { t with dr := t.dr.drop 1 ++ [tdi] }
    | .updateDr => if t.usesBoundary held then { t with boundary := t.dr } else t
    | .captureIr => { t with irShift := lowBits 4 1 }
    | .shiftIr => { t with irShift := t.irShift.drop 1 ++ [tdi] }
    | .updateIr =>
      let ir := BitVec.ofNat 4 (((List.range 4).map (fun i => if t.irShift.getD i false then 2 ^ i else 0)).sum)
      { t with ir := ir, driven := ir == 0 && held }
    | _ => t
  { u with state := t.state.next tms }

/-- Act tck: one clock of the TAP. TDO carries the bit that leaves a shift stage. -/
def tck (tms tdi : Bool) (pins : List Bool) (s : State) : State :=
  let t := s.pkg.tap
  let tdo := match t.state with
    | .shiftDr => t.dr.take 1
    | .shiftIr => t.irShift.take 1
    | _ => []
  { s.modTap (fun t => t.clock s.pkg.coldHeld tms tdi pins) with out := { Out.reset with data := tdo.map (fun b => BitVec.ofNat 8 (flag b)) } }

end Sys2Proof.Machine
end

