-- ==== Sys2Proof/Machine/Dispatch.lean ====
section
/-! DEFINITION. Dispatch: one arm for every constructor of Instr, each one call of its meaning. -/

namespace Sys2Proof.Machine

/-- The meaning of an instruction or event. -/
def exec (i : Instr) (s : State) : Host.Outcome State Fault Refusal :=
  match i with
  | .braBr b => Sys2Proof.Machine.execBraBr b s
  | .braExt x => Sys2Proof.Machine.execBraExt x s
  | .brp x => Sys2Proof.Machine.execBrp x s
  | .brx x => Sys2Proof.Machine.execBrx x s
  | .joinAlu b => Sys2Proof.Machine.execJoinAlu b s
  | .joinExt x => Sys2Proof.Machine.execJoinExt x s
  | .callBr b => Sys2Proof.Machine.execCallBr b s
  | .callExt x => Sys2Proof.Machine.execCallExt x s
  | .calliAlu b => Sys2Proof.Machine.execCalliAlu b s
  | .calliExt x => Sys2Proof.Machine.execCalliExt x s
  | .retAlu b => Sys2Proof.Machine.execRetAlu b s
  | .retExt x => Sys2Proof.Machine.execRetExt x s
  | .jmpiAlu b => Sys2Proof.Machine.execJmpiAlu b s
  | .jmpiExt x => Sys2Proof.Machine.execJmpiExt x s
  | .exitAlu b => Sys2Proof.Machine.execExitAlu b s
  | .exitExt x => Sys2Proof.Machine.execExitExt x s
  | .recast x => Sys2Proof.Machine.execRecast x s
  | .yieldAlu b => Sys2Proof.Machine.execYieldAlu b s
  | .yieldExt x => Sys2Proof.Machine.execYieldExt x s
  | .nopAlu b => Sys2Proof.Machine.execNopAlu b s
  | .nopExt x => Sys2Proof.Machine.execNopExt x s
  | .bkptImm b => Sys2Proof.Machine.execBkptImm b s
  | .bkptExt x => Sys2Proof.Machine.execBkptExt x s
  | .trapImm b => Sys2Proof.Machine.execTrapImm b s
  | .trapExt x => Sys2Proof.Machine.execTrapExt x s
  | .svcImm b => Sys2Proof.Machine.execSvcImm b s
  | .svcExt x => Sys2Proof.Machine.execSvcExt x s
  | .iaddAlu b => Sys2Proof.Machine.execIaddAlu b s
  | .iaddImm b => Sys2Proof.Machine.execIaddImm b s
  | .iaddExt x => Sys2Proof.Machine.execIaddExt x s
  | .isubAlu b => Sys2Proof.Machine.execIsubAlu b s
  | .isubImm b => Sys2Proof.Machine.execIsubImm b s
  | .isubExt x => Sys2Proof.Machine.execIsubExt x s
  | .iaddc x => Sys2Proof.Machine.execIaddc x s
  | .imulAlu b => Sys2Proof.Machine.execImulAlu b s
  | .imulImm b => Sys2Proof.Machine.execImulImm b s
  | .imulExt x => Sys2Proof.Machine.execImulExt x s
  | .imulhAlu b => Sys2Proof.Machine.execImulhAlu b s
  | .imulhImm b => Sys2Proof.Machine.execImulhImm b s
  | .imulhExt x => Sys2Proof.Machine.execImulhExt x s
  | .imad x => Sys2Proof.Machine.execImad x s
  | .imadw x => Sys2Proof.Machine.execImadw x s
  | .ishlAlu b => Sys2Proof.Machine.execIshlAlu b s
  | .ishlImm b => Sys2Proof.Machine.execIshlImm b s
  | .ishlExt x => Sys2Proof.Machine.execIshlExt x s
  | .ishrAlu b => Sys2Proof.Machine.execIshrAlu b s
  | .ishrImm b => Sys2Proof.Machine.execIshrImm b s
  | .ishrExt x => Sys2Proof.Machine.execIshrExt x s
  | .isarAlu b => Sys2Proof.Machine.execIsarAlu b s
  | .isarImm b => Sys2Proof.Machine.execIsarImm b s
  | .isarExt x => Sys2Proof.Machine.execIsarExt x s
  | .irotAlu b => Sys2Proof.Machine.execIrotAlu b s
  | .irotImm b => Sys2Proof.Machine.execIrotImm b s
  | .irotExt x => Sys2Proof.Machine.execIrotExt x s
  | .andAlu b => Sys2Proof.Machine.execAndAlu b s
  | .andImm b => Sys2Proof.Machine.execAndImm b s
  | .andExt x => Sys2Proof.Machine.execAndExt x s
  | .orAlu b => Sys2Proof.Machine.execOrAlu b s
  | .orImm b => Sys2Proof.Machine.execOrImm b s
  | .orExt x => Sys2Proof.Machine.execOrExt x s
  | .xorAlu b => Sys2Proof.Machine.execXorAlu b s
  | .xorImm b => Sys2Proof.Machine.execXorImm b s
  | .xorExt x => Sys2Proof.Machine.execXorExt x s
  | .andnAlu b => Sys2Proof.Machine.execAndnAlu b s
  | .andnImm b => Sys2Proof.Machine.execAndnImm b s
  | .andnExt x => Sys2Proof.Machine.execAndnExt x s
  | .lmix x => Sys2Proof.Machine.execLmix x s
  | .bfx x => Sys2Proof.Machine.execBfx x s
  | .bfi x => Sys2Proof.Machine.execBfi x s
  | .iminAlu b => Sys2Proof.Machine.execIminAlu b s
  | .iminImm b => Sys2Proof.Machine.execIminImm b s
  | .iminExt x => Sys2Proof.Machine.execIminExt x s
  | .imaxAlu b => Sys2Proof.Machine.execImaxAlu b s
  | .imaxImm b => Sys2Proof.Machine.execImaxImm b s
  | .imaxExt x => Sys2Proof.Machine.execImaxExt x s
  | .iabsAlu b => Sys2Proof.Machine.execIabsAlu b s
  | .iabsExt x => Sys2Proof.Machine.execIabsExt x s
  | .isel x => Sys2Proof.Machine.execIsel x s
  | .idot4 x => Sys2Proof.Machine.execIdot4 x s
  | .lea x => Sys2Proof.Machine.execLea x s
  | .iadd64Alu b => Sys2Proof.Machine.execIadd64Alu b s
  | .iadd64Imm b => Sys2Proof.Machine.execIadd64Imm b s
  | .iadd64Ext x => Sys2Proof.Machine.execIadd64Ext x s
  | .ldiAlu b => Sys2Proof.Machine.execLdiAlu b s
  | .ldiExt x => Sys2Proof.Machine.execLdiExt x s
  | .clz x => Sys2Proof.Machine.execClz x s
  | .ctz x => Sys2Proof.Machine.execCtz x s
  | .popc x => Sys2Proof.Machine.execPopc x s
  | .brev x => Sys2Proof.Machine.execBrev x s
  | .iset x => Sys2Proof.Machine.execIset x s
  | .pset x => Sys2Proof.Machine.execPset x s
  | .pmov x => Sys2Proof.Machine.execPmov x s
  | .pcnt x => Sys2Proof.Machine.execPcnt x s
  | .vtos x => Sys2Proof.Machine.execVtos x s
  | .stov x => Sys2Proof.Machine.execStov x s
  | .elect x => Sys2Proof.Machine.execElect x s
  | .faddAlu b => Sys2Proof.Machine.execFaddAlu b s
  | .faddImm b => Sys2Proof.Machine.execFaddImm b s
  | .faddExt x => Sys2Proof.Machine.execFaddExt x s
  | .fsubAlu b => Sys2Proof.Machine.execFsubAlu b s
  | .fsubImm b => Sys2Proof.Machine.execFsubImm b s
  | .fsubExt x => Sys2Proof.Machine.execFsubExt x s
  | .fmulAlu b => Sys2Proof.Machine.execFmulAlu b s
  | .fmulImm b => Sys2Proof.Machine.execFmulImm b s
  | .fmulExt x => Sys2Proof.Machine.execFmulExt x s
  | .ffma x => Sys2Proof.Machine.execFfma x s
  | .fminAlu b => Sys2Proof.Machine.execFminAlu b s
  | .fminImm b => Sys2Proof.Machine.execFminImm b s
  | .fminExt x => Sys2Proof.Machine.execFminExt x s
  | .fmaxAlu b => Sys2Proof.Machine.execFmaxAlu b s
  | .fmaxImm b => Sys2Proof.Machine.execFmaxImm b s
  | .fmaxExt x => Sys2Proof.Machine.execFmaxExt x s
  | .fset x => Sys2Proof.Machine.execFset x s
  | .fclass x => Sys2Proof.Machine.execFclass x s
  | .frcp x => Sys2Proof.Machine.execFrcp x s
  | .frsq x => Sys2Proof.Machine.execFrsq x s
  | .fsqrt x => Sys2Proof.Machine.execFsqrt x s
  | .fexp2 x => Sys2Proof.Machine.execFexp2 x s
  | .flog2 x => Sys2Proof.Machine.execFlog2 x s
  | .fsin x => Sys2Proof.Machine.execFsin x s
  | .fcos x => Sys2Proof.Machine.execFcos x s
  | .ftanh x => Sys2Proof.Machine.execFtanh x s
  | .daddAlu b => Sys2Proof.Machine.execDaddAlu b s
  | .daddExt x => Sys2Proof.Machine.execDaddExt x s
  | .dmulAlu b => Sys2Proof.Machine.execDmulAlu b s
  | .dmulExt x => Sys2Proof.Machine.execDmulExt x s
  | .dfma x => Sys2Proof.Machine.execDfma x s
  | .pkaddAlu b => Sys2Proof.Machine.execPkaddAlu b s
  | .pkaddExt x => Sys2Proof.Machine.execPkaddExt x s
  | .pkmulAlu b => Sys2Proof.Machine.execPkmulAlu b s
  | .pkmulExt x => Sys2Proof.Machine.execPkmulExt x s
  | .pkfma x => Sys2Proof.Machine.execPkfma x s
  | .cvt x => Sys2Proof.Machine.execCvt x s
  | .cvtq x => Sys2Proof.Machine.execCvtq x s
  | .bqdot x => Sys2Proof.Machine.execBqdot x s
  | .bqscl x => Sys2Proof.Machine.execBqscl x s
  | .qswz x => Sys2Proof.Machine.execQswz x s
  | .qbc x => Sys2Proof.Machine.execQbc x s
  | .qdx x => Sys2Proof.Machine.execQdx x s
  | .qdy x => Sys2Proof.Machine.execQdy x s
  | .lxch x => Sys2Proof.Machine.execLxch x s
  | .qrm x => Sys2Proof.Machine.execQrm x s
  | .peer x => Sys2Proof.Machine.execPeer x s
  | .wfold x => Sys2Proof.Machine.execWfold x s
  | .prefixFold x => Sys2Proof.Machine.execPrefix x s
  | .isect x => Sys2Proof.Machine.execIsect x s
  | .mma2 x => Sys2Proof.Machine.execMma2 x s
  | .mma3 x => Sys2Proof.Machine.execMma3 x s
  | .mma4 x => Sys2Proof.Machine.execMma4 x s
  | .mma5 x => Sys2Proof.Machine.execMma5 x s
  | .mma6 x => Sys2Proof.Machine.execMma6 x s
  | .mma7 x => Sys2Proof.Machine.execMma7 x s
  | .mma8 x => Sys2Proof.Machine.execMma8 x s
  | .mmaw x => Sys2Proof.Machine.execMmaw x s
  | .wbld x => Sys2Proof.Machine.execWbld x s
  | .wbinv x => Sys2Proof.Machine.execWbinv x s
  | .aclr x => Sys2Proof.Machine.execAclr x s
  | .ard x => Sys2Proof.Machine.execArd x s
  | .awr x => Sys2Proof.Machine.execAwr x s
  | .scan x => Sys2Proof.Machine.execScan x s
  | .scanst x => Sys2Proof.Machine.execScanst x s
  | .mfs x => Sys2Proof.Machine.execMfs x s
  | .mts x => Sys2Proof.Machine.execMts x s
  | .sscmdSpill x => Sys2Proof.Machine.execSscmdSpill x s
  | .sscmdFill x => Sys2Proof.Machine.execSscmdFill x s
  | .sscmdPop x => Sys2Proof.Machine.execSscmdPop x s
  | .sscmdPush x => Sys2Proof.Machine.execSscmdPush x s
  | .eret x => Sys2Proof.Machine.execEret x s
  | .halt x => Sys2Proof.Machine.execHalt x s
  | .clrerr x => Sys2Proof.Machine.execClrerr x s
  | .tlbflush x => Sys2Proof.Machine.execTlbflush x s
  | .tlbsync x => Sys2Proof.Machine.execTlbsync x s
  | .asidret x => Sys2Proof.Machine.execAsidret x s
  | .sgwr x => Sys2Proof.Machine.execSgwr x s
  | .ttrd x => Sys2Proof.Machine.execTtrd x s
  | .bwset x => Sys2Proof.Machine.execBwset x s
  | .ldsMem b => Sys2Proof.Machine.execLdsMem b s
  | .ldsExt x => Sys2Proof.Machine.execLdsExt x s
  | .stsMem b => Sys2Proof.Machine.execStsMem b s
  | .stsExt x => Sys2Proof.Machine.execStsExt x s
  | .ldsfMem b => Sys2Proof.Machine.execLdsfMem b s
  | .ldsfExt x => Sys2Proof.Machine.execLdsfExt x s
  | .stseMem b => Sys2Proof.Machine.execStseMem b s
  | .stseExt x => Sys2Proof.Machine.execStseExt x s
  | .ldsp x => Sys2Proof.Machine.execLdsp x s
  | .tags x => Sys2Proof.Machine.execTags x s
  | .tagc x => Sys2Proof.Machine.execTagc x s
  | .ats x => Sys2Proof.Machine.execAts x s
  | .atsn x => Sys2Proof.Machine.execAtsn x s
  | .talloc x => Sys2Proof.Machine.execTalloc x s
  | .tfree x => Sys2Proof.Machine.execTfree x s
  | .tld x => Sys2Proof.Machine.execTld x s
  | .tst x => Sys2Proof.Machine.execTst x s
  | .fence x => Sys2Proof.Machine.execFence x s
  | .icinv x => Sys2Proof.Machine.execIcinv x s
  | .cpost x => Sys2Proof.Machine.execCpost x s
  | .red x => Sys2Proof.Machine.execRed x s
  | .amo x => Sys2Proof.Machine.execAmo x s
  | .redflush x => Sys2Proof.Machine.execRedflush x s
  | .cfence x => Sys2Proof.Machine.execCfence x s
  | .cpstat x => Sys2Proof.Machine.execCpstat x s
  | .coll x => Sys2Proof.Machine.execColl x s
  | .cgrp x => Sys2Proof.Machine.execCgrp x s
  | .fxwin x => Sys2Proof.Machine.execFxwin x s
  | .tskpost x => Sys2Proof.Machine.execTskpost x s
  | .launch x => Sys2Proof.Machine.execLaunch x s
  | .itemput x => Sys2Proof.Machine.execItemput x s
  | .waitc x => Sys2Proof.Machine.execWaitc x s
  | .tlwait x => Sys2Proof.Machine.execTlwait x s
  | .tlrd x => Sys2Proof.Machine.execTlrd x s
  | .balloc x => Sys2Proof.Machine.execBalloc x s
  | .bfree x => Sys2Proof.Machine.execBfree x s
  | .barv x => Sys2Proof.Machine.execBarv x s
  | .barvw x => Sys2Proof.Machine.execBarvw x s
  | .bwait x => Sys2Proof.Machine.execBwait x s
  | .ecrd x => Sys2Proof.Machine.execEcrd x s
  | .ecsel x => Sys2Proof.Machine.execEcsel x s
  | .gPost rd rs1 => Sys2Proof.Machine.execGPost rd rs1 s
  | .gTlwait rd rs1 rs2 => Sys2Proof.Machine.execGTlwait rd rs1 rs2 s
  | .gTlrd rd rs1 => Sys2Proof.Machine.execGTlrd rd rs1 s
  | .gLdf rd rs1 => Sys2Proof.Machine.execGLdf rd rs1 s
  | .gSte rs1 rs2 => Sys2Proof.Machine.execGSte rs1 rs2 s
  | .gItem rd rs1 => Sys2Proof.Machine.execGItem rd rs1 s
  | .gItemClose rd rs1 => Sys2Proof.Machine.execGItemClose rd rs1 s
  | .gTask rd rs1 rs2 => Sys2Proof.Machine.execGTask rd rs1 rs2 s
  | .gBarv rd rs1 => Sys2Proof.Machine.execGBarv rd rs1 s
  | .gEvt rs1 => Sys2Proof.Machine.execGEvt rs1 s
  | .gEvtEnd rs1 => Sys2Proof.Machine.execGEvtEnd rs1 s
  | .gEvtFail rs1 => Sys2Proof.Machine.execGEvtFail rs1 s
  | .gripStandardInstruction r short => Sys2Proof.Machine.execGripStandardInstruction r short s
  | .trapEntry core slot => Sys2Proof.Machine.execTrapEntry core slot s
  | .tagwait core who => Sys2Proof.Machine.execTagwait core who s
  | .machine m => Sys2Proof.Machine.execMachine m s
  | .breakpointHit core sched n => Sys2Proof.Machine.execBreakpointHit core sched n s
  | .dbgctlResume core value => Sys2Proof.Machine.execDbgctlResume core value s
  | .schedulerSelect core sched => Sys2Proof.Machine.execSchedulerSelect core sched s
  | .storeQueuePerform core slot => Sys2Proof.Machine.execStoreQueuePerform core slot s
  | .gripStorePerform core grip => Sys2Proof.Machine.execGripStorePerform core grip s
  | .loadLand core slot idx which => Sys2Proof.Machine.execLoadLand core slot idx which s
  | .tileAccessLand core slot idx => Sys2Proof.Machine.execTileAccessLand core slot idx s
  | .tagWaitSatisfied core who => Sys2Proof.Machine.execTagWaitSatisfied core who s
  | .waitcReturn core slot => Sys2Proof.Machine.execWaitcReturn core slot s
  | .tlwaitReturn core slot => Sys2Proof.Machine.execTlwaitReturn core slot s
  | .bwaitReturn core slot => Sys2Proof.Machine.execBwaitReturn core slot s
  | .recastWake core slot => Sys2Proof.Machine.execRecastWake core slot s
  | .cpostAccept core slot => Sys2Proof.Machine.execCpostAccept core slot s
  | .mmaAccept core slot => Sys2Proof.Machine.execMmaAccept core slot s
  | .fenceDrained core slot => Sys2Proof.Machine.execFenceDrained core slot s
  | .icinvDone core slot => Sys2Proof.Machine.execIcinvDone core slot s
  | .sgwrDone core slot => Sys2Proof.Machine.execSgwrDone core slot s
  | .tlbsyncDone core slot => Sys2Proof.Machine.execTlbsyncDone core slot s
  | .atomicElementPerform who => Sys2Proof.Machine.execAtomicElementPerform who s
  | .writeThroughAck die asid line => Sys2Proof.Machine.execWriteThroughAck die asid line s
  | .scrubPass u found => Sys2Proof.Machine.execScrubPass u found s
  | .copyDispatch core engine ctx => Sys2Proof.Machine.execCopyDispatch core engine ctx s
  | .copyFaultSuspend core engine ctx => Sys2Proof.Machine.execCopyFaultSuspend core engine ctx s
  | .faultBatchPost core engine ctx => Sys2Proof.Machine.execFaultBatchPost core engine ctx s
  | .copyComplete core engine ctx => Sys2Proof.Machine.execCopyComplete core engine ctx s
  | .matrixUnitStart core => Sys2Proof.Machine.execMatrixUnitStart core s
  | .matrixCommandComplete core => Sys2Proof.Machine.execMatrixCommandComplete core s
  | .gafferWindow core => Sys2Proof.Machine.execGafferWindow core s
  | .wbldRun core => Sys2Proof.Machine.execWbldRun core s
  | .wbldComplete core => Sys2Proof.Machine.execWbldComplete core s
  | .wbinvEffect core => Sys2Proof.Machine.execWbinvEffect core s
  | .scanStart core => Sys2Proof.Machine.execScanStart core s
  | .scanComplete core => Sys2Proof.Machine.execScanComplete core s
  | .scanstComplete core => Sys2Proof.Machine.execScanstComplete core s
  | .tokenRefill port => Sys2Proof.Machine.execTokenRefill port s
  | .portSend port => Sys2Proof.Machine.execPortSend port s
  | .priorityAging idx => Sys2Proof.Machine.execPriorityAging idx s
  | .timeSliceEnd core gid => Sys2Proof.Machine.execTimeSliceEnd core gid s
  | .clusterPlacement idx => Sys2Proof.Machine.execClusterPlacement idx s
  | .preemption core gid => Sys2Proof.Machine.execPreemption core gid s
  | .groupHaltRelease core gid => Sys2Proof.Machine.execGroupHaltRelease core gid s
  | .restorePlacement idx core => Sys2Proof.Machine.execRestorePlacement idx core s
  | .groupRetirement core gid => Sys2Proof.Machine.execGroupRetirement core gid s
  | .launchEntryTake asid queue => Sys2Proof.Machine.execLaunchEntryTake asid queue s
  | .gridEnd gridId => Sys2Proof.Machine.execGridEnd gridId s
  | .taskArrival core idx => Sys2Proof.Machine.execTaskArrival core idx s
  | .taskPlacement core entry => Sys2Proof.Machine.execTaskPlacement core entry s
  | .collectiveMatched key => Sys2Proof.Machine.execCollectiveMatched key s
  | .collMemberComplete die ctx => Sys2Proof.Machine.execCollMemberComplete die ctx s
  | .gatewayCombine key src dst => Sys2Proof.Machine.execGatewayCombine key src dst s
  | .multicastPacketArrival src dst => Sys2Proof.Machine.execMulticastPacketArrival src dst s
  | .writePacket p => Sys2Proof.Machine.execWritePacket p s
  | .readPacket p => Sys2Proof.Machine.execReadPacket p s
  | .atomicPacket p => Sys2Proof.Machine.execAtomicPacket p s
  | .flagPacket p => Sys2Proof.Machine.execFlagPacket p s
  | .collPacket p => Sys2Proof.Machine.execCollPacket p s
  | .ackReceived a => Sys2Proof.Machine.execAckReceived a s
  | .stallHintExpiry dev tc => Sys2Proof.Machine.execStallHintExpiry dev tc s
  | .linkDown port => Sys2Proof.Machine.execLinkDown port s
  | .ackTimeout dev tc => Sys2Proof.Machine.execAckTimeout dev tc s
  | .routeRetry dev => Sys2Proof.Machine.execRouteRetry dev s
  | .fabricTimeout core engine ctx => Sys2Proof.Machine.execFabricTimeout core engine ctx s
  | .asidFreed asid => Sys2Proof.Machine.execAsidFreed asid s
  | .coldReset => Sys2Proof.Machine.execColdReset s
  | .warmReset => Sys2Proof.Machine.execWarmReset s
  | .resetctlWarm => Sys2Proof.Machine.execResetctlWarm s
  | .bootctlStart => Sys2Proof.Machine.execBootctlStart s
  | .bootbufWrite value => Sys2Proof.Machine.execBootbufWrite value s
  | .bootctlGo outcome => Sys2Proof.Machine.execBootctlGo outcome s
  | .linkStateChange link dest => Sys2Proof.Machine.execLinkStateChange link dest s
  | .sidebandRegisterWrite link addr value => Sys2Proof.Machine.execSidebandRegisterWrite link addr value s
  | .errstatRead core => Sys2Proof.Machine.execErrstatRead core s
  | .lqd0Write asid queue value => Sys2Proof.Machine.execLqd0Write asid queue value s
  | .lqd1TailWrite asid queue value => Sys2Proof.Machine.execLqd1TailWrite asid queue value s
  | .diememWrite die value => Sys2Proof.Machine.execDiememWrite die value s
  | .bwtabWrite die value => Sys2Proof.Machine.execBwtabWrite die value s
  | .fqctlHeadWrite die value => Sys2Proof.Machine.execFqctlHeadWrite die value s
  | .eqctlHeadWrite die value => Sys2Proof.Machine.execEqctlHeadWrite die value s
  | .islopWrite island value => Sys2Proof.Machine.execIslopWrite island value s
  | .asidBind link => Sys2Proof.Machine.execAsidBind link s
  | .asidReroot link => Sys2Proof.Machine.execAsidReroot link s
  | .tlbFlush link => Sys2Proof.Machine.execTlbFlush link s
  | .asidRetire link => Sys2Proof.Machine.execAsidRetire link s
  | .faultVerdict link => Sys2Proof.Machine.execFaultVerdict link s
  | .groupRelease link => Sys2Proof.Machine.execGroupRelease link s
  | .restore link => Sys2Proof.Machine.execRestore link s
  | .preempt link => Sys2Proof.Machine.execPreempt link s
  | .streamReset link => Sys2Proof.Machine.execStreamReset link s
  | .windowSync link => Sys2Proof.Machine.execWindowSync link s
  | .scopeWrite link => Sys2Proof.Machine.execScopeWrite link s
  | .taskName link => Sys2Proof.Machine.execTaskName link s
  | .attest link secret => Sys2Proof.Machine.execAttest link secret s
  | .coreRelease link => Sys2Proof.Machine.execCoreRelease link s
  | .sidebandCommandFinish link => Sys2Proof.Machine.execSidebandCommandFinish link s
  | .thermalThreshold sensor temp => Sys2Proof.Machine.execThermalThreshold sensor temp s
  | .thermalUndo sensor temp => Sys2Proof.Machine.execThermalUndo sensor temp s
  | .jtagExtest pins => Sys2Proof.Machine.execJtagExtest pins s
  | .jtagIdcode => Sys2Proof.Machine.execJtagIdcode s
  | .jtagSamplePreload pins => Sys2Proof.Machine.execJtagSamplePreload pins s
  | .jtagBypass code => Sys2Proof.Machine.execJtagBypass code s
  | .companionDeviceMemoryAccess a => Sys2Proof.Machine.execCompanionDeviceMemoryAccess a s
  | .linkAbsenceTimeout core engine ctx => Sys2Proof.Machine.execLinkAbsenceTimeout core engine ctx s

end Sys2Proof.Machine
end

