-- ==== Sys2Proof/Machine/Round.lean ====
section
/-! DEFINITION. Time passing, and the natural round: the turns that the part takes by itself, one of each thing that could happen next
(logs 3 and 8). -/

namespace Sys2Proof.Machine

/-! ## Time -/

/-- Whether every scheduler that holds a warp of a group is frozen (02 R49). -/
def Core.heldStill (k : Core) (gid : Nat) : Bool :=
  let qs := (k.slotsOf gid).map schedOf
  !qs.isEmpty && qs.all (fun q => (k.sched q).frozen)

/-- The event counters of a core at the end of a cycle (17 Table 4). -/
def Core.rollCounters (k : Core) : Tab EvCtr :=
  let starved := (List.range 8).filter (fun c => k.port.waiting.any (fun r => r.1 == c) && k.port.buckets.getD c 0 == 0)
  Tab.mapVal k.evctrs (fun _ x => (starved.foldl (fun x c => x.bump (0x18 + c) 1) (x.bump 0x01 1)).roll)

/-- What a cycle leaves behind that holds within one cycle only. -/
def Core.newCycle (k : Core) : Core :=
  { k with
    order := 0, tskRank := 0, tagged := [], port := { k.port with used := false }
    groups := Tab.mapVal k.groups (fun _ g => { g with castNew := 0 }) }

/-- One cycle of a core's clock (09 R222; 02 R49; 08 R207; 14 R353; 17 R425), its port refilled under its die's weights if it has not been. -/
def Core.tick (w : List Nat) (k0 : Core) : Core :=
  let k := { k0 with port := k0.port.refillAt w k0.cycle.toNat }.unitTick
  ({ k with
    cycle := k.cycle + 1
    evctrs := k.rollCounters
    grips := Tab.mapVal k.grips (fun _ x => if x.gid.isSome then { x with mcycle := x.mcycle + 1 } else x)
    groups := Tab.mapVal k.groups (fun gid g => if g.tslice = 0 ∨ k.heldStill gid then g else { g with slice := g.slice + 1 }) } : Core).newCycle.newWindow

/-- Whether a gateway's multicast buffer is full while a packet waits for it (15 R370). -/
def Die.backpressure (d : Die) : Bool :=
  d.mcast.any (fun m => !m.buffered && decide (64 ≤ (d.mcast.filter (fun n => n.src == m.src && n.buffered)).length))

/-- How far an island's clock gets in an uncore cycle, in sixty-sixths of its cycle: 3.3, 2.6 or 1.65 GHz against 3.3 GHz (18 R431, R432). -/
def Island.rate (x : Island) : Nat := if x.cur = 0 then 66 else if x.cur = 1 then 52 else 33

/-- Whether an island's clock begins a new cycle at the end of an uncore cycle. -/
def Island.ticks (x : Island) : Bool := decide (66 ≤ x.phase + x.rate)

/-- The island of a core (01 R12). -/
def islandOf (c : Nat) : Nat := c / 4

/-- One uncore cycle (18 R431, R432): each core's clock runs at its island's point. -/
def State.tick (s : State) : State :=
  { s with
    ucycle := s.ucycle + 1
    cores := Tab.mapVal s.cores (fun c k =>
      let k1 := { k with tasks := k.tasks.map (fun t => { t with waited := t.waited + 1 }) }
      if (s.island (islandOf c)).ticks then k1.tick (s.die (dieOf c)).weights else k1)
    dies := Tab.mapVal s.dies (fun _ d => { d with
      collPort := { d.collPort.refillAt d.weights s.ucycle.toNat with used := false }
      evctrs := Tab.mapVal d.evctrs (fun _ x => ((x.bump 0x01 1).bump 0x4C (if d.backpressure then 1 else 0)).roll) })
    pkg := { s.pkg with
      islands := Tab.mapVal s.pkg.islands (fun _ x => { x with phase := (x.phase + x.rate) % 66 })
      pending := s.pkg.pending.map (fun p => { p with waited := p.waited + 1 }) } }

/-- `n` uncore cycles. -/
def State.ticks : Nat → State → State
  | 0, s => s
  | n + 1, s => State.ticks n s.tick

/-- Time passes: `dt` uncore cycles. A frozen package keeps its state (09 R243). -/
def State.pass (s : State) (dt : Nat) : State :=
  if dt = 0 then s else { (if s.pkg.frozen then s else State.ticks dt s) with order := 0 }

/-! ## What a core could do next -/

/-- The event that could end what a warp waits in. -/
def wakeOf (c slot : Nat) (t : Waiting) : List Own :=
  match t.instr with
  | .waitc _ => [.waitcReturn c slot]
  | .tlwait _ => [.tlwaitReturn c slot]
  | .bwait _ => [.bwaitReturn c slot]
  | .recast _ => [.recastWake c slot]
  | .cpost _ => [.cpostAccept c slot]
  | .fence _ => [.fenceDrained c slot]
  | .icinv _ => [.icinvDone c slot]
  | .sgwr _ => [.sgwrDone c slot]
  | .tlbsync _ => [.tlbsyncDone c slot]
  | _ => if t.tag.isSome then [.tagWaitSatisfied c (.warp slot), .tagwait c (.warp slot)] else [.mmaAccept c slot]

/-- What could happen to a warp. -/
def warpTurns (c slot : Nat) (w : Warp) : List Act :=
  (if w.waiting.isNone then [Act.fetch c slot] else []) ++
  ((if w.pend.isSome then [Own.trapEntry c slot] else []) ++
   (if w.storeQ.isEmpty then [] else [Own.storeQueuePerform c slot]) ++
   (List.range w.loads.length).map (fun i => Own.loadLand c slot i (BitVec.allOnes 32)) ++
   (List.range w.tiles.length).map (fun i => Own.tileAccessLand c slot i) ++
   (match w.waiting with | some t => wakeOf c slot t | none => [])).map Act.own

/-- The numbers of a unit's items, of its source or of what its writing is made of; one number stands for a unit that has none. -/
def Job.itemNums (j : Job) (s : State) (wr : Bool) (u : Nat) : List Nat :=
  match (s.placeOf j u).2 with
  | .error _ => [0]
  | .ok pl => List.range (max 1 (if wr then (j.targets pl).length else (j.srcItems pl).length))

/-- The reads that a command could do next: the items of the first unit that is not cleared, at most 512 units ahead of those written; or a
READ from the first unit that none asks for. -/
def Job.readTurns (j : Job) (s : State) : List Act :=
  let k := j.ctx s
  let u := j.cleared s
  if j.f.ss = 3 then [.copyRead j.c j.e j.x k.sent 0]
  else if u < k.pre + 512 then (j.itemNums s false u).map (fun i => .copyRead j.c j.e j.x u i) else []

/-- The writes that a command could do next: the items of the first units that have been read, and the old values of its atomic elements; or
the packet of the first unit that has not been sent, and the FLAG. -/
def Job.writeTurns (j : Job) (s : State) : List Act :=
  let k := j.ctx s
  (if j.f.ds = 3 then [.copyWrite j.c j.e j.x k.sent 0, .copyWrite j.c j.e j.x j.f.units 0]
   else if j.f.atomic then (k.vals.take 32).map (fun v => .own (.atomicElementPerform (.element j.c j.e j.x v.1)))
   else (k.vals.take 32).flatMap (fun v => (j.itemNums s true v.1).map (fun i => .copyWrite j.c j.e j.x v.1 i))) ++
  k.olds.map (fun v => .copyWrite j.c j.e j.x v.1 0)

/-- What could happen in an engine context. -/
def ctxTurns (s : State) (c e x : Nat) (k : EngCtx) : List Act :=
  match k.cmd with
  | none => if (s.core c).copyQ.isEmpty then [] else [.own (.copyDispatch c e x)]
  | some _ =>
    let now := [Act.own (.copyFaultSuspend c e x), .rehearse c e x, .own (.faultBatchPost c e x)]
    let ends := [Act.own (.linkAbsenceTimeout c e x), .own (.fabricTimeout c e x), .own (.copyComplete c e x)]
    match s.job c e x with
    | some j => j.readTurns s ++ now ++ j.writeTurns s ++ ends
    | none => now ++ [.own (.atomicElementPerform (.element c e x 0))] ++ ends

/-- What could happen in a core's queues and units. -/
def unitTurns (c : Nat) (k : Core) : List Act :=
  [.own (.gafferWindow c), .own (.tokenRefill (.core c)), .own (.portSend (.core c))] ++
  (if k.matQ.isEmpty ∧ k.matBack.isEmpty ∧ k.scanQ.isEmpty then [] else
    [.own (.matrixUnitStart c), .own (.matrixCommandComplete c), .own (.wbldRun c), .own (.wbldComplete c), .own (.wbinvEffect c),
     .own (.scanStart c), .scanStep c, .scanWrite c none, .scanMove c none, .own (.scanComplete c), .own (.scanstComplete c)]) ++
  (List.range k.contribs.length).map (fun i => .own (.atomicElementPerform (.contribution c i)))

/-- What could happen on scheduler `q` of a core: what its warps wait for, its selection, and its issue. -/
def schedTurns (c q : Nat) (k : Core) : List Act :=
  if k.warps.isEmpty then []
  else (k.warps.filter (fun p => schedOf p.1 == q)).flatMap (fun p => warpTurns c p.1 p.2) ++ [.own (.schedulerSelect c q), .issue c q]

/-- What could happen to grip `g` of a core. -/
def gripTurns (c g : Nat) (k : Core) : List Act :=
  match Tab.get? k.grips g with
  | none => []
  | some x =>
    (if x.storeQ.isEmpty then [] else [.own (.gripStorePerform c g)]) ++
    (if x.wtag.isSome then [.own (.tagWaitSatisfied c (.grip g)), .own (.tagwait c (.grip g))] else []) ++ [.grip c g]

/-- What could happen to a core's groups and tasks. -/
def groupTurns (c : Nat) (k : Core) : List Act :=
  k.groups.flatMap (fun p => [.own (.preemption c p.1), .own (.timeSliceEnd c p.1), .own (.groupHaltRelease c p.1),
    .own (.groupRetirement c p.1)] ++ (if p.2.flushes.isEmpty then [] else [.flushEnd c p.1])) ++
  (k.tasks.filter Task.ready).map (fun t => .own (.taskPlacement c t.num))

/-! ## What the dies and the package could do next -/

/-- What could happen in a context of a collective engine: the next element of its source is read, or of its destination written. -/
def collTurns (own d : Nat) (p : Nat × CollCtx) : List Act :=
  let x := p.2
  let ahead := firstGap 0 (x.reads.map Prod.fst)
  let left := firstGap 0 x.wrote
  [.own (.collectiveMatched x.key)] ++
  (if x.reading ∧ ahead < x.srcCount own then [.collRead d p.1 ahead] else []) ++
  ([0, 1, 2, 3].filter (fun k => k != d)).map (fun k => Act.own (.gatewayCombine x.key d k)) ++
  (if x.phase = 3 ∧ left < x.dstCount then [.collWrite d p.1 left] else []) ++ [.own (.collMemberComplete d p.1)]

/-- What could happen on a die. -/
def dieTurns (own d : Nat) (k : Die) : List Act :=
  [.own (.tokenRefill (.coll d)), .own (.portSend (.coll d))] ++
  (k.guest.filter GuestLine.pinned).flatMap (fun h => [.throughHome d h.asid h.line, .own (.writeThroughAck d h.asid h.line)]) ++
  k.coll.flatMap (collTurns own d) ++
  k.mcast.flatMap (fun m => [.own (.multicastPacketArrival m.src m.dst)] ++ m.vas.map (fun v => .branch m.src m.dst v.1))

/-- What could happen to the launch unit, to fabric streams and to sideband commands. A grid with halted groups is not ended by
itself: they may be restored. -/
def packageTurns (s : State) : List Act :=
  let p := s.pkg
  let waits := fun (i : Nat) => match (p.pending[i]?).bind Pending.restore with
    | some r => (r.2.2.2.2.flatMap dieCores).map (fun c => Own.restorePlacement i c)
    | none => [Own.clusterPlacement i, Own.priorityAging i]
  let evs : List Own :=
    p.lqs.map (fun q => Own.launchEntryTake (q.1 / 8) (q.1 % 8)) ++
    (List.range p.pending.length).flatMap waits ++
    p.arriving.map (fun m => Own.taskArrival m.1 0) ++
    (p.grids.filter (fun g => g.2.halted == 0)).map (fun g => Own.gridEnd g.1) ++
    (p.asids.filter (fun a => a.2.state == 2)).map (fun a => Own.asidFreed a.1) ++
    p.streams.flatMap (fun x => [Own.stallHintExpiry (x.1 / 4) (x.1 % 4), Own.ackTimeout (x.1 / 4) (x.1 % 4)]) ++
    (p.routes.filter (fun r => r.2.pf && (r.2.sf || r.2.second == 0x1F))).map (fun r => Own.routeRetry r.1) ++
    (p.sb.filter (fun b => b.2.busy)).map (fun b => Own.sidebandCommandFinish b.1)
  evs.map Act.own ++ (p.sheets.filter (fun h => h.2.told)).map (fun h => .sheetEnd h.1) ++
  (p.targets.filter (fun t => !t.2.held.isEmpty)).map (fun t => .serve (t.1 / 4) (t.1 % 4)) ++
  p.compWait.map (fun w => .linkAck w.1) ++ (if p.booting.isSome then [.bootFinish] else [])

/-- The natural round: an uncore cycle passes, and everything that could happen next has its turn, the units of the cores in the order
that events of one cycle take (12 R303; 10 R261; 17 R426). -/
def naturalRound (s : State) : List Turn :=
  let each := fun (f : Nat → Core → List Act) => s.cores.flatMap (fun p => f p.1 p.2)
  { dt := 1, act := .own (.tokenRefill (.coll 0)) } ::
  ([0, 1, 2, 3].flatMap (fun q => each (fun c k => schedTurns c q k)) ++ [0, 1].flatMap (fun g => each (fun c k => gripTurns c g k)) ++
    [0, 1].flatMap (fun e => each (fun c k => (List.range 8).flatMap (fun x => ctxTurns s c e x (k.ctx e x)))) ++
    each unitTurns ++ each groupTurns ++ s.dies.flatMap (fun p => dieTurns s.pkg.devid.toNat p.1 p.2) ++ packageTurns s).map (fun a => { dt := 0, act := a })

end Sys2Proof.Machine
end

