-- ==== Sys2Proof/Machine/Turn.lean ====
section
/-! DEFINITION. One turn of the part: an instruction of a warp or of a grip, or an event (02 R32; 03 R70 to R72; 14 R351, R356;
logs 3, 8 and 9). -/

namespace Sys2Proof.Machine

/-! ## A warp's instruction -/

/-- Whether the warp of a scheduler has not moved: its instruction waits to issue again. -/
def stalled (s t : State) (c slot : Nat) : Bool :=
  match s.warp? c slot, t.warp? c slot with
  | some a, some b => a.pc == b.pc && a.runPos == b.runPos && a.handler == b.handler && b.waiting.isNone && ((t.core c).sched (schedOf slot)).midRun
  | _, _ => false

/-- A scheduler after it has issued: a single step freezes again (09 R241). -/
def Scheduler.issued (q : Scheduler) : Scheduler := { q with frozen := q.frozen || q.stepOne, stepOne := false }

/-- What `exec` answers, with no one acting afterwards, a scheduler's step taken and the results on their way noted. -/
def afterIssue (s : State) (c slot : Nat) (i : Option Instr) (o : Host.Outcome State Fault Refusal) : Host.Outcome State Fault Refusal :=
  match o with
  | .next t =>
    let t1 := { t with cur := .none }
    .next (if stalled s t c slot then t1
      else (match i with | some i => s.noteResults t1 c slot i | none => t1).modSched c (schedOf slot) Scheduler.issued)
  | o => o

/-- The warp in slot `slot`, in mid-run on its scheduler, fetches its next instruction, and issues it unless it waits in place (02 R32). -/
def issueNext (s : State) (c slot : Nat) (w : Warp) (g : Group) : Host.Outcome State Fault Refusal :=
  let r := fetchInstr s c g w.pc.toNat
  match r.2 with
  | .trap t => afterIssue s c slot none (.next (r.1.trapHere c slot t))
  | .instr i => if r.1.inPlace c w i then .next r.1 else afterIssue s c slot (some i) (exec i { r.1 with cur := .warp c slot })

/-- A scheduler's turn (02 R32): its current warp takes what comes before its next instruction (09 R227, R230, R236, R240), or issues
it. -/
def issueTurn (s : State) (c q : Nat) : Host.Outcome State Fault Refusal :=
  let k := (s.core c).sched q
  match k.cur with
  | none => .next s
  | some slot =>
    match s.warp? c slot with
    | none => .next s
    | some w =>
      match s.group? c w.gid with
      | none => .next s
      | some g =>
        if !k.midRun || !(s.mayRun c slot) || w.waiting.isSome then .next s
        else if w.pend.isSome then execTrapEntry c slot s
        else if w.preempt && !w.handler then execPreemption c w.gid s
        else
          match s.hitOf c q with
          | some n => execBreakpointHit c q n s
          | none => issueNext s c slot w g

/-! ## A grip's instruction -/

/-- The registers that a standard instruction names. -/
def rvRegs (r : Rv) : List Nat :=
  match r with
  | .lui rd _ => [rd.toNat]
  | .auipc rd _ => [rd.toNat]
  | .jal rd _ => [rd.toNat]
  | .jalr rd rs1 _ => [rd.toNat, rs1.toNat]
  | .branch _ rs1 rs2 _ => [rs1.toNat, rs2.toNat]
  | .load _ _ rd rs1 _ => [rd.toNat, rs1.toNat]
  | .store _ rs1 rs2 _ => [rs1.toNat, rs2.toNat]
  | .opImm _ _ rd rs1 _ => [rd.toNat, rs1.toNat]
  | .op _ _ rd rs1 rs2 => [rd.toNat, rs1.toNat, rs2.toNat]
  | .amo _ _ _ _ rd rs1 rs2 => [rd.toNat, rs1.toNat, rs2.toNat]
  | .fence _ _ => []
  | .csr _ immForm rd rs1 _ => if immForm then [rd.toNat] else [rd.toNat, rs1.toNat]
  | .ecall => []
  | .ebreak => []
  | .mret => []
  | .wfi => []
  | .illegal _ => []

/-- The registers that a grip's instruction names: it waits until queued atomics have given theirs (11 R272; log 18). -/
def gripRegs (i : Instr) : List Nat :=
  match i with
  | .gripStandardInstruction r _ => rvRegs r
  | .gPost rd rs1 => [rd.toNat, rs1.toNat]
  | .gTlwait rd rs1 rs2 => [rd.toNat, rs1.toNat, rs2.toNat]
  | .gTlrd rd rs1 => [rd.toNat, rs1.toNat]
  | .gLdf rd rs1 => [rd.toNat, rs1.toNat]
  | .gSte rs1 rs2 => [rs1.toNat, rs2.toNat]
  | .gItem rd rs1 => [rd.toNat, rs1.toNat]
  | .gItemClose rd rs1 => [rd.toNat, rs1.toNat]
  | .gTask rd rs1 rs2 => [rd.toNat, rs1.toNat, rs2.toNat]
  | .gBarv rd rs1 => [rd.toNat, rs1.toNat]
  | .gEvt rs1 => [rs1.toNat]
  | .gEvtEnd rs1 => [rs1.toNat]
  | .gEvtFail rs1 => [rs1.toNat]
  | _ => []

/-- A grip's turn (14 R351, R356, R357). -/
def gripTurn (s : State) (c g : Nat) : Host.Outcome State Fault Refusal :=
  let x := (s.core c).grip g
  if x.run ≠ 1 ∨ (x.wtag.isSome ∧ x.struck.isNone) ∨ s.pkg.frozen then .next s
  else
    match x.fetch with
    | .error .poison => .next (s.gripTakeStruck c g)
    | .error .fail => .next (((s.uncorrectable c 0x09).gripFail c g x.mcause.toNat x.mtval))
    | .error (.misaligned a) => .next (s.gripExcept c g 0 a)
    | .error (.fault a) => .next ((s.modGrip c g (fun x => { x with fetchFault := false })).gripExcept c g 1 a)
    | .ok i =>
      if (gripRegs i).any (fun r => r != 0 && x.awaits.contains r) then .next s
      else
        match exec i { s with cur := .grip c g } with
        | .next t => .next { t with cur := .none }
        | o => o

/-! ## Events -/

/-- The rows that a frozen package still takes: resets, boot, the management registers, and the TAP (09 R243, R246). -/
def whileFrozen (i : Instr) : Bool :=
  match i with
  | .coldReset => true
  | .warmReset => true
  | .resetctlWarm => true
  | .bootctlStart => true
  | .bootbufWrite _ => true
  | .bootctlGo _ => true
  | .linkStateChange _ _ => true
  | .sidebandRegisterWrite _ _ _ => true
  | .errstatRead _ => true
  | .thermalThreshold _ _ => true
  | .thermalUndo _ _ => true
  | .jtagExtest _ => true
  | .jtagIdcode => true
  | .jtagSamplePreload _ => true
  | .jtagBypass _ => true
  | _ => false

/-- Whether a row is the cold reset. -/
def isColdReset (i : Instr) : Bool := match i with | .coldReset => true | _ => false

/-- Whether a row may happen in a state: after a thermal trip only a cold reset (18 R441). -/
def mayHappen (s : State) (i : Instr) : Bool :=
  if s.pkg.tripped then isColdReset i else !s.pkg.frozen || whileFrozen i

/-- An event of the opcode table, whose operands name units of the part. -/
def eventTurn (s : State) (i : Instr) : Host.Outcome State Fault Refusal :=
  if !i.wf then .fault .noSuchUnit
  else if mayHappen s i then exec i { s with cur := .none } else .next s

/-- Whether a grid has halted groups: by itself the part does not end it, since they may still be restored (09 R237). -/
def State.gridHalted (s : State) (id : Nat) : Bool := match Tab.get? s.pkg.grids id with | some g => g.halted != 0 | none => false

/-- What an event of the part's own does: the meaning of its row. -/
def runOwn (e : Own) (s : State) : Host.Outcome State Fault Refusal :=
  match e with
  | .trapEntry core slot => execTrapEntry core slot s
  | .storeQueuePerform core slot => execStoreQueuePerform core slot s
  | .loadLand core slot idx which => execLoadLand core slot idx which s
  | .tileAccessLand core slot idx => execTileAccessLand core slot idx s
  | .waitcReturn core slot => execWaitcReturn core slot s
  | .tlwaitReturn core slot => execTlwaitReturn core slot s
  | .bwaitReturn core slot => execBwaitReturn core slot s
  | .recastWake core slot => execRecastWake core slot s
  | .cpostAccept core slot => execCpostAccept core slot s
  | .mmaAccept core slot => execMmaAccept core slot s
  | .fenceDrained core slot => execFenceDrained core slot s
  | .icinvDone core slot => execIcinvDone core slot s
  | .sgwrDone core slot => execSgwrDone core slot s
  | .tlbsyncDone core slot => execTlbsyncDone core slot s
  | .tagWaitSatisfied core who => execTagWaitSatisfied core who s
  | .tagwait core who => execTagwait core who s
  | .gripStorePerform core grip => execGripStorePerform core grip s
  | .schedulerSelect core sched => execSchedulerSelect core sched s
  | .copyDispatch core engine ctx => execCopyDispatch core engine ctx s
  | .copyFaultSuspend core engine ctx => execCopyFaultSuspend core engine ctx s
  | .faultBatchPost core engine ctx => execFaultBatchPost core engine ctx s
  | .copyComplete core engine ctx => execCopyComplete core engine ctx s
  | .linkAbsenceTimeout core engine ctx => execLinkAbsenceTimeout core engine ctx s
  | .fabricTimeout core engine ctx => execFabricTimeout core engine ctx s
  | .atomicElementPerform who => execAtomicElementPerform who s
  | .gafferWindow core => execGafferWindow core s
  | .tokenRefill port => execTokenRefill port s
  | .portSend port => execPortSend port s
  | .matrixUnitStart core => execMatrixUnitStart core s
  | .matrixCommandComplete core => execMatrixCommandComplete core s
  | .wbldRun core => execWbldRun core s
  | .wbldComplete core => execWbldComplete core s
  | .wbinvEffect core => execWbinvEffect core s
  | .scanStart core => execScanStart core s
  | .scanComplete core => execScanComplete core s
  | .scanstComplete core => execScanstComplete core s
  | .preemption core gid => execPreemption core gid s
  | .timeSliceEnd core gid => execTimeSliceEnd core gid s
  | .groupHaltRelease core gid => execGroupHaltRelease core gid s
  | .groupRetirement core gid => execGroupRetirement core gid s
  | .taskArrival core idx => execTaskArrival core idx s
  | .taskPlacement core entry => execTaskPlacement core entry s
  | .writeThroughAck die asid line => execWriteThroughAck die asid line s
  | .collectiveMatched key => execCollectiveMatched key s
  | .gatewayCombine key src dst => execGatewayCombine key src dst s
  | .collMemberComplete die ctx => execCollMemberComplete die ctx s
  | .multicastPacketArrival src dst => execMulticastPacketArrival src dst s
  | .clusterPlacement idx => execClusterPlacement idx s
  | .priorityAging idx => execPriorityAging idx s
  | .restorePlacement idx core => execRestorePlacement idx core s
  | .launchEntryTake asid queue => execLaunchEntryTake asid queue s
  | .gridEnd gridId => if s.gridHalted gridId then .next s else execGridEnd gridId s
  | .asidFreed asid => execAsidFreed asid s
  | .stallHintExpiry dev tc => execStallHintExpiry dev tc s
  | .ackTimeout dev tc => execAckTimeout dev tc s
  | .routeRetry dev => execRouteRetry dev s
  | .sidebandCommandFinish link => execSidebandCommandFinish link s

/-- A home line evicted ahead of the fill that needs its way: the one used least recently of a set whose ways are all held, written
back if it is dirty (10 R253). -/
def evictHome (die asid line : Nat) (s : State) : State :=
  match (s.die die).homeVictim asid line with
  | none => s
  | some h => (s.writeBack h).modDie die (fun d => { d with home := d.home.filter (fun x => !(x.asid == h.asid && x.line == h.line)) })

/-- An unpinned guest line dropped ahead of the fill that needs its way (10 R253; 11 R276). -/
def evictGuest (die asid line : Nat) (s : State) : State :=
  match (s.die die).guestRoom asid line with
  | none => s
  | some d => s.setDie die d

/-- An island off P0 takes another alignment of its clock (18 R431; log 8). -/
def slip (i n : Nat) (s : State) : State :=
  if (s.island i).cur = 0 then s else s.modPkg (fun p => { p with islands := Tab.set p.islands i { s.island i with phase := n % 66 } })

/-- The words of a warp's next instruction fetched (02 R33; 03 R73). -/
def fetchNext (c slot : Nat) (s : State) : State :=
  match s.warp? c slot with
  | none => s
  | some w => match s.group? c w.gid with | none => s | some g => (fetchInstr s c g w.pc.toNat).1

/-- An act that is no row of the opcode table. -/
def actState (s : State) (a : Act) : State :=
  match a with
  | .fetch c slot => fetchNext c slot s
  | .copyRead c e x u i => copyRead c e x u i s
  | .copyWrite c e x u i => copyWrite c e x u i s
  | .collRead d x e => collRead d x e s
  | .collWrite d x e => collWrite d x e s
  | .flushEnd c gid => flushEnd c gid s
  | .serve src tc => serve src tc s
  | .credit port tc has => setCredit port tc has s
  | .respCredit port tc has => respCredit port tc has s
  | .streamFirst src tc q => streamFirst src tc q s
  | .sheetEnd id => sheetEnd id s
  | .inbuf port tc level => inbufLevel port tc level s
  | .compStore addr bytes => compStore addr bytes s
  | .companionPhys pa len data => companionPhys pa len data s
  | .linkAck link => linkAck link s
  | .bootFinish => bootFinish s
  | .rehearse c e x => rehearse c e x s
  | .throughHome d asid line => throughHome d asid line s
  | .branch src dst va => branch src dst va s
  | .scanStep c => scanStep c s
  | .unitRead c scan w => unitRead c scan w s
  | .tileRead c slot i r l => catchTileWord c slot i r l s
  | .scanWrite c which => scanWrite c which s
  | .scanMove c which => scanMove c which s
  | .evictHome d asid line => evictHome d asid line s
  | .evictGuest d asid line => evictGuest d asid line s
  | .evictTlb k i => s.modStack k (fun x => { x with tlb := x.tlb.eraseIdx i })
  | .evictWalk k i => s.modStack k (fun x => { x with walk := x.walk.eraseIdx i })
  | .evictCode c asid line => s.modCore c (fun k => { k with icache := k.icache.filter (fun l => !(l.asid == asid && l.line == line)) })
  | .slip i n => slip i n s
  | .sbRead link addr => sbRead link addr s
  | .unitError u found => unitError u found s
  | .tck tms tdi pins => tck tms tdi pins s
  | .wrapDump => wrapDump s
  | _ => s

/-- Whether an act names units that the package has. -/
def Act.inRange (a : Act) : Bool :=
  match a with
  | .issue c q => decide (c < Config.numCores) && decide (q < 4)
  | .fetch c slot => decide (c < Config.numCores) && decide (slot < 64)
  | .grip c g => decide (c < Config.numCores) && decide (g < 2)
  | .event _ => true
  | .own _ => true
  | .copyRead c e x _ _ => decide (c < Config.numCores) && decide (e < 2) && decide (x < 8)
  | .copyWrite c e x _ _ => decide (c < Config.numCores) && decide (e < 2) && decide (x < 8)
  | .collRead d _ _ => decide (d < 4)
  | .collWrite d _ _ => decide (d < 4)
  | .flushEnd c _ => decide (c < Config.numCores)
  | .serve src tc => decide (src < 4096) && decide (tc < 4)
  | .credit port tc _ => decide (port < 18) && decide (tc < 4)
  | .respCredit port tc _ => decide (port < 18) && decide (tc < 4)
  | .streamFirst src tc _ => decide (src < 4096) && decide (tc < 4)
  | .sheetEnd _ => true
  | .inbuf port tc level => decide (port < 18) && decide (tc < 4) && decide (level < 3)
  | .compStore _ _ => true
  | .companionPhys _ _ _ => true
  | .linkAck link => decide (link < 2)
  | .bootFinish => true
  | .rehearse c e x => decide (c < Config.numCores) && decide (e < 2) && decide (x < 8)
  | .throughHome d _ _ => decide (d < 4)
  | .branch src dst _ => decide (src < 4) && decide (dst < 4)
  | .scanStep c => decide (c < Config.numCores)
  | .unitRead c _ _ => decide (c < Config.numCores)
  | .tileRead c slot _ r l => decide (c < Config.numCores) && decide (slot < 64) && decide (r < 8) && decide (l < 32)
  | .scanWrite c _ => decide (c < Config.numCores)
  | .scanMove c _ => decide (c < Config.numCores)
  | .evictHome d _ _ => decide (d < 4)
  | .evictGuest d _ _ => decide (d < 4)
  | .evictTlb k _ => decide (k < 8)
  | .evictWalk k _ => decide (k < 8)
  | .evictCode c _ _ => decide (c < Config.numCores)
  | .slip i _ => decide (i < 48)
  | .sbRead link _ => decide (link < 2)
  | .unitError u _ => u.wf
  | .tck _ _ _ => true
  | .wrapDump => true

/-! ## The order of one cycle -/

/-- A unit whose events of one cycle have a place in the order: of a core, or of the package. -/
structure UnitPlace where
  core : Option Nat
  unit : Nat
  deriving DecidableEq, Repr

/-- The scheduler of a warp slot, as a place. -/
def UnitPlace.slot (c slot : Nat) : UnitPlace := { core := some c, unit := schedOf slot }
/-- Who waits for a tag, as a place. -/
def UnitPlace.waiter (c : Nat) (who : TagWaiter) : UnitPlace :=
  match who with
  | .warp slot => .slot c slot
  | .grip g => { core := some c, unit := 4 + g }
/-- A copy engine, as a place. -/
def UnitPlace.engine (c e : Nat) : UnitPlace := { core := some c, unit := 6 + e }
/-- A scan unit, as a place. -/
def UnitPlace.scan (c : Nat) : UnitPlace := { core := some c, unit := 8 }
/-- The sideband, after every core: link 0 before link 1 (18 R440). -/
def UnitPlace.sideband (link : Nat) : UnitPlace := { core := none, unit := 10 + link }

/-- The place of an event of the part's own. -/
def Own.place (e : Own) : Option UnitPlace :=
  match e with
  | .storeQueuePerform c slot => some (.slot c slot)
  | .loadLand c slot _ _ => some (.slot c slot)
  | .recastWake c slot => some (.slot c slot)
  | .cpostAccept c slot => some (.slot c slot)
  | .mmaAccept c slot => some (.slot c slot)
  | .tagWaitSatisfied c who => some (.waiter c who)
  | .gripStorePerform c g => some { core := some c, unit := 4 + g }
  | .copyComplete c e _ => some (.engine c e)
  | .scanStart c => some (.scan c)
  | .scanComplete c => some (.scan c)
  | .scanstComplete c => some (.scan c)
  | .collMemberComplete _ _ => some { core := none, unit := 9 }
  | _ => none

/-- The place of a row of the opcode table that is an event. A row that writes a register without naming a link is link 0's (log 46). -/
def eventPlace (i : Instr) : Option UnitPlace :=
  match i with
  | .storeQueuePerform c slot => some (.slot c slot)
  | .loadLand c slot _ _ => some (.slot c slot)
  | .recastWake c slot => some (.slot c slot)
  | .cpostAccept c slot => some (.slot c slot)
  | .mmaAccept c slot => some (.slot c slot)
  | .tagWaitSatisfied c who => some (.waiter c who)
  | .gripStorePerform c g => some { core := some c, unit := 4 + g }
  | .copyComplete c e _ => some (.engine c e)
  | .scanStart c => some (.scan c)
  | .scanComplete c => some (.scan c)
  | .scanstComplete c => some (.scan c)
  | .collMemberComplete _ _ => some { core := none, unit := 9 }
  | .sidebandRegisterWrite link _ _ => some (.sideband link)
  | .islopWrite _ _ => some (.sideband 0)
  | .lqd0Write _ _ _ => some (.sideband 0)
  | .dbgctlResume _ _ => some (.sideband 0)
  | .asidBind link => some (.sideband link)
  | .asidReroot link => some (.sideband link)
  | .tlbFlush link => some (.sideband link)
  | .asidRetire link => some (.sideband link)
  | .faultVerdict link => some (.sideband link)
  | .groupRelease link => some (.sideband link)
  | .restore link => some (.sideband link)
  | .preempt link => some (.sideband link)
  | .streamReset link => some (.sideband link)
  | .windowSync link => some (.sideband link)
  | .scopeWrite link => some (.sideband link)
  | .taskName link => some (.sideband link)
  | .attest link _ => some (.sideband link)
  | .coreRelease link => some (.sideband link)
  | .sidebandCommandFinish link => some (.sideband link)
  | _ => none

/-- The place of an act among the events of its cycle: schedulers 0 to 3, the loader grip, the storer grip, CE0, CE1, the scan unit, the
collective engine, the sideband (02 R41; 08 R190, R191; 09 R217; 10 R261; 12 R303; 14 R350; 17 R418, R426; 18 R440). -/
def Act.place (a : Act) : Option UnitPlace :=
  match a with
  | .issue c q => some { core := some c, unit := q }
  | .grip c g => some { core := some c, unit := 4 + g }
  | .event i => eventPlace i
  | .own e => e.place
  | .copyRead c e _ _ _ => some (.engine c e)
  | .copyWrite c e _ _ _ => some (.engine c e)
  | .collRead _ _ _ => some { core := none, unit := 9 }
  | .collWrite _ _ _ => some { core := none, unit := 9 }
  | .scanStep c => some (.scan c)
  | .scanWrite c _ => some (.scan c)
  | .scanMove c _ => some (.scan c)
  | _ => none

/-- The place among the units of all cores: by unit, and then in ascending core ID. -/
def UnitPlace.key (p : UnitPlace) : Nat := 256 * p.unit + p.core.getD 0

/-- Whether an act comes too late in its cycle: a unit that comes after its own has had a turn. -/
def State.late (s : State) (a : Act) : Bool :=
  match a.place with
  | none => false
  | some p => decide (p.key < s.order) || (match p.core with | some c => decide (p.unit < (s.core c).order) | none => false)

/-- Whether an act is an issue: a scheduler issues at most one instruction in a cycle (02 R32), and a grip executes at most one (14 R351). -/
def Act.isIssue (a : Act) : Bool := match a with | .issue _ _ => true | .grip _ _ => true | _ => false

/-- The state with an act's place taken. -/
def State.inTurn (s : State) (a : Act) : State :=
  match a.place with
  | none => s
  | some p =>
    let s1 := { s with order := p.key }
    match p.core with
    | some c => s1.modCore c (fun k => { k with order := p.unit + (if a.isIssue then 1 else 0) })
    | none => s1

/-- What an act does in its turn. A frozen package may still be read, and the companion processor's memory is no part of it (09 R243,
R246). -/
def takeAct (s : State) (a : Act) : Host.Outcome State Fault Refusal :=
  match a with
  | .event i => eventTurn s i
  | .own e => if s.pkg.frozen || s.pkg.tripped then .next s else runOwn e { s with cur := .none }
  | .issue c q => if s.pkg.frozen || s.pkg.tripped then .next s else issueTurn s c q
  | .grip c g => if s.pkg.frozen || s.pkg.tripped then .next s else gripTurn s c g
  | .sbRead link addr => if s.pkg.tripped then .next s else .next (sbRead link addr s)
  | .wrapDump => if s.pkg.tripped then .next s else .next (wrapDump s)
  | .compStore addr bytes => .next (compStore addr bytes s)
  | .tck tms tdi pins => if s.pkg.tripped then .next s else .next (tck tms tdi pins s)
  | .companionPhys pa len none => if s.pkg.tripped then .next s else .next (companionPhys pa len none s)
  | a => if s.pkg.frozen || s.pkg.tripped then .next s else .next (actState s a)

/-- What an act does: one that comes too late in its cycle has no turn in it. -/
def runAct (s : State) (a : Act) : Host.Outcome State Fault Refusal :=
  if !a.inRange then .fault .noSuchUnit else if s.late a then .next s else takeAct (s.inTurn a) a

/-- The state in which a turn begins: the rest of the agenda is to come, and the ports have sent nothing yet (15 R371). -/
def State.begin (s : State) (rest : List Turn) : State := { s with agenda := rest, out := { s.out with sent := [] } }

/-- One turn: the next of the agenda, with the time that passes before it; an empty agenda is filled with the natural round. -/
def turnStep (s : State) : Host.Outcome State Fault Refusal :=
  match s.agenda with
  | [] => .next { s with agenda := naturalRound s }
  | t :: rest => runAct ((s.begin rest).pass t.dt) t.act

/-! ## An instruction placed for the very next turn (log 9) -/

/-- The context, code address and core that a placed instruction uses. -/
def probeAsid : Nat := 1
/-- The VA of the placed code. -/
def probeCode : Nat := 0x10000

/-- A kernel-table entry with four register granules, 16 KiB of scratchpad and one of everything else; PRE, SYS and GRIPS set. -/
def probeKernel : KernelEntry :=
  [BitVec.ofNat 64 (2 ^ 63 + 2 ^ 62 + 2 ^ 61 + 2 ^ 60 + 4 * 2 ^ 54 + 64 * 2 ^ 45 + 2 ^ 41 + 2 * 2 ^ 36 + 2 * 2 ^ 31 + 4 * 2 ^ 24 + 2 * 2 ^ 19),
   BitVec.ofNat 64 probeCode, 128#64, 0#64, 0#64, 0#64, 0#64, 0#64, 0#64, 0#64, 0#64, 0#64, 0#64, 0#64, 0#64, 0#64]

/-- What the placed instruction's group is given. -/
def probeBirth : Birth :=
  { asid := probeAsid, kid := 0, kernel := probeKernel, gridId := 0, taskIdx := none, idgrid := 0, idgroup := 0, idclus := 0, nWarps := 1,
    nGroups := 1, nClusters := 1, prio := 0, deadchk := false, cast := false, args := [], tslice := 0 }

/-- Where its resources lie. -/
def probeAlloc : Alloc := { slots := [(0, 0)], scrBase := 0, accs := [0, 1], wunits := [0], tileBase := 0 }

/-- A core with that group, its warp selected in mid-run, its code line in the instruction cache and in both grips' stores. -/
def probeCore (k : Core) (bytes : List Byte) : Core :=
  let grip := fun (n : Nat) => (n, { Grip.reset with gid := some 0, run := 1, istore := Memory.writeN [] 0 bytes })
  { k with
    order := 0
    groups := [(0, freshGroup probeBirth probeAlloc)]
    warps := [(0, freshWarp probeBirth 0 0 0)]
    scheds := [(0, { Scheduler.reset with cur := some 0, midRun := true, runs := 1 })]
    icache := [{ asid := probeAsid, line := probeCode / 128, words := lineWords bytes }]
    grips := [grip 0, grip 1] }

/-- The state in which the instruction whose words are `w` is the next that issues: by the warp in slot 0 of core 0, or by its loader
grip for a grip's instruction. Two cycles pass first, in which its banks serve its reads (05 R122). -/
def placeWord (s : State) (nbits w : Nat) : State :=
  let bytes := toBytes (w % 2 ^ nbits) 128
  { s with
    order := 0
    agenda := [{ dt := 2, act := if isGripWord nbits w then .grip 0 0 else .issue 0 0 }]
    cores := Tab.set s.cores 0 (probeCore (s.core 0) bytes)
    pkg := { s.pkg with bootState := 4, nextGid := 1, asids := Tab.set s.pkg.asids probeAsid { state := 1, merged := false, root := 0, ctx := 0, ret := 0 } } }

end Sys2Proof.Machine
end

