-- ==== Sys2Proof/Machine/Step.lean ====
section
/-! DEFINITION. The step of the machine: one turn. -/

namespace Sys2Proof.Machine

/-- One step (log 3). -/
def step : State → Host.Outcome State Fault Refusal := turnStep

/-- The state with an instruction placed where step fetches next (log 9). -/
def State.withFetchWord (s : State) (nbits w : Nat) : State := placeWord s nbits w

end Sys2Proof.Machine
end

