-- ==== Sys2Proof/Safety.lean ====
section
/-! DEFINITION. What a safe run is, and the terms in which the claims speak: which warp acts, when an instruction may execute,
and what is left once it has completed. -/

namespace Sys2Proof.Machine

/-! ## Runs -/

/-- Whether a state's next step answers a state. -/
def State.goesOn (s : State) : Prop := ∃ t, step s = .next t

/-- The states that `n` steps reach. -/
def State.reaches : Nat → State → State → Prop
  | 0, s, t => s = t
  | n + 1, s, t => ∃ u, step s = .next u ∧ State.reaches n u t

/-- A state is safe when every state that its run reaches goes on. -/
def State.safe (s : State) : Prop := ∀ n t, State.reaches n s t → t.goesOn

/-- The word of register `n` in lane `l`; 0 where the register is not live (05 R123). -/
def Warp.laneWord (w : Warp) (n l : Nat) : Word := (w.reg n).getD l 0

/-! ## The acting warp -/

/-- Warp `w` of group `g` acts, from slot `slot` of core `c`. -/
structure Acts (s : State) (c slot : Nat) (w : Warp) (g : Group) : Prop where
  cur : s.cur = .warp c slot
  warp : s.warp? c slot = some w
  group : s.group? c w.gid = some g

/-- An instruction may execute: none of the checks of 03 Table 7 raises a trap, and no source reads an uncorrectable error. -/
structure Ready (sp : Spec) (kBad : Bool) (i : Issue) : Prop where
  checks : checkTrap sp kBad i = none
  clean : specPoison sp i = none

/-! ## Once an instruction has completed (03 R78) -/

/-- The registers of a source that carries a dead mark. -/
def deadSrc (p : Option Pos) (f : Src) : List Nat :=
  match p, f.dead, f.op with
  | some q, true, .v n => if q.w = 64 then [n.toNat, n.toNat + 1] else [n.toNat]
  | _, _, _ => []

/-- The registers whose last use the instruction marks (03 R62). -/
def deadSrcs (sh : Shape) (x : Ext) : List Nat := deadSrc sh.a x.a ++ deadSrc sh.b x.b ++ deadSrc sh.c x.c

/-- The vector registers that an instruction of fixed latency writes. -/
def writtenRegs (sh : Shape) (x : Ext) : List Nat :=
  match sh.dst, x.dst with
  | some d, .v n => if sh.fixed then (if d.w = 64 then [n.toNat, n.toNat + 1] else [n.toNat]) else []
  | _, _ => []

/-- What DST's value leaves in lane `l` of register `n`: none where it does not write that lane. The second register of a pair
takes the high word. -/
def dstLane (sh : Shape) (x : Ext) (run : Mask) (out : Nat → Nat) (n l : Nat) : Option Word :=
  match sh.dst, x.dst with
  | some d, .v m =>
    if sh.fixed && run.has l then
      if d.w = 64 ∧ n = m.toNat + 1 then some (BitVec.ofNat 32 (out l / 2 ^ 32))
      else if n = m.toNat then some (BitVec.ofNat 32 (out l)) else none
    else none
  | _, _ => none

/-- The value that the instruction leaves in uniform register `n`, if it writes it: s63 discards (05 R108). -/
def dstUniform (sh : Shape) (x : Ext) (out : Nat → Nat) (n : Nat) : Option DWord :=
  match sh.dst, x.dst with
  | some _, .s m => if sh.fixed ∧ n = m.toNat ∧ n ≠ 63 then some (BitVec.ofNat 64 (out 0)) else none
  | _, _ => none

/-- Predicate `n` of lane `l` after predicates are written: p7 keeps its ones (05 R109). -/
def predAfter (w : Warp) (ps : List (Nat × Mask × Mask)) (n l : Nat) : Bool :=
  ps.foldl (fun v p => if p.1 = n ∧ n ≠ 7 ∧ p.2.1.has l then p.2.2.has l else v) (w.pred n l)

/-- The latches of the warp's scheduler after an instruction (02 R35; 05 R112): `la` takes the value of a vector or latch DST and `lb`
the old `la`; the end of a run makes both invalid. -/
def schedAfter (sp : Spec) (i : Issue) (r : Res) (w' : Warp) (q : Scheduler) : Scheduler :=
  let q1 := match sp.shape.dst with
    | some d =>
      if shifts sp.shape i.x ∧ q.cur = some i.slot ∧ q.midRun then q.shift (latchLanes w' d i.x i.run r.out) (d.w == 64) else q
    | none => q
  if (i.x.bnd || sp.ends) ∧ q1.cur = some i.slot then { q1.clearLatches with midRun := false } else q1

/-- An instruction with result `r` has completed: `wb` is its warp before its registers are written, `w'` after, `t` the state. -/
structure Completed (sp : Spec) (i : Issue) (r : Res) (wb w' : Warp) (t : State) : Prop where
  pc : w'.pc = r.next.getD i.nextPc
  lane : ∀ n l, l < 32 → w'.laneWord n l =
    (dstLane sp.shape i.x i.run r.out n l).getD (if n ∈ deadSrcs sp.shape i.x then 0 else wb.laneWord n l)
  live : ∀ n, w'.live n =
    (decide (n ∈ writtenRegs sp.shape i.x ∨ n ∈ r.claims) || (wb.live n && !decide (n ∈ deadSrcs sp.shape i.x)))
  uniform : ∀ n, w'.sreg n = (dstUniform sp.shape i.x r.out n).getD (wb.sreg n)
  pred : ∀ n l, l < 32 → w'.pred n l = predAfter wb r.preds n l
  run : if i.x.bnd || sp.ends then w'.runPos = 0 ∧ w'.runStart = w'.pc else w'.runPos = wb.runPos + 1 ∧ w'.runStart = wb.runStart
  warpFrame : w' = { wb with
    v := w'.v, s := w'.s, p := w'.p, cache := w'.cache, regPoison := w'.regPoison, tagPoison := w'.tagPoison, pc := w'.pc
    runPos := w'.runPos, runStart := w'.runStart, bpSkip := false, waiting := none, relatch := none, since := w'.since, issueFrom := w'.issueFrom }
  warp : t.warp? i.c i.slot = some w'
  otherWarps : ∀ n, n ≠ i.slot → t.warp? i.c n = r.s.warp? i.c n
  sched : (t.core i.c).sched (schedOf i.slot) = schedAfter sp i r w' ((r.s.core i.c).sched (schedOf i.slot))
  otherScheds : ∀ n, n ≠ schedOf i.slot → (t.core i.c).sched n = (r.s.core i.c).sched n
  group : t.group? i.c i.w.gid =
    (r.s.group? i.c i.w.gid).map (fun g => { g with fpFlags := g.fpFlags ||| BitVec.ofNat 5 r.flags })
  otherGroups : ∀ n, n ≠ i.w.gid → t.group? i.c n = r.s.group? i.c n
  counters : ∀ n x, Tab.get? (r.s.core i.c).evctrs n = some x → x.counting.toNat ∉ [0x02, 0x03, 0x04, 0x05, 0x06, 0x07] →
    Tab.get? (t.core i.c).evctrs n = some x
  coreFrame : t.core i.c = { r.s.core i.c with
    warps := (t.core i.c).warps, groups := (t.core i.c).groups, scheds := (t.core i.c).scheds, evctrs := (t.core i.c).evctrs }
  otherCores : ∀ n, n ≠ i.c → t.core n = r.s.core n
  stateFrame : t = { r.s with cores := t.cores }

/-- Running `e` answers a state in which the instruction has completed with result `r`. -/
def Completes (sp : Spec) (i : Issue) (r : Res) (e : Host.Outcome State Fault Refusal) : Prop :=
  ∃ t wb w', e = .next t ∧ r.s.warp? i.c i.slot = some wb ∧ Completed sp i r wb w' t

/-- A result that only writes the destination. -/
def wrote (i : Issue) (f : Nat → Nat) : Res := { i.res with out := f }

/-- An extended instruction completes with result `res`, whenever it may execute and no trap follows its effect. -/
def ExtForm (mk : Ext → Instr) (sp : Ext → Spec) (res : Issue → Res) : Prop :=
  ∀ x s c slot w g, Acts s c slot w g →
    let i := mkIssue s c slot w g (sp x).shape x (extLen x)
    Ready (sp x) false i → afterTrap g (res i) = none → Completes (sp x) i (res i) (exec (mk x) s)

/-- The same of a B-ALU form (03 R58). -/
def AluForm (mk : BAlu → Instr) (sp : Ext → Spec) (res : Issue → Res) : Prop :=
  ∀ b s c slot w g, Acts s c slot w g →
    let sh := (sp extZero).shape
    let x := b.toExt sh
    let i := mkIssue s c slot w g (sp x).shape x (baseLen b.lit)
    Ready (sp x) (b.kBad sh) i → afterTrap g (res i) = none → Completes (sp x) i (res i) (exec (mk b) s)

/-- The same of a B-IMM form. -/
def ImmForm (mk : BImm → Instr) (sp : Ext → Spec) (res : Issue → Res) : Prop :=
  ∀ b s c slot w g, Acts s c slot w g →
    let x := b.toExt (sp extZero).shape
    let i := mkIssue s c slot w g (sp x).shape x (baseLen b.lit)
    Ready (sp x) false i → afterTrap g (res i) = none → Completes (sp x) i (res i) (exec (mk b) s)

/-- The same of a B-MEM form, of a load or of a store. -/
def MemForm (load : Bool) (mk : BMem → Instr) (sp : BMem → Ext → Spec) (ok : Issue → Prop) (res : Issue → Res) : Prop :=
  ∀ b s c slot w g, Acts s c slot w g →
    let x := b.toExt load (sp b extZero).shape
    let i := mkIssue s c slot w g (sp b x).shape x (baseLen b.lit)
    Ready (sp b x) false i → ok i → afterTrap g (res i) = none → Completes (sp b x) i (res i) (exec (mk b) s)

/-- An extended instruction completes with result `res`, whenever it may execute, meets `ok`, and no trap follows its effect. -/
def ExtFormWhen (mk : Ext → Instr) (sp : Ext → Spec) (ok : Issue → Prop) (res : Issue → Res) : Prop :=
  ∀ x s c slot w g, Acts s c slot w g →
    let i := mkIssue s c slot w g (sp x).shape x (extLen x)
    Ready (sp x) false i → ok i → afterTrap g (res i) = none → Completes (sp x) i (res i) (exec (mk x) s)

/-- The same of a B-ALU form. -/
def AluFormWhen (mk : BAlu → Instr) (sp : Ext → Spec) (ok : Issue → Prop) (res : Issue → Res) : Prop :=
  ∀ b s c slot w g, Acts s c slot w g →
    let sh := (sp extZero).shape
    let x := b.toExt sh
    let i := mkIssue s c slot w g (sp x).shape x (baseLen b.lit)
    Ready (sp x) (b.kBad sh) i → ok i → afterTrap g (res i) = none → Completes (sp x) i (res i) (exec (mk b) s)

/-- A B-BR form, whose DST is `dst` (06 R156, R158). -/
def BrForm (mk : BBr → Instr) (sp : Spec) (dst : Opnd) (ok : Issue → Prop) (res : Issue → Res) : Prop :=
  ∀ b s c slot w g, Acts s c slot w g →
    let i := mkIssue s c slot w g sp.shape (bbrExt b dst) 4
    Ready sp false i → ok i → afterTrap g (res i) = none → Completes sp i (res i) (exec (mk b) s)

/-- A B-ALU form that may execute and meets `ok` leaves exactly state `st`. -/
def AluLeaves (mk : BAlu → Instr) (sp : Ext → Spec) (ok : Issue → Prop) (st : Issue → State) : Prop :=
  ∀ b s c slot w g, Acts s c slot w g →
    let sh := (sp extZero).shape
    let x := b.toExt sh
    let i := mkIssue s c slot w g (sp x).shape x (baseLen b.lit)
    Ready (sp x) (b.kBad sh) i → ok i → exec (mk b) s = .next (st i)

/-- The same of a B-MEM form, of a load or of a store. -/
def MemLeaves (load : Bool) (mk : BMem → Instr) (sp : BMem → Ext → Spec) (ok : Issue → Prop) (st : BMem → Issue → State) : Prop :=
  ∀ b s c slot w g, Acts s c slot w g →
    let x := b.toExt load (sp b extZero).shape
    let i := mkIssue s c slot w g (sp b x).shape x (baseLen b.lit)
    Ready (sp b x) false i → ok i → exec (mk b) s = .next (st b i)

/-- The same of a B-BR form, whose DST is `dst`. -/
def BrLeaves (mk : BBr → Instr) (sp : Spec) (dst : Opnd) (ok : Issue → Prop) (st : Issue → State) : Prop :=
  ∀ b s c slot w g, Acts s c slot w g →
    let i := mkIssue s c slot w g sp.shape (bbrExt b dst) 4
    Ready sp false i → ok i → exec (mk b) s = .next (st i)

/-- An extended instruction that may execute and meets `ok` leaves exactly state `st`. -/
def ExtLeaves (mk : Ext → Instr) (sp : Ext → Spec) (ok : Issue → Prop) (st : Issue → State) : Prop :=
  ∀ x s c slot w g, Acts s c slot w g →
    let i := mkIssue s c slot w g (sp x).shape x (extLen x)
    Ready (sp x) false i → ok i → exec (mk x) s = .next (st i)

/-- An extended instruction whose own effect is the trap `tr`: the trap is taken in a state in which the instruction has completed with
result `res` (09 R231). -/
def ExtTraps (mk : Ext → Instr) (sp : Ext → Spec) (ok : Issue → Prop) (res : Issue → Res) (tr : Issue → Trap) : Prop :=
  ∀ x s c slot w g, Acts s c slot w g →
    let i := mkIssue s c slot w g (sp x).shape x (extLen x)
    Ready (sp x) false i → ok i →
      ∃ t wb w', exec (mk x) s = .next (t.takeTrap c slot (tr i) false) ∧ (res i).s.warp? c slot = some wb ∧
        Completed (sp x) i (res i) wb w' t

/-- The same of a B-IMM form. -/
def ImmTraps (mk : BImm → Instr) (sp : Ext → Spec) (ok : Issue → Prop) (res : Issue → Res) (tr : Issue → Trap) : Prop :=
  ∀ b s c slot w g, Acts s c slot w g →
    let x := b.toExt (sp extZero).shape
    let i := mkIssue s c slot w g (sp x).shape x (baseLen b.lit)
    Ready (sp x) false i → ok i →
      ∃ t wb w', exec (mk b) s = .next (t.takeTrap c slot (tr i) false) ∧ (res i).s.warp? c slot = some wb ∧
        Completed (sp x) i (res i) wb w' t

end Sys2Proof.Machine
end

