-- ==== Sys2Proof/Certificates/Slice0/Obligations.lean ====
section
/-! DEFINITION. The statements for the provers. -/

namespace Sys2Proof.Machine

/-! ## What each instruction of a warp leaves, as its rule of the specification gives it

Each of these is the result of an issue `i`: `i.a l`, `i.b l` and `i.d l` are the values of srcA, srcB and srcC in lane `l`, `i.run` the
lanes that execute, `i.grd` those whose guard is 1, `i.hlp` the helper lanes. -/

/-- The width of a field MODS bit W64 (06 R139). -/
def wide64 (i : Issue) : Nat := if modBit i.x 0 then 64 else 32

/-- fin(f(x(a, w), x(b, w)), w) of 06 R139 and R142. -/
def intResult (f : Int → Int → Int) (i : Issue) : Res :=
  let v := fun n => intVal (modBit i.x 1) n (wide64 i)
  wrote i (fun l => intFin (modBit i.x 1) (modBit i.x 2) (f (v (i.a l)) (v (i.b l))) (wide64 i))

/-- IADD64: always 64 bits (06 Table 2). -/
def int64Result (i : Issue) : Res :=
  let v := fun n => intVal (modBit i.x 1) n 64
  wrote i (fun l => intFin (modBit i.x 1) (modBit i.x 2) (v (i.a l) + v (i.b l)) 64)

/-- IMULH: floor(A * B / 2^w), wrapped (06 Table 2). -/
def imulhResult (i : Issue) : Res :=
  let v := fun n => intVal (modBit i.x 1) n (wide64 i)
  wrote i (fun l => wrapInt (v (i.a l) * v (i.b l) / (2 : Int) ^ wide64 i) (wide64 i))

/-- IABS: the magnitude of the signed value (06 Table 2). -/
def iabsResult (i : Issue) : Res :=
  wrote i (fun l => intFin false (modBit i.x 2) ((sextNat (i.a l) (wide64 i)).natAbs : Int) (wide64 i))

/-- IMAD: A * B + C (06 Table 2). -/
def imadResult (i : Issue) : Res :=
  let v := fun n => intVal (modBit i.x 1) n (wide64 i)
  wrote i (fun l => intFin (modBit i.x 1) (modBit i.x 2) (v (i.a l) * v (i.b l) + v (i.d l)) (wide64 i))

/-- IMADW: 32-bit factors, a 64-bit addend and result (06 Table 2). -/
def imadwResult (i : Issue) : Res :=
  let v := fun n w => intVal (modBit i.x 1) n w
  wrote i (fun l => intFin (modBit i.x 1) (modBit i.x 2) (v (i.a l) 32 * v (i.b l) 32 + v (i.d l) 64) 64)

/-- IDOT4: C and four products of bytes (06 Table 2). -/
def idot4Result (i : Issue) : Res :=
  let nat := modBit i.x 1 && modBit i.x 3
  let term := fun (a b k : Nat) => intVal (modBit i.x 1) (a / 2 ^ (8 * k)) 8 * intVal (modBit i.x 3) (b / 2 ^ (8 * k)) 8
  wrote i (fun l => intFin nat (modBit i.x 2)
    (intVal nat (i.d l) 32 + (term (i.a l) (i.b l) 0 + term (i.a l) (i.b l) 1 + term (i.a l) (i.b l) 2 + term (i.a l) (i.b l) 3)) 32)

/-- The exact sum of IADDC: a, b or its ones' complement, and the carry-in (06 R143). -/
def iaddcSum (i : Issue) (l : Nat) : Nat :=
  let bb := if modBit i.x 3 then 2 ^ wide64 i - 1 - i.b l else i.b l
  let ci := i.w.pred (bitsOf i.x.mods3.toNat 2 0) l != i.x.mods3.getLsbD 3
  i.a l + bb + (if ci then 1 else 0)

/-- IADDC: the low w bits, and bit w as the carry-out (06 R143). -/
def iaddcResult (i : Issue) : Res :=
  { wrote i (fun l => iaddcSum i l % 2 ^ wide64 i) with
    preds := [(bitsOf i.x.mods2.toNat 2 0, i.run, maskOf (fun l => decide (iaddcSum i l / 2 ^ wide64 i % 2 = 1)))] }

/-- LEA: a plus the index times 2^SH, wrapped to 64 bits (06 R147). -/
def leaResult (i : Issue) : Res :=
  wrote i (fun l => wrapInt ((i.a l : Int) + intVal (modBit i.x 1) (i.b l) 32 * (2 : Int) ^ bitsOf i.x.mods.toNat 5 3) 64)

/-- ISHL: 0 when n ≥ w (06 Table 3). -/
def ishlResult (i : Issue) : Res := wrote i (fun l => if wide64 i ≤ i.b l then 0 else i.a l * 2 ^ i.b l % 2 ^ wide64 i)
/-- ISHR: 0 when n ≥ w. -/
def ishrResult (i : Issue) : Res := wrote i (fun l => if wide64 i ≤ i.b l then 0 else i.a l / 2 ^ i.b l)
/-- ISAR: every bit a copy of the sign when n ≥ w. -/
def isarResult (i : Issue) : Res :=
  wrote i (fun l => wrapInt (sextNat (i.a l) (wide64 i) / (2 : Int) ^ min (i.b l) (wide64 i)) (wide64 i))
/-- IROT: left by n mod w, or right. -/
def irotResult (i : Issue) : Res :=
  let w := wide64 i
  wrote i (fun l =>
    let k := if modBit i.x 3 then (w - i.b l % w) % w else i.b l % w
    i.a l * 2 ^ k % 2 ^ w + i.a l / 2 ^ (w - k))

/-- A bitwise operation of two sources (06 Table 3). -/
def bitResult (f : Nat → Nat → Nat) (i : Issue) : Res := wrote i (fun l => f (i.a l) (i.b l))
/-- ANDN: a AND NOT b. -/
def andnResult (i : Issue) : Res := wrote i (fun l => i.a l &&& (2 ^ wide64 i - 1 - i.b l))
/-- LMIX: bit n is bit a_n + 2 b_n + 4 c_n of TBL. -/
def lmixResult (i : Issue) : Res :=
  wrote i (fun l => natOfBits (fun n =>
    (bitsOf i.x.mods.toNat 9 2).testBit (((i.a l).testBit n).toNat + 2 * ((i.b l).testBit n).toNat + 4 * ((i.d l).testBit n).toNat)) (wide64 i))

/-- CLZ: leading zeros; w for 0. -/
def clzResult (i : Issue) : Res := wrote i (fun l => if i.a l = 0 then wide64 i else wide64 i - 1 - Nat.log2 (i.a l))
/-- CTZ: the place of the lowest 1 bit; w where there is none. -/
def ctzResult (i : Issue) : Res := wrote i (fun l => ((List.range (wide64 i)).find? (fun n => (i.a l).testBit n)).getD (wide64 i))
/-- POPC: the number of 1 bits. -/
def popcResult (i : Issue) : Res := wrote i (fun l => ((List.range (wide64 i)).filter (fun n => (i.a l).testBit n)).length)
/-- BREV: bit n is bit w - 1 - n of a. -/
def brevResult (i : Issue) : Res := wrote i (fun l => natOfBits (fun n => (i.a l).testBit (wide64 i - 1 - n)) (wide64 i))

/-- BFX: `len` bits from `pos`, sign-extended unless NAT (06 R145). -/
def bfxResult (i : Issue) : Res :=
  let w := wide64 i
  wrote i (fun l =>
    let pos := i.b l % 256
    let len := min (i.b l / 256 % 256) w
    let f := i.a l / 2 ^ pos % 2 ^ len
    if !modBit i.x 1 && decide (0 < len) then wrapInt (sextNat f len) w else f)
/-- BFI: the low `len` bits of b at `pos` of a (06 R145). -/
def bfiResult (i : Issue) : Res :=
  let w := wide64 i
  wrote i (fun l =>
    let pos := i.d l % 256
    let len := min (i.d l / 256 % 256) w
    let mask := (2 ^ len - 1) * 2 ^ pos % 2 ^ w
    (i.a l &&& (2 ^ w - 1 - mask)) ||| (i.b l * 2 ^ pos % 2 ^ w &&& mask))
/-- ISEL: srcA where the predicate, negated as asked, is 1; else srcB (06 R146). -/
def iselResult (i : Issue) : Res :=
  wrote i (fun l => if i.w.pred (bitsOf i.x.mods.toNat 5 3) l != modBit i.x 6 then i.a l else i.b l)
/-- LDI: srcA (06 R148). -/
def ldiResult (i : Issue) : Res := wrote i (fun l => i.a l)

/-- A predicate written in the lanes that execute (05 R109). -/
def setsPred (i : Issue) (p : Nat) (f : Nat → Bool) : Res := { i.res with preds := [(p, i.run, maskOf f)] }

/-- ISET: the comparison combined with a predicate (06 R149). -/
def isetResult (i : Issue) : Res :=
  let v := fun n => intVal (modBit i.x 1) n (wide64 i)
  setsPred i (bitsOf i.x.mods2.toNat 2 0) (fun l =>
    boolOp (bitsOf i.x.mods.toNat 7 6) (compareInt (bitsOf i.x.mods.toNat 5 3) (v (i.a l)) (v (i.b l)))
      (i.w.pred (bitsOf i.x.mods3.toNat 2 0) l != i.x.mods3.getLsbD 3))
/-- PSET: TBL[pa + 2 pb + 4 pc] (06 R150). -/
def psetResult (i : Issue) : Res :=
  setsPred i (bitsOf i.x.mods2.toNat 2 0) (fun l =>
    (bitsOf i.x.mods.toNat 7 0).testBit ((i.w.pred (bitsOf i.x.mods3.toNat 2 0) l).toNat +
      2 * (i.w.pred (bitsOf i.x.mods3.toNat 5 3) l).toNat + 4 * (i.w.pred (bitsOf i.x.mods2.toNat 5 3) l).toNat))
/-- PMOV by FORM (06 Table 4). -/
def pmovResult (i : Issue) : Res :=
  let pd := bitsOf i.x.mods2.toNat 2 0
  let pa := bitsOf i.x.mods3.toNat 2 0
  let mi := bitsOf i.x.mods.toNat 4 3
  match bitsOf i.x.mods.toNat 2 0 with
  | 0 => setsPred i pd (fun l => decide (i.a l ≠ 0))
  | 1 => wrote i (fun l => if i.w.pred pa l then 1 else 0)
  | 2 => wrote i (fun _ => (maskOf (fun l => i.w.pred pa l)).toNat)
  | 3 => setsPred i pd (fun l => (i.a l).testBit l)
  | 4 =>
    let s := i.s.modWarp i.c i.slot (fun w => { w with m := Tab.set w.m mi (BitVec.ofNat 128 (i.a 0 + 2 ^ 64 * i.b 0)) })
    { i.res with s := s }
  | _ => wrote i (fun _ => (i.w.edge mi).toNat / 2 ^ (if modBit i.x 5 then 64 else 0) % 2 ^ 64)
/-- PCNT: the active lanes with the predicate, negated as asked (06 R152). -/
def pcntResult (i : Issue) : Res :=
  wrote i (fun _ => (i.w.active.list.filter (fun l => i.w.pred (bitsOf i.x.mods3.toNat 2 0) l != i.x.mods3.getLsbD 3)).length)

/-- VTOS: one lane's value, extended to 64 bits (06 R153). -/
def vtosResult (i : Issue) : Res :=
  let l := if modBit i.x 3 then i.b 0 % 32 else i.w.active.list.headD 0
  wrote i (fun _ => wrapInt (intVal (modBit i.x 1) (i.a l) (wide64 i)) 64)
/-- STOV: srcA plus the lane's number times srcB (06 R154). -/
def stovResult (i : Issue) : Res := wrote i (fun l => (i.a l + l * i.b l) % 2 ^ wide64 i)
/-- The lane that ELECT chooses: the lowest active one with its guard, or 32 (06 R155). -/
def electLane (i : Issue) : Nat := (lanes.filter (fun l => i.w.active.has l && i.grd.has l)).headD 32
/-- ELECT. -/
def electResult (i : Issue) : Res :=
  { wrote i (fun _ => electLane i) with
    preds := [(bitsOf i.x.mods2.toNat 2 0, i.w.active ||| i.hlp, maskOf (fun l => decide (l = electLane i)))] }

end Sys2Proof.Machine

open Sys2Proof Sys2Proof.Machine

/-- IADD, ISUB, IMUL, IMULH, IMIN, IMAX, IABS and IADD64 write fin of their exact result in every form, and change what `Completed` lists
and nothing else. -/
def Obligations.IntegerArithmeticCompletes : Prop :=
  AluForm .iaddAlu iaddSpec (intResult (· + ·)) ∧ ImmForm .iaddImm iaddSpec (intResult (· + ·)) ∧
  ExtForm .iaddExt iaddSpec (intResult (· + ·)) ∧
  AluForm .isubAlu isubSpec (intResult (· - ·)) ∧ ImmForm .isubImm isubSpec (intResult (· - ·)) ∧
  ExtForm .isubExt isubSpec (intResult (· - ·)) ∧
  AluForm .imulAlu imulSpec (intResult (· * ·)) ∧ ImmForm .imulImm imulSpec (intResult (· * ·)) ∧
  ExtForm .imulExt imulSpec (intResult (· * ·)) ∧
  AluForm .imulhAlu imulhSpec imulhResult ∧ ImmForm .imulhImm imulhSpec imulhResult ∧ ExtForm .imulhExt imulhSpec imulhResult ∧
  AluForm .iminAlu (iminmaxSpec false) (intResult min) ∧ ImmForm .iminImm (iminmaxSpec false) (intResult min) ∧
  ExtForm .iminExt (iminmaxSpec false) (intResult min) ∧
  AluForm .imaxAlu (iminmaxSpec true) (intResult max) ∧ ImmForm .imaxImm (iminmaxSpec true) (intResult max) ∧
  ExtForm .imaxExt (iminmaxSpec true) (intResult max) ∧
  AluForm .iabsAlu iabsSpec iabsResult ∧ ExtForm .iabsExt iabsSpec iabsResult ∧
  AluForm .iadd64Alu iadd64Spec int64Result ∧ ImmForm .iadd64Imm iadd64Spec int64Result ∧ ExtForm .iadd64Ext iadd64Spec int64Result

/-- IADDC, IMAD, IMADW, IDOT4 and LEA write what 06 R143, Table 2 and R147 give, IADDC its carry-out too. -/
def Obligations.WideIntegerCompletes : Prop :=
  ExtForm .iaddc iaddcSpec iaddcResult ∧ ExtForm .imad imadSpec imadResult ∧ ExtForm .imadw imadwSpec imadwResult ∧
  ExtForm .idot4 idot4Spec idot4Result ∧ ExtForm .lea leaSpec leaResult

/-- The shifts and the logic instructions write what 06 Table 3 gives, in every form. -/
def Obligations.ShiftsAndLogicComplete : Prop :=
  AluForm .ishlAlu (shiftOp 1#10 shlVal) ishlResult ∧ ImmForm .ishlImm (shiftOp 1#10 shlVal) ishlResult ∧
  ExtForm .ishlExt (shiftOp 1#10 shlVal) ishlResult ∧
  AluForm .ishrAlu (shiftOp 1#10 shrVal) ishrResult ∧ ImmForm .ishrImm (shiftOp 1#10 shrVal) ishrResult ∧
  ExtForm .ishrExt (shiftOp 1#10 shrVal) ishrResult ∧
  AluForm .isarAlu (shiftOp 1#10 sarVal) isarResult ∧ ImmForm .isarImm (shiftOp 1#10 sarVal) isarResult ∧
  ExtForm .isarExt (shiftOp 1#10 sarVal) isarResult ∧
  AluForm .irotAlu irotSpec irotResult ∧ ImmForm .irotImm irotSpec irotResult ∧ ExtForm .irotExt irotSpec irotResult ∧
  AluForm .andAlu (logicOp andVal) (bitResult (· &&& ·)) ∧ ImmForm .andImm (logicOp andVal) (bitResult (· &&& ·)) ∧
  ExtForm .andExt (logicOp andVal) (bitResult (· &&& ·)) ∧
  AluForm .orAlu (logicOp orVal) (bitResult (· ||| ·)) ∧ ImmForm .orImm (logicOp orVal) (bitResult (· ||| ·)) ∧
  ExtForm .orExt (logicOp orVal) (bitResult (· ||| ·)) ∧
  AluForm .xorAlu (logicOp xorVal) (bitResult (· ^^^ ·)) ∧ ImmForm .xorImm (logicOp xorVal) (bitResult (· ^^^ ·)) ∧
  ExtForm .xorExt (logicOp xorVal) (bitResult (· ^^^ ·)) ∧
  AluForm .andnAlu (logicOp andnVal) andnResult ∧ ImmForm .andnImm (logicOp andnVal) andnResult ∧
  ExtForm .andnExt (logicOp andnVal) andnResult ∧
  ExtForm .lmix lmixSpec lmixResult

/-- CLZ, CTZ, POPC, BREV, BFX, BFI, ISEL and LDI write what 06 Table 3 and R145 to R148 give. -/
def Obligations.BitFieldsAndMovesComplete : Prop :=
  ExtForm .clz (bitOp false clzVal) clzResult ∧ ExtForm .ctz (bitOp false ctzVal) ctzResult ∧
  ExtForm .popc (bitOp false popcVal) popcResult ∧ ExtForm .brev (bitOp true brevVal) brevResult ∧
  ExtForm .bfx bfxSpec bfxResult ∧ ExtForm .bfi bfiSpec bfiResult ∧ ExtForm .isel iselSpec iselResult ∧
  AluForm .ldiAlu ldiSpec ldiResult ∧ ExtForm .ldiExt ldiSpec ldiResult

/-- ISET, PSET, PMOV and PCNT write what 06 R149 to R152 give: predicates in the lanes that execute, a register, or an edge mask. -/
def Obligations.PredicatesComplete : Prop :=
  ExtForm .iset isetSpec isetResult ∧ ExtForm .pset psetSpec psetResult ∧ ExtForm .pmov pmovSpec pmovResult ∧
  ExtForm .pcnt pcntSpec pcntResult

/-- VTOS, STOV and ELECT write what 06 R153 to R155 give. -/
def Obligations.LaneToWarpMovesComplete : Prop :=
  ExtForm .vtos vtosSpec vtosResult ∧ ExtForm .stov stovSpec stovResult ∧ ExtForm .elect electSpec electResult

namespace Sys2Proof.Machine

/-! ## Floating point (07 R166 to R183) -/

/-- A result with flags: the flags are those of the lanes that execute and are no helpers (04 R89). -/
def wroteFp (i : Issue) (f : Nat → Nat × Nat) : Res :=
  { wrote i (fun l => (f l).1) with flags := i.laneFlags (fun l => (f l).2) }

/-- A source pattern after FTZ, ABS and NEG of its place `n` (07 R168). -/
def fpSource (f : Fmt) (i : Issue) (n v : Nat) : Nat := f.source (modBit i.x 2) (modBit i.x (6 + n)) (modBit i.x (3 + n)) v

/-- An IEEE operation on the sources, and FTZ of its result (07 R168, R169, R174). -/
def fpResult (f : Fmt) (op : RMode → Nat → Nat → Nat → Nat × Nat) (i : Issue) : Res :=
  wroteFp i (fun l => f.finish (modBit i.x 2)
    (op (bitsOf i.x.mods.toNat 1 0) (fpSource f i 0 (i.a l)) (fpSource f i 1 (i.b l)) (fpSource f i 2 (i.d l))))

/-- a + b, rounded once (07 Table 2; 04 R87). -/
def fpAdd (f : Fmt) (m : RMode) (a b _c : Nat) : Nat × Nat := f.addFp m (f.unpack a) (f.unpack b)
/-- a - b: b's sign inverted, then added. -/
def fpSub (f : Fmt) (m : RMode) (a b _c : Nat) : Nat × Nat := f.addFp m (f.unpack a) (f.unpack (f.source false false true b))
/-- a × b, rounded once. -/
def fpMul (f : Fmt) (m : RMode) (a b _c : Nat) : Nat × Nat := f.mul m (f.unpack a) (f.unpack b)
/-- a × b + c, rounded once. -/
def fpFma (f : Fmt) (m : RMode) (a b c : Nat) : Nat × Nat := f.fma m (f.unpack a) (f.unpack b) (f.unpack c)

/-- A packed operation: each half by itself, the flags of a lane those of both halves (07 R175). -/
def packResult (op : Fmt → RMode → Nat → Nat → Nat → Nat × Nat) (i : Issue) : Res :=
  let f : Fmt := if modBit i.x 9 then .bf16 else .f16
  let half := fun (l d : Nat) =>
    let v := fun n w => fpSource f i n (w / d % 65536)
    f.finish (modBit i.x 2) (op f (bitsOf i.x.mods.toNat 1 0) (v 0 (i.a l)) (v 1 (i.b l)) (v 2 (i.d l)))
  wroteFp i (fun l => ((half l 1).1 + 65536 * (half l 65536).1, (half l 1).2 ||| (half l 65536).2))

/-- FSET: an IEEE comparison, combined with a predicate; poison in a lane that executes and is no helper is reported (07 R171, R183). -/
def fsetResult (i : Issue) : Res :=
  let va := fun l => Fmt.f32.unpack (fpSource .f32 i 0 (i.a l))
  let vb := fun l => Fmt.f32.unpack (fpSource .f32 i 1 (i.b l))
  let cmp := bitsOf i.x.mods2.toNat 5 3
  { setsPred i (bitsOf i.x.mods2.toNat 2 0) (fun l =>
      boolOp (bitsOf i.x.mods3.toNat 5 4) (fcompare cmp (va l) (vb l)).1
        (i.w.pred (bitsOf i.x.mods3.toNat 2 0) l != i.x.mods3.getLsbD 3)) with
    flags := i.laneFlags (fun l => (fcompare cmp (va l) (vb l)).2)
    poison := lanes.find? (fun l => i.acts l && ((va l).isPoison || (vb l).isPoison)) }

/-- FCLASS: the bit of the class (07 R172). -/
def fclassResult (i : Issue) : Res := wrote i (fun l => fclassVal (i.a l))

/-- CVT between the types of its codes (07 R176, R177). -/
def cvtResult (i : Issue) : Res :=
  match CvtType.ofCode (bitsOf i.x.mods3.toNat 3 0), CvtType.ofCode (bitsOf i.x.mods2.toNat 3 0) with
  | some src, some dst =>
    let one := fun l =>
      cvtVal (modBit i.x 2) (bitsOf i.x.mods.toNat 1 0) src dst ((i.a l / (if modBit i.x 3 then 65536 else 1)) % 2 ^ src.bits)
    { wrote i (fun l => (one l).1 * (if modBit i.x 4 then 65536 else 1)) with
      flags := i.laneFlags (fun l => (one l).2.1)
      poison := lanes.find? (fun l => i.acts l && (one l).2.2) }
  | _, _ => i.res

/-- n of a block format (07 R178). -/
def blockN (i : Issue) : Nat := bitsOf i.x.mods.toNat 2 0 + 1

/-- BQSCL: the scale of the 32 values into its byte of the block's first lane (07 R179). -/
def bqsclResult (i : Issue) : Res :=
  let e := bqScale (lanes.map (fun l => Fmt.f32.unpack (i.a l)))
  wrote i (fun l =>
    if l = bitsOf i.x.mods2.toNat 3 0 * bqWidth (blockN i) then putByteNat (i.d l) (bitsOf i.x.mods.toNat 5 4) e else i.d l)

/-- CVTQ: packs 32 values into the lanes of a block, or unpacks them (07 R180). -/
def cvtqResult (i : Issue) : Res :=
  let n := blockN i
  let blk := bitsOf i.x.mods2.toNat 3 0
  if modBit i.x 3 then
    let e := i.b (blk * bqWidth n) / 2 ^ (8 * bitsOf i.x.mods.toNat 5 4) % 256
    wrote i (fun l => (Fmt.f32.convert 0 (bqValue n e (regMant n blk i.a l))).1)
  else
    let r := bqPack n (lanes.map (fun l => Fmt.f32.unpack (i.a l)))
    let first := blk * bqWidth n
    { wrote i (fun l => if first ≤ l ∧ l < first + bqWidth n then packWord n r.2.1 (l - first) else i.d l) with
      flags := if (i.run &&& ~~~i.hlp) ≠ 0 then r.2.2 else 0 }

/-- BQDOT: the dot product of each block in the block's lanes (07 R181). -/
def bqdotResult (i : Issue) : Res :=
  let n := blockN i
  let w := bqWidth n
  let scale := fun b sel => i.d (b * w) / 2 ^ (8 * sel) % 256
  let ps := (List.range (32 / w)).map (fun b =>
    blockDot n (scale b (bitsOf i.x.mods.toNat 4 3)) (scale b (bitsOf i.x.mods.toNat 6 5))
      (lanes.map (regMant n b i.a)) (lanes.map (regMant n b i.b)))
  { wrote i (fun l => (ps.getD (l / w) (0, 0)).1) with
    flags := if (i.run &&& ~~~i.hlp) ≠ 0 then ps.foldl (fun t p => t ||| p.2) 0 else 0 }

/-! ## Between lanes (07 R182, R184 to R189) -/

/-- The value of another lane of the quad, by the place in it (07 Table 5). -/
def quadResult (pick : Issue → Nat → Nat) (i : Issue) : Res := wrote i (fun l => i.a (l / 4 * 4 + pick i (l % 4)))

/-- The binary32 difference of two lanes of the quad, by the place in it (07 Table 5). -/
def quadDiffResult (pick : Issue → Nat → Nat × Nat) (i : Issue) : Res :=
  wroteFp i (fun l => fpSub .f32 0 (i.a (l / 4 * 4 + (pick i (l % 4)).1)) (i.a (l / 4 * 4 + (pick i (l % 4)).2)) 0)

/-- The lane that LXCH reads for lane `l`, if it lies in range (07 R185). -/
def lxchSource (i : Issue) (l : Nat) : Option Nat :=
  let w := 32 / 2 ^ bitsOf i.x.mods.toNat 4 2
  let base := l - l % w
  match bitsOf i.x.mods.toNat 1 0 with
  | 0 => some (base + i.b l % w)
  | 1 => if i.b l ≤ l - base then some (l - i.b l) else none
  | 2 => if l + i.b l < base + w then some (l + i.b l) else none
  | _ => some (base + Nat.xor (l - base) (i.b l % w))

/-- LXCH: the lane's value, or the fill, and whether the lane was in range and active or a helper (07 R185). -/
def lxchResult (i : Issue) : Res :=
  { wrote i (fun l => match lxchSource i l with
      | some j => i.a j
      | none => if modBit i.x 5 then i.d l else i.a l) with
    preds := [(bitsOf i.x.mods2.toNat 2 0, i.run, maskOf (fun l => match lxchSource i l with
      | some j => i.w.active.has j || i.hlp.has j
      | none => false))] }

/-- QRM: a vote of the participants into a predicate, or their mask and its count (07 R186). -/
def qrmResult (i : Issue) : Res :=
  let parts := (i.w.active &&& i.grd).list
  let on := parts.filter (fun l => i.w.pred (bitsOf i.x.mods3.toNat 2 0) l != i.x.mods3.getLsbD 3)
  let mode := bitsOf i.x.mods.toNat 1 0
  if mode = 3 then wrote i (fun _ => (maskOf (fun l => on.contains l)).toNat + 2 ^ 32 * on.length)
  else
    let r := match mode with
      | 0 => decide (on.length = parts.length)
      | 1 => !on.isEmpty
      | _ => decide (on.length = parts.length) || on.isEmpty
    { i.res with preds := [(bitsOf i.x.mods2.toNat 2 0, i.w.active ||| i.hlp, if r then i.w.active else 0)] }

/-- PEER: the participants with the same value, or whether all have one (07 R187). -/
def peerResult (i : Issue) : Res :=
  let ps := (i.w.active &&& i.grd).list
  let pm := maskOf (fun l => ps.contains l)
  let same := ps.all (fun l => i.a l == i.a (ps.headD 0))
  if modBit i.x 0 then
    { wrote i (fun l => if same && pm.has l then pm.toNat else 0) with
      preds := [(bitsOf i.x.mods2.toNat 2 0, i.run, if same then pm else 0)] }
  else wrote i (fun l => if pm.has l then (maskOf (fun j => pm.has j && decide (i.a j = i.a l))).toNat else 0)

/-- The width of a fold (07 R188). -/
def foldWidth (i : Issue) : Nat := if modBit i.x 5 then 64 else 32

/-- WFOLD: the participants' values combined in a tree of five levels (07 R188). -/
def wfoldResult (i : Issue) : Res :=
  let ps := (i.w.active &&& i.grd).list
  let r := foldTree (foldCombine (bitsOf i.x.mods.toNat 3 0) (foldWidth i) (modBit i.x 4)) 5
    (lanes.map (fun l => if ps.contains l then some (i.a l) else none))
  { wrote i (fun l => if ps.contains l then r.1.getD 0 else 0) with flags := r.2 }

/-- PREFIX: the running folds by rank, without the own value under EXCL (07 R188). -/
def prefixResult (i : Issue) : Res :=
  let op := bitsOf i.x.mods.toNat 3 0
  let ps := (i.w.active &&& i.grd).list
  let vals := ps.map i.a
  let r := prefixFold (foldCombine op (foldWidth i) (modBit i.x 4)) none (if modBit i.x 6 then vals.dropLast else vals)
  let outs := if modBit i.x 6 then foldIdentity op (foldWidth i) (modBit i.x 4) :: r.1 else r.1
  { wrote i (fun l => match (ps.zip outs).find? (fun p => p.1 == l) with | some p => p.2 | none => 0) with flags := r.2 }

/-- ISECT: the merge of two sorted runs of keys (07 R189). -/
def isectResult (i : Issue) : Res :=
  let ps := (i.w.active &&& i.grd).list
  let lim := fun n => min (n % 64) ps.length
  let key := fun n => intVal (modBit i.x 1) n 32
  let r := isectLoop (fun u v => decide (key u < key v)) 64
    ((ps.map i.a).take (lim (i.d 0))) ((ps.map i.b).take (lim (i.d 0 / 256))) 0 0
  let rank := fun l => (ps.filter (fun j => decide (j < l))).length
  { wrote i (fun l =>
      if ps.contains l then
        r.2.2 * 2 ^ 24 + r.2.1 * 2 ^ 16 + (match r.1[rank l]? with | some p => p.2 * 256 + p.1 | none => 0)
      else 0) with
    preds := [(bitsOf i.x.mods2.toNat 2 0, i.run, maskOf (fun l => ps.contains l && decide (rank l < r.1.length)))] }

end Sys2Proof.Machine

/-- FADD, FSUB, FMUL, FFMA, FMIN and FMAX write their rounded result and its flags in every form, where no enabled flag is raised.
FMIN and FMAX take 07 R170's value; that a poison operand of theirs raises no NV is log 36's (DEDUCED). -/
def Obligations.SingleArithmeticCompletes : Prop :=
  AluForm .faddAlu faddSpec (fpResult .f32 (fpAdd .f32)) ∧ ImmForm .faddImm faddSpec (fpResult .f32 (fpAdd .f32)) ∧
  ExtForm .faddExt faddSpec (fpResult .f32 (fpAdd .f32)) ∧
  AluForm .fsubAlu fsubSpec (fpResult .f32 (fpSub .f32)) ∧ ImmForm .fsubImm fsubSpec (fpResult .f32 (fpSub .f32)) ∧
  ExtForm .fsubExt fsubSpec (fpResult .f32 (fpSub .f32)) ∧
  AluForm .fmulAlu fmulSpec (fpResult .f32 (fpMul .f32)) ∧ ImmForm .fmulImm fmulSpec (fpResult .f32 (fpMul .f32)) ∧
  ExtForm .fmulExt fmulSpec (fpResult .f32 (fpMul .f32)) ∧
  ExtForm .ffma (fun x => fpOp .f32 0b111111111#10 3 (fmaOp .f32 (rmOf x)) x) (fpResult .f32 (fpFma .f32)) ∧
  AluForm .fminAlu (fminmaxSpec false) (fpResult .f32 (fun _ a b _ => Fmt.f32.minMax false a b)) ∧
  ImmForm .fminImm (fminmaxSpec false) (fpResult .f32 (fun _ a b _ => Fmt.f32.minMax false a b)) ∧
  ExtForm .fminExt (fminmaxSpec false) (fpResult .f32 (fun _ a b _ => Fmt.f32.minMax false a b)) ∧
  AluForm .fmaxAlu (fminmaxSpec true) (fpResult .f32 (fun _ a b _ => Fmt.f32.minMax true a b)) ∧
  ImmForm .fmaxImm (fminmaxSpec true) (fpResult .f32 (fun _ a b _ => Fmt.f32.minMax true a b)) ∧
  ExtForm .fmaxExt (fminmaxSpec true) (fpResult .f32 (fun _ a b _ => Fmt.f32.minMax true a b))

/-- DADD, DMUL, DFMA and the packed PKADD, PKMUL and PKFMA write their rounded results and flags. -/
def Obligations.DoubleAndPackedComplete : Prop :=
  AluForm .daddAlu daddSpec (fpResult .f64 (fpAdd .f64)) ∧ ExtForm .daddExt daddSpec (fpResult .f64 (fpAdd .f64)) ∧
  AluForm .dmulAlu dmulSpec (fpResult .f64 (fpMul .f64)) ∧ ExtForm .dmulExt dmulSpec (fpResult .f64 (fpMul .f64)) ∧
  ExtForm .dfma (fun x => fpOp .f64 0b111111011#10 3 (fmaOp .f64 (rmOf x)) x) (fpResult .f64 (fpFma .f64)) ∧
  AluForm .pkaddAlu pkaddSpec (packResult fpAdd) ∧ ExtForm .pkaddExt pkaddSpec (packResult fpAdd) ∧
  AluForm .pkmulAlu pkmulSpec (packResult fpMul) ∧ ExtForm .pkmulExt pkmulSpec (packResult fpMul) ∧
  ExtForm .pkfma (fun x => packOp 0b1111111111#10 3 (fun f => fmaOp f (rmOf x)) x) (packResult fpFma)

/-- The eight transcendental instructions write the value that 07 Table 3 gives (log 10 names the evaluation that the model fixes), and
FSET, FCLASS, CVT and the block-format instructions theirs. -/
def Obligations.FloatFunctionsComplete : Prop :=
  ExtForm .frcp (transSpec 0) (fpResult .f32 (fun m a _ _ => Fmt.f32.transcendental 0 m a)) ∧
  ExtForm .frsq (transSpec 1) (fpResult .f32 (fun m a _ _ => Fmt.f32.transcendental 1 m a)) ∧
  ExtForm .fsqrt (transSpec 2) (fpResult .f32 (fun m a _ _ => Fmt.f32.transcendental 2 m a)) ∧
  ExtForm .fexp2 (transSpec 3) (fpResult .f32 (fun m a _ _ => Fmt.f32.transcendental 3 m a)) ∧
  ExtForm .flog2 (transSpec 4) (fpResult .f32 (fun m a _ _ => Fmt.f32.transcendental 4 m a)) ∧
  ExtForm .fsin (transSpec 5) (fpResult .f32 (fun m a _ _ => Fmt.f32.transcendental 5 m a)) ∧
  ExtForm .fcos (transSpec 6) (fpResult .f32 (fun m a _ _ => Fmt.f32.transcendental 6 m a)) ∧
  ExtForm .ftanh (transSpec 7) (fpResult .f32 (fun m a _ _ => Fmt.f32.transcendental 7 m a)) ∧
  ExtForm .fset fsetSpec fsetResult ∧
  ExtForm .fclass (fun _ => Spec.plain (intShape 0 (Dst.lane 32) (some (Pos.fp .f32)) none none)
    (fun i => i.out (fun l => fclassVal (i.a l)))) fclassResult ∧
  ExtForm .cvt cvtSpec cvtResult ∧ ExtForm .cvtq (fun x => if modBit x 3 then cvtqUnpack x else cvtqPack x) cvtqResult ∧
  ExtForm .bqdot bqdotSpec bqdotResult ∧ ExtForm .bqscl bqsclSpec bqsclResult

/-- QSWZ, QBC, QDX, QDY, LXCH, QRM, PEER, WFOLD, PREFIX and ISECT write what 07 R182 and R184 to R189 give. -/
def Obligations.LaneExchangeCompletes : Prop :=
  ExtForm .qswz (fun x => quadMove 0b1011111111#10 (fun p => modField x 7 0 / 4 ^ p % 4) x)
    (quadResult (fun i p => bitsOf i.x.mods.toNat 7 0 / 4 ^ p % 4)) ∧
  ExtForm .qbc (fun x => quadMove 0b1000000011#10 (fun _ => modField x 1 0) x)
    (quadResult (fun i _ => bitsOf i.x.mods.toNat 1 0)) ∧
  ExtForm .qdx (fun x => quadDiff (fun p => if modBit x 0 ∨ p < 2 then (1, 0) else (3, 2)) x)
    (quadDiffResult (fun i p => if modBit i.x 0 ∨ p < 2 then (1, 0) else (3, 2))) ∧
  ExtForm .qdy (fun x => quadDiff (fun p => if modBit x 0 ∨ p % 2 = 0 then (2, 0) else (3, 1)) x)
    (quadDiffResult (fun i p => if modBit i.x 0 ∨ p % 2 = 0 then (2, 0) else (3, 1))) ∧
  ExtForm .lxch lxchSpec lxchResult ∧ ExtForm .qrm qrmSpec qrmResult ∧ ExtForm .peer peerSpec peerResult ∧
  ExtForm .wfold wfoldSpec wfoldResult ∧ ExtForm .prefixFold prefixSpec prefixResult ∧ ExtForm .isect isectSpec isectResult

namespace Sys2Proof.Machine

/-! ## Control (02 R36 to R41; 06 R156 to R165) -/

/-- The direct target, exactly: OFF words from the instruction's own word 0 (06 R157). -/
def targetOf (i : Issue) : Int := (i.w.pc.toNat : Int) + 4 * sextNat (i.b 0) 64
/-- Whether a direct target lies in [0, 2^52) (06 R157). -/
abbrev targetLegal (i : Issue) : Prop := 0 ≤ targetOf i ∧ targetOf i < (2 : Int) ^ 52
/-- A direct target as an address. -/
def targetPc (i : Issue) : VAddr := BitVec.ofNat 52 (targetOf i).toNat
/-- Whether an indirect target is a multiple of 4 below 2^52 (06 R157). -/
abbrev indirectLegal (i : Issue) : Prop := i.a 0 % 4 = 0 ∧ i.a 0 < 2 ^ 52
/-- IL-OPC with the exact target, wrapped to 64 bits, as TVAL (09 Table 14). -/
def targetTrap (t : Int) : Trap := { cause := 0x01, tval := BitVec.ofNat 64 (wrapInt t 64) }

/-- A branch to the direct target. -/
def branchResult (i : Issue) : Res := { i.res with next := some (targetPc i) }
/-- BRP: taken when its test of the active lanes' guards holds (06 R158). -/
def brpResult (i : Issue) : Res :=
  let any := (i.w.active &&& i.grd) != 0
  let all := (i.w.active &&& ~~~i.grd) == 0
  { i.res with next := if (if bitsOf i.x.mods.toNat 1 0 = 0 then any else all) then some (targetPc i) else none }
/-- CALL: the link is the next instruction's address (06 R158). -/
def callResult (i : Issue) : Res := { wrote i (fun _ => i.nextPc.toNat) with next := some (targetPc i) }
/-- CALLI, RET and JMPI: the target is srcA's value; DST, where there is one, takes the next instruction's address. -/
def indirectResult (i : Issue) : Res :=
  { wrote i (fun _ => i.nextPc.toNat) with next := some (BitVec.ofNat 52 (i.a 0)) }

/-- BRX (02 R36): an entry with the lanes that do not go; where none goes, an empty entry and no branch. -/
def brxResult (i : Issue) : Res :=
  let taken := i.w.active &&& i.grd
  let s := i.s.modWarp i.c i.slot (fun w =>
    { w with
      split := { pc := i.nextPc, mask := if taken = 0 then 0 else w.active &&& ~~~taken, w := false } :: w.split
      active := if taken = 0 then w.active else taken })
  { i.res with s := s, next := if taken = 0 then none else some (targetPc i) }
/-- The split stack has room for one more entry (02 R36), and the target is legal. -/
abbrev brxOk (i : Issue) : Prop := i.w.split.length < 16 ∧ targetLegal i

/-- JOIN (02 R37): a PC has bits [1:0] zero (03 R69). An entry that has run both ways rejoins; an empty one is dropped; any other is swapped with the lanes that ran. -/
def joinResult (i : Issue) : Res :=
  match i.w.split with
  | [] => i.res
  | t :: rest =>
    if t.w then { i.res with s := i.s.modWarp i.c i.slot (fun w => { w with split := rest, active := w.active ||| t.mask }) }
    else if t.mask = 0 then { i.res with s := i.s.modWarp i.c i.slot (fun w => { w with split := rest }) }
    else
      let s := i.s.modWarp i.c i.slot (fun w =>
        { w with split := { pc := i.w.pc, mask := i.w.active, w := true } :: rest, active := t.mask })
      { i.res with s := s, next := some (wordPc t.pc) }
/-- JOIN does not meet an empty stack with spilled entries (02 R38). -/
abbrev joinOk (i : Issue) : Prop := i.w.split = [] → i.w.splCount = 0

/-- The split stack without the lanes that exit (02 R39). -/
def splitWithout (i : Issue) : List SplitEntry :=
  i.w.split.map (fun e => { e with mask := e.mask &&& ~~~(i.w.active &&& i.grd) })
/-- The warp with the lanes of its guard exited. -/
def warpWithout (i : Issue) : Warp :=
  { i.w with
    exited := i.w.exited ||| (i.w.active &&& i.grd), active := i.w.active &&& ~~~(i.w.active &&& i.grd), split := splitWithout i }
/-- EXIT (02 R39): lanes left go on; else the topmost entry that still holds lanes is resumed; else the warp has exited. -/
def exitResult (i : Issue) : Res :=
  let w1 := warpWithout i
  if w1.active ≠ 0 then { i.res with s := i.s.setWarp i.c i.slot w1 }
  else
    match (splitWithout i).dropWhile (fun e => e.mask == 0) with
    | [] =>
      let s := i.s.setWarp i.c i.slot { w1 with split := [], exited := w1.exited ||| w1.idle, idle := 0 }
      { i.res with s := s.warpExited i.c i.w.gid }
    | t :: rest =>
      if t.w then
        let r := i.s.nextInstr i.c i.g.asid (wordPc t.pc)
        { i.res with s := r.1.setWarp i.c i.slot { w1 with split := rest, active := t.mask }, next := some r.2 }
      else
        let s := i.s.setWarp i.c i.slot { w1 with split := { t with mask := 0, w := true } :: rest, active := t.mask }
        { i.res with s := s, next := some (wordPc t.pc) }
/-- EXIT of every lane does not meet spilled entries (02 R38). -/
abbrev exitOk (i : Issue) : Prop :=
  ¬((warpWithout i).active = 0 ∧ i.w.split.all (fun e => (e.mask &&& ~~~(i.w.active &&& i.grd)) == 0) ∧ i.w.splCount ≠ 0)

/-- The lanes that RECAST deals items to: idle ones, and the active ones of its guard (02 R40). -/
def recastLanes (i : Issue) : Mask := i.w.idle ||| (i.w.active &&& i.grd)
/-- The items that a RECAST may take: those accepted in an earlier cycle (14 R350). -/
def readyItems (i : Issue) : List DWord := i.g.castQ.take (i.g.castQ.length - i.g.castNew)
/-- RECAST blocks: no item is ready, one may still come, and no active lane would go on without an item (02 R41). -/
abbrev recastBlocks (i : Issue) : Prop :=
  recastLanes i ≠ 0 ∧ ((readyItems i).isEmpty && (i.g.castOpen || i.g.castNew != 0) && (i.w.active &&& ~~~i.grd) == 0) = true
/-- The items dealt, by lane. -/
def recastDeal (i : Issue) : List (Nat × DWord) := (recastLanes i).list.zip (readyItems i)
/-- RECAST (02 R40, R41): the items leave the queue; without any active lane left, the warp branches with its idle lanes active. -/
def recastResult (i : Issue) : Res :=
  let pair := vecNum i.x.dst
  if recastLanes i = 0 then { i.res with claims := [pair, pair + 1] }
  else
    let ds := recastDeal i
    let w1 := refill i.w pair (recastLanes i) ds
    let s1 := (i.s.modGroup i.c i.w.gid (fun g => { g with castQ := g.castQ.drop ds.length })).countCore i.c 0x26 ds.length
    if w1.active ≠ 0 then { i.res with s := s1.setWarp i.c i.slot w1, claims := [pair, pair + 1] }
    else
      let s := s1.setWarp i.c i.slot { w1 with active := w1.idle, idle := 0 }
      { i.res with s := s, next := some (targetPc i), claims := [pair, pair + 1] }
/-- RECAST goes on, to a legal target. -/
abbrev recastOk (i : Issue) : Prop := ¬recastBlocks i ∧ targetLegal i

/-- YIELD: the scheduler's current run counts as spent (06 R163; 02 R34). -/
def yieldResult (i : Issue) : Res :=
  { i.res with s := i.s.modSched i.c (schedOf i.slot) (fun q => if q.cur = some i.slot then { q with yielded := true } else q) }
/-- NOP. -/
def nopResult (i : Issue) : Res := i.res
/-- A deliberate trap: its own result changes nothing but the PC (06 R165). -/
def codeResult (cause : Nat) (i : Issue) : Res := { i.res with after := some { cause := cause, tval := BitVec.ofNat 64 (i.b 0) } }
/-- The trap of BKPT, TRAP or SVC: TVAL holds the code (06 R165). -/
def codeTrap (cause : Nat) (i : Issue) : Trap := { cause := cause, tval := BitVec.ofNat 64 (i.b 0) }
/-- Some active lane has its guard (06 R165). -/
abbrev someGuard (i : Issue) : Prop := i.w.active &&& i.grd ≠ 0

end Sys2Proof.Machine

/-- BRA, BRP, CALL, CALLI, RET and JMPI, in every form: with a legal target the PC takes it (BRP where its test holds), and a link register
the address of the next instruction. -/
def Obligations.BranchesComplete : Prop :=
  BrForm .braBr braSpec (.v 0) targetLegal branchResult ∧ ExtFormWhen .braExt (fun _ => braSpec) targetLegal branchResult ∧
  ExtFormWhen .brp brpSpec targetLegal brpResult ∧
  BrForm .callBr callSpec (.s 15) targetLegal callResult ∧ ExtFormWhen .callExt (fun _ => callSpec) targetLegal callResult ∧
  AluFormWhen .calliAlu (indirectSpec false true) indirectLegal indirectResult ∧
  ExtFormWhen .calliExt (indirectSpec true true) indirectLegal indirectResult ∧
  AluFormWhen .retAlu (indirectSpec false false) indirectLegal indirectResult ∧
  ExtFormWhen .retExt (indirectSpec true false) indirectLegal indirectResult ∧
  AluFormWhen .jmpiAlu (indirectSpec false false) indirectLegal indirectResult ∧
  ExtFormWhen .jmpiExt (indirectSpec true false) indirectLegal indirectResult

/-- A direct target outside [0, 2^52), and an indirect one with bits [1:0] or [63:52] not zero, raise IL-OPC with the target as TVAL, in the
base and the extended forms (06 R157), RECAST's whether or not it is taken (DEDUCED, log 38); BRX on a full stack raises SPLIT-OVF with TVAL 0,
before a target that is illegal too (DESIGN CHOICE, log 41), JOIN and EXIT that would need spilled entries with TVAL 1. -/
def Obligations.BadTargetsAndSplitsTrap : Prop :=
  let direct := fun (i : Issue) => i.s.takeTrap i.c i.slot (targetTrap (targetOf i)) false
  let indirect := fun (i : Issue) => i.s.takeTrap i.c i.slot { cause := 0x01, tval := BitVec.ofNat 64 (i.a 0) } false
  let split := fun (v : DWord) (i : Issue) => i.s.takeTrap i.c i.slot { cause := 0x18, tval := v } false
  BrLeaves .braBr braSpec (.v 0) (fun i => ¬targetLegal i) direct ∧
  ExtLeaves .braExt (fun _ => braSpec) (fun i => ¬targetLegal i) direct ∧
  ExtLeaves .brp brpSpec (fun i => ¬targetLegal i) direct ∧
  BrLeaves .callBr callSpec (.s 15) (fun i => ¬targetLegal i) direct ∧
  ExtLeaves .callExt (fun _ => callSpec) (fun i => ¬targetLegal i) direct ∧
  ExtLeaves .brx (fun _ => brxSpec) (fun i => i.w.split.length < 16 ∧ ¬targetLegal i) direct ∧
  ExtLeaves .recast recastSpec (fun i => ¬targetLegal i) direct ∧
  AluLeaves .calliAlu (indirectSpec false true) (fun i => ¬indirectLegal i) indirect ∧
  ExtLeaves .calliExt (indirectSpec true true) (fun i => ¬indirectLegal i) indirect ∧
  AluLeaves .retAlu (indirectSpec false false) (fun i => ¬indirectLegal i) indirect ∧
  ExtLeaves .retExt (indirectSpec true false) (fun i => ¬indirectLegal i) indirect ∧
  AluLeaves .jmpiAlu (indirectSpec false false) (fun i => ¬indirectLegal i) indirect ∧
  ExtLeaves .jmpiExt (indirectSpec true false) (fun i => ¬indirectLegal i) indirect ∧
  ExtLeaves .brx (fun _ => brxSpec) (fun i => 16 ≤ i.w.split.length) (split 0) ∧
  AluLeaves .joinAlu joinSpec (fun i => ¬joinOk i) (split 1) ∧ ExtLeaves .joinExt joinSpec (fun i => ¬joinOk i) (split 1) ∧
  AluLeaves .exitAlu exitSpec (fun i => ¬exitOk i) (split 1) ∧ ExtLeaves .exitExt exitSpec (fun i => ¬exitOk i) (split 1)

/-- BRX, JOIN, EXIT and RECAST change the lane masks and the split stack as 02 R36 to R41 say; RECAST on an empty open queue blocks. -/
def Obligations.DivergenceCompletes : Prop :=
  ExtFormWhen .brx (fun _ => brxSpec) brxOk brxResult ∧
  AluFormWhen .joinAlu joinSpec joinOk joinResult ∧ ExtFormWhen .joinExt joinSpec joinOk joinResult ∧
  AluFormWhen .exitAlu exitSpec exitOk exitResult ∧ ExtFormWhen .exitExt exitSpec exitOk exitResult ∧
  ExtFormWhen .recast recastSpec recastOk recastResult ∧
  (∀ x s c slot w g, Acts s c slot w g →
    let i := mkIssue s c slot w g (recastSpec x).shape x (extLen x)
    Ready (recastSpec x) false i → recastBlocks i → targetLegal i →
      exec (.recast x) s = .next (countIssue (recastSpec x).shape i
        (s.blockIn c slot { instr := .recast x, len := extLen x, start := 0, tag := none, lns := [], flushes := 0 })))

/-- YIELD ends its warp's turn and NOP changes the PC only; BKPT, TRAP and SVC complete and then take their trap, with the code as TVAL, BKPT
and TRAP where some active lane has its guard, SVC always. -/
def Obligations.YieldNopAndTrapsComplete : Prop :=
  AluFormWhen .yieldAlu yieldSpec (fun _ => True) yieldResult ∧ ExtFormWhen .yieldExt yieldSpec (fun _ => True) yieldResult ∧
  AluForm .nopAlu nopSpec nopResult ∧ ExtForm .nopExt nopSpec nopResult ∧
  ImmTraps .bkptImm (codeTrapSpec 0x21 false) someGuard (codeResult 0x21) (codeTrap 0x21) ∧
  ExtTraps .bkptExt (codeTrapSpec 0x21 false) someGuard (codeResult 0x21) (codeTrap 0x21) ∧
  ImmTraps .trapImm (codeTrapSpec 0x22 false) someGuard (codeResult 0x22) (codeTrap 0x22) ∧
  ExtTraps .trapExt (codeTrapSpec 0x22 false) someGuard (codeResult 0x22) (codeTrap 0x22) ∧
  ImmTraps .svcImm (codeTrapSpec 0x20 true) (fun _ => True) (codeResult 0x20) (codeTrap 0x20) ∧
  ExtTraps .svcExt (codeTrapSpec 0x20 true) (fun _ => True) (codeResult 0x20) (codeTrap 0x20) ∧
  ExtForm .bkptExt (codeTrapSpec 0x21 false) (fun i => if i.w.active &&& i.grd = 0 then i.res else codeResult 0x21 i) ∧
  ExtForm .trapExt (codeTrapSpec 0x22 false) (fun i => if i.w.active &&& i.grd = 0 then i.res else codeResult 0x22 i)

namespace Sys2Proof.Machine

/-! ## System registers and the split stack (09 R215 to R237) -/

/-- The result of an instruction that changes its warp and nothing else. -/
def onWarp (i : Issue) (f : Warp → Warp) : Res := { i.res with s := i.s.modWarp i.c i.slot f }
/-- The result of an instruction that changes its group and nothing else. -/
def onGroup (i : Issue) (f : Group → Group) : Res := { i.res with s := i.s.modGroup i.c i.w.gid f }

/-- MFS: the register that MODS names (09 Tables 1 to 10); a read of ERRSTAT clears its counts. -/
def mfsResult (i : Issue) : Res :=
  { wrote i (fun _ => sysRead i.k i.g i.w i.x.mods.toNat) with
    s := if i.x.mods.toNat = 0x31 then i.s.modCore i.c (fun k => { k with cecnt := 0, uecnt := 0 }) else i.s }

/-- MTS of a register other than SSCMD: the fields that it writes (09 R217 to R224). -/
def mtsResult (i : Issue) : Res :=
  let v := i.a 0
  match i.x.mods.toNat with
  | 0x04 => onWarp i (fun w => { w with tframe := BitVec.ofNat 18 (bitsOf v 17 7 * 128) })
  | 0x05 => onWarp i (fun w => { w with
      splCount := BitVec.ofNat 12 (bitsOf v 55 44), splLimit := BitVec.ofNat 12 (bitsOf v 43 32), splBase := BitVec.ofNat 18 (bitsOf v 17 4 * 16) })
  | 0x06 => onWarp i (fun w => { w with sslo := BitVec.ofNat 52 v })
  | 0x07 => onWarp i (fun w => { w with sshiW := decide (bitsOf v 32 32 = 1), sshiMask := BitVec.ofNat 32 v })
  | 0x20 => onGroup i (fun g => { g with asyncen := decide (bitsOf v 1 1 = 1) })
  | 0x21 => onGroup i (fun g => { g with fpEn := BitVec.ofNat 5 (bitsOf v 12 8), fpFlags := g.fpFlags &&& ~~~(BitVec.ofNat 5 v) })
  | 0x22 => onGroup i (fun g => { g with clen := BitVec.ofNat 2 (bitsOf v 17 16), thresh := BitVec.ofNat 16 v })
  | _ => { i.res with s := i.s.modCore i.c (fun k => { k with budgetNext := min 128 (v % 256) }) }
/-- The registers that MTS writes, SSCMD apart (09 Table 1). -/
abbrev mtsPlain (i : Issue) : Prop := i.x.mods.toNat ∈ [0x04, 0x05, 0x06, 0x07, 0x20, 0x21, 0x22, 0x32]

/-- CLRERR: GROUPSTAT forgets its failures (09 R235). -/
def clrerrResult (i : Issue) : Res := onGroup i (fun g => { g with err := false, nfail := 0, fstat := 0, ftl := 0, fseq := 0 })
/-- HALT (09 R237). -/
def haltResult (i : Issue) : Res := onWarp i (fun w => { w with halted := true })
/-- The warp is in handler state. -/
abbrev inHandler (i : Issue) : Prop := i.w.handler = true

/-- The state once the warp's store queue has drained (09 R225). -/
def quiet (i : Issue) : State := i.s.drain i.c i.slot
/-- The warp then. -/
def quietWarp (i : Issue) : Warp := ((quiet i).warp? i.c i.slot).getD i.w
/-- The entries that SPILL moves (09 Table 9). -/
def spillK (i : Issue) : Nat := min 8 (min (quietWarp i).split.length ((quietWarp i).splLimit.toNat - (quietWarp i).splCount.toNat))
/-- SPILL has an entry to move, and room for it in scratchpad. -/
abbrev spillOk (i : Issue) : Prop :=
  0 < spillK i ∧ spillTrap i.g (quietWarp i) (quietWarp i).splCount.toNat ((quietWarp i).splCount.toNat + spillK i) = none
/-- SPILL: the bottom entries, each a store of 16 bytes at the end of the spilled ones. -/
def spillResult (i : Issue) : Res := { i.res with s := (quiet i).setWarp i.c i.slot (spillEntries (spillK i) (quietWarp i)) }
/-- The entries that FILL moves. -/
def fillK (i : Issue) : Nat := min 8 (min (quietWarp i).splCount.toNat (16 - (quietWarp i).split.length))
/-- FILL has an entry to move, which lies in scratchpad and has no uncorrectable error. -/
abbrev fillOk (i : Issue) : Prop :=
  let first := (quietWarp i).splCount.toNat - fillK i
  0 < fillK i ∧ spillTrap i.g (quietWarp i) first (quietWarp i).splCount.toNat = none ∧
  ∀ j ∈ List.range (16 * fillK i), localPoison ((quiet i).core i.c) i.g ((quietWarp i).spillAddr first + j) = false
/-- FILL: the last spilled entries go below the bottom one. -/
def fillResult (i : Issue) : Res :=
  { i.res with s := (quiet i).setWarp i.c i.slot (fillEntries ((quiet i).core i.c) i.g (fillK i) (quietWarp i)) }
/-- POP: the top entry goes to SSLO and SSHI. -/
def popResult (i : Issue) : Res :=
  match i.w.split with
  | [] => i.res
  | e :: t => { i.res with s := (quiet i).modWarp i.c i.slot (fun w => { w with split := t, sslo := e.pc, sshiW := e.w, sshiMask := e.mask }) }
/-- PUSH: an entry made of SSLO and SSHI becomes the top one. -/
def pushResult (i : Issue) : Res :=
  { i.res with s := (quiet i).modWarp i.c i.slot (fun w => { w with split := { pc := w.sslo, mask := w.sshiMask, w := w.sshiW } :: w.split }) }

/-- The warp's store queue is empty, so that there is nothing to drain (11 R271). -/
abbrev calm (i : Issue) : Prop := i.w.storeQ = []
/-- With an empty store queue, SPILL has `spillN` entries to move, and they fit the scratchpad behind the spilled ones (09 Table 9). -/
abbrev spillN (i : Issue) : Nat := min 8 (min i.w.split.length (i.w.splLimit.toNat - i.w.splCount.toNat))
/-- SPILL's conditions. -/
abbrev spillPlain (i : Issue) : Prop := calm i ∧ 0 < spillN i ∧ i.w.splBase.toNat + 16 * (i.w.splCount.toNat + spillN i) ≤ i.g.scrSize
/-- FILL has `fillN` entries to move. -/
abbrev fillN (i : Issue) : Nat := min 8 (min i.w.splCount.toNat (16 - i.w.split.length))
/-- FILL's conditions: they lie in the scratchpad and hold no uncorrectable error. -/
abbrev fillPlain (i : Issue) : Prop :=
  calm i ∧ 0 < fillN i ∧ i.w.splBase.toNat + 16 * i.w.splCount.toNat ≤ i.g.scrSize ∧
  ∀ j, j < 16 * fillN i → localPoison i.k i.g (i.w.splBase.toNat + 16 * (i.w.splCount.toNat - fillN i) + j) = false
/-- ERET's conditions: handler state, an empty store queue, a frame that lies in the scratchpad, holds no uncorrectable error and passes the
checks of 09 R233, and no restore under way. -/
abbrev returnPlain (i : Issue) : Prop :=
  inHandler i ∧ calm i ∧ i.g.restoring = false ∧ i.w.tframe.toNat + 0x400 ≤ i.g.scrSize ∧
  (∀ n, n < 256 → localPoison i.k i.g (i.w.tframe.toNat + 4 * n) = false) ∧ frameGood i.k i.g i.w = true
/-- The state that ERET returns to: the warp as its frame restores it, its age counted from here, and its next instruction 24 cycles off (09
R233; 02 R34). -/
def returned (i : Issue) : State :=
  countIssue Shape.bare i
    ((i.s.setWarp i.c i.slot { i.w.restore i.k i.g with since := i.k.cycle.toNat, due := [(.pc, i.k.cycle.toNat + 24)] }).leaveSched i.c i.slot)

/-! ## Local memory (12 R286 to R296; 11 R270) -/

/-- The address of lane `l` (12 R288). -/
def laneAddr (i : Issue) (l : Nat) : Nat := effAddr (i.a l) (i.d l)
/-- Lane `l`'s access of `n` bytes at `a` is aligned and lies in the scratchpad, or where allowed in the register window (12 R288). -/
def laneFits (i : Issue) (n : Nat) (win : Bool) (a : Nat) : Bool := localOk i.k i.w.gid i.g a n win
/-- Every lane that executes and is no helper makes a legal access. -/
abbrev lanesOk (i : Issue) (n : Nat) (win : Bool) (addr : Nat → Nat) : Prop :=
  ∀ l ∈ i.run.list, i.hlp.has l = false → laneFits i n win (addr l) = true
/-- The lanes that execute and are no helpers. -/
def ownLanes (i : Issue) : List Nat := i.run.list.filter (fun l => !i.hlp.has l)
/-- The lowest of them whose access is not legal. -/
def badLane (i : Issue) (n : Nat) (win : Bool) (addr : Nat → Nat) : Nat := ((ownLanes i).filter (fun l => !(laneFits i n win (addr l)))).headD 0

/-- A load of `n` bytes joins the warp's outstanding loads, with the lanes that have read already (helpers, 12 R288). -/
def addsLoad (i : Issue) (kind : LoadKind) (n : Nat) (sext : Bool) (dst : Nat) (ls : List Nat) (done : Nat → Bool) (w : Warp) : Warp :=
  { w with
    loads := w.loads ++ [{
      id := w.loadId, kind := kind, helpers := i.hlp, dst := dst, size := n, sext := sext, seq := w.sqSeq, bad := none
      lns := ls.map (fun l => { lane := l, ea := laneAddr i l, got := if done l then some (0, false) else none }) }]
    loadId := w.loadId + 1 }
/-- A counted load into DST: `ld` rises, and DST's registers are live from now on (12 R289; 05 R124). -/
def loadResult (kind : LoadKind) (n : Nat) (sext win : Bool) (i : Issue) : Res :=
  let d := vecNum i.x.dst
  { onWarp i (fun w => { addsLoad i kind n sext d i.run.list (fun l => !(laneFits i n win (laneAddr i l))) w with ld := w.ld + 1 }) with
    claims := if n = 8 then [d, d + 1] else [d] }
/-- TAGS and TAGC: an uncounted access of the lanes that are no helpers (12 R293). -/
def tagsResult (kind : LoadKind) (i : Issue) : Res :=
  onWarp i (fun w => addsLoad i kind (szBytes i.x) false 0 (ownLanes i) (fun l => !(laneFits i (szBytes i.x) false (laneAddr i l))) w)
/-- STS: one entry of the store queue with the bytes of every lane that is no helper, in ascending lane order (12 R289; 11 R270). -/
def storeResult (i : Issue) : Res :=
  onWarp i (fun w => { w with
    storeQ := w.storeQ ++ [{ seq := w.sqSeq, counted := true,
                             body := .store ((ownLanes i).flatMap (fun l => withAddrs (laneAddr i l) (toBytes (i.b l) (szBytes i.x)))) }]
    sqSeq := w.sqSeq + 1, st := w.st + 1 })

/-- The address of a shared atomic: CAS has no offset (12 R294). -/
def atomAddr (i : Issue) (l : Nat) : Nat := effAddr (i.a l) (if atsOp i.x = 7 then 0 else i.d l)
/-- The entry of a shared atomic: each lane's address, operand and compare value. -/
def atomBody (i : Issue) (load : Option Nat) : SqBody :=
  .atomic (atsOp i.x) (szBytes i.x) (atsNat i.x)
    ((ownLanes i).map (fun l => { lane := l, addr := atomAddr i l, operand := i.b l, cmp := i.d l })) load
/-- ATSN: a counted entry of the store queue (12 R294). -/
def atsnResult (i : Issue) : Res :=
  onWarp i (fun w => { w with
    storeQ := w.storeQ ++ [{ seq := w.sqSeq, counted := true, body := atomBody i none }], sqSeq := w.sqSeq + 1, st := w.st + 1 })
/-- ATS: an entry of the store queue, and an outstanding load that it answers. -/
def atsResult (i : Issue) : Res :=
  let d := vecNum i.x.dst
  let n := szBytes i.x
  { onWarp i (fun w => { w with
      loads := w.loads ++ [{
        id := w.loadId, kind := .ats, helpers := i.hlp, dst := d, size := n, sext := false, seq := w.sqSeq, bad := none
        lns := i.run.list.map (fun l => { lane := l, ea := atomAddr i l,
                                          got := if laneFits i n false (atomAddr i l) && !i.hlp.has l then none else some (0, false) }) }]
      loadId := w.loadId + 1, ld := w.ld + 1
      storeQ := w.storeQ ++ [{ seq := w.sqSeq, counted := false, body := atomBody i (some w.loadId) }], sqSeq := w.sqSeq + 1 }) with
    claims := if n = 8 then [d, d + 1] else [d] }

/-- LOCAL-ADDR of the lowest lane that is no helper and whose access is not legal (12 R288). -/
def accessTraps (n : Issue → Nat) (win : Bool) (addr : Issue → Nat → Nat) (i : Issue) : State :=
  i.s.takeTrap i.c i.slot { cause := 0x08, tval := BitVec.ofNat 64 (addr i (badLane i (n i) win (addr i))) } false

/-- The lanes of LDSF and STSE, with their addresses and operands: those of the issue, which a wait keeps (12 R291; 10 R261). -/
def tagLanesOf (i : Issue) : List AtomLane :=
  match i.w.waiting with
  | some t => t.lns
  | none => i.run.list.map (fun l => { lane := l, addr := laneAddr i l, operand := i.b l, cmp := 0 })
/-- Of those, the lanes that are no helpers. -/
def tagOwn (i : Issue) : List AtomLane := (tagLanesOf i).filter (fun t => !i.hlp.has t.lane)
/-- Their words (12 R291). -/
def tagWordsOf (i : Issue) : List Nat := (tagOwn i).flatMap (fun t => wordsCovered i.g t.addr (szBytes i.x))
/-- Once its queue has drained, a tag access finds every word full, or empty, none of them changed in this cycle, and no earlier waiter
first (10 R261). -/
def tagsFree (full : Bool) (i : Issue) : Bool :=
  let k := (quiet i).core i.c
  wordsReady k (tagWordsOf i) full && k.untagged (tagWordsOf i) && !(someoneFirst k (.warp i.slot) (tagWordsOf i))
/-- LDSF and STSE act: at once, or when their wait ends. -/
abbrev tagsReady (full : Bool) (i : Issue) : Prop :=
  (full = true → i.w.ld < 63) ∧ (i.w.waiting = none → lanesOk i (szBytes i.x) false (laneAddr i)) ∧ tagsFree full i = true
/-- LDSF and STSE do not act at once. -/
abbrev tagsBlocked (full : Bool) (i : Issue) : Prop :=
  i.w.waiting = none ∧ (full = true → i.w.ld < 63) ∧ lanesOk i (szBytes i.x) false (laneAddr i) ∧ tagsFree full i = false
/-- STSE: the words written and their tags set full, in one event (12 R291; 10 R260). -/
def stseResult (i : Issue) : Res :=
  let bytes := (tagOwn i).flatMap (fun t => withAddrs t.addr (toBytes t.operand (szBytes i.x)))
  { i.res with
    s := (quiet i).setCore i.c ((setTags (localWrite ((quiet i).core i.c) i.g bytes) (tagWordsOf i) true).unwait (.warp i.slot)) }
/-- The load of an LDSF: every lane has read its word (12 R291). -/
def ldsfLoad (i : Issue) : LoadOp :=
  let k := (quiet i).core i.c
  let n := szBytes i.x
  let lane := fun (t : AtomLane) => ({
    lane := t.lane, ea := t.addr
    got := if localOk k i.w.gid i.g t.addr n false then some (ofBytes (localRead k i.g t.addr n),
      (List.range n).any (fun j => localPoison k i.g (t.addr + j))) else some (0, false) } : LaneLoad)
  LoadOp.noteBad {
    id := i.w.loadId, kind := .ldsf, helpers := i.hlp, dst := vecNum i.x.dst, size := n, sext := false, seq := i.w.sqSeq, bad := none
    lns := (tagLanesOf i).map lane }
/-- LDSF: the words read and their tags set empty, in one event; the values land later. -/
def ldsfResult (i : Issue) : Res :=
  let d := vecNum i.x.dst
  let s1 := (quiet i).setCore i.c ((setTags ((quiet i).core i.c) (tagWordsOf i) false).unwait (.warp i.slot))
  let s2 := match (ldsfLoad i).bad with | some _ => s1.uncorrectable i.c 0x04 | none => s1
  { i.res with
    s := s2.modWarp i.c i.slot (fun w => { w with loads := w.loads ++ [ldsfLoad i], loadId := w.loadId + 1, ld := w.ld + 1 })
    claims := if szBytes i.x = 8 then [d, d + 1] else [d] }
/-- The state in which LDSF or STSE waits: counted, at the end of the core's list of waiters, with its addresses and operands (10 R261). -/
def tagWaits (full : Bool) (sh : Shape) (ins : Instr) (i : Issue) : State :=
  let s1 := ((quiet i).modCore i.c (fun k => { k with tagQ := k.tagQ ++ [.warp i.slot] })).countCore i.c 0x22 1
  countIssue sh i (s1.blockIn i.c i.slot {
    instr := ins, len := i.len, start := ((quiet i).core i.c).cycle.toNat, tag := some (full, szBytes i.x), lns := tagLanesOf i, flushes := 0 })

end Sys2Proof.Machine

/-- MFS, MTS of every register but SSCMD, CLRERR, and HALT in handler state complete with what 09 R215 to R224, R235 and R237 give. -/
def Obligations.SystemRegistersComplete : Prop :=
  ExtForm .mfs mfsSpec mfsResult ∧ ExtFormWhen .mts mtsSpec mtsPlain mtsResult ∧ ExtForm .clrerr clrerrSpec clrerrResult ∧
  ExtFormWhen .halt haltSpec inHandler haltResult

/-- SSCMD's SPILL, FILL, POP and PUSH, by their immediates and by an MTS of a register's value, do what 09 Table 9 gives; with nothing to move
they raise IL-OPND with TVAL 0x008, and so does any other value. Each is said first for an empty store queue, where the conditions are those of
the warp's registers and of scratchpad alone, then with what is left once the queue has drained. -/
def Obligations.SplitStackCommandsComplete : Prop :=
  let refused := fun (i : Issue) => i.s.takeTrap i.c i.slot { cause := 0x05, tval := 8 } false
  ExtFormWhen .sscmdSpill (sscmdSpec doSpill) spillPlain (fun i => onWarp i (spillEntries (spillN i))) ∧
  ExtFormWhen .sscmdFill (sscmdSpec doFill) fillPlain (fun i => onWarp i (fillEntries i.k i.g (fillN i))) ∧
  (∀ e rest, ExtFormWhen .sscmdPop (sscmdSpec doPop) (fun i => calm i ∧ i.w.split = e :: rest)
    (fun i => onWarp i (fun w => { w with split := rest, sslo := e.pc, sshiW := e.w, sshiMask := e.mask }))) ∧
  ExtFormWhen .sscmdPush (sscmdSpec doPush) (fun i => calm i ∧ i.w.split.length < 16)
    (fun i => onWarp i (fun w => { w with split := { pc := w.sslo, mask := w.sshiMask, w := w.sshiW } :: w.split })) ∧
  ExtFormWhen .sscmdSpill (sscmdSpec doSpill) spillOk spillResult ∧ ExtFormWhen .sscmdFill (sscmdSpec doFill) fillOk fillResult ∧
  ExtFormWhen .sscmdPop (sscmdSpec doPop) (fun i => i.w.split ≠ []) popResult ∧
  ExtFormWhen .sscmdPush (sscmdSpec doPush) (fun i => i.w.split.length < 16) pushResult ∧
  ExtFormWhen .mts mtsSpec (fun i => i.x.mods.toNat = 8 ∧ i.a 0 = 1 ∧ spillOk i) spillResult ∧
  ExtFormWhen .mts mtsSpec (fun i => i.x.mods.toNat = 8 ∧ i.a 0 = 2 ∧ fillOk i) fillResult ∧
  ExtFormWhen .mts mtsSpec (fun i => i.x.mods.toNat = 8 ∧ i.a 0 = 3 ∧ i.w.split ≠ []) popResult ∧
  ExtFormWhen .mts mtsSpec (fun i => i.x.mods.toNat = 8 ∧ i.a 0 = 4 ∧ i.w.split.length < 16) pushResult ∧
  ExtLeaves .sscmdSpill (sscmdSpec doSpill) (fun i => spillK i = 0) refused ∧ ExtLeaves .sscmdFill (sscmdSpec doFill) (fun i => fillK i = 0) refused ∧
  ExtLeaves .mts mtsSpec (fun i => i.x.mods.toNat = 8 ∧ i.a 0 = 1 ∧ spillK i = 0) refused ∧
  ExtLeaves .mts mtsSpec (fun i => i.x.mods.toNat = 8 ∧ i.a 0 = 2 ∧ fillK i = 0) refused ∧
  ExtLeaves .mts mtsSpec (fun i => i.x.mods.toNat = 8 ∧ i.a 0 = 3 ∧ i.w.split = []) refused ∧
  ExtLeaves .mts mtsSpec (fun i => i.x.mods.toNat = 8 ∧ i.a 0 = 4 ∧ 16 ≤ i.w.split.length) refused ∧
  ExtLeaves .sscmdPop (sscmdSpec doPop) (fun i => i.w.split = []) refused ∧
  ExtLeaves .sscmdPush (sscmdSpec doPush) (fun i => 16 ≤ i.w.split.length) refused ∧
  ExtLeaves .mts mtsSpec (fun i => i.x.mods.toNat = 8 ∧ (i.a 0 = 0 ∨ 4 < i.a 0)) refused

/-- ERET in handler state, with a good frame and an empty store queue, leaves the warp as the frame restores it; with any frame it returns from the
trap as 09 R233 says; ERET and HALT outside handler state raise IL-OPC with TVAL 0, and nothing else is done.
A frame's check counts the lanes of spilled split-stack entries too (log 13, DEDUCED). -/
def Obligations.EretReturns : Prop :=
  ExtLeaves .eret eretSpec returnPlain returned ∧
  ExtLeaves .eret eretSpec inHandler (fun i => (countIssue Shape.bare i (i.s.returnFromTrap i.c i.slot)).afterEret i.c i.w.gid) ∧
  ExtLeaves .eret eretSpec (fun i => i.w.handler = false) (fun i => i.s.takeTrap i.c i.slot { cause := 0x01, tval := 0 } false) ∧
  ExtLeaves .halt haltSpec (fun i => i.w.handler = false) (fun i => i.s.takeTrap i.c i.slot { cause := 0x01, tval := 0 } false)

/-- LDS, LDSP, STS, TAGS, TAGC, ATS and ATSN, with legal addresses and with room in their counters and the store queue, complete: a load
joins the outstanding loads, a store or an atomic the store queue, and no byte of memory changes. -/
def Obligations.LocalAccessesComplete : Prop :=
  MemForm true .ldsMem (fun _ => ldsSpec) (fun i => lanesOk i (szBytes i.x) true (laneAddr i) ∧ i.w.ld < 63) (fun i => loadResult .lds (szBytes i.x) ((szOf (szField i.x)).getD (4, false)).2 true i) ∧
  ExtFormWhen .ldsExt ldsSpec (fun i => lanesOk i (szBytes i.x) true (laneAddr i) ∧ i.w.ld < 63) (fun i => loadResult .lds (szBytes i.x) ((szOf (szField i.x)).getD (4, false)).2 true i) ∧
  ExtFormWhen .ldsp ldspSpec (fun i => lanesOk i 4 false (laneAddr i) ∧ i.w.ld < 63)
    (fun i => loadResult (.ldsp (bitsOf i.x.mods2.toNat 2 0)) 4 false false i) ∧
  MemForm false .stsMem (fun _ => stsSpec) (fun i => lanesOk i (szBytes i.x) true (laneAddr i) ∧ i.w.st < 63 ∧ i.w.storeQ.length < 16) storeResult ∧
  ExtFormWhen .stsExt stsSpec (fun i => lanesOk i (szBytes i.x) true (laneAddr i) ∧ i.w.st < 63 ∧ i.w.storeQ.length < 16) storeResult ∧
  ExtFormWhen .tags (tagsSpec .tags) (fun i => lanesOk i (szBytes i.x) false (laneAddr i)) (tagsResult .tags) ∧
  ExtFormWhen .tagc (tagsSpec .tagc) (fun i => lanesOk i (szBytes i.x) false (laneAddr i)) (tagsResult .tagc) ∧
  ExtFormWhen .ats (atsSpec true) (fun i => lanesOk i (szBytes i.x) false (atomAddr i) ∧ i.w.ld < 63 ∧ i.w.storeQ.length < 16) atsResult ∧
  ExtFormWhen .atsn (atsSpec false) (fun i => lanesOk i (szBytes i.x) false (atomAddr i) ∧ i.w.st < 63 ∧ i.w.storeQ.length < 16) atsnResult

/-- An access with an illegal address raises LOCAL-ADDR with the address of the lowest lane that is no helper, and nothing else is done; one
that finds its counter or the store queue full leaves the state as it is, and is issued again. -/
def Obligations.LocalAddressTraps : Prop :=
  MemLeaves true .ldsMem (fun _ => ldsSpec) (fun i => ¬lanesOk i (szBytes i.x) true (laneAddr i)) (fun _ => (accessTraps (fun i => szBytes i.x) true laneAddr)) ∧
  ExtLeaves .ldsExt ldsSpec (fun i => ¬lanesOk i (szBytes i.x) true (laneAddr i)) (accessTraps (fun i => szBytes i.x) true laneAddr) ∧
  ExtLeaves .ldsp ldspSpec (fun i => ¬lanesOk i 4 false (laneAddr i)) (accessTraps (fun _ => 4) false laneAddr) ∧
  MemLeaves false .stsMem (fun _ => stsSpec) (fun i => ¬lanesOk i (szBytes i.x) true (laneAddr i)) (fun _ => (accessTraps (fun i => szBytes i.x) true laneAddr)) ∧
  ExtLeaves .stsExt stsSpec (fun i => ¬lanesOk i (szBytes i.x) true (laneAddr i)) (accessTraps (fun i => szBytes i.x) true laneAddr) ∧
  ExtLeaves .tags (tagsSpec .tags) (fun i => ¬lanesOk i (szBytes i.x) false (laneAddr i)) (accessTraps (fun i => szBytes i.x) false laneAddr) ∧
  ExtLeaves .tagc (tagsSpec .tagc) (fun i => ¬lanesOk i (szBytes i.x) false (laneAddr i)) (accessTraps (fun i => szBytes i.x) false laneAddr) ∧
  ExtLeaves .ats (atsSpec true) (fun i => ¬lanesOk i (szBytes i.x) false (atomAddr i)) (accessTraps (fun i => szBytes i.x) false atomAddr) ∧
  ExtLeaves .atsn (atsSpec false) (fun i => ¬lanesOk i (szBytes i.x) false (atomAddr i)) (accessTraps (fun i => szBytes i.x) false atomAddr) ∧
  MemLeaves true .ldsMem (fun _ => ldsSpec) (fun i => lanesOk i (szBytes i.x) true (laneAddr i) ∧ 63 ≤ i.w.ld) (fun _ => (fun i => i.s)) ∧
  ExtLeaves .ldsExt ldsSpec (fun i => lanesOk i (szBytes i.x) true (laneAddr i) ∧ 63 ≤ i.w.ld) (fun i => i.s) ∧
  ExtLeaves .ldsp ldspSpec (fun i => lanesOk i 4 false (laneAddr i) ∧ 63 ≤ i.w.ld) (fun i => i.s) ∧
  MemLeaves false .stsMem (fun _ => stsSpec) (fun i => lanesOk i (szBytes i.x) true (laneAddr i) ∧ (63 ≤ i.w.st ∨ 16 ≤ i.w.storeQ.length)) (fun _ => (fun i => i.s)) ∧
  ExtLeaves .stsExt stsSpec (fun i => lanesOk i (szBytes i.x) true (laneAddr i) ∧ (63 ≤ i.w.st ∨ 16 ≤ i.w.storeQ.length)) (fun i => i.s) ∧
  ExtLeaves .ats (atsSpec true) (fun i => lanesOk i (szBytes i.x) false (atomAddr i) ∧ (63 ≤ i.w.ld ∨ 16 ≤ i.w.storeQ.length)) (fun i => i.s) ∧
  ExtLeaves .atsn (atsSpec false) (fun i => lanesOk i (szBytes i.x) false (atomAddr i) ∧ (63 ≤ i.w.st ∨ 16 ≤ i.w.storeQ.length)) (fun i => i.s)

/-- LDSF and STSE drain the store queue and act on their words and tags in one event once every word is full, or empty, at once or after a wait,
for which they keep the addresses and operands of their issue; else the warp waits at the end of the core's waiters. FENCE completes with an empty store queue, and waits in place with any other. -/
def Obligations.TagAccessesComplete : Prop :=
  MemForm true .ldsfMem (fun b => ldsfSpec (.ldsfMem b)) (tagsReady true) ldsfResult ∧
  ExtFormWhen .ldsfExt (fun x => ldsfSpec (.ldsfExt x) x) (tagsReady true) ldsfResult ∧
  MemForm false .stseMem (fun b => stseSpec (.stseMem b)) (tagsReady false) stseResult ∧
  ExtFormWhen .stseExt (fun x => stseSpec (.stseExt x) x) (tagsReady false) stseResult ∧
  MemLeaves true .ldsfMem (fun b => ldsfSpec (.ldsfMem b)) (tagsBlocked true) (fun b i => tagWaits true (ldsfSpec (.ldsfMem b) i.x).shape (.ldsfMem b) i) ∧
  MemLeaves false .stseMem (fun b => stseSpec (.stseMem b)) (tagsBlocked false) (fun b i => tagWaits false (stseSpec (.stseMem b) i.x).shape (.stseMem b) i) ∧
  ExtLeaves .ldsfExt (fun x => ldsfSpec (.ldsfExt x) x) (tagsBlocked true) (fun i => tagWaits true (ldsfSpec (.ldsfExt i.x) i.x).shape (.ldsfExt i.x) i) ∧
  ExtLeaves .stseExt (fun x => stseSpec (.stseExt x) x) (tagsBlocked false) (fun i => tagWaits false (stseSpec (.stseExt i.x) i.x).shape (.stseExt i.x) i) ∧
  ExtFormWhen .fence fenceSpec (fun i => i.w.storeQ = []) Issue.res ∧
  ExtLeaves .fence fenceSpec (fun i => i.w.storeQ ≠ [])
    (fun i => i.s.modWarp i.c i.slot (fun w => { w with
      waiting := some { instr := .fence i.x, len := i.len, start := 0, tag := none, lns := [], flushes := 0 } }))

namespace Sys2Proof.Machine

/-! ## Counters, timelines, barriers and event counters (17 R412 to R428) -/

/-- pd written in every lane that is active or a helper (17 R412). -/
def pdResult (i : Issue) (b : Bool) : List (Nat × Mask × Mask) :=
  [(bitsOf i.x.mods2.toNat 2 0, i.w.active ||| i.hlp, if b then BitVec.allOnes 32 else 0)]
/-- The state in which an instruction of shape `sh` blocks: counted at its issue, its warp waiting (02 R31; 17 R428). -/
def blocked (sh : Shape) (i : Issue) (ins : Instr) : State := countIssue sh i (i.s.blockIn i.c i.slot (i.wait ins))
/-- SLATE (17 R416 to R428). -/
def slates (v : Nat) (i : Issue) : State := i.s.takeTrap i.c i.slot { cause := 0x0A, tval := BitVec.ofNat 64 v } false

/-- A limit of WAITC holds: 63 places no condition (17 R414). -/
abbrev limitMet (limit n : Nat) : Prop := limit = 63 ∨ n ≤ limit
/-- The four counters of the warp meet WAITC's limits. -/
abbrev waitcMet (i : Issue) : Prop :=
  limitMet (bitsOf i.x.mods.toNat 5 0) i.w.ld ∧ limitMet i.x.mods2.toNat i.w.st ∧ limitMet i.x.mods3.toNat i.w.cp ∧
  limitMet (match i.x.a.op with | .imm n => n.toNat | _ => 0) i.w.tl

/-- The timeline of a TLWAIT or TLRD. -/
def lineNum (i : Issue) : Nat := bitsOf i.x.mods.toNat 3 0
/-- That timeline as its group holds it. -/
def lineOf (i : Issue) : Timeline := i.g.tl (lineNum i)
/-- The group has the timeline. -/
abbrev hasLine (i : Issue) : Prop := lineNum i < i.g.nTl
/-- The command after VALUE has failed (17 R415, R416). -/
abbrev lineFailed (i : Issue) : Prop := (lineOf i).blocked = true
/-- DST takes VALUE, and pd tells of an error (17 R416, R417). -/
def lineResult (err : Bool) (i : Issue) : Res := { wrote i (fun _ => (lineOf i).value) with preds := pdResult i err }
/-- ASYNC of a TLWAIT that returns with an error (17 R416). -/
def asyncOf (i : Issue) : Trap :=
  { cause := 0x10, tval := BitVec.ofNat 64 (((lineOf i).value + 1) % 2 ^ 56 * 256 + lineNum i) }
/-- The result of a TLWAIT that ASYNC follows. -/
def lineAsync (i : Issue) : Res := { lineResult true i with after := some (asyncOf i) }
/-- A command of the timeline is incomplete: fewer than all numbers below the next have ended (17 R417). -/
abbrev lineBusy (i : Issue) : Prop := (lineOf i).value + (lineOf i).ended.length + 1 < (lineOf i).next
/-- TLRD with SET: VALUE becomes SRCA, the next number SRCA + 1, and no hold is left (17 R417). -/
def lineSet (i : Issue) : Res :=
  { lineResult false i with
    s := i.s.modGroup i.c i.w.gid (fun g => { g with
      tls := Tab.set g.tls (lineNum i) { value := i.a 0, next := i.a 0 + 1, ended := [], counts := [] } }) }
/-- SET of a TLRD. -/
abbrev setBit (n : Nat) (i : Issue) : Prop := modBit i.x n = true

/-- Barrier `n` of the warp's group replaced. -/
def barResult (i : Issue) (n : Nat) (b : Barrier) (out : Nat) : Res :=
  { wrote i (fun _ => out) with s := i.s.modGroup i.c i.w.gid (fun g => { g with bars := Tab.set g.bars n b }) }
/-- A count that BALLOC or BARVW takes (17 R419, R420). -/
abbrev countOk (n : Nat) : Prop := n ≠ 0 ∧ n ≤ 65535
/-- Barrier `n` is free (17 R418). -/
abbrev barFree (i : Issue) (n : Nat) : Prop := (i.g.bar n).expected = 0
/-- `n` is the lowest free barrier of the group. -/
abbrev lowestFree (i : Issue) (n : Nat) : Prop := n < i.g.nBar ∧ barFree i n ∧ ∀ m < n, ¬barFree i m
/-- The lowest free barrier; 0 where there is none. -/
def freeOne (i : Issue) : Nat := ((List.range i.g.nBar).filter (fun n => (i.g.bar n).expected == 0)).headD 0
/-- BALLOC of barrier `n`: EXPECTED is SRCA, ARRIVED 0, PHASE kept, DST its index (17 R419). -/
def ballocResult (n : Nat) (i : Issue) : Res := barResult i n { i.g.bar n with expected := i.a 0, arrived := 0 } n
/-- BALLOC without a barrier: DST is all ones. -/
def ballocNone (i : Issue) : Res := wrote i (fun _ => 2 ^ 64 - 1)
/-- A saved barrier word that is legal (17 R419; 05 R132). -/
abbrev savedOk (i : Issue) : Prop :=
  bitsOf (i.a 0) 63 48 = 0 ∧ (bitsOf (i.a 0) 31 16 = 0 ∨ bitsOf (i.a 0) 47 32 < bitsOf (i.a 0) 31 16)
/-- BALLOC with SET: barrier SRCB from the word SRCA. -/
def ballocSaved (i : Issue) : Res :=
  barResult i (i.b 0) { phase := BitVec.ofNat 16 (i.a 0), expected := bitsOf (i.a 0) 31 16, arrived := bitsOf (i.a 0) 47 32 } (i.b 0)
/-- BFREE: the barrier free, its phase one further; a free one as it was (17 R419). -/
def bfreeResult (i : Issue) : Res :=
  let b := i.g.bar (i.a 0)
  barResult i (i.a 0) (if b.expected = 0 then b else { phase := b.phase + 1, expected := 0, arrived := 0 }) 0
/-- BARV and BARVW: an arrival in the store queue, the phase at issue as the token (17 R420). -/
def arriveResult (weight : Nat) (i : Issue) : Res :=
  { wrote i (fun _ => (i.g.bar (i.a 0)).phase.toNat) with
    s := i.s.modWarp i.c i.slot (fun w => { w with
      storeQ := w.storeQ ++ [{ seq := w.sqSeq, counted := false, body := .arrive (i.a 0) weight }], sqSeq := w.sqSeq + 1 }) }
/-- An arrival is possible: the barrier is the group's and allocated, and the store queue has room. -/
abbrev arriveOk (i : Issue) : Prop := i.a 0 < i.g.nBar ∧ ¬barFree i (i.a 0) ∧ i.w.storeQ.length < 16
/-- How far a barrier's phase is past BWAIT's token (17 R421). -/
def lapped (i : Issue) : Nat := ((i.g.bar (i.a 0)).phase - BitVec.ofNat 16 (i.b 0)).toNat
/-- BWAIT at an allocated barrier of its group, or waiting already. -/
abbrev bwaitOk (i : Issue) : Prop := i.a 0 < i.g.nBar ∧ (¬barFree i (i.a 0) ∨ i.w.waiting.isSome = true)
/-- BWAIT returns: pd tells whether the barrier has lapped. -/
def bwaitResult (i : Issue) : Res := { i.res with preds := pdResult i (decide (2 ≤ lapped i)) }

/-- The event counter of an ECRD or ECSEL: of the core, or with DIE of its die (17 R425). -/
def evOf (i : Issue) : EvCtr :=
  Tab.getD (if modBit i.x 0 then (i.s.die (dieOf i.c)).evctrs else i.k.evctrs) (i.a 0) EvCtr.reset
/-- The counter exists: 8 of a core, 16 of a die. -/
abbrev evIn (i : Issue) : Prop := i.a 0 < (if modBit i.x 0 = true then 16 else 8)
/-- ECRD: the source in bits [63:56] over the count, which holds no event of its own cycle (17 R427). -/
def ecrdResult (i : Issue) : Res := wrote i (fun _ => (evOf i).source.toNat * 2 ^ 56 + (evOf i).value.toNat)
/-- A source that the counter may take (17 R426, Table 4). -/
abbrev sourceIn (i : Issue) : Prop :=
  i.b 0 = 1 ∨ (if modBit i.x 0 = true then 0x40 ≤ i.b 0 ∧ i.b 0 ≤ 0x51 else 2 ≤ i.b 0 ∧ i.b 0 ≤ 0x28 ∧ i.b 0 ≠ 0x0F)
/-- ECSEL: the counter's source is SRCB from the next cycle on; with CLR its count is 0, and the old source counts no more (17 R426). -/
def ecselResult (i : Issue) : Res :=
  let src := BitVec.ofNat 8 (i.b 0)
  let n : EvCtr := if modBit i.x 1 then { value := 0, source := src, counting := 0, now := 0 } else { evOf i with source := src }
  { i.res with
    s := if modBit i.x 0 then i.s.modDie (dieOf i.c) (fun d => { d with evctrs := Tab.set d.evctrs (i.a 0) n })
      else i.s.modCore i.c (fun k => { k with evctrs := Tab.set k.evctrs (i.a 0) n }) }

end Sys2Proof.Machine

/-- WAITC returns once its limits hold and blocks till then; TLWAIT returns at its target, or over a failed command with pd = 1 and, where
ASYNCEN is 1, the trap ASYNC; TLRD reads VALUE, and with SET restarts its timeline. -/
def Obligations.CounterWaitsComplete : Prop :=
  ExtFormWhen .waitc waitcSpec waitcMet Issue.res ∧
  ExtLeaves .waitc waitcSpec (fun i => ¬waitcMet i) (fun i => blocked (waitcSpec i.x).shape i (.waitc i.x)) ∧
  ExtFormWhen .tlwait tlwaitSpec (fun i => hasLine i ∧ i.a 0 ≤ (lineOf i).value) (lineResult false) ∧
  ExtFormWhen .tlwait tlwaitSpec (fun i => hasLine i ∧ (lineOf i).value < i.a 0 ∧ lineFailed i ∧ i.g.asyncen = false) (lineResult true) ∧
  ExtTraps .tlwait tlwaitSpec (fun i => hasLine i ∧ (lineOf i).value < i.a 0 ∧ lineFailed i ∧ i.g.asyncen = true) lineAsync asyncOf ∧
  ExtLeaves .tlwait tlwaitSpec (fun i => hasLine i ∧ (lineOf i).value < i.a 0 ∧ ¬lineFailed i)
    (fun i => blocked (tlwaitSpec i.x).shape i (.tlwait i.x)) ∧
  ExtFormWhen .tlrd tlrdSpec (fun i => hasLine i ∧ ¬setBit 4 i) (fun i => lineResult (lineOf i).blocked i) ∧
  ExtFormWhen .tlrd tlrdSpec (fun i => hasLine i ∧ setBit 4 i ∧ ¬lineBusy i) lineSet

/-- BALLOC takes the lowest free barrier, or barrier SRCB, or says that none is free; with SET it writes one; BFREE frees one; BARV and
BARVW put an arrival in the store queue; BWAIT returns once the phase has moved, and blocks till then. -/
def Obligations.BarriersComplete : Prop :=
  ExtFormWhen .balloc ballocSpec (fun i => ¬setBit 0 i ∧ ¬setBit 1 i ∧ countOk (i.a 0) ∧ lowestFree i (freeOne i)) (fun i => ballocResult (freeOne i) i) ∧
  ExtFormWhen .balloc ballocSpec (fun i => ¬setBit 0 i ∧ ¬setBit 1 i ∧ countOk (i.a 0) ∧ ∀ n < i.g.nBar, ¬barFree i n) ballocNone ∧
  ExtFormWhen .balloc ballocSpec (fun i => setBit 0 i ∧ ¬setBit 1 i ∧ i.b 0 < i.g.nBar ∧ countOk (i.a 0) ∧ barFree i (i.b 0)) (fun i => ballocResult (i.b 0) i) ∧
  ExtFormWhen .balloc ballocSpec (fun i => setBit 0 i ∧ ¬setBit 1 i ∧ i.b 0 < i.g.nBar ∧ countOk (i.a 0) ∧ ¬barFree i (i.b 0)) ballocNone ∧
  ExtFormWhen .balloc ballocSpec (fun i => setBit 1 i ∧ i.b 0 < i.g.nBar ∧ savedOk i) ballocSaved ∧
  ExtFormWhen .bfree bfreeSpec (fun i => i.a 0 < i.g.nBar) bfreeResult ∧
  ExtFormWhen .barv barvSpec arriveOk (arriveResult 1) ∧
  ExtFormWhen .barvw barvwSpec (fun i => arriveOk i ∧ countOk (i.b 0)) (fun i => arriveResult (i.b 0) i) ∧
  ExtFormWhen .bwait bwaitSpec (fun i => bwaitOk i ∧ lapped i ≠ 0) bwaitResult ∧
  ExtLeaves .bwait bwaitSpec (fun i => bwaitOk i ∧ lapped i = 0) (fun i => blocked (bwaitSpec i.x).shape i (.bwait i.x))

/-- ECRD reads an event counter and its source; ECSEL gives a counter of the core, or of the die, a new source. -/
def Obligations.EventCountersComplete : Prop :=
  ExtFormWhen .ecrd ecrdSpec evIn ecrdResult ∧ ExtFormWhen .ecsel ecselSpec (fun i => evIn i ∧ sourceIn i) ecselResult

/-- The counter instructions raise SLATE, and do nothing else, on an index beyond the group's allocation, a count or a saved word that is not
legal, a barrier that is free, a timeline with a command incomplete, and a counter or a source that does not exist. -/
def Obligations.CounterSlatesTrap : Prop :=
  ExtLeaves .tlwait tlwaitSpec (fun i => ¬hasLine i) (fun i => slates (lineNum i) i) ∧
  ExtLeaves .tlrd tlrdSpec (fun i => ¬hasLine i ∨ (setBit 4 i ∧ lineBusy i)) (fun i => slates (lineNum i) i) ∧
  ExtLeaves .balloc ballocSpec (fun i => (setBit 0 i ∨ setBit 1 i) ∧ i.g.nBar ≤ i.b 0) (fun i => slates (i.b 0) i) ∧
  ExtLeaves .balloc ballocSpec (fun i => setBit 1 i ∧ i.b 0 < i.g.nBar ∧ ¬savedOk i) (slates 0) ∧
  ExtLeaves .balloc ballocSpec (fun i => ¬setBit 0 i ∧ ¬setBit 1 i ∧ ¬countOk (i.a 0)) (slates 0) ∧
  ExtLeaves .bfree bfreeSpec (fun i => i.g.nBar ≤ i.a 0) (fun i => slates (i.a 0) i) ∧
  ExtLeaves .barv barvSpec (fun i => i.g.nBar ≤ i.a 0) (fun i => slates (i.a 0) i) ∧
  ExtLeaves .barv barvSpec (fun i => i.a 0 < i.g.nBar ∧ barFree i (i.a 0)) (fun i => slates (0x100 + i.a 0) i) ∧
  ExtLeaves .barvw barvwSpec (fun i => i.a 0 < i.g.nBar ∧ ¬countOk (i.b 0)) (slates 0) ∧
  ExtLeaves .bwait bwaitSpec (fun i => i.a 0 < i.g.nBar ∧ barFree i (i.a 0) ∧ i.w.waiting.isSome = false) (fun i => slates (0x100 + i.a 0) i) ∧
  ExtLeaves .ecrd ecrdSpec (fun i => ¬evIn i) (slates 0) ∧
  ExtLeaves .ecsel ecselSpec (fun i => ¬(evIn i ∧ sourceIn i)) (slates 0)

namespace Sys2Proof.Machine

/-! ## Tiles and accumulators (12 R297 to R303; 08 R191, R206) -/

/-- The handle's entry in the core's tile table. -/
def entryOf (i : Issue) : TileEntry := handleEntry i.k i.g (i.a 0)
/-- The tile's bytes: ROWS rows of RBYTES rounded up to 128 (12 R298). -/
def tileSize (v : Nat) : Nat := bitsOf v 15 0 * roundUp (rowBytes (bitsOf v 47 44) (bitsOf v 31 16)) 128
/-- A TALLOC descriptor that R300's second check accepts. -/
abbrev descOk (v : Nat) : Prop :=
  bitsOf v 63 49 = 0 ∧ bitsOf v 43 32 = 0 ∧ ¬(5 ≤ bitsOf v 47 44 ∧ bitsOf v 47 44 ≤ 7) ∧ bitsOf v 15 0 ≠ 0 ∧
  bitsOf v 31 16 ≠ 0 ∧ (8 ≤ bitsOf v 47 44 → bitsOf v 31 16 % 32 = 0) ∧
  tileSize v ≤ (if bitsOf v 48 48 = 1 then 2 ^ 25 else 2 ^ 20)
/-- Whether the handle is one of the group's task, h0 to h15 (14 R346). -/
abbrev ofTask (i : Issue) : Prop := i.g.taskIdx.isSome = true ∧ i.a 0 < 16
/-- The descriptor is legal and the handle free to bind (12 R300). -/
abbrev tallocOk (i : Issue) : Prop := descOk (i.b 0) ∧ ¬ofTask i ∧ (entryOf i).bound = false
/-- The storage that the part takes for the descriptor, if some free run is long enough (12 R300; log 4). -/
def tallocNew (i : Issue) : State × Option TileEntry :=
  newTile i.s i.c i.w.gid (bitsOf (i.b 0) 48 48 == 1) (bitsOf (i.b 0) 47 44) (bitsOf (i.b 0) 15 0) (bitsOf (i.b 0) 31 16)
/-- The tile-table entry `h` of the warp's group replaced. -/
def withEntry (i : Issue) (s : State) (h : Nat) (e : TileEntry) : State :=
  s.modCore i.c (fun k => { k with tileTable := Tab.set k.tileTable (i.g.tileBase + h) e })
/-- TALLOC: the handle bound and status 0, or status 1 or 2 and nothing changed (12 Table 5). -/
def tallocResult (i : Issue) : Res :=
  match (tallocNew i).2 with
  | some e => { wrote i (fun _ => 0) with s := withEntry i (tallocNew i).1 (i.a 0) e }
  | none => wrote i (fun _ => if bitsOf (i.b 0) 48 48 = 1 then 2 else 1)
/-- TFREE: the handle's entry clear (12 R301). -/
def tfreeResult (i : Issue) : Res := { i.res with s := withEntry i i.s (i.a 0) TileEntry.unbound }
/-- TFREE's handle is bound and not a task's. -/
abbrev tfreeOk (i : Issue) : Prop := (entryOf i).bound = true ∧ ¬ofTask i
/-- TILE with the handle as TVAL. -/
def tileTrap (v : Issue → Nat) (i : Issue) : State := i.s.takeTrap i.c i.slot { cause := 0x09, tval := BitVec.ofNat 64 (v i) } false

/-- COUNT: the registers of a range. -/
def countOf (i : Issue) : Nat := bitsOf i.x.mods.toNat 6 4 + 1
/-- A TLD or TST position within a bound tile of level 0 (12 R302, check 2). -/
abbrev posOk (i : Issue) : Prop :=
  (entryOf i).bound = true ∧ (entryOf i).lvl = false ∧ bitsOf (i.d 0) 15 0 + countOf i ≤ (entryOf i).rows ∧
  bitsOf (i.d 0) 26 16 < (entryOf i).rstride ∧ bitsOf (i.d 0) 31 27 = 0
/-- The range of registers that begins at an operand. -/
def rangeOf (i : Issue) (o : Opnd) : List Nat := (List.range (countOf i)).map (fun r => vecNum o + r)
/-- A tile access of the warp added to its list, and counted on `tl`. -/
def addsTile (o : TileOp) (w : Warp) : Warp :=
  { w with tiles := w.tiles ++ [{ o with id := w.loadId }], loadId := w.loadId + 1, tl := w.tl + 1 }
/-- The access of a TLD or TST: tile, position and lanes as they are at issue (12 R302, R303). -/
def tileAccess (i : Issue) (kind : TileKind) (dst : Nat) (regs : List (List Word)) : TileOp :=
  { id := 0, kind := kind, tile := (entryOf i).ref, handle := i.a 0, row := bitsOf (i.d 0) 15 0, woff := bitsOf (i.d 0) 26 16,
    count := countOf i, dst := dst, mask := i.run, helpers := i.hlp, regs := regs, ticket := 0, seen := [] }
/-- TLD: an access outstanding, its registers live from now on (12 R302; 05 R124). -/
def tldResult (i : Issue) : Res :=
  { onWarp i (addsTile (tileAccess i .tld (vecNum i.x.dst) [])) with claims := rangeOf i i.x.dst }
/-- The words of a range of source registers, lane by lane. -/
def rangeData (i : Issue) : List (List Word) :=
  (rangeOf i i.x.b.op).map (fun n => lanes.map (fun l => BitVec.ofNat 32 (i.w.word n l)))
/-- The registers of a range dead after their last use. -/
def killed (i : Issue) (w : Warp) : Warp := if i.x.b.dead then (rangeOf i i.x.b.op).foldl (fun w n => w.kill n) w else w
/-- TST: an access outstanding that holds its registers' words. -/
def tstResult (i : Issue) : Res := onWarp i (fun w => addsTile (tileAccess i .tst 0 (rangeData i)) (killed i w))
/-- The handle is not one that the group's task only reads, h0 to h7 (14 R346). -/
abbrev notReadOnly (i : Issue) : Prop := ¬(i.g.taskIdx.isSome = true ∧ i.a 0 < 8)

/-- The first accumulator that MODS names. -/
def accOf (i : Issue) : Nat := bitsOf i.x.mods.toNat 3 0
/-- ARD: an access with the next place in its accumulator's order (08 R191, R206). -/
def ardResult (i : Issue) : Res :=
  { i.res with s := addAcc i.s i true .ard (accOf i) (i.a 0) (countOf i) (vecNum i.x.dst) [], claims := rangeOf i i.x.dst }
/-- AWR: the same, with its registers' words. -/
def awrResult (i : Issue) : Res :=
  { i.res with
    s := addAcc (i.s.modWarp i.c i.slot (killed i)) i true .awr (accOf i) (i.a 0) (countOf i) 0 (rangeData i) }
/-- ACLR: one access for each of its accumulators. -/
def aclrResult (i : Issue) : Res :=
  { i.res with s := (List.range (bitsOf i.x.mods.toNat 7 4 + 1)).foldl (fun s j => addAcc s i false .aclr (accOf i + j) 0 128 0 []) i.s }

/-- ICINV after its wait: the instruction caches of the cores that SCOPE covers are empty (12 R297). -/
def icinvResult (i : Issue) : Res := { i.res with s := invalidateCode i.s i.c (bitsOf i.x.mods.toNat 1 0) }

/-! ## Tables (15 R361, R374; 16 R384, R394 to R410) -/

/-- An ASID operand (16 R407). -/
abbrev asidOk (i : Issue) : Prop := i.a 0 < 0x10000
/-- TLBFLUSH (16 R408). -/
def tlbflushResult (i : Issue) : Res := { i.res with s := i.s.tlbFlush (i.a 0) }
/-- How many flushes and retirements came before a TLBSYNC: those before its issue (16 R409). -/
def flushMark (i : Issue) : Nat := match i.w.waiting with | some t => t.flushes | none => i.s.pkg.flushNum
/-- They have finished: no guest line that they drop and no ASID that they retire is left (16 R409). -/
abbrev flushed (i : Issue) : Prop := i.s.flushesDone (flushMark i) = true
/-- The state in which a TLBSYNC waits in place. -/
def syncWaits (i : Issue) : State :=
  i.s.modWarp i.c i.slot (fun w => { w with waiting := some { i.wait (.tlbsync i.x) with flushes := flushMark i } })
/-- ASIDRET's status: 1, 3 and 2 in this order (16 R410). -/
def retireOf (i : Issue) : Nat :=
  if (i.s.asid (i.a 0)).state ≠ 1 then 1 else if i.g.asid = i.a 0 then 3 else if i.s.asidInUse (i.a 0) = true then 2 else 0
/-- ASIDRET: the status; an ASID accepted is retiring, as one of the part's flushes, and flushed. -/
def asidretResult (i : Issue) : Res :=
  let retiring := i.s.modPkg (fun p => { p with
    asids := Tab.set p.asids (i.a 0) { (i.s.asid (i.a 0)) with state := 2, ret := p.flushNum + 1 } })
  { wrote i (fun _ => retireOf i) with s := if retireOf i = 0 then retiring.tlbFlush (i.a 0) else i.s }
/-- TTRD: the entry's two dwords in s[d] and s[d + 1] (16 R395). -/
def ttrdResult (i : Issue) : Res :=
  onWarp i (fun w => w.putPair (uniNum i.x.dst) (entryOf i).words.1 (entryOf i).words.2)
/-- The dies of a BWSET: its own, or with ALL every one (16 R406). -/
def bwDies (i : Issue) : List Nat := if modBit i.x 0 then [0, 1, 2, 3] else [dieOf i.c]
/-- A die's weights with weight SRCA replaced by SRCB. -/
def bwNew (i : Issue) (d : Nat) : List Nat := List.set (i.s.die d).weights (i.a 0) (i.b 0)
/-- BWSET: the weight on every die of it and status 0, or status 1 and nothing changed. -/
def bwsetResult (i : Issue) : Res :=
  if (bwDies i).all (fun d => decide ((bwNew i d).sum ≤ 256)) then
    { i.res with s := (bwDies i).foldl (fun s d => s.modDie d (fun k => { k with weights := bwNew i d })) i.s }
  else wrote i (fun _ => 1)
/-- BWSET's operands. -/
abbrev bwOk (i : Issue) : Prop := i.a 0 ≤ 7 ∧ i.b 0 ≤ 255
/-- The scope entry of a CGRP is valid (15 R361). -/
abbrev scopeIn (i : Issue) : Prop := i.a 0 < 32 ∧ i.s.scopeOk i.c i.g.asid (i.a 0) = true
/-- CGRP: the number of members over the core's own index, all ones where it is no member. -/
def cgrpResult (i : Issue) : Res :=
  wrote i (fun _ => match i.s.scope? i.c i.g.asid (i.a 0) with
    | some e => e.cores.length * (e.peers.length + 1) * 2 ^ 32 + (e.index i.s.pkg.devid.toNat i.c).getD 0xFFFFFFFF
    | none => 0)
/-- FXWIN: the window's word (15 R374). -/
def fxwinResult (i : Issue) : Res := wrote i (fun _ => i.s.fxwinWord i.g.asid (i.a 0))
/-- The image of an SGWR passes its checks once the store queue has drained (16 R399). -/
abbrev sgwrOk (i : Issue) : Prop := i.w.waiting.isSome = false ∧ sgwrTrap (quiet i) i = none
/-- The state in which an SGWR waits: the entry written from the image in scratchpad. -/
def sgwrWaits (i : Issue) : State :=
  ((quiet i).writePhys (((quiet i).asid i.g.asid).ctx + 64 * i.a 0) (localRead ((quiet i).core i.c) i.g (i.b 0) 64)).modWarp i.c i.slot
    (fun w => { w with waiting := some (i.wait (.sgwr i.x)) })
/-- The state in which an instruction waits in place, nothing else changed (02 R32). -/
def holds (ins : Issue → Instr) (i : Issue) : State := i.s.modWarp i.c i.slot (fun w => { w with waiting := some (i.wait (ins i)) })

/-- An instruction that a kernel without SYS issues raises IL-OPC with TVAL 0, whatever its fields (16 R384). -/
def SystemOnly (mk : Ext → Instr) : Prop :=
  ∀ x s c slot w g, Acts s c slot w g → g.kernel.sys = false → exec (mk x) s = .next (s.takeTrap c slot { cause := 0x01, tval := 0 } false)

end Sys2Proof.Machine

/-- TALLOC binds a free handle to storage or says that there is none; TFREE unbinds; TTRD reads an entry; ICINV waits in place and then empties
the instruction caches that it covers. -/
def Obligations.TileHandlesComplete : Prop :=
  ExtFormWhen .talloc tallocSpec tallocOk tallocResult ∧ ExtFormWhen .tfree tfreeSpec tfreeOk tfreeResult ∧
  ExtForm .ttrd ttrdSpec ttrdResult ∧
  ExtLeaves .talloc tallocSpec (fun i => descOk (i.b 0) ∧ ¬ofTask i ∧ (entryOf i).bound = true) (tileTrap (fun i => i.a 0)) ∧
  ExtLeaves .tfree tfreeSpec (fun i => (entryOf i).bound = false) (tileTrap (fun i => i.a 0)) ∧
  ExtLeaves .icinv icinvSpec (fun i => i.w.waiting = none) (holds (fun i => .icinv i.x)) ∧
  ExtFormWhen .icinv icinvSpec (fun i => i.w.waiting.isSome = true) icinvResult

/-- TLD, TST, ARD, AWR and ACLR, with a legal position and room in `tl`, complete: an access joins the warp's accesses, those of accumulators
with the next place in their accumulator's order; no byte of a tile or accumulator changes yet. With `tl` full they leave the state as it is, and
are issued again. -/
def Obligations.TileAccessesComplete : Prop :=
  ExtFormWhen .tld tldSpec (fun i => posOk i ∧ i.w.tl < 63) tldResult ∧
  ExtFormWhen .tst tstSpec (fun i => notReadOnly i ∧ posOk i ∧ i.w.tl < 63) tstResult ∧
  ExtFormWhen .ard ardSpec (fun i => i.a 0 + countOf i ≤ 128 ∧ i.w.tl < 63) ardResult ∧
  ExtFormWhen .awr awrSpec (fun i => i.a 0 + countOf i ≤ 128 ∧ i.w.tl < 63) awrResult ∧
  ExtForm .aclr aclrSpec aclrResult ∧
  ExtLeaves .tld tldSpec (fun i => ¬posOk i) (tileTrap (fun i => i.a 0)) ∧
  ExtLeaves .tst tstSpec (fun i => ¬(notReadOnly i ∧ posOk i)) (tileTrap (fun i => i.a 0)) ∧
  ExtLeaves .ard ardSpec (fun i => 128 < i.a 0 + countOf i) (tileTrap (fun i => i.a 0)) ∧
  ExtLeaves .awr awrSpec (fun i => 128 < i.a 0 + countOf i) (tileTrap (fun i => i.a 0)) ∧
  ExtLeaves .tld tldSpec (fun i => posOk i ∧ 63 ≤ i.w.tl) (fun i => i.s) ∧
  ExtLeaves .tst tstSpec (fun i => notReadOnly i ∧ posOk i ∧ 63 ≤ i.w.tl) (fun i => i.s) ∧
  ExtLeaves .ard ardSpec (fun i => i.a 0 + countOf i ≤ 128 ∧ 63 ≤ i.w.tl) (fun i => i.s) ∧
  ExtLeaves .awr awrSpec (fun i => i.a 0 + countOf i ≤ 128 ∧ 63 ≤ i.w.tl) (fun i => i.s)

/-- TLBFLUSH, TLBSYNC, ASIDRET, SGWR, BWSET, CGRP and FXWIN complete with the status or the word that their rules give; TLBSYNC waits for the
flushes, SGWR for the dies. -/
def Obligations.TablesComplete : Prop :=
  ExtFormWhen .tlbflush tlbflushSpec asidOk tlbflushResult ∧ ExtFormWhen .tlbsync tlbsyncSpec flushed Issue.res ∧
  ExtLeaves .tlbsync tlbsyncSpec (fun i => ¬flushed i) syncWaits ∧
  ExtFormWhen .asidret asidretSpec asidOk asidretResult ∧
  ExtFormWhen .sgwr sgwrSpec (fun i => i.w.waiting.isSome = true) Issue.res ∧
  ExtLeaves .sgwr sgwrSpec sgwrOk sgwrWaits ∧
  ExtFormWhen .bwset bwsetSpec bwOk bwsetResult ∧ ExtFormWhen .cgrp cgrpSpec scopeIn cgrpResult ∧
  ExtFormWhen .fxwin fxwinSpec (fun i => i.a 0 < 256) fxwinResult

/-- The table instructions of system kernels raise IL-OPC in any other, before any effect; an illegal operand of a table instruction, CGRP or
FXWIN raises SLATE. -/
def Obligations.TableTraps : Prop :=
  SystemOnly .tlbflush ∧ SystemOnly .tlbsync ∧ SystemOnly .asidret ∧ SystemOnly .sgwr ∧ SystemOnly .bwset ∧
  ExtLeaves .tlbflush tlbflushSpec (fun i => ¬asidOk i) (slates 0) ∧ ExtLeaves .asidret asidretSpec (fun i => ¬asidOk i) (slates 0) ∧
  ExtLeaves .bwset bwsetSpec (fun i => ¬bwOk i) (slates 0) ∧
  ExtLeaves .cgrp cgrpSpec (fun i => 32 ≤ i.a 0) (slates 0) ∧
  ExtLeaves .cgrp cgrpSpec (fun i => i.a 0 < 32 ∧ i.s.scopeOk i.c i.g.asid (i.a 0) = false) (fun i => slates (0x400 + i.a 0) i) ∧
  ExtLeaves .fxwin fxwinSpec (fun i => 256 ≤ i.a 0) (slates 0)

namespace Sys2Proof.Machine

/-! ## Posting commands (08 R190 to R213; 13 R306 to R335; 14 R342 to R350; 15 R362) -/

/-- The elected lane, the lowest active one, has guard 1 (08 R193). -/
abbrev elects (i : Issue) : Prop := i.grd.has i.elected = true
/-- A command posted in state `s` with number `n`: DST takes the number, from the next instruction on (13 R306). -/
def numbered (s : Issue → State) (n : Issue → Nat) (i : Issue) : Res :=
  { i.res with s := (s i).modWarp i.c i.slot (fun w => w.putS (uniNum i.x.dst) (BitVec.ofNat 64 (n i))) }
/-- A post that finds no room: number 0, and nothing else changed (13 R306). -/
def noRoom : Issue → Res := numbered Issue.s (fun _ => 0)
/-- The next number of timeline `tl`, taken (13 R306; 17 R415). -/
def nextSeq (tl : Issue → Nat) (i : Issue) : Nat := (i.s.takeSeq i.c i.w.gid (tl i)).2
/-- The trap that a check gives, taken before any effect. -/
def trapsAs (f : Issue → Option Trap) (i : Issue) : State :=
  match f i with | some t => i.s.takeTrap i.c i.slot t false | none => i.s
/-- The parameter block of `n` registers that SRCA names. -/
abbrev blockOf (n : Nat) (i : Issue) : List DWord := blockRegs i.w (uniNum i.x.a.op) n
/-- The address to which a command's fault record names its instruction (13 Table 10). -/
abbrev postPc (i : Issue) : DWord := i.w.pc.setWidth 64

/-- Whether the wide operand of an MMAW is A rather than B (08 R192). -/
abbrev aIsWide (nb : Nat) (i : Issue) : Bool := nb == 16 && bitsOf ((blockOf 3 i).getD 2 0).toNat 46 46 == 0
/-- The fields of an MMA's block. -/
abbrev mmaOf (nb : Nat) (i : Issue) : MmaArgs := mmaArgs nb (aIsWide nb i) (blockOf 3 i)
/-- The check of 08 R195 that an MMA fails. -/
abbrev mmaFails (nb : Nat) (i : Issue) : Option Trap := mmaTrap i nb (aIsWide nb i) (blockOf 3 i) (mmaOf nb i)
/-- The MMA as the matrix queue holds it, with its places in its accumulators' orders (08 R191, R193). -/
def mmaCmd (nb : Nat) (i : Issue) : MatCmd :=
  let a := mmaOf nb i
  { gid := i.w.gid, tl := a.tl, seq := nextSeq (fun _ => a.tl) i, pc := postPc i, slot := i.slot, posted := i.k.cycle.toNat
    what := .mma nb (aIsWide nb i) (blockOf 3 i) (i.w.edge a.rmi) (i.w.edge a.cmi) (handleEntry i.k i.g a.ah).ref
      (takeTickets ((i.s.takeSeq i.c i.w.gid a.tl).1.core i.c) (a.accs i.g)).2 }
/-- The state after an MMA is posted: number and places taken, the command at the queue's tail. -/
def mmaPosted (nb : Nat) (i : Issue) : State :=
  let s := (i.s.takeSeq i.c i.w.gid (mmaOf nb i).tl).1
  let k := (takeTickets (s.core i.c) ((mmaOf nb i).accs i.g)).1
  s.setCore i.c { k with matQ := k.matQ ++ [mmaCmd nb i] }
/-- What an MMA does at issue: with the elected lane's guard 0 nothing; with the queue full it blocks; else it traps or is posted. -/
structure MmaPosts (mk : Ext → Instr) (nb : Nat) : Prop where
  off : ExtFormWhen mk (fun x => mmaSpec nb (mk x) x) (fun i => ¬elects i) Issue.res
  full : ExtLeaves mk (fun x => mmaSpec nb (mk x) x) (fun i => elects i ∧ 32 ≤ i.k.matUsed) (fun i => blocked (mmaSpec nb (mk i.x) i.x).shape i (mk i.x))
  bad : ExtLeaves mk (fun x => mmaSpec nb (mk x) x) (fun i => elects i ∧ i.k.matUsed < 32 ∧ (mmaFails nb i).isSome = true) (trapsAs (mmaFails nb))
  posted : ExtFormWhen mk (fun x => mmaSpec nb (mk x) x) (fun i => elects i ∧ i.k.matUsed < 32 ∧ mmaFails nb i = none)
    (numbered (mmaPosted nb) (nextSeq (fun i => (mmaOf nb i).tl)))

/-- WBLD's space and timeline. -/
abbrev wbTl (i : Issue) : Nat := bitsOf i.x.mods.toNat 4 1
/-- The check of 08 R204 that a WBLD fails. -/
abbrev wbldFails (i : Issue) : Option Trap := wbldTrap i (modBit i.x 0) (wbTl i)
/-- The state a WBLD is posted from: a scratchpad source first drains the store queue (11 R271). -/
def wbFrom (i : Issue) : State := if modBit i.x 0 then i.s else i.s.drain i.c i.slot
/-- WBLD's command. -/
def wbldCmd (i : Issue) : MatCmd :=
  { gid := i.w.gid, tl := wbTl i, seq := ((wbFrom i).takeSeq i.c i.w.gid (wbTl i)).2, pc := postPc i, slot := i.slot, posted := i.k.cycle.toNat
    what := .wbld (modBit i.x 0) (i.a 0) (if modBit i.x 0 then some (handleEntry i.k i.g (i.a 0)).ref else none) (i.b 0) (i.d 0) }
/-- The state with a command at the tail of the matrix queue. -/
def pushMat (m : Issue → MatCmd) (s : Issue → State) (i : Issue) : State := (s i).modCore i.c (fun k => { k with matQ := k.matQ ++ [m i] })
/-- WBINV's range lies in the group's share, in blocks of 64 bytes (08 R205). -/
abbrev wbinvOk (i : Issue) : Prop := i.a 0 % 64 = 0 ∧ i.b 0 % 64 = 0 ∧ i.a 0 + i.b 0 ≤ i.g.wsize
/-- WBINV's command. -/
def wbinvCmd (i : Issue) : MatCmd :=
  { gid := i.w.gid, tl := 0, seq := 0, pc := postPc i, slot := i.slot, posted := i.k.cycle.toNat, what := .wbinv (i.a 0) (i.b 0) }

/-- The fields of a SCAN's block. -/
abbrev scanOf (i : Issue) : ScanArgs := scanArgs (blockOf 3 i)
/-- The check of 08 R208 that a SCAN fails. -/
abbrev scanFails (i : Issue) : Option Trap := scanTrap i (blockOf 3 i) (scanOf i)
/-- SCAN's command: its tiles as they are at issue, and whether a task may only read HS or HY. -/
def scanCmd (i : Issue) : ScanCmd :=
  let a := scanOf i
  { gid := i.w.gid, tl := a.tl, seq := nextSeq (fun _ => a.tl) i, pc := postPc i, slot := i.slot, posted := i.k.cycle.toNat
    deny := taskRead i.g a.hs || (a.yen && taskRead i.g a.hy)
    what := .scan (blockOf 3 i) (i.w.edge a.rmi) (i.w.edge a.cmi) (scanChunk i.g a) (a.tiles.map (fun t => (handleEntry i.k i.g t.1).ref)) }
/-- SCANST's timeline. -/
abbrev ssTl (i : Issue) : Nat := bitsOf i.x.mods.toNat 3 0
/-- The check of 08 R213 that a SCANST fails. -/
abbrev scanstFails (i : Issue) : Option Trap :=
  (if i.g.nTl ≤ ssTl i then slateVal (ssTl i) else none) <|> handleTrap i.g i.x.a.op (i.a 0) 1 <|> handleTrap i.g i.x.b.op (i.b 0) 2 <|> scanstTileTrap i
/-- SCANST's command. -/
def scanstCmd (i : Issue) : ScanCmd :=
  { gid := i.w.gid, tl := ssTl i, seq := nextSeq ssTl i, pc := postPc i, slot := i.slot, posted := i.k.cycle.toNat, deny := taskRead i.g (i.b 0)
    what := .scanst (handleEntry i.k i.g (i.a 0)).ref (handleEntry i.k i.g (i.b 0)).ref }
/-- The state with a number of a timeline taken, and a command at the tail of the scan queue. -/
def pushScan (tl : Issue → Nat) (m : Issue → ScanCmd) (i : Issue) : State :=
  (i.s.takeSeq i.c i.w.gid (tl i)).1.modCore i.c (fun k => { k with scanQ := k.scanQ ++ [m i] })

/-- The check of 13 Table 4 that a slate fails, with the store queue drained. -/
abbrev slateFails (i : Issue) : Option Trap := slateCheck (quiet i) i.c i.g i.x.a.op.code.toNat (blockOf 16 i)
/-- The state after a slate is posted, and its number (13 R306, R320). -/
def slatePosted (i : Issue) : State × Nat := (quiet i).postSlate i.c i.w.gid i.slot (postPc i) (blockOf 16 i)
/-- The trap that a check gives, once the store queue has drained. -/
def quietTrap (f : Issue → Option Trap) (i : Issue) : State :=
  match f i with | some t => (quiet i).takeTrap i.c i.slot t false | none => i.s
/-- The trap of TSKPOST's checks: POISON counts the uncorrectable error of the scratchpad that they met (09 R242). -/
def taskTrapped (f : Issue → Option Trap) (i : Issue) : State :=
  match f i with | some t => (if t.cause = 0x11 then (quiet i).uncorrectable i.c 0x04 else quiet i).takeTrap i.c i.slot t false | none => i.s
/-- The lanes of RED that execute and are no helpers. -/
def redLanes (i : Issue) : List Nat := lanes.filter i.acts
/-- RED's bytes: 8 or 4. -/
abbrev accSize (i : Issue) : Nat := if modBit i.x 4 then 8 else 4
/-- A RED lane's address is legal (13 R330). -/
abbrev redOk (i : Issue) : Prop := ∀ l ∈ redLanes i, i.a l % accSize i = 0 ∧ i.a l < 2 ^ 52
/-- RED: its lanes' values put into the scheduler's buffer in ascending lane order. -/
def redResult (i : Issue) : Res :=
  { i.res with
    s := (redLanes i).foldl (fun s l => s.placeRed i.c (schedOf i.slot)
      { slot := i.slot, gid := i.w.gid, asid := i.g.asid, va := BitVec.ofNat 64 (i.a l), op := bitsOf i.x.mods.toNat 3 0, size := accSize i
        nat := modBit i.x 5, val := i.b l }) i.s }
/-- REDFLUSH's timeline and completion scope. -/
abbrev flushTl (i : Issue) : Nat := bitsOf i.x.mods.toNat 3 0
/-- The check that a REDFLUSH fails (13 R332). -/
abbrev flushFails (i : Issue) : Option Trap := tlScopeTrap i.s i (flushTl i) (bitsOf i.x.mods.toNat 8 4)
/-- REDFLUSH: the group's entries drained, the flush recorded. -/
abbrev flushStart (i : Issue) : State × Nat := i.startFlush (flushTl i) (bitsOf i.x.mods.toNat 8 4)
/-- AMO's timeline and scope. -/
abbrev amoTl (i : Issue) : Nat := bitsOf i.x.mods2.toNat 3 0
/-- The check that an AMO fails (13 R333). -/
abbrev amoFails (i : Issue) : Option Trap :=
  amoAddrTrap (modBit i.x 6) (accSize i) (i.a 0) <|> tlScopeTrap i.s i (amoTl i) (bitsOf i.x.mods3.toNat 4 0)
/-- AMO's command. -/
def amoCmd (i : Issue) : Cmd :=
  { cid := 0, gid := i.w.gid, asid := i.g.asid, tl := amoTl i, seq := nextSeq amoTl i, pc := postPc i, poster := i.slot, eng := 2
    wide := i.s.scopeWide i.c i.g.asid (bitsOf i.x.mods3.toNat 4 0)
    what := .amo { op := bitsOf i.x.mods.toNat 3 0, size := accSize i, nat := modBit i.x 5, win := modBit i.x 6, tc := bitsOf i.x.mods.toNat 8 7
                   addr := BitVec.ofNat 64 (i.a 0), operand := i.b 0, cmp := i.d 0, slot := i.slot, reg := uniNum i.x.dst + 1
                   scope := bitsOf i.x.mods3.toNat 4 0 }
    src := none, dst := none, dstTaskRead := false }
/-- AMO posted at the tail of the copy queue. -/
def amoPosted (i : Issue) : State := (i.s.takeSeq i.c i.w.gid (amoTl i)).1.pushCmd i.c (amoCmd i)
/-- The check that a CFENCE fails (13 R334). -/
abbrev cfenceFails (i : Issue) : Option Trap := i.s.scopeTrap i.c i.g.asid (bitsOf i.x.mods.toNat 6 2)
/-- CFENCE's mark: KIND 0 releases, 1 acquires, 2 both; wide where its scope is (13 R334; 11 R278). -/
def fenceOf (i : Issue) : FenceMark :=
  { acq := bitsOf i.x.mods.toNat 1 0 != 0, rel := bitsOf i.x.mods.toNat 1 0 != 1, wide := i.s.scopeWide i.c i.g.asid (bitsOf i.x.mods.toNat 6 2) }
/-- CFENCE: the mark that stands before the group's next command, merged with one that stands there already. -/
def cfenceResult (i : Issue) : Res :=
  { i.res with s := i.s.modGroup i.c i.w.gid (fun g => { g with mark := some (match g.mark with | some o => o.merge (fenceOf i) | none => fenceOf i) }) }
/-- CPSTAT's timeline is one of the group's. -/
abbrev statLine (i : Issue) : Prop := bitsOf i.x.mods.toNat 5 2 < i.g.nTl
/-- CPSTAT: the queue's free entries, the engines' free contexts and the records, or the state of a command (13 R329). -/
def cpstatResult (i : Issue) : Res :=
  wrote i (fun _ => if bitsOf i.x.mods.toNat 1 0 = 0 then
      i.g.recs % 65536 * 2 ^ 32 + i.k.freeCtxs 1 * 2 ^ 20 + i.k.freeCtxs 0 * 2 ^ 16 + (64 - i.k.copyQ.length)
    else i.s.cmdStat i.c i.w.gid i.g (bitsOf i.x.mods.toNat 5 2) (i.a 0))

/-- The check that a COLL fails, with the store queue drained (15 R362). -/
abbrev collFails (i : Issue) : Option Trap := collCheck (quiet i) i.c i.g i.x.a.op.code.toNat (blockOf 4 i)
/-- The die's collective engine has a free context. -/
abbrev collRoom (i : Issue) : Prop := ((quiet i).die (dieOf i.c)).freeColl.isSome = true ∧ ((quiet i).scope? i.c i.g.asid (collOf (blockOf 4 i)).group).isSome = true
/-- COLL posted into the lowest free context, with its number. -/
def collPosted (i : Issue) : State × Nat :=
  match ((quiet i).die (dieOf i.c)).freeColl, (quiet i).scope? i.c i.g.asid (collOf (blockOf 4 i)).group with
  | some n, some e => (quiet i).postColl i n (blockOf 4 i) e
  | _, _ => (quiet i, 0)
/-- COLL's conditions with an empty store queue: a legal block, a scope with this core in it that has a context free, a completion scope, a barrier
and a timeline of the group, and sides that lie in a good tile or in the scratchpad (15 R362). -/
structure CollPlain (i : Issue) (n m : Nat) (e : Scope) : Prop where
  elected : elects i
  quiet : calm i
  free : (i.s.die (dieOf i.c)).freeColl = some n
  scope : i.s.scope? i.c i.g.asid (collOf (blockOf 4 i)).group = some e
  member : e.index i.s.pkg.devid.toNat i.c = some m
  block : collBad (blockOf 4 i) (collOf (blockOf 4 i)) (some e.count) (some m) = none
  done : i.s.scopeOk i.c i.g.asid (collOf (blockOf 4 i)).cscope = true
  bar : (collOf (blockOf 4 i)).baren = true → (collOf (blockOf 4 i)).bar < i.g.nBar
  line : (collOf (blockOf 4 i)).tl < i.g.nTl
  tiles : ∀ p ∈ (collOf (blockOf 4 i)).sides e.count (some m), p.1 = 1 → baseHandle p.2.1 < i.g.nTile ∧
    collTileBad (handleEntry i.k i.g (baseHandle p.2.1)) (collOf (blockOf 4 i)) p.2.1 p.2.2 = false
  local_ : ∀ p ∈ (collOf (blockOf 4 i)).sides e.count (some m), p.1 = 2 → bitsOf p.2.1 31 0 + p.2.2 * (collOf (blockOf 4 i)).size ≤ i.g.scrSize
/-- The mask of a TSKPOST's delta block, and the dwords it selects (14 R345). -/
abbrev deltaMask (i : Issue) : Nat := ofBytes (localRead i.k i.g (i.a 0) 8)
/-- The dwords of the delta block, MASK first. -/
abbrev deltaOf (i : Issue) : List Nat := localDwords i.k i.g (i.a 0) (1 + (maskBits (deltaMask i)).length)
/-- The record that TSKPOST expands. -/
abbrev recordOf (i : Issue) : List DWord := expand (localDwords i.k i.g (i.b 0) 13) (maskBits (deltaMask i)) (deltaOf i)
/-- The core a task is posted to: all ones name this one. -/
abbrev taskDest (i : Issue) : Nat := if i.d 0 = 0xFFFFFFFF then i.c else i.d 0
/-- TSKPOST's conditions with an empty store queue: aligned blocks in scratchpad without an uncorrectable error, no reserved bit, a legal record, a
core, and less than 64 tasks there (14 R345). -/
structure TaskPlain (i : Issue) : Prop where
  elected : elects i
  quiet : calm i
  delta : i.a 0 % 8 = 0 ∧ i.a 0 + 8 * (1 + (maskBits (deltaMask i)).length) ≤ i.g.scrSize
  base : i.b 0 % 8 = 0 ∧ i.b 0 + 128 ≤ i.g.scrSize
  clean : (∀ j, j < 2 * (1 + (maskBits (deltaMask i)).length) → localPoison i.k i.g (i.a 0 + 4 * j) = false) ∧
    ∀ j, j < 26 → localPoison i.k i.g (i.b 0 + 4 * j) = false
  mask : lowBit (deltaMask i) 63 13 = none
  fields : ∀ p ∈ (maskBits (deltaMask i)).zip ((deltaOf i).drop 1), recReserved p.1 p.2 = none
  legal : recBad (recordOf i) = none
  target : i.d 0 < 192 ∨ i.d 0 = 0xFFFFFFFF
  room : i.s.taskCount (taskDest i) < 64
/-- TSKPOST: the base block takes the delta's fields, and the task is under way to its core. -/
def taskSent (i : Issue) : State :=
  let bytes := (maskBits (deltaMask i)).flatMap (fun n => withAddrs (i.b 0 + 8 * n) (toBytes (recWord (recordOf i) n) 8))
  (i.s.setCore i.c (localWrite i.k i.g bytes)).modPkg (fun p => { p with
    arriving := p.arriving ++ [(taskDest i, { rcd := recordOf i, asid := i.g.asid, poster := i.c, rank := 256 * schedOf i.slot + i.c })] })
/-- What TSKPOST's checks and post answer, with the store queue drained (14 R345). -/
abbrev taskPosted (i : Issue) : Except Trap (State × Nat) := (quiet i).postTask i.c i.g (i.a 0) (i.b 0) (i.d 0) i.c (schedOf i.slot)
/-- The state and the number of a TSKPOST that raises nothing. -/
def taskOk (i : Issue) : State × Nat := match taskPosted i with | .ok r => r | .error _ => (i.s, 0)
/-- The trap of one that does. -/
abbrev taskFails (i : Issue) : Option Trap := match taskPosted i with | .ok _ => none | .error t => some t
/-- LAUNCH's queue. -/
def launchQ (i : Issue) : LaunchQueue := (quiet i).lq i.g.asid (i.b 0)
/-- LAUNCH's operands are legal: SRCA 128-byte aligned below 2^52, an enabled queue that the device owns, 1 to 256 nodes, a die (14 R342). -/
abbrev launchOk (i : Issue) : Prop :=
  i.a 0 % 128 = 0 ∧ i.a 0 < 2 ^ 52 ∧ i.b 0 ≤ 7 ∧ (i.s.lq i.g.asid (i.b 0)).en = true ∧ (i.s.lq i.g.asid (i.b 0)).owner = true ∧
  1 ≤ i.d 0 ∧ i.d 0 ≤ 256 ∧ bitsOf i.x.mods.toNat 3 0 ≠ 0
/-- The queue's ring is full. -/
abbrev launchFull (i : Issue) : Prop := 2 ^ (launchQ i).log2n ≤ ((launchQ i).tail - (launchQ i).head).toNat
/-- The call-sheet record that LAUNCH writes: TYPE 1, the dies, N and the sheet's address (14 R342). -/
def sheetEntry (i : Issue) : List Byte :=
  toBytes (2 ^ 62 + bitsOf i.x.mods.toNat 3 0 * 2 ^ 58 + i.d 0) 8 ++ toBytes 0 8 ++ toBytes (i.a 0) 8 ++ toBytes 0 104
/-- LAUNCH: the entry written at TAIL, and TAIL advanced. -/
def launchPosted (i : Issue) : State :=
  (((quiet i).writeHome i.g.asid ((launchQ i).entryVa (launchQ i).tail.toNat) (sheetEntry i) false).1).modLq i.g.asid (i.b 0)
    (fun l => { l with tail := l.tail + 1 })
/-- ITEMPUT's items: its executing lanes' values in ascending order, or the one value of a uniform source (14 R350). -/
def castItems (i : Issue) : List DWord := if i.x.a.op.isCls .vec then (lanes.filter i.acts).map (fun l => BitVec.ofNat 64 (i.a l)) else [BitVec.ofNat 64 (i.a 0)]
/-- LAUNCH with an empty store queue: the entry written at TAIL, and TAIL advanced. -/
def sheetPosted (i : Issue) : State :=
  let l := i.s.lq i.g.asid (i.b 0)
  ((i.s.writeHome i.g.asid (l.entryVa l.tail.toNat) (sheetEntry i) false).1).modLq i.g.asid (i.b 0) (fun l => { l with tail := l.tail + 1 })
/-- LAUNCH's ring has room. -/
abbrev ringRoom (i : Issue) : Prop :=
  ((i.s.lq i.g.asid (i.b 0)).tail - (i.s.lq i.g.asid (i.b 0)).head).toNat < 2 ^ (i.s.lq i.g.asid (i.b 0)).log2n
/-- ITEMPUT's queue is open, and its core's pool of 4,096 items has room (14 R349, R350). -/
abbrev castRoom (i : Issue) : Prop := i.g.castOpen = true ∧ (i.k.groups.map (fun p => p.2.castQ.length)).sum + (castItems i).length ≤ 4096
/-- ITEMPUT accepted: the items at the queue's tail, new in this cycle; CLOSE closes the queue. -/
def castGrown (i : Issue) : State :=
  i.s.modGroup i.c i.w.gid (fun g => { g with
    castQ := g.castQ ++ castItems i, castNew := g.castNew + (castItems i).length, castOpen := g.castOpen && !modBit i.x 0 })
/-- ITEMPUT: the items at the queue's tail and their count, or all ones and nothing changed. -/
def itemPut (i : Issue) : State × Nat := i.s.putItems i.c i.w.gid (castItems i) (modBit i.x 0)

end Sys2Proof.Machine

/-- MMA2 to MMA8 and MMAW: with the elected lane's guard 0 they do nothing; with the matrix queue full they block; on a failed check they trap;
else the command, its block and its places in its accumulators' orders stand at the queue's tail, and DST takes its number.
That DST takes its number at issue is the model's choice, since the rules allow the old or the new value until a WAITC (log 43, DESIGN CHOICE). -/
def Obligations.MatrixPostsComplete : Prop :=
  MmaPosts .mma2 2 ∧ MmaPosts .mma3 3 ∧ MmaPosts .mma4 4 ∧ MmaPosts .mma5 5 ∧ MmaPosts .mma6 6 ∧ MmaPosts .mma7 7 ∧ MmaPosts .mma8 8 ∧ MmaPosts .mmaw 16

/-- WBLD, WBINV, SCAN and SCANST put their command at the tail of the matrix or the scan queue, and DST takes its number, 0 where the queue is
full; on a failed check they trap before any effect.
That DST takes its number at issue is the model's choice, since the rules allow the old or the new value until a WAITC (log 43, DESIGN CHOICE). -/
def Obligations.WeightsAndScansPost : Prop :=
  ExtFormWhen .wbld wbldSpec (fun i => wbldFails i = none ∧ i.k.matUsed < 32)
    (numbered (pushMat wbldCmd (fun i => ((wbFrom i).takeSeq i.c i.w.gid (wbTl i)).1)) (fun i => ((wbFrom i).takeSeq i.c i.w.gid (wbTl i)).2)) ∧
  ExtFormWhen .wbld wbldSpec (fun i => wbldFails i = none ∧ 32 ≤ i.k.matUsed) noRoom ∧
  ExtLeaves .wbld wbldSpec (fun i => (wbldFails i).isSome = true) (trapsAs wbldFails) ∧
  ExtFormWhen .wbinv wbinvSpec wbinvOk (fun i => { i.res with s := pushMat wbinvCmd Issue.s i }) ∧
  ExtLeaves .wbinv wbinvSpec (fun i => i.a 0 % 64 ≠ 0) (fun i => slates (i.a 0) i) ∧
  ExtFormWhen .scan scanSpec (fun i => elects i ∧ scanFails i = none ∧ i.k.scanQ.length < 16)
    (numbered (pushScan (fun i => (scanOf i).tl) scanCmd) (nextSeq (fun i => (scanOf i).tl))) ∧
  ExtFormWhen .scan scanSpec (fun i => elects i ∧ scanFails i = none ∧ 16 ≤ i.k.scanQ.length) noRoom ∧
  ExtFormWhen .scan scanSpec (fun i => ¬elects i) Issue.res ∧
  ExtLeaves .scan scanSpec (fun i => elects i ∧ (scanFails i).isSome = true) (trapsAs scanFails) ∧
  ExtFormWhen .scanst scanstSpec (fun i => scanstFails i = none ∧ i.k.scanQ.length < 16) (numbered (pushScan ssTl scanstCmd) (nextSeq ssTl)) ∧
  ExtFormWhen .scanst scanstSpec (fun i => scanstFails i = none ∧ 16 ≤ i.k.scanQ.length) noRoom ∧
  ExtLeaves .scanst scanstSpec (fun i => (scanstFails i).isSome = true) (trapsAs scanstFails)

/-- CPOST, AMO and REDFLUSH are posted and DST takes their number; RED's values join the reduction buffer; CFENCE's mark stands before the next
command; CPSTAT reads the queue or a command. A full queue blocks CPOST and gives the others number 0; a failed check traps.
That DST takes its number at issue is the model's choice, since the rules allow the old or the new value until a WAITC (log 43, DESIGN CHOICE). -/
def Obligations.CopyPostsComplete : Prop :=
  ExtFormWhen .cpost cpostSpec (fun i => elects i ∧ i.k.copyQ.length < 64 ∧ slateFails i = none) (numbered (fun i => (slatePosted i).1) (fun i => (slatePosted i).2)) ∧
  ExtLeaves .cpost cpostSpec (fun i => elects i ∧ 64 ≤ i.k.copyQ.length) (fun i => countIssue (cpostSpec i.x).shape i ((quiet i).blockIn i.c i.slot (i.wait (.cpost i.x)))) ∧
  ExtLeaves .cpost cpostSpec (fun i => elects i ∧ i.k.copyQ.length < 64 ∧ (slateFails i).isSome = true) (quietTrap slateFails) ∧
  ExtFormWhen .cpost cpostSpec (fun i => ¬elects i) Issue.res ∧
  ExtFormWhen .red redSpec redOk redResult ∧
  ExtFormWhen .redflush redflushSpec (fun i => flushFails i = none ∧ i.g.flushes.length < 4) (numbered (fun i => (flushStart i).1) (fun i => (flushStart i).2)) ∧
  ExtFormWhen .redflush redflushSpec (fun i => flushFails i = none ∧ 4 ≤ i.g.flushes.length) noRoom ∧
  ExtLeaves .redflush redflushSpec (fun i => (flushFails i).isSome = true) (trapsAs flushFails) ∧
  ExtFormWhen .amo amoSpec (fun i => elects i ∧ amoFails i = none ∧ i.k.copyQ.length < 64) (numbered amoPosted (nextSeq amoTl)) ∧
  ExtFormWhen .amo amoSpec (fun i => elects i ∧ amoFails i = none ∧ 64 ≤ i.k.copyQ.length) noRoom ∧
  ExtFormWhen .amo amoSpec (fun i => ¬elects i) Issue.res ∧
  ExtLeaves .amo amoSpec (fun i => elects i ∧ (amoFails i).isSome = true) (trapsAs amoFails) ∧
  ExtFormWhen .cfence cfenceSpec (fun i => cfenceFails i = none) cfenceResult ∧
  ExtLeaves .cfence cfenceSpec (fun i => (cfenceFails i).isSome = true) (trapsAs cfenceFails) ∧
  ExtFormWhen .cpstat cpstatSpec statLine cpstatResult ∧
  ExtLeaves .cpstat cpstatSpec (fun i => ¬statLine i) (fun i => slates (bitsOf i.x.mods.toNat 5 2) i)

/-- COLL is posted into a context of its die's collective engine, TSKPOST sends a task to its core, LAUNCH appends a call sheet and ITEMPUT
appends items; DST takes the number, 1, the count, or what says that there was no room. A failed check traps, the store queue drained. Each is said
first for an empty store queue, with its conditions on the state and the operands written out.
That DST takes its number at issue is the model's choice, since the rules allow the old or the new value until a WAITC (log 43, DESIGN CHOICE). -/
def Obligations.GroupPostsComplete : Prop :=
  (∀ n m e, ExtFormWhen .coll collSpec (fun i => CollPlain i n m e)
    (numbered (fun i => (i.s.postColl i n (blockOf 4 i) e).1) (fun i => (i.s.postColl i n (blockOf 4 i) e).2))) ∧
  ExtFormWhen .tskpost tskpostSpec TaskPlain (numbered taskSent (fun _ => 1)) ∧
  ExtFormWhen .launch launchSpec (fun i => elects i ∧ calm i ∧ launchOk i ∧ ringRoom i) (numbered sheetPosted (fun _ => 1)) ∧
  ExtFormWhen .itemput itemputSpec castRoom (numbered castGrown (fun i => (castItems i).length)) ∧
  ExtFormWhen .itemput itemputSpec (fun i => i.g.castOpen = false ∧ castItems i ≠ []) (numbered Issue.s (fun _ => 2 ^ 64 - 1)) ∧
  ExtFormWhen .coll collSpec (fun i => elects i ∧ collFails i = none ∧ collRoom i) (numbered (fun i => (collPosted i).1) (fun i => (collPosted i).2)) ∧
  ExtFormWhen .coll collSpec (fun i => elects i ∧ collFails i = none ∧ ¬collRoom i) (numbered quiet (fun _ => 0)) ∧
  ExtLeaves .coll collSpec (fun i => elects i ∧ (collFails i).isSome = true) (quietTrap collFails) ∧
  ExtFormWhen .coll collSpec (fun i => ¬elects i) Issue.res ∧
  ExtFormWhen .tskpost tskpostSpec (fun i => elects i ∧ taskFails i = none) (numbered (fun i => (taskOk i).1) (fun i => (taskOk i).2)) ∧
  ExtLeaves .tskpost tskpostSpec (fun i => elects i ∧ (taskFails i).isSome = true) (taskTrapped taskFails) ∧
  ExtFormWhen .tskpost tskpostSpec (fun i => ¬elects i) Issue.res ∧
  ExtFormWhen .launch launchSpec (fun i => elects i ∧ launchOk i ∧ ¬launchFull i) (numbered launchPosted (fun _ => 1)) ∧
  ExtFormWhen .launch launchSpec (fun i => elects i ∧ launchOk i ∧ launchFull i) (numbered quiet (fun _ => 0)) ∧
  ExtLeaves .launch launchSpec (fun i => elects i ∧ ¬launchOk i) (fun i => (quiet i).takeTrap i.c i.slot { cause := 0x0A, tval := 0 } false) ∧
  ExtFormWhen .launch launchSpec (fun i => ¬elects i) Issue.res ∧
  ExtForm .itemput itemputSpec (numbered (fun i => (itemPut i).1) (fun i => (itemPut i).2))

namespace Sys2Proof.Machine

/-! ## The machine as a whole -/

/-- The twelve fields of a page number, combined (10 R254). -/
def twelveFields (va : Nat) : Nat :=
  bitsOf va 18 16 ^^^ bitsOf va 21 19 ^^^ bitsOf va 24 22 ^^^ bitsOf va 27 25 ^^^ bitsOf va 30 28 ^^^ bitsOf va 33 31 ^^^
  bitsOf va 36 34 ^^^ bitsOf va 39 37 ^^^ bitsOf va 42 40 ^^^ bitsOf va 45 43 ^^^ bitsOf va 48 46 ^^^ bitsOf va 51 49

/-- The active lanes whose predicate pa, negated as PN asks, is 1 (06 R152). -/
def countedLanes (w : Warp) (x : Ext) : List Nat :=
  (List.range 32).filter (fun l => w.active.has l && (w.pred (bitsOf x.mods3.toNat 2 0) l != x.mods3.getLsbD 3))

/-- The lanes that ELECT may choose: active ones whose guard is 1 (06 R155). -/
def eligible (w : Warp) (x : Ext) (l : Nat) : Prop := l < 32 ∧ w.active.has l = true ∧ w.guard x.guard l = true

/-- Every byte memory of the machine is in canonical form: addresses strictly rising, no listed byte 0 (log 1). -/
structure Canonical (s : State) : Prop where
  hbm : Memory.wf s.pkg.hbm = true
  comp : Memory.wf s.pkg.comp = true
  scratch : ∀ c, Memory.wf (s.core c).scratch = true
  tileMem : ∀ c, Memory.wf (s.core c).tileMem = true
  weight : ∀ c, Memory.wf (s.core c).weight = true
  acc : ∀ c, Memory.wf (s.core c).acc = true
  istore : ∀ c g, Memory.wf ((s.core c).grip g).istore = true
  dstore : ∀ c g, Memory.wf ((s.core c).grip g).dstore = true
  staging : ∀ d, Memory.wf (s.die d).staging = true

/-- The instruction at byte `a` of a group's registered code, all of whose words stand in core `c`'s instruction cache, is `i`. -/
structure CodeHolds (s : State) (c : Nat) (g : Group) (a : Nat) (ws : List Word) (i : Instr) : Prop where
  len : ∃ w0, ws.head? = some w0 ∧ 4 * ws.length = lenOf w0
  code : ∀ n < ws.length, g.isCode (a + 4 * n) = true
  cached : ∀ n < ws.length, (s.core c).codeWord g.asid (a + 4 * n) = ws[n]?
  decodes : decode ws = some i

/-- Scheduler `q` of core `c` is in mid-run with warp `w` of slot `slot`, and nothing comes before the warp's next instruction: its group runs,
it does not wait, and no trap, pre-emption or breakpoint is due (02 R32; 09 R227, R236, R240). -/
structure MayIssue (s : State) (c q slot : Nat) (w : Warp) (g : Group) : Prop where
  unit : c < Config.numCores ∧ q < 4
  thawed : s.pkg.frozen = false ∧ s.pkg.tripped = false
  cur : ((s.core c).sched q).cur = some slot
  midRun : ((s.core c).sched q).midRun = true
  warp : s.warp? c slot = some w
  group : s.group? c w.gid = some g
  runs : s.mayRun c slot = true
  waiting : w.waiting = none
  pend : w.pend = none
  preempt : (w.preempt && !w.handler) = false
  hit : s.hitOf c q = none

/-- The 1,024 bytes of a trap frame (05 R136; 09 R228). -/
def frameOf (s : State) (c slot : Nat) (w : Warp) (t : Trap) (bpskip : Bool) : List Byte := frameBytes (s.core c) slot w t.cause t.tval bpskip

/-- Warp `u` has entered its handler at `pc` from warp `w` (09 R227). -/
structure Entered (w u : Warp) (t : Trap) (pc : VAddr) : Prop where
  handler : u.handler = true
  pc : u.pc = pc ∧ u.runStart = pc ∧ u.runPos = 0
  lns : u.active = BitVec.allOnes 32 ∧ u.idle = 0 ∧ u.exited = 0
  saved : u.tcause = BitVec.ofNat 8 t.cause ∧ u.tpc = w.pc.setWidth 64 ∧ u.tval = t.tval ∧ u.trunpc = w.runStart.setWidth 64
  regs : u.v = w.v ∧ u.s = w.s ∧ u.p = w.p ∧ u.m = w.m ∧ u.iditem = w.iditem
  stack : u.split = w.split ∧ u.splCount = w.splCount
  counters : u.ld = w.ld ∧ u.st = w.st ∧ u.cp = w.cp ∧ u.tl = w.tl
  cache : ∀ n x, Tab.get? w.cache n = some x → Tab.get? u.cache n = some { x with valid := false }
  waiting : u.waiting = none

end Sys2Proof.Machine

/-- The stack that owns a virtual page is the exclusive OR of the twelve 3-bit fields of its page number. It and the home die depend on VA[51:16]
only, and eight consecutive pages from a multiple of 8 pages fall on eight different stacks. -/
def Obligations.StackHash : Prop :=
  (∀ va, stackOf va = twelveFields va) ∧ (∀ va, stackOf va < 8 ∧ homeOf va = stackOf va / 2) ∧
  (∀ va ub, bitsOf va 51 16 = bitsOf ub 51 16 → stackOf va = stackOf ub ∧ homeOf va = homeOf ub) ∧
  (∀ page, page % 8 = 0 → page + 8 ≤ 2 ^ 36 → ∀ i < 8, ∀ j < 8, stackOf ((page + i) * 2 ^ 16) = stackOf ((page + j) * 2 ^ 16) → i = j)

/-- Major 0x2B, minor 0x003 is PCNT. PCNT, whenever it may execute, names a uniform DST and completes with the number of active lanes for which pred(pa, l) xor PN is 1, from 0 to
32; a GUARD other than 0b0111 raises IL-RSV. -/
def Obligations.PcntCountsLanes : Prop :=
  (∀ x, ofExt 0x2B 0x003 x = some (.pcnt x)) ∧ ∀ x s c slot w g, Acts s c slot w g →
    let i := mkIssue s c slot w g (pcntSpec x).shape x (extLen x)
    (Ready (pcntSpec x) false i →
      (∃ n, x.dst = .s n) ∧ (countedLanes w x).length ≤ 32 ∧
      Completes (pcntSpec x) i (wrote i (fun _ => (countedLanes w x).length)) (exec (.pcnt x) s)) ∧
    (x.guard ≠ { neg := false, p := 7 } → exec (.pcnt x) s = .next (s.takeTrap c slot { cause := 0x02, tval := 0 } false))

/-- Major 0x2C, minor 0x002 is ELECT. ELECT, whenever it may execute, names a uniform DST and completes with the lowest eligible lane, or 32: pd becomes 1 in that lane and 0 in
every other lane that is active or a helper, whatever the guard. -/
def Obligations.ElectChoosesLane : Prop :=
  (∀ x, ofExt 0x2C 0x002 x = some (.elect x)) ∧ ∀ x s c slot w g, Acts s c slot w g →
    let i := mkIssue s c slot w g (electSpec x).shape x (extLen x)
    Ready (electSpec x) false i →
      ∃ n, (∃ d, x.dst = .s d) ∧ ((eligible w x n ∧ ∀ l, eligible w x l → n ≤ l) ∨ (n = 32 ∧ ∀ l, ¬eligible w x l)) ∧
        Completes (electSpec x) i
          { wrote i (fun _ => n) with preds := [(bitsOf x.mods2.toNat 2 0, w.active ||| w.helpers, maskOf (fun l => decide (l = n)))] }
          (exec (.elect x) s)

/-- What reset leaves: no warp, group, command or translation anywhere, every memory of zeros (log 1), every clock at 0, and the reset values of
18 Tables 1 and 11, 10 Table 3, 16 Tables 13 and 14, 14 Table 4, 09 R222 to R226 and 17 R425. -/
def Obligations.ResetLeaves : Prop :=
  (∀ c, ((State.reset.core c).warps = [] ∧ (State.reset.core c).groups = [] ∧ (State.reset.core c).copyQ = [] ∧ (State.reset.core c).matQ = []) ∧
    ((State.reset.core c).taglim = 0x0100 ∧ (State.reset.core c).budget = 0x80 ∧ (State.reset.core c).cycle = 0 ∧ (State.reset.core c).dbgAsiden = false)) ∧
  (∀ c n, Tab.getD (State.reset.core c).evctrs n EvCtr.reset = { value := 0, source := 0, counting := 0, now := 0 }) ∧
  (∀ d, (State.reset.die d).weights = List.replicate 8 0x20 ∧ (State.reset.die d).scrubh = 0x18 ∧ (State.reset.die d).stagew = 0 ∧
    (State.reset.die d).guestw = 4 ∧ (State.reset.die d).home = [] ∧ (State.reset.die d).guest = []) ∧
  (∀ a, (State.reset.asid a).state = 0) ∧ (∀ k, (State.reset.stack k).tlb = []) ∧
  State.reset.pkg.bootState = 0 ∧ State.reset.pkg.devid = 0xFFF ∧ State.reset.pkg.frozen = false ∧ State.reset.pkg.tripped = false ∧
  (∀ a, Memory.read State.reset.pkg.hbm a = 0)

/-- Words that the specification writes out decode to the instructions that they stand for: IADD v3, v2, 1 and JOIN (06 Table 6), MMA8 (08 R191),
MFS of TVAL (09 R216), CPOST (13 R308), BWSET with ALL (16 R406) and BALLOC with FIX (17 R419; the word of 21's listing). -/
def Obligations.WrittenWordsDecode : Prop :=
  decode [0x71040C80#32] = some (.iaddAlu { bnd := false, k := false, dst := .v 3, a := .v 2, b := .imm 0x11, lit := none }) ∧
  decode [0x00000020#32] = some (.joinAlu { bnd := false, k := false, dst := .v 0, a := .v 0, b := .v 0, lit := none }) ∧
  (∃ x, decode [0x00002306#32, 0x008210A7#32, 0#32] = some (.mma8 x) ∧ x.dst = .s 10 ∧ x.a.op = .s 4 ∧ x.bnd = true) ∧
  (∃ x, decode [0x00800342#32, 0x000013C7#32, 0#32] = some (.mfs x) ∧ x.dst = .s 60 ∧ x.mods = 2) ∧
  (∃ x, decode [0x000003C6#32, 0x008A10A7#32, 0#32] = some (.cpost x) ∧ x.dst = .s 10 ∧ x.a.op = .s 20 ∧ x.bnd = true) ∧
  (∃ x, decode [0x0040175A#32, 0x01811097#32, 0x000003C0#32] = some (.bwset x) ∧ x.mods = 1 ∧ x.dst = .s 9 ∧ x.a.op = .imm 2 ∧ x.b.op = .imm 192) ∧
  (∃ x, decode [0x00400FF2#32, 0x01821047#32, 0x00000300#32] = some (.balloc x) ∧ x.mods = 1 ∧ x.dst = .s 4 ∧ x.a.op = .imm 4 ∧ x.b.op = .imm 0)

/-- A STEP RUNS THE DECODED INSTRUCTION: where the next turn is a scheduler's issue that does not come too late in its cycle, its warp may issue,
and the words at its PC stand in the instruction cache and decode to `i`, and `i` does not wait in place, the step is exec of `i` with the warp acting; afterwards no one acts, the results on their way are noted, and the
scheduler's single step and exemption from comparison are used up, unless the warp has not moved. While `i` waits in place the step leaves the
state as it is. -/
def Obligations.StepRunsDecoded : Prop :=
  ∀ (s : State) dt rest c q slot w g ws i, s.agenda = { dt := dt, act := .issue c q } :: rest →
    let p := (s.begin rest).pass dt
    let s0 := p.inTurn (.issue c q)
    p.late (.issue c q) = false → MayIssue s0 c q slot w g → CodeHolds s0 c g w.pc.toNat ws i →
      (s0.inPlace c w i = false → step s = afterIssue s0 c slot (some i) (exec i { s0 with cur := .warp c slot })) ∧
      (s0.inPlace c w i = true → step s = .next s0)

/-- A STEP RUNS THE DECODED INSTRUCTION of a grip and of an event too: where the next turn is a grip's, it runs and its store holds an instruction
whose registers no queued atomic has still to give, or is a row of the table whose units are there and that may happen, and it does not come too
late in its cycle, the step is exec of it, with the grip acting or with no one. -/
def Obligations.StepRunsGripsAndEvents : Prop :=
  (∀ (s : State) dt rest c g i, s.agenda = { dt := dt, act := .grip c g } :: rest →
    let p := (s.begin rest).pass dt
    let s0 := p.inTurn (.grip c g)
    p.late (.grip c g) = false → c < Config.numCores → g < 2 → s0.pkg.frozen = false → s0.pkg.tripped = false → ((s0.core c).grip g).run = 1 → ((s0.core c).grip g).wtag = none →
    ((s0.core c).grip g).fetch = .ok i → (∀ r ∈ gripRegs i, r = 0 ∨ r ∉ ((s0.core c).grip g).awaits) → ∀ t, exec i { s0 with cur := .grip c g } = .next t → step s = .next { t with cur := .none }) ∧
  (∀ (s : State) dt rest i, s.agenda = { dt := dt, act := .event i } :: rest →
    let p := (s.begin rest).pass dt
    let s0 := p.inTurn (.event i)
    p.late (.event i) = false → i.wf = true → mayHappen s0 i = true → step s = exec i { s0 with cur := .none })

/-- A check of 03 Table 7 that fails raises its trap before any effect: the machine takes the trap from the state as it was. -/
def Obligations.ChecksRaiseTheirTraps : Prop :=
  ∀ (sp : Spec) kBad x len s c slot w g t, Acts s c slot w g →
    checkTrap sp kBad (mkIssue s c slot w g sp.shape x len) = some t → runSpec sp kBad x len s = .next (s.takeTrap c slot t false)

/-- TAKING A TRAP (09 R227): a warp in normal state, its store queue empty, whose frame fits and whose cause has a vector, enters its handler there;
its frame holds what 05 R136 gives, every other byte of scratchpad, every other warp, every group, every
other core, the dies and the package are as before. -/
def Obligations.TrapEntry : Prop :=
  ∀ (s : State) (c slot : Nat) (w : Warp) (g : Group) (t : Trap) (b : Bool) (pc : VAddr), s.warp? c slot = some w → s.group? c w.gid = some g → w.handler = false → w.storeQ = [] →
    w.tframe.toNat + 0x400 ≤ g.scrSize → s.vector g t.cause = some pc → Memory.wf (s.core c).scratch = true →
    let s' := s.takeTrap c slot t b
    let base := g.scrBase + w.tframe.toNat
    (∃ u, s'.warp? c slot = some u ∧ Entered w u t pc) ∧ (frameOf s c slot w t b).length = 0x400 ∧
    (∀ a, Memory.read (s'.core c).scratch a =
      if base ≤ a ∧ a < base + 0x400 then (frameOf s c slot w t b).getD (a - base) 0 else Memory.read (s.core c).scratch a) ∧
    (∀ n, n ≠ slot → s'.warp? c n = s.warp? c n) ∧ (∀ n, s'.group? c n = s.group? c n) ∧ (∀ d, d ≠ c → s'.core d = s.core d) ∧
    s'.pkg = s.pkg ∧ s'.dies = s.dies

/-- A trap in handler state, or whose frame does not fit or whose cause has no vector, is MACHINE at group scope (09 R227, R232): with an empty
store queue, the group is fatal and stopped and the core's machine check is set. -/
def Obligations.TrapBecomesMachine : Prop :=
  ∀ (s : State) (c slot : Nat) (w : Warp) (g : Group) (t : Trap) (b : Bool), s.warp? c slot = some w → s.group? c w.gid = some g →
    w.storeQ = [] → (w.handler = true ∨ g.scrSize < w.tframe.toNat + 0x400 ∨ s.vector g t.cause = none) →
    let s' := s.takeTrap c slot t b
    (∃ h, s'.group? c w.gid = some h ∧ h.fatal = true ∧ h.stopped = true) ∧ (s'.core c).mchk = true

/-- The registers that are fixed (05 R108, R109, R123): s63 reads 0 and a write of it changes nothing; p7
reads all ones and a write of it changes nothing; a predicate's other lanes keep their bits. -/
def Obligations.FixedRegistersHold : Prop :=
  (∀ (w : Warp), w.sreg 63 = 0) ∧ (∀ (w : Warp) v, w.putS 63 v = w) ∧ (∀ (w : Warp) l, w.pred 7 l = true) ∧ (∀ (w : Warp) ls bits, w.putPred 7 ls bits = w) ∧
  (∀ (w : Warp) n m v, n ≠ 63 → (w.putS n v).sreg m = if m = n then v else w.sreg m) ∧
  (∀ (w : Warp) n ls bits m l, l < 32 → n ≠ 7 →
    (w.putPred n ls bits).pred m l = if m = n ∧ ls.has l = true then bits.has l else w.pred m l)

/-- Every memory is in canonical form after reset. -/
def Obligations.ResetIsCanonical : Prop := Canonical State.reset

/-- AN INVARIANT THAT EVERY STEP KEEPS: from any state whose byte memories are all in canonical form, a step leaves them so. -/
def Obligations.StepsKeepMemoriesCanonical : Prop := ∀ s t, Canonical s → step s = .next t → Canonical t

/-- DECODE AND ENCODE AGREE: the words that the encoder writes for a well-formed instruction of a warp decode to that instruction, with every
operand at every value, whatever words follow them. (A row that is an event has no words, and a grip's words are RISC-V's.) -/
def Obligations.EncodedWordsDecode : Prop :=
  ∀ (i : Instr) (rest : List Word), i.wf = true → encode i ≠ [] → i.isGrip = false → decode (encode i ++ rest) = some i

namespace Sys2Proof.Machine

/-! ## Grips (14 R351 to R357) -/

/-- Grip `g` of core `c` acts, in state `x`, for group `gr`. -/
structure GripActs (s : State) (c g gid : Nat) (x : Grip) (gr : Group) : Prop where
  cur : s.cur = .grip c g
  grip : (s.core c).grip g = x
  owner : x.gid = some gid
  group : s.group? c gid = some gr

/-- Every warp, and every grip that runs, belongs to a group of its core. -/
structure Owned (s : State) : Prop where
  warps : ∀ c slot w, s.warp? c slot = some w → (s.group? c w.gid).isSome = true
  grips : ∀ c g, ((s.core c).grip g).run = 1 → ∃ gid, ((s.core c).grip g).gid = some gid ∧ (s.group? c gid).isSome = true

/-- A grip's instruction is done: from state `s`, register rd takes `v`, the pc goes to `pc`, the instruction is counted, and nothing else
changes. -/
structure GripDone (s : State) (c g rd : Nat) (v : DWord) (pc : DWord) (t : State) : Prop where
  regs : ∀ n, ((t.core c).grip g).reg n = if n = rd ∧ n ≠ 0 then v else ((s.core c).grip g).reg n
  gripFrame : (t.core c).grip g = { (s.core c).grip g with x := ((t.core c).grip g).x, pc := pc, minstret := ((s.core c).grip g).minstret + 1 }
  otherGrips : ∀ n, n ≠ g → (t.core c).grip n = (s.core c).grip n
  coreFrame : t.core c = { s.core c with grips := (t.core c).grips }
  otherCores : ∀ n, n ≠ c → t.core n = s.core n
  stateFrame : t = { s with cores := t.cores }

/-- Running `e` answers a state in which a grip's instruction is done. -/
def GripCompletes (s : State) (c g rd : Nat) (v : DWord) (pc : DWord) (e : Host.Outcome State Fault Refusal) : Prop :=
  ∃ t, e = .next t ∧ GripDone s c g rd v pc t

/-- A grip whose mtvec is not 0 has taken an exception: mepc its pc with bit 0 clear, MPIE takes MIE and MIE 0, the pc at mtvec; a tag wait ends (14 R356). -/
structure GripExcepted (s : State) (c g cause : Nat) (tval : DWord) (t : State) : Prop where
  grip : (t.core c).grip g = { (s.core c).grip g with
    mcause := BitVec.ofNat 64 cause, mtval := tval, mepc := ((s.core c).grip g).pc &&& ~~~1#64, pc := ((s.core c).grip g).mtvec, wtag := none
    mstatus := BitVec.ofNat 64 (0x1800 + bitsOf ((s.core c).grip g).mstatus.toNat 3 3 * 0x80) }
  otherGrips : ∀ n, n ≠ g → (t.core c).grip n = (s.core c).grip n
  coreFrame : t.core c = { s.core c with grips := (t.core c).grips, tagQ := (s.core c).tagQ.filter (fun w => w != .grip g) }
  otherCores : ∀ n, n ≠ c → t.core n = s.core n
  stateFrame : t = { s with cores := t.cores }

/-- Running `e` takes an exception. -/
def GripTraps (s : State) (c g cause : Nat) (tval : DWord) (e : Host.Outcome State Fault Refusal) : Prop :=
  ∃ t, e = .next t ∧ GripExcepted s c g cause tval t

/-- An integer operation as the unprivileged specification gives it, on words of any width. -/
def rvBits {w : Nat} (op : RvOp) (a b : BitVec w) : BitVec w :=
  let sh := b.toNat % w
  match op with
  | .add => a + b
  | .sub => a - b
  | .sll => a <<< sh
  | .slt => if a.slt b then 1 else 0
  | .sltu => if a.ult b then 1 else 0
  | .xor => a ^^^ b
  | .srl => a >>> sh
  | .sra => a.sshiftRight sh
  | .or => a ||| b
  | .and => a &&& b
  | .mul => a * b
  | .mulh => (a.signExtend (2 * w) * b.signExtend (2 * w)).extractLsb' w w
  | .mulhsu => (a.signExtend (2 * w) * b.setWidth (2 * w)).extractLsb' w w
  | .mulhu => (a.setWidth (2 * w) * b.setWidth (2 * w)).extractLsb' w w
  | .div => if b = 0 then BitVec.allOnes w else a.sdiv b
  | .divu => if b = 0 then BitVec.allOnes w else a / b
  | .rem => if b = 0 then a else a.srem b
  | .remu => if b = 0 then a else a % b
/-- Its result: a word operation sign-extends its 32 bits. -/
def rvOf (op : RvOp) (word : Bool) (a b : DWord) : DWord :=
  if word then (rvBits op (a.setWidth 32) (b.setWidth 32)).signExtend 64 else rvBits op a b
/-- Whether a branch is taken. -/
def rvGoes (k : RvBranch) (a b : DWord) : Prop :=
  match k with
  | .beq => a = b
  | .bne => a ≠ b
  | .blt => a.toInt < b.toInt
  | .bge => b.toInt ≤ a.toInt
  | .bltu => a.toNat < b.toNat
  | .bgeu => b.toNat ≤ a.toNat
/-- A base register and a 12-bit offset. -/
abbrev gripEa (x : Grip) (rs1 : BitVec 5) (off : BitVec 12) : Nat := (x.reg rs1.toNat + off.signExtend 64).toNat
/-- The instruction that follows. -/
abbrev nextOf (x : Grip) (short : Bool) : DWord := x.pc + (if short then 2 else 4)
/-- A standard instruction of the acting grip. -/
abbrev runsRv (r : Rv) (short : Bool) (s : State) : Host.Outcome State Fault Refusal := exec (.gripStandardInstruction r short) s
/-- The state an atomic on the data store acts on: with aq or rl set, the store queue drained (11 R272). -/
abbrev gripFrom (s : State) (c g : Nat) (aq rl : Bool) : State := if aq || rl then s.gripDrain c g else s
/-- The grip in that state. -/
abbrev gripQuiet (s : State) (c g : Nat) (aq rl : Bool) : Grip := ((gripFrom s c g aq rl).core c).grip g
/-- The place of an access. -/
abbrev placeOf (s : State) (c gid : Nat) (gr : Group) (a n : Nat) : GripPlace := gripPlace (s.core c) gid gr a n
/-- A load's bytes are those of an atomic that its grip's queue still holds: the load waits (11 R272; DEDUCED, log 18). -/
abbrev behindAtomic (s : State) (c g gid : Nat) (gr : Group) (a n : Nat) : Bool := gripHeld (s.core c) g (placeOf s c gid gr a n) n
/-- The bytes of an SC are reserved. -/
abbrev reserved (s : State) (c g : Nat) (aq rl : Bool) (key n : Nat) : Prop := ∃ b m, (gripQuiet s c g aq rl).resv = some (b, m) ∧ b ≤ key ∧ key + n ≤ b + m
/-- The store-queue entry that an atomic on scratchpad is: LR and SC a reservation, the others an operation of 12 Table 3 on one element whose old
value rd takes when it is performed (11 R272). -/
def queuedAtomic (op : RvAmo) (n rd p v : Nat) : SqBody :=
  if op = .lr then .resv false n rd p 0
  else if op = .sc then .resv true n rd p v
  else .atomic (rvAmoOp op).1 n (rvAmoOp op).2 [{ lane := 0, addr := p, operand := v % 2 ^ (8 * n), cmp := 0 }] (some rd)
/-- The state with a grip's registers as `f` makes them. -/
abbrev onGrip (s : State) (c g : Nat) (f : Grip → Grip) : State := s.modGrip c g f

end Sys2Proof.Machine

/-- A grip's integer, jump and branch instructions, fence and wfi complete with the unprivileged specification's values; mret returns; ecall,
ebreak and an illegal word take their exceptions; ebreak's mtval is the pc or 0, as log 4 says. -/
def Obligations.GripIntegerCompletes : Prop :=
  ∀ s c g gid x gr short, GripActs s c g gid x gr →
    (∀ rd imm, GripCompletes s c g rd.toNat ((imm ++ 0#12).signExtend 64) (nextOf x short) (runsRv (.lui rd imm) short s)) ∧
    (∀ rd imm, GripCompletes s c g rd.toNat (x.pc + (imm ++ 0#12).signExtend 64) (nextOf x short) (runsRv (.auipc rd imm) short s)) ∧
    (∀ rd off, GripCompletes s c g rd.toNat (nextOf x short) (x.pc + off.signExtend 64) (runsRv (.jal rd off) short s)) ∧
    (∀ rd rs1 off, GripCompletes s c g rd.toNat (nextOf x short) ((x.reg rs1.toNat + off.signExtend 64) &&& ~~~1#64) (runsRv (.jalr rd rs1 off) short s)) ∧
    (∀ k rs1 rs2 off, rvGoes k (x.reg rs1.toNat) (x.reg rs2.toNat) →
      GripCompletes s c g 0 0 (x.pc + off.signExtend 64) (runsRv (.branch k rs1 rs2 off) short s)) ∧
    (∀ k rs1 rs2 off, ¬rvGoes k (x.reg rs1.toNat) (x.reg rs2.toNat) → GripCompletes s c g 0 0 (nextOf x short) (runsRv (.branch k rs1 rs2 off) short s)) ∧
    (∀ op w rd rs1 imm, GripCompletes s c g rd.toNat (rvOf op w (x.reg rs1.toNat) (imm.signExtend 64)) (nextOf x short)
      (runsRv (.opImm op w rd rs1 imm) short s)) ∧
    (∀ op w rd rs1 rs2, GripCompletes s c g rd.toNat (rvOf op w (x.reg rs1.toNat) (x.reg rs2.toNat)) (nextOf x short) (runsRv (.op op w rd rs1 rs2) short s)) ∧
    (∀ p q, GripCompletes (s.gripDrain c g) c g 0 0 (nextOf x short) (runsRv (.fence p q) short s)) ∧
    GripCompletes s c g 0 0 (nextOf x short) (runsRv .wfi short s) ∧
    runsRv .mret short s = .next (onGrip s c g (fun k => { k with
      pc := x.mepc, minstret := x.minstret + 1, mstatus := BitVec.ofNat 64 (0x1880 + bitsOf x.mstatus.toNat 7 7 * 8) })) ∧
    (x.mtvec ≠ 0 → GripTraps s c g 11 0 (runsRv .ecall short s) ∧ (∀ w, GripTraps s c g 2 (w.setWidth 64) (runsRv (.illegal w) short s)) ∧
      (GripTraps { s with free := s.free + 1 } c g 3 0 (runsRv .ebreak short s) ∨ GripTraps { s with free := s.free + 1 } c g 3 x.pc (runsRv .ebreak short s)))

/-- A grip's loads, stores, atomics and CSR instructions complete: a load with the value its address names, a store in its data store or its
store queue, an atomic on the data store at once, SC by its reservation, one on scratchpad as an entry of the store queue, which aq or rl drains, a
CSR with its old value. A full queue makes a store or an atomic wait, and a queued atomic on its bytes a load.
The atomics, LR and SC as entries of the queue, the load that waits for one, and rd given only then are log 18's (DEDUCED). -/
def Obligations.GripMemoryCompletes : Prop :=
  ∀ s c g gid x gr short, GripActs s c g gid x gr →
    (∀ size uns rd rs1 off v, gripEa x rs1 off % 2 ^ size.toNat = 0 → behindAtomic s c g gid gr (gripEa x rs1 off) (2 ^ size.toNat) = false →
      gripLoad (s.core c) g gid gr (gripEa x rs1 off) (2 ^ size.toNat) = some (v, false) →
      GripCompletes s c g rd.toNat (BitVec.ofNat 64 (gripValue v (2 ^ size.toNat) uns)) (nextOf x short) (runsRv (.load size uns rd rs1 off) short s)) ∧
    (∀ size uns rd rs1 off, gripEa x rs1 off % 2 ^ size.toNat = 0 → behindAtomic s c g gid gr (gripEa x rs1 off) (2 ^ size.toNat) = true →
      runsRv (.load size uns rd rs1 off) short s = .next s) ∧
    (∀ size rs1 rs2 off p, gripEa x rs1 off % 2 ^ size.toNat = 0 → placeOf s c gid gr (gripEa x rs1 off) (2 ^ size.toNat) = .dstore p →
      GripCompletes (onGrip s c g (fun k => k.putData p (2 ^ size.toNat) (x.reg rs2.toNat).toNat)) c g 0 0 (nextOf x short)
        (runsRv (.store size rs1 rs2 off) short s)) ∧
    (∀ size rs1 rs2 off p, gripEa x rs1 off % 2 ^ size.toNat = 0 → placeOf s c gid gr (gripEa x rs1 off) (2 ^ size.toNat) = .loc p → x.storeQ.length < 16 →
      GripCompletes (onGrip s c g (fun k => k.enqueue (.store (withAddrs p (toBytes (x.reg rs2.toNat).toNat (2 ^ size.toNat)))))) c g 0 0 (nextOf x short)
        (runsRv (.store size rs1 rs2 off) short s)) ∧
    (∀ size rs1 rs2 off p, gripEa x rs1 off % 2 ^ size.toNat = 0 → placeOf s c gid gr (gripEa x rs1 off) (2 ^ size.toNat) = .loc p → 16 ≤ x.storeQ.length →
      runsRv (.store size rs1 rs2 off) short s = .next s) ∧
    (∀ dbl aq rl rd rs1 rs2 q, let n := if dbl then 8 else 4
      (x.reg rs1.toNat).toNat % n = 0 → placeOf s c gid gr (x.reg rs1.toNat).toNat n = .dstore q → (gripQuiet s c g aq rl).poison.contains (q / 8) = false →
      GripCompletes (onGrip (gripFrom s c g aq rl) c g (fun k => { k with resv := some (resvData + q, n) })) c g rd.toNat
        (BitVec.ofNat 64 (gripValue (Memory.readV (gripQuiet s c g aq rl).dstore q n) n false)) (nextOf x short) (runsRv (.amo .lr dbl aq rl rd rs1 rs2) short s)) ∧
    (∀ dbl aq rl rd rs1 rs2 q, let n := if dbl then 8 else 4
      (x.reg rs1.toNat).toNat % n = 0 → placeOf s c gid gr (x.reg rs1.toNat).toNat n = .dstore q → reserved s c g aq rl (resvData + q) n →
      GripCompletes (onGrip (gripFrom s c g aq rl) c g (fun k => { k.putData q n (x.reg rs2.toNat).toNat with resv := none })) c g rd.toNat 0 (nextOf x short)
        (runsRv (.amo .sc dbl aq rl rd rs1 rs2) short s)) ∧
    (∀ dbl aq rl rd rs1 rs2 q, let n := if dbl then 8 else 4
      (x.reg rs1.toNat).toNat % n = 0 → placeOf s c gid gr (x.reg rs1.toNat).toNat n = .dstore q → ¬reserved s c g aq rl (resvData + q) n →
      GripCompletes (onGrip (gripFrom s c g aq rl) c g (fun k => { k with resv := none })) c g rd.toNat 1 (nextOf x short)
        (runsRv (.amo .sc dbl aq rl rd rs1 rs2) short s)) ∧
    (∀ op dbl aq rl rd rs1 rs2 q, op ≠ .lr → op ≠ .sc → let n := if dbl then 8 else 4
      (x.reg rs1.toNat).toNat % n = 0 → placeOf s c gid gr (x.reg rs1.toNat).toNat n = .dstore q → (gripQuiet s c g aq rl).poison.contains (q / 8) = false →
      GripCompletes (onGrip (gripFrom s c g aq rl) c g (fun k => k.putData q n
          (atomInt (rvAmoOp op).1 (8 * n) (rvAmoOp op).2 (Memory.readV (gripQuiet s c g aq rl).dstore q n) ((x.reg rs2.toNat).toNat % 2 ^ (8 * n)) 0)))
        c g rd.toNat (BitVec.ofNat 64 (gripValue (Memory.readV (gripQuiet s c g aq rl).dstore q n) n false)) (nextOf x short)
        (runsRv (.amo op dbl aq rl rd rs1 rs2) short s)) ∧
    (∀ op dbl aq rl rd rs1 rs2 q, let n := if dbl then 8 else 4
      (x.reg rs1.toNat).toNat % n = 0 → placeOf s c gid gr (x.reg rs1.toNat).toNat n = .loc q → q < gr.scrSize → x.storeQ.length < 16 →
      ∃ t, GripDone (onGrip s c g (fun k => k.enqueue (queuedAtomic op n rd.toNat q (x.reg rs2.toNat).toNat))) c g 0 0 (nextOf x short) t ∧
        runsRv (.amo op dbl aq rl rd rs1 rs2) short s = .next (if aq || rl then t.gripDrain c g else t)) ∧
    (∀ op dbl aq rl rd rs1 rs2 q, let n := if dbl then 8 else 4
      (x.reg rs1.toNat).toNat % n = 0 → placeOf s c gid gr (x.reg rs1.toNat).toNat n = .loc q → q < gr.scrSize → 16 ≤ x.storeQ.length →
      runsRv (.amo op dbl aq rl rd rs1 rs2) short s = .next s) ∧
    (∀ op im rd rs1 num old, op ≠ .rw → rs1 = 0 → csrRead c g x num.toNat = some old →
      GripCompletes s c g rd.toNat (BitVec.ofNat 64 old) (nextOf x short) (runsRv (.csr op im rd rs1 num) short s)) ∧
    (∀ op im rd rs1 num old, (op = .rw ∨ rs1 ≠ 0) → num.toNat < 0xC00 → csrRead c g x num.toNat = some old →
      ∃ t, runsRv (.csr op im rd rs1 num) short s = .next (onGrip t c g (fun k => csrWrite k num.toNat
          (let v := if im then rs1.toNat else (x.reg rs1.toNat).toNat
           match op with | .rw => v | .rs => old ||| v | .rc => old &&& (2 ^ 64 - 1 - v)))) ∧
        GripDone s c g rd.toNat (BitVec.ofNat 64 old) (nextOf x short) t)

/-- A grip whose mtvec is not 0 takes exceptions 4 to 7 on a misaligned address or one outside its map, 27 on an uncorrectable error, 2 on a CSR
that is not a grip's or is read-only, and 24 on a timeline or barrier that the group does not have, or a barrier that is free. -/
def Obligations.GripExceptionsAreTaken : Prop :=
  ∀ s c g gid x gr short, GripActs s c g gid x gr → x.mtvec ≠ 0 →
    (∀ size uns rd rs1 off, gripEa x rs1 off % 2 ^ size.toNat ≠ 0 →
      GripTraps s c g 4 (BitVec.ofNat 64 (gripEa x rs1 off)) (runsRv (.load size uns rd rs1 off) short s)) ∧
    (∀ size uns rd rs1 off, gripEa x rs1 off % 2 ^ size.toNat = 0 → placeOf s c gid gr (gripEa x rs1 off) (2 ^ size.toNat) = .none →
      GripTraps s c g 5 (BitVec.ofNat 64 (gripEa x rs1 off)) (runsRv (.load size uns rd rs1 off) short s)) ∧
    (∀ size uns rd rs1 off v, gripEa x rs1 off % 2 ^ size.toNat = 0 → behindAtomic s c g gid gr (gripEa x rs1 off) (2 ^ size.toNat) = false →
      gripLoad (s.core c) g gid gr (gripEa x rs1 off) (2 ^ size.toNat) = some (v, true) →
      GripTraps (s.uncorrectable c (gripUnit (gripEa x rs1 off))) c g 27 (BitVec.ofNat 64 (gripEa x rs1 off)) (runsRv (.load size uns rd rs1 off) short s)) ∧
    (∀ size rs1 rs2 off, gripEa x rs1 off % 2 ^ size.toNat ≠ 0 →
      GripTraps s c g 6 (BitVec.ofNat 64 (gripEa x rs1 off)) (runsRv (.store size rs1 rs2 off) short s)) ∧
    (∀ size rs1 rs2 off, gripEa x rs1 off % 2 ^ size.toNat = 0 →
      (placeOf s c gid gr (gripEa x rs1 off) (2 ^ size.toNat) = .none ∨ ∃ p, placeOf s c gid gr (gripEa x rs1 off) (2 ^ size.toNat) = .istore p) →
      GripTraps s c g 7 (BitVec.ofNat 64 (gripEa x rs1 off)) (runsRv (.store size rs1 rs2 off) short s)) ∧
    (∀ op dbl aq rl rd rs1 rs2, (x.reg rs1.toNat).toNat % (if dbl then 8 else 4) ≠ 0 →
      GripTraps s c g (if op = .lr then 4 else 6) (x.reg rs1.toNat) (runsRv (.amo op dbl aq rl rd rs1 rs2) short s)) ∧
    (∀ op dbl aq rl rd rs1 rs2, (x.reg rs1.toNat).toNat % (if dbl then 8 else 4) = 0 →
      resvKey gr (placeOf s c gid gr (x.reg rs1.toNat).toNat (if dbl then 8 else 4)) = none →
      GripTraps s c g (if op = .lr then 5 else 7) (x.reg rs1.toNat) (runsRv (.amo op dbl aq rl rd rs1 rs2) short s)) ∧
    (∀ op im rd rs1 num, (csrRead c g x num.toNat = none ∨ ((op = .rw ∨ rs1 ≠ 0) ∧ 0xC00 ≤ num.toNat)) →
      GripTraps s c g 2 (BitVec.ofNat 64 (rvWord (.csr op im rd rs1 num))) (runsRv (.csr op im rd rs1 num) short s)) ∧
    (∀ rd rs1 rs2, gr.nTl ≤ (x.reg rs1.toNat).toNat →
      GripTraps s c g 24 (x.reg rs1.toNat) (exec (.gTlwait rd rs1 rs2) s) ∧ GripTraps s c g 24 (x.reg rs1.toNat) (exec (.gTlrd rd rs1) s)) ∧
    (∀ rd rs1, gr.nBar ≤ (x.reg rs1.toNat).toNat → GripTraps s c g 24 (x.reg rs1.toNat) (exec (.gBarv rd rs1) s)) ∧
    (∀ rd rs1, (x.reg rs1.toNat).toNat < gr.nBar → (gr.bar (x.reg rs1.toNat).toNat).expected = 0 →
      GripTraps s c g 24 (BitVec.ofNat 64 (0x100 + (x.reg rs1.toNat).toNat)) (exec (.gBarv rd rs1) s))

/-- The grips' custom instructions complete: g.post, g.task and g.item post and give their number, g.tlwait and g.tlrd give VALUE, g.ldf and g.ste
act on a ready word and its tag in one event, g.barv puts an arrival in its queue, g.evt counts, ends the grip, or makes it fail; those that must
wait change nothing but what waiting takes. -/
def Obligations.GripCustomCompletes : Prop :=
  ∀ s c g gid x gr, GripActs s c g gid x gr →
    (∀ rd rs1, 64 ≤ ((s.gripDrain c g).core c).copyQ.length → exec (.gPost rd rs1) s = .next (s.gripDrain c g)) ∧
    (∀ rd rs1,
      let s1 := s.gripDrain c g
      (s1.core c).copyQ.length < 64 →
      let r := (localDwords (s1.core c) gr (x.reg rs1.toNat).toNat 16).map (BitVec.ofNat 64)
      imageTrap s1 c g gid gr (x.reg rs1.toNat).toNat 16 = none → slateCheck s1 c gr 0 r = none →
      GripCompletes (s1.postSlate c gid (0x40 + g) x.pc r).1 c g rd.toNat (BitVec.ofNat 64 (s1.postSlate c gid (0x40 + g) x.pc r).2) (x.pc + 4)
        (exec (.gPost rd rs1) s)) ∧
    (∀ rd rs1 rs2, (x.reg rs1.toNat).toNat < gr.nTl → (x.reg rs2.toNat).toNat ≤ (gr.tl (x.reg rs1.toNat).toNat).value ∨ (gr.tl (x.reg rs1.toNat).toNat).blocked = true →
      GripCompletes s c g rd.toNat (BitVec.ofNat 64 (gr.tl (x.reg rs1.toNat).toNat).value) (x.pc + 4) (exec (.gTlwait rd rs1 rs2) s)) ∧
    (∀ rd rs1 rs2, (x.reg rs1.toNat).toNat < gr.nTl → (gr.tl (x.reg rs1.toNat).toNat).value < (x.reg rs2.toNat).toNat →
      (gr.tl (x.reg rs1.toNat).toNat).blocked = false → exec (.gTlwait rd rs1 rs2) s = .next s) ∧
    (∀ rd rs1, (x.reg rs1.toNat).toNat < gr.nTl →
      GripCompletes s c g rd.toNat (BitVec.ofNat 64 (gr.tl (x.reg rs1.toNat).toNat).value) (x.pc + 4) (exec (.gTlrd rd rs1) s)) ∧
    (∀ rd rs1, (x.reg rs1.toNat).toNat % 4 = 0 → localOk (s.core c) gid gr (x.reg rs1.toNat).toNat 4 false = true →
      let s1 := s.gripDrain c g
      let ws := tagWords gr (x.reg rs1.toNat).toNat 4
      wordsReady (s1.core c) ws true = true → (s1.core c).untagged ws = true → someoneFirst (s1.core c) (.grip g) ws = false → localPoison (s1.core c) gr (x.reg rs1.toNat).toNat = false →
      GripCompletes (onGrip (s1.modCore c (fun k => (setTags k ws false).unwait (.grip g))) c g (fun k => { k with wtag := none })) c g rd.toNat
        (BitVec.ofNat 64 (gripValue (ofBytes (localRead (s1.core c) gr (x.reg rs1.toNat).toNat 4)) 4 false)) (x.pc + 4) (exec (.gLdf rd rs1) s)) ∧
    (∀ rs1 rs2, (x.reg rs1.toNat).toNat % 4 = 0 → localOk (s.core c) gid gr (x.reg rs1.toNat).toNat 4 false = true →
      let s1 := s.gripDrain c g
      let ws := tagWords gr (x.reg rs1.toNat).toNat 4
      let t := onGrip (s1.modCore c (fun k => (setTags k ws true).unwait (.grip g))) c g (fun k => { k with wtag := none })
      wordsReady (s1.core c) ws false = true → (s1.core c).untagged ws = true → someoneFirst (s1.core c) (.grip g) ws = false →
      GripCompletes (t.setCore c (localWrite (t.core c) gr (withAddrs (x.reg rs1.toNat).toNat (toBytes (x.reg rs2.toNat).toNat 4)))) c g 0 0 (x.pc + 4)
        (exec (.gSte rs1 rs2) s)) ∧
    (∀ rd rs1, GripCompletes (s.putItems c gid [x.reg rs1.toNat] false).1 c g rd.toNat (BitVec.ofNat 64 (s.putItems c gid [x.reg rs1.toNat] false).2) (x.pc + 4)
      (exec (.gItem rd rs1) s)) ∧
    (∀ rd rs1, GripCompletes (s.putItems c gid [x.reg rs1.toNat] true).1 c g rd.toNat (BitVec.ofNat 64 (s.putItems c gid [x.reg rs1.toNat] true).2) (x.pc + 4)
      (exec (.gItemClose rd rs1) s)) ∧
    (∀ rd rs1 rs2 r, (s.gripDrain c g).postTask c gr (bitsOf (x.reg rs1.toNat).toNat 31 0) (bitsOf (x.reg rs2.toNat).toNat 31 0)
        (bitsOf (x.reg rs2.toNat).toNat 63 32) 0xFF (4 + g) = .ok r →
      GripCompletes r.1 c g rd.toNat (BitVec.ofNat 64 r.2) (x.pc + 4) (exec (.gTask rd rs1 rs2) s)) ∧
    (∀ rd rs1, (x.reg rs1.toNat).toNat < gr.nBar → (gr.bar (x.reg rs1.toNat).toNat).expected ≠ 0 → x.storeQ.length < 16 →
      GripCompletes (onGrip s c g (fun k => k.enqueue (.arrive (x.reg rs1.toNat).toNat 1))) c g rd.toNat
        (BitVec.ofNat 64 (gr.bar (x.reg rs1.toNat).toNat).phase.toNat) (x.pc + 4) (exec (.gBarv rd rs1) s)) ∧
    (∀ rs1, GripCompletes (s.countCore c 0x24 (bitsOf (x.reg rs1.toNat).toNat 15 0)) c g 0 0 (x.pc + 4) (exec (.gEvt rs1) s)) ∧
    (∀ rs1, ∃ t, exec (.gEvtEnd rs1) s = .next (onGrip t c g (fun k => { k with run := 2, resv := none })) ∧ GripDone s c g 0 0 (x.pc + 4) t) ∧
    (∀ rs1, ∃ t h, exec (.gEvtFail rs1) s = .next t ∧ (t.core c).grip g = { x with run := 3, resv := none, wtag := none } ∧ t.group? c gid = some h ∧
      h.err = true ∧ h.nfail = min 0xFFFF (gr.nfail + 1) ∧ (gr.nfail = 0 → h.fstat = 0x20))

/-- No instruction and no event is refused, and none finds that a unit does not exist. An instruction of a warp, or of a grip, that acts and has
its group answers a next state, and so does every event where each warp and each running grip has its group: only an instruction with no warp
or grip acting faults. -/
def Obligations.NothingIsRefused : Prop :=
  (∀ i s r, exec i s ≠ .refused r) ∧ (∀ s r, step s ≠ .refused r) ∧ (∀ i s, exec i s ≠ .fault .noSuchUnit) ∧
  (∀ i s c slot w g, encode i ≠ [] → i.isGrip = false → Acts s c slot w g → ∃ t, exec i s = .next t) ∧
  (∀ i s c g gid x gr, i.isGrip = true → GripActs s c g gid x gr → ∃ t, exec i s = .next t) ∧
  (∀ i s, encode i = [] → i.isGrip = false → Owned s → ∃ t, exec i s = .next t)

namespace Sys2Proof.Machine

/-! ## Events of warps (02, 09, 17; 03 Table 14) -/

/-- Event answer `e` is what instruction `i`, run again with warp `slot` of core `c` acting, leaves; afterwards whoever acted before acts. -/
def RunsAgain (s : State) (c slot : Nat) (i : Instr) (e : Host.Outcome State Fault Refusal) : Prop :=
  ∃ t, exec i { s with cur := .warp c slot } = .next t ∧ e = .next { t with cur := s.cur }

/-- Warp `slot`, of group `g`, waits in instruction `i` and nothing keeps it from going on. -/
structure WaitsIn (s : State) (c slot : Nat) (w : Warp) (g : Group) (t : Waiting) (i : Instr) : Prop where
  warp : s.warp? c slot = some w
  group : s.group? c w.gid = some g
  runs : g.stopped = false ∧ w.halted = false ∧ w.pend = none ∧ (w.preempt && !w.handler) = false ∧ ((s.core c).sched (schedOf slot)).frozen = false
  waits : w.waiting = some t
  instr : t.instr = i

/-- The value that operand `o` gives as `pos` reads it. -/
abbrev eventSrc (s : State) (c slot : Nat) (g : Group) (w : Warp) (x : Ext) (pos : Option Pos) (o : Src) : Nat := srcVal (s.core c) c slot g w x pos o 0

/-- The lanes of a tag wait that are no helpers. -/
abbrev waitLanes (w : Warp) (t : Waiting) : List AtomLane := t.lns.filter (fun l => !(w.helpers.has l.lane))

/-- Of those, the lanes whose words are not ready. -/
def lateLanes (k : Core) (w : Warp) (g : Group) (t : Waiting) : List AtomLane :=
  (waitLanes w t).filter (fun l => match t.tag with | some (full, n) => !(wordsReady k (tagWords g l.addr n) full) | none => false)

/-- A link carries the sideband, and boot has not failed. -/
abbrev sbUp (s : State) : Prop := (s.linkOpen 0 = true ∨ s.linkOpen 1 = true) ∧ s.pkg.bootState ∉ [2, 5, 6]

/-- A tag wait that began in cycle `start` has reached its limit: TAGLIM is not 0, and TAGLIM times 256 cycles have passed. -/
abbrev limitReached (k : Core) (start : Nat) : Prop := k.taglim ≠ 0 ∧ k.taglim.toNat * 256 ≤ k.cycle.toNat - start

/-- Whether scheduler `q` of core `c` may select warp `i` or continue it. -/
abbrev readyOf (s : State) (c q i : Nat) : Prop := i / 16 = q ∧ s.ready c i = true

/-- Whether warp `i` has waited longer than warp `j`, a tie going to the lower slot. -/
abbrev waitedLonger (s : State) (c i j : Nat) : Prop :=
  let t := fun n => ((s.warp? c n).map Warp.since).getD 0
  t i < t j ∨ (t i = t j ∧ i ≤ j)

/-- Scheduler `q` of core `c` has selected warp `i`, for run `n` in a row: the latches are the warp's own where a restart brought them, else
invalid, its first instruction may issue one cycle later, and the operand cache of the warp whose run it was is cleared; nothing else
changes. -/
structure Selected (s : State) (c q i n : Nat) (t : State) : Prop where
  sched : (t.core c).sched q = { (s.core c).sched q with
    cur := some i, midRun := true, runs := n, yielded := false, lposn := []
    la := match (s.warp? c i).bind Warp.relatch with | some p => p.1 | none => Latch.clear
    lb := match (s.warp? c i).bind Warp.relatch with | some p => p.2 | none => Latch.clear }
  warp : t.warp? c i = (s.warp? c i).map (fun w => { w with relatch := none, issueFrom := (s.core c).cycle.toNat + 1 })
  prior : ∀ p w, ((s.core c).sched q).cur = some p → p ≠ i → s.warp? c p = some w → t.warp? c p = some w.clearCache
  otherWarps : ∀ m, m ≠ i → ((s.core c).sched q).cur ≠ some m → t.warp? c m = s.warp? c m
  otherScheds : ∀ m, m ≠ q → (t.core c).sched m = (s.core c).sched m
  coreFrame : t.core c = { s.core c with warps := (t.core c).warps, scheds := (t.core c).scheds }
  otherCores : ∀ m, m ≠ c → t.core m = s.core m
  stateFrame : t = { s with cores := t.cores }

/-- A write of DBGCTL has been taken (09 Table 10): its fields, and with RESUME every frozen scheduler goes on, uncompared where it
hit or steps, and the tag waits of its warps begin again. -/
structure DbgWritten (s : State) (c : Nat) (v : DWord) (t : State) : Prop where
  fields : t.core c = { s.core c with
    dbgAsid := v.extractLsb' 16 16, dbgAsiden := v.getLsbD 12, bpen := v.extractLsb' 4 4, alls := v.getLsbD 3, trapbp := v.getLsbD 2, stepBit := v.getLsbD 1
    scheds := (t.core c).scheds, warps := (t.core c).warps }
  scheds : ∀ q, (t.core c).sched q =
    let k := (s.core c).sched q
    if v.getLsbD 0 && k.frozen then { k with frozen := false, hit := false, stepOne := v.getLsbD 1 } else k
  warps : ∀ n w, s.warp? c n = some w → t.warp? c n = some (if v.getLsbD 0 && ((s.core c).sched (n / 16)).frozen then
    { w with
      waiting := w.waiting.map (fun p => { p with start := (s.core c).cycle.toNat })
      bpSkip := w.bpSkip || (((s.core c).sched (n / 16)).hit && ((s.core c).sched (n / 16)).cur == some n) } else w)
  otherCores : ∀ m, m ≠ c → t.core m = s.core m
  stateFrame : t = { s with cores := t.cores }

/-- A hit of scheduler `q` has frozen it, or with ALLS all four; nothing else changes. -/
structure Frozen (s : State) (c q : Nat) (t : State) : Prop where
  scheds : ∀ n, (t.core c).sched n = if n < 4 ∧ ((s.core c).alls = true ∨ n = q) then
    { (s.core c).sched n with frozen := true, hit := ((s.core c).sched n).hit || n == q } else (s.core c).sched n
  coreFrame : t.core c = { s.core c with scheds := (t.core c).scheds }
  otherCores : ∀ m, m ≠ c → t.core m = s.core m
  stateFrame : t = { s with cores := t.cores }

end Sys2Proof.Machine

open Sys2Proof Sys2Proof.Machine

/-- A waiting instruction goes on by its event, and runs again with its warp acting: LDSF and STSE; WAITC within its limits; TLWAIT
with its timeline at its target or held below it by a failure; BWAIT with the phase past; RECAST with items or a closed queue; CPOST and MMA with a freed entry; FENCE
with its store queue empty; ICINV; SGWR; TLBSYNC with every flush done.
An instruction keeps the operands of its issue while it waits (log 11, DEDUCED). -/
def Obligations.WaitsEndByTheirEvents : Prop :=
  ∀ (s : State) (c slot : Nat) (w : Warp) (g : Group) (t : Waiting) (i : Instr), WaitsIn s c slot w g t i →
    ((∃ b, i = .ldsfMem b ∨ i = .stseMem b) ∨ (∃ x, i = .ldsfExt x ∨ i = .stseExt x) → RunsAgain s c slot i (exec (.tagWaitSatisfied c (.warp slot)) s)) ∧
    (∀ x, i = .waitc x → w.waitcDone x = true → RunsAgain s c slot i (exec (.waitcReturn c slot) s)) ∧
    (∀ x, i = .tlwait x → (eventSrc s c slot g w x cntPos64 x.a ≤ (g.tl (tlField x)).value ∨ (g.tl (tlField x)).blocked = true) →
      RunsAgain s c slot i (exec (.tlwaitReturn c slot) s)) ∧
    (∀ x, i = .bwait x → (g.bar (eventSrc s c slot g w x cntPos x.a)).past (eventSrc s c slot g w x cntPos x.b) ≠ 0 →
      RunsAgain s c slot i (exec (.bwaitReturn c slot) s)) ∧
    (∀ x, i = .recast x → (g.castNew < g.castQ.length ∨ (g.castOpen = false ∧ g.castNew = 0)) → RunsAgain s c slot i (exec (.recastWake c slot) s)) ∧
    (∀ x, i = .cpost x → (s.core c).copyQ.length < 64 → RunsAgain s c slot i (exec (.cpostAccept c slot) s)) ∧
    (∀ x, i ∈ [.mma2 x, .mma3 x, .mma4 x, .mma5 x, .mma6 x, .mma7 x, .mma8 x, .mmaw x] → (s.core c).matUsed < 32 →
      RunsAgain s c slot i (exec (.mmaAccept c slot) s)) ∧
    (∀ x, i = .fence x → w.storeQ = [] → RunsAgain s c slot i (exec (.fenceDrained c slot) s)) ∧
    (∀ x, i = .icinv x → RunsAgain s c slot i (exec (.icinvDone c slot) s)) ∧
    (∀ x, i = .sgwr x → RunsAgain s c slot i (exec (.sgwrDone c slot) s)) ∧
    (∀ x, i = .tlbsync x → s.flushesDone t.flushes = true → RunsAgain s c slot i (exec (.tlbsyncDone c slot) s))

/-- TRAP_ENTRY, TAGWAIT, BREAKPOINT_HIT and MACHINE: the waiting trap is taken; a tag wait at its limit traps with cause 0x0C and the address of its lowest
lane that is no helper and whose words are not ready (where only an older wait is before it, of its lowest lane: log 14), a grip's as exception 26, and is counted; a hit traps with TRAPBP or freezes; an error stops a group, a core's groups, or freezes the package. A grip's tag wait ends too.
SCHEDULER_SELECT and DBGCTL_RESUME: between runs, a scheduler goes on with its ready warp until its 16th run or a YIELD, else takes the ready warp that
has waited longest, else begins its warp again; a write of DBGCTL over the sideband takes its fields and with RESUME lets frozen schedulers go on.
With ALLS one step freezes all four schedulers (log 34, DEDUCED: R240 freezes the others at their next issue cycle). -/
def Obligations.WarpEventsComplete : Prop :=
  (∀ (s : State) c slot w t, s.mayRun c slot = true → s.warp? c slot = some w → w.pend = some t →
    exec (.trapEntry c slot) s = .next ((s.setWarp c slot { w with pend := none }).takeTrap c slot t w.bpSkip)) ∧
  (∀ (s : State) c slot w g t i a, WaitsIn s c slot w g t i → t.tag.isSome = true → limitReached (s.core c) t.start → (lateLanes (s.core c) w g t ++ waitLanes w t).head? = some a →
    exec (.tagwait c (.warp slot)) s = .next ((s.countCore c 0x23 1).takeTrap c slot { cause := 0x0C, tval := BitVec.ofNat 64 a.addr } false)) ∧
  (∀ (s : State) c g a f, let x := (s.core c).grip g
    x.wtag = some (a, f) → x.run = 1 → limitReached (s.core c) x.wstart → x.mtvec ≠ 0 →
      GripTraps (s.countCore c 0x23 1) c g 26 (BitVec.ofNat 64 a) (exec (.tagwait c (.grip g)) s)) ∧
  (∀ (s : State) c g gid x gr i, GripActs { s with cur := .grip c g } c g gid x gr → x.run = 1 → x.wtag.isSome = true → x.fetch = .ok i →
    ((∃ rd rs1, i = .gLdf rd rs1) ∨ (∃ rs1 rs2, i = .gSte rs1 rs2)) →
      ∃ t, exec i { s with cur := .grip c g } = .next t ∧ exec (.tagWaitSatisfied c (.grip g)) s = .next { t with cur := s.cur }) ∧
  (∀ (s : State) c q n slot, s.hitOf c q = some n → ((s.core c).sched q).cur = some slot → s.mayRun c slot = true →
    ((s.core c).trapbp = true →
      exec (.breakpointHit c q n) s = .next (s.takeTrap c slot { cause := 0x21, tval := BitVec.ofNat 64 (0x100 + n) } true)) ∧
    ((s.core c).trapbp = false → ∃ t, exec (.breakpointHit c q n) s = .next t ∧ Frozen s c q t)) ∧
  (∀ (s : State) m, m.scope = 0 → (s.group? m.core m.gid).isSome = true →
    ∃ t g, exec (.machine m) s = .next t ∧ t.group? m.core m.gid = some g ∧ g.fatal = true ∧ g.stopped = true ∧ (t.core m.core).mchk = true) ∧
  (∀ (s : State) m, m.scope = 1 → ∃ t, exec (.machine m) s = .next t ∧ (t.core m.core).held = true ∧ (t.core m.core).mchk = true ∧
    (∀ n g, t.group? m.core n = some g → g.fatal = true ∧ g.stopped = true)) ∧
  (∀ (s : State) m, 2 ≤ m.scope → ∃ t, exec (.machine m) s = .next t ∧ t.pkg.frozen = true) ∧
  (∀ (s : State) c q, let k := (s.core c).sched q
    let spent := k.yielded = true ∨ 16 ≤ k.runs
    k.midRun = false → k.frozen = false →
    (∀ p, k.cur = some p → readyOf s c q p → ¬spent → ∃ t, exec (.schedulerSelect c q) s = .next t ∧ Selected s c q p (k.runs + 1) t) ∧
    (∀ i, readyOf s c q i → k.cur ≠ some i → (∀ p, k.cur = some p → spent ∨ ¬readyOf s c q p) →
      (∀ j, readyOf s c q j → k.cur ≠ some j → waitedLonger s c i j) → ∃ t, exec (.schedulerSelect c q) s = .next t ∧ Selected s c q i 1 t) ∧
    (∀ p, k.cur = some p → readyOf s c q p → spent → (∀ j, j ≠ p → ¬readyOf s c q j) →
      ∃ t, exec (.schedulerSelect c q) s = .next t ∧ Selected s c q p 1 t)) ∧
  (∀ (s : State) c v, sbUp s → ∃ t, exec (.dbgctlResume c v) s = .next { t with out := Out.reset } ∧ DbgWritten s c v t) ∧
  (∀ (s : State) c v, ¬sbUp s → exec (.dbgctlResume c v) s = .next s.refuse)

namespace Sys2Proof.Machine

/-! ## Events of memory (10 R263 to R265; 11 R270 to R282; 12 R289, R290, R302) -/

/-- Warp `slot` of core `c` has become `w`, and nothing else changes. -/
structure WarpOnly (s : State) (c slot : Nat) (w : Warp) (t : State) : Prop where
  warp : t.warp? c slot = some w
  otherWarps : ∀ n, n ≠ slot → t.warp? c n = s.warp? c n
  coreFrame : t.core c = { s.core c with warps := (t.core c).warps }
  otherCores : ∀ n, n ≠ c → t.core n = s.core n
  stateFrame : t = { s with cores := t.cores }

/-- The head of a store queue has left it. -/
abbrev headLeft (e : SqEntry) (rest : List SqEntry) (w : Warp) : Warp := { w with storeQ := rest, st := if e.counted then w.st - 1 else w.st }

/-- No load of the warp before load `idx` has still to be performed, and no queued atomic before the load covers a byte of lane `t`. -/
abbrev turnOf (w : Warp) (idx : Nat) (o : LoadOp) (t : LaneLoad) : Prop :=
  (∀ e ∈ w.loads.take idx, e.kind.ordered = true → e.performed = true) ∧ sqAtomic w.storeQ o.seq t.ea o.size = false

/-- Lane `l` of a load has landed with value `v`, which no uncorrectable error spoils: in its register, sign-extended where the load says so, or in a
pair; for LDSP the word in its register and the tag in its predicate (12 R289, R291 to R294). -/
def landed (o : LoadOp) (l v : Nat) (w : Warp) : Warp :=
  match o.kind with
  | .ldsp p => (w.landWord o.dst l v).putPred p (1#32 <<< l) (if v / 2 ^ 32 = 0 then 0 else 1#32 <<< l)
  | _ =>
    if o.size = 8 then (w.landWord o.dst l v).landWord (o.dst + 1) l (v / 2 ^ 32)
    else w.landWord o.dst l (if o.sext then wrapInt (sextNat v (8 * o.size)) 32 else v)

/-- The value that a lane of an LDS or LDSP reads: for LDSP the tag stands above the word (12 R292). -/
def readValue (s : State) (c : Nat) (g : Group) (w : Warp) (o : LoadOp) (u : LaneLoad) : Nat × Bool :=
  match o.kind with
  | .ldsp _ =>
    let v := loadValue (s.core c) g w.storeQ o.seq u.ea 4
    (v.1 + (if (wordsCovered g u.ea 4).all (fun x => (s.core c).full.contains x) then 2 ^ 32 else 0), v.2)
  | _ => loadValue (s.core c) g w.storeQ o.seq u.ea o.size

/-- The loads of a warp after atomic entry with load `id` has given its lanes' old values, none of them spoiled. -/
def answered (id : Nat) (olds : List (Nat × Nat × Bool)) (ls : List LoadOp) : List LoadOp := ls.map (fun o => if o.id = id then o.answer olds else o)

/-- An access has left the list of its warp, and TLD, TST, ARD and AWR their counter. -/
abbrev tileLeft (idx : Nat) (o : TileOp) (w : Warp) : Warp :=
  { w with tiles := w.tiles.take idx ++ w.tiles.drop (idx + 1), tl := if o.kind = .aclr then w.tl else w.tl - 1 }

/-- The access is the first TLD or TST of its warp. -/
abbrev firstTile (w : Warp) (idx : Nat) : Prop := ∀ e ∈ w.tiles.take idx, e.kind ≠ .tld ∧ e.kind ≠ .tst

/-- The access is the first in the order of its accumulator. -/
abbrev firstAcc (s : State) (c : Nat) (o : TileOp) : Prop := (Tab.getD (s.core c).accOrder o.handle []).head? = some o.ticket

end Sys2Proof.Machine

open Sys2Proof Sys2Proof.Machine

/-- The head of a store queue is performed and leaves it, a store's bytes in local memory, an atomic's with the old values given to its load; a grip's
atomic, LR and SC give their register then (DEDUCED, log 18). A lane of an LDS or LDSP is read in its turn; a lane of those, of LDSF and of ATS lands in
its register, pair or predicate, the last one ending the load.
A tile access lands in the order of its warp or of its accumulator; an atomic is performed at its coherence point; a write-through is acknowledged; a scrub corrects or marks what it finds. -/
def Obligations.MemoryEventsComplete : Prop :=
  (∀ (s : State) c slot w g e rest bs, s.warp? c slot = some w → s.group? c w.gid = some g → w.storeQ = e :: rest → e.body = .store bs →
    exec (.storeQueuePerform c slot) s = .next ((s.setCore c (localWrite (s.core c) g bs)).modWarp c slot (headLeft e rest))) ∧
  (∀ (s : State) c slot w g e rest bar n, s.warp? c slot = some w → s.group? c w.gid = some g → w.storeQ = e :: rest → e.body = .arrive bar n →
    exec (.storeQueuePerform c slot) s = .next ((s.arrive c w.gid bar n).modWarp c slot (headLeft e rest))) ∧
  (∀ (s : State) c g gid gr x e rest bs, (s.core c).grip g = x → x.gid = some gid → s.group? c gid = some gr → x.storeQ = e :: rest → e.body = .store bs →
    exec (.gripStorePerform c g) s = .next ((s.setCore c (localWrite (s.core c) gr bs)).modGrip c g (fun x => { x with storeQ := rest }))) ∧
  (∀ (s : State) c g gid gr x e rest n nat op l rd old, (s.core c).grip g = x → x.gid = some gid → s.group? c gid = some gr → x.storeQ = e :: rest →
    e.body = .atomic op n nat [l] (some rd) → (atomLanes gr op n nat [l] (s.core c)).2 = [(l.lane, old, false)] →
    exec (.gripStorePerform c g) s = .next (((s.setCore c (atomLanes gr op n nat [l] (s.core c)).1).modGrip c g (fun x => { x with storeQ := rest })).modGrip c g
      (fun x => x.putReg rd (BitVec.ofNat 64 (gripValue old n false))))) ∧
  (∀ (s : State) c g gid gr x e rest n rd p v, (s.core c).grip g = x → x.gid = some gid → s.group? c gid = some gr → x.storeQ = e :: rest →
    (e.body = .resv false n rd p v → (∀ i < n, localPoison (s.core c) gr (p + i) = false) →
      exec (.gripStorePerform c g) s = .next ((s.modGrip c g (fun x => { x with storeQ := rest })).modGrip c g
        (fun x => { x.putReg rd (BitVec.ofNat 64 (gripValue (ofBytes (localRead (s.core c) gr p n)) n false)) with resv := some (gr.scrBase + p, n) }))) ∧
    (e.body = .resv true n rd p v → (∃ b m, x.resv = some (b, m) ∧ b ≤ gr.scrBase + p ∧ gr.scrBase + p + n ≤ b + m) →
      ∃ t, exec (.gripStorePerform c g) s = .next (t.modGrip c g (fun x => { x.putReg rd 0 with resv := none })) ∧
        t = (let u := s.modGrip c g (fun x => { x with storeQ := rest }); u.setCore c (localWrite (u.core c) gr (withAddrs p (toBytes v n))))) ∧
    (e.body = .resv true n rd p v → (∀ b m, x.resv = some (b, m) → gr.scrBase + p < b ∨ b + m < gr.scrBase + p + n) →
      exec (.gripStorePerform c g) s = .next ((s.modGrip c g (fun x => { x with storeQ := rest })).modGrip c g (fun x => { x.putReg rd 1 with resv := none })))) ∧
  (∀ (s : State) c slot w g e rest op n nat ls load, s.warp? c slot = some w → s.group? c w.gid = some g → w.storeQ = e :: rest →
    e.body = .atomic op n nat ls load → (∀ r ∈ (atomLanes g op n nat ls (s.core c)).2, r.2.2 = false) →
      exec (.storeQueuePerform c slot) s = .next ((s.setCore c (atomLanes g op n nat ls (s.core c)).1).modWarp c slot (fun w =>
        { headLeft e rest w with loads := match load with | some id => answered id (atomLanes g op n nat ls (s.core c)).2 w.loads | none => w.loads }))) ∧
  (∀ (s : State) c slot w g idx o l u, s.warp? c slot = some w → s.group? c w.gid = some g → w.loads[idx]? = some o → o.kind.changesTags = false →
    l < 32 → o.lns.find? (fun u => u.lane == l) = some u →
    ((o.kind = .lds ∨ ∃ p, o.kind = .ldsp p) → u.got = none → turnOf w idx o u → (∀ x ∈ o.lns, ∀ v b, x.got = some (v, b) → b = false) →
      ∀ v, readValue s c g w o u = (v, false) →
        ∃ t, exec (.loadLand c slot idx (1#32 <<< l)) s = .next t ∧ WarpOnly s c slot
          { w with loads := List.set w.loads idx { o with lns := o.lns.map (fun x => if x.lane = l then { u with got := some (v, false) } else x) } } t) ∧
    (∀ v, u.got = some (v, false) → (o.size = 8 → o.sext = false) → o.lns.filter (fun x => x.lane != l) ≠ [] →
      ∃ t, exec (.loadLand c slot idx (1#32 <<< l)) s = .next t ∧ WarpOnly s c slot
        { landed o l v w with loads := List.set w.loads idx { o with lns := o.lns.filter (fun x => x.lane != l) } } t) ∧
    (∀ v, u.got = some (v, false) → (o.size = 8 → o.sext = false) → o.bad = none → o.lns.filter (fun x => x.lane != l) = [] →
      ∃ t, exec (.loadLand c slot idx (1#32 <<< l)) s = .next t ∧ WarpOnly s c slot
        { landed o l v w with loads := w.loads.take idx ++ w.loads.drop (idx + 1), ld := w.ld - 1 } t)) ∧
  (∀ (s : State) c slot w idx o, s.warp? c slot = some w → w.tiles[idx]? = some o →
    (o.kind = .tld → firstTile w idx → exec (.tileAccessLand c slot idx) s = .next ((landTile s c slot o).modWarp c slot (tileLeft idx o))) ∧
    (o.kind = .tst → firstTile w idx →
      exec (.tileAccessLand c slot idx) s = .next ((s.modCore c (fun k => writeTile k o)).modWarp c slot (tileLeft idx o))) ∧
    (o.kind = .ard → firstAcc s c o →
      exec (.tileAccessLand c slot idx) s = .next (((landTile s c slot o).modCore c (fun k => k.dropTicket o.handle o.ticket)).modWarp c slot (tileLeft idx o))) ∧
    (o.kind = .awr ∨ o.kind = .aclr → firstAcc s c o →
      exec (.tileAccessLand c slot idx) s =
        .next (((s.modCore c (fun k => writeTile k o)).modCore c (fun k => k.dropTicket o.handle o.ticket)).modWarp c slot (tileLeft idx o)))) ∧
  (∀ (s : State) c idx x, (s.core c).contribs[idx]? = some x → x.sent = true → (∀ gid ∈ x.gids, ∀ g, s.group? c gid = some g → g.marks = []) →
    let e := x.entry
    let r := s.atomFrom (dieOf c) e.asid e.va.toNat e.size (fun o => atomNew e.op (8 * e.size) e.nat o e.val 0)
    exec (.atomicElementPerform (.contribution c idx)) s = .next (r.1.endContribution c x (match r.2 with
      | .old _ => none
      | .poison => some 0x01
      | .fail f => some (memStatus f)))) ∧
  (∀ (s : State) c e x u m a g s1, s.amoOf c e x = some (m, a, g) → ((s.core c).ctx e x).phase = .running → ((s.core c).ctx e x).pre = 0 →
    ((s.core c).ctx e x).sent = 0 → s.spend c e x 1 = some s1 → a.win = false →
    ∀ old, (s1.atomFrom (dieOf c) g.asid a.addr.toNat a.size (fun o => atomNew a.op (8 * a.size) a.nat o a.operand a.cmp)).2 = .old old →
      exec (.atomicElementPerform (.element c e x u)) s =
        .next ((s1.atomFrom (dieOf c) g.asid a.addr.toNat a.size (fun o => atomNew a.op (8 * a.size) a.nat o a.operand a.cmp)).1.modCtx c e x
          (fun k => { k with pre := 1, result := some old }))) ∧
  (∀ (s : State) d asid line h, (s.die d).guestLine asid line = some h → h.sent = true →
    (h.wts.drop 1 ≠ [] ∨ h.drop = none →
      exec (.writeThroughAck d asid line) s = .next (s.modDie d (fun k => k.putGuest { h with wts := h.wts.drop 1, sent := false }))) ∧
    (h.wts.drop 1 = [] → h.drop.isSome = true → exec (.writeThroughAck d asid line) s =
      .next (s.modDie d (fun k => { k with guest := k.guest.filter (fun x => !(x.asid == asid && x.line == line)) })))) ∧
  (∀ (s : State) u, (∀ c l, u ≠ .icache c l) → (∀ c w i, u ≠ .cacheData c w i) → exec (.scrubPass u .clean) s = .next s ∧
    ((∀ n, u = .hbm n → (s.die (n / 2 ^ 32)).scrubh ≠ 0) →
      exec (.scrubPass u .corrected) s = .next (s.correctedUnit u) ∧ exec (.scrubPass u .uncorrectable) s = .next (s.badUnit u))) ∧
  (∀ (s : State) n f, (s.die (n / 2 ^ 32)).scrubh = 0 → exec (.scrubPass (.hbm n) f) s = .next s) ∧
  (∀ (s : State) c l f, f ≠ .clean → exec (.scrubPass (.icache c l) f) s =
    .next ((s.modCore c (fun k => { k with icache := k.icache.filter (fun x => x.line != l) })).corrected c))

namespace Sys2Proof.Machine

/-! ## Events of the copy engines, the ports, the matrix unit and the scan unit (08, 13, 17; 03 Table 15) -/

/-- Context `x` of engine `e` holds the slate command of job `j`. -/
abbrev holdsJob (s : State) (c e x : Nat) (m : Cmd) (j : Job) : Prop := ((s.core c).ctx e x).cmd = some m ∧ s.job c e x = some j ∧ s.amoOf c e x = none

/-- The fault queue's entry of a batch: where it lies, and its bytes. -/
def batchEntry (s : State) (c e x : Nat) (m : Cmd) (kind elem : Nat) (ps : List DWord) : Nat × List Byte :=
  let r := (s.die (dieOf c)).fq
  (r.base.toNat / 64 * 64 + 320 * (r.tail.toNat % 2 ^ r.log2n),
   (batchWords c e x m kind (((s.core c).ctx e x).batch + 1) elem ps).flatMap (fun v => toBytes v 8))

/-- A slate command suspended at an absent page from unit `u` on: what it has read beyond is dropped, and rehearsal begins with the rest of its block row,
or with the next unit (13 R323). -/
def suspended (j : Job) (u : Nat) (va : Nat) (wr ix : Bool) (x : EngCtx) : EngCtx :=
  { x.dropFrom (j.f.row u) u with
    phase := .rehearsal [pageEntry va wr ix] (if 1 < j.f.per then u else u + 1), stop := va, sent := if j.f.ss = 3 then min x.sent u else x.sent }

/-- An MMA may start: nothing runs on the array or waits for it, 24 cycles have passed, and each accumulator is its own to take, or an MMA's past its
last step. -/
structure MmaStarts (k : Core) (m : MatCmd) (rest : List MatCmd) (tk : List (Nat × Nat)) : Prop where
  queue : k.matQ = m :: rest
  idle : k.matRun = none ∧ k.chunkWaits = false ∧ (∀ r, k.scanRun = some r → r.onArray = false)
  time : m.posted + 24 ≤ k.cycle.toNat
  order : ∀ p ∈ tk, ((Tab.getD k.accOrder p.1 []).filter (fun t => !(k.backTickets.contains t))).head? = some p.2

/-- A unit of the matrix queue that has begun: its steps, or the cycles of its copy, lie before it, and nothing is read yet. -/
def begun (n : Nat) : MatRun := { steps := n, last := 0, seen := [], weights := [], bad := [], status := 0, fail := none }

/-- A scan command that has begun in cycle `now`: `lanes` cycles of the scan lanes lie before it. -/
def scanBegun (now t status lanes : Nat) (h : Tab Word) (moves : List (Nat × Nat)) : ScanRun :=
  { h := h, t := t, status := status, onArray := false, since := now, steps := 0, lanes := lanes, last := now, seen := [], outs := [], moves := moves }

end Sys2Proof.Machine

open Sys2Proof Sys2Proof.Machine

/-- A free context takes the oldest entry that it may start; an absent page starts a rehearsal; its batch is placed in the fault queue; a command that has
written everything is signalled; a port fills its buckets once a period and sends at most one request a cycle; a command fails at the timeouts.
A batch is numbered from 1 (log 37, DEDUCED: 13 R324 says only a count). -/
def Obligations.CopyEventsComplete : Prop :=
  (∀ (s : State) c e x s1 m, e < 2 → x < 8 → ((s.core c).ctx e x).cmd = none → s.nextEntry c e (s.core c).copyQ = (s1, some m) →
    exec (.copyDispatch c e x) s = .next ((s1.modCore c (fun k => { k with copyQ := k.copyQ.filter (fun q => q.cid != m.cid) })).modCtx c e x
      (fun k => { EngCtx.reset with cmd := some m, batch := k.batch }))) ∧
  (∀ (s : State) c e x m s1 va wr ix j, ((s.core c).ctx e x).phase = .running → ((s.core c).ctx e x).cmd = some m →
    s.absentPage c e x = (s1, some (va, wr, ix)) → s1.job c e x = some j →
    exec (.copyFaultSuspend c e x) s = .next (j.mod (if j.f.ss = 3 then j.staleReads s1 (j.cleared s1) else s1) (suspended j (j.cleared s1) va wr ix))) ∧
  (∀ (s : State) c e x m j ps, holdsJob s c e x m j → ((s.core c).ctx e x).phase = .batchReady ps → (s.die (dieOf c)).fq.hasRoom = true →
    j.wroteAll s (j.cleared s) = true → s.cmdPending c e x m (fun o => o.kind != 1) = false →
    let b := batchEntry s c e x m j.f.kind (j.cleared s * j.f.per) ps
    exec (.faultBatchPost c e x) s = .next ((((s.writePhys b.1 b.2).modDie (dieOf c) (fun d => { d with fq := { d.fq with tail := d.fq.tail + 1 } })).countCore c 0x0C 1).modCtx c e x
      (fun k => { k with phase := .awaiting, batch := k.batch + 1 }))) ∧
  (∀ (s : State) c e x m j, holdsJob s c e x m j → ((s.core c).ctx e x).phase = .running → j.wroteAll s j.f.units = true →
    (j.f.kind = 4 → ((s.core c).ctx e x).flag = 2) → s.cmdPending c e x m (fun _ => true) = false →
    (((s.core c).ctx e x).poisonAt = none → exec (.copyComplete c e x) s = .next (s.endCmd c e x m 0 (j.f.units * j.f.per) (0, 0, 0))) ∧
    (∀ p, ((s.core c).ctx e x).poisonAt = some p → exec (.copyComplete c e x) s = .next (s.endCmd c e x m 0x01 (j.f.units * j.f.per) p))) ∧
  (∀ (s : State) c e x m j st u addr sp, holdsJob s c e x m j → ((s.core c).ctx e x).phase = .failed st u addr sp → j.wroteAll s u = true →
    s.cmdPending c e x m (fun o => decide (o.unit < u) || (st != 0x16 && !(s.overdue o))) = false →
    exec (.copyComplete c e x) s = .next (s.endCmd c e x m st (j.f.units * j.f.per) (u * j.f.per, addr, sp))) ∧
  (∀ (s : State) c e x m a g, s.amoOf c e x = some (m, a, g) → s.job c e x = none → ((s.core c).ctx e x).phase = .running →
    1 ≤ (if a.win then ((s.core c).ctx e x).sent else ((s.core c).ctx e x).pre) → s.cmdPending c e x m (fun _ => true) = false →
    ((s.core c).ctx e x).poisonAt = none → exec (.copyComplete c e x) s = .next (s.endCmd c e x m 0 0 (0, 0, 0))) ∧
  (∀ (s : State) c, (s.core c).cycle.toNat % 1024 = 0 → (s.core c).port.epoch ≠ (s.core c).cycle.toNat / 1024 + 1 →
    exec (.tokenRefill (.core c)) s = .next (s.modCore c (fun k =>
      { k with port := { k.port with buckets := refillBuckets (s.die (dieOf c)).weights k.port.demand, rot := 0, epoch := (s.core c).cycle.toNat / 1024 + 1 } }))) ∧
  (∀ (s : State) c cl e x, (s.core c).port.pick (s.core c).cycle.toNat = some cl → (s.core c).port.waiting.find? (fun r => r.1 == cl) = some (cl, e, x) → e ≠ 2 →
    exec (.portSend (.core c)) s = .next ((((s.modCore c (fun k => { k with port := k.port.send cl })).countCore c 0x0E 1).countCore c (0x10 + cl) 1).modCtx c e x
      (fun k => { k with grants := k.grants + 1, asked := false }))) ∧
  (∀ (s : State) c e x cid o, s.cidOf c e x = some cid → (s.packetsOf c e x cid).any s.overdue = true → lowestPacket (s.packetsOf c e x cid) = some o →
    exec (.fabricTimeout c e x) s = .next (s.failPacket o 0x16)) ∧
  (∀ (s : State) c e x j, s.job c e x = some j → (j.ctx s).phase = .running → s.pkg.linksLost + 3300000 ≤ s.ucycle.toNat →
    (j.f.ss = 4 → j.f.ds ≠ 4 → j.servable s false = false → j.cleared s < j.f.units →
      exec (.linkAbsenceTimeout c e x) s = .next (j.failAt s (j.cleared s) 0x16 (BitVec.ofNat 64 j.f.src) 4)) ∧
    (j.f.ds = 4 → j.servable s true = false → (j.ctx s).pre < j.f.units →
      exec (.linkAbsenceTimeout c e x) s = .next (j.failAt s (j.ctx s).pre 0x16 (BitVec.ofNat 64 j.f.dst) 4)))

/-- The array takes an MMA or a chunk; 12 cycles after an MMA's last step its outputs are written; a power window begins; WBLD starts, and its bytes are loaded
12 cycles after the last was read; WBINV empties its range; SCAN and SCANST start, and end once all that they write is written.
That one step writes all of an MMA's outputs, and all bytes of a WBLD, is log 5's (DESIGN CHOICE). -/
def Obligations.MatrixEventsComplete : Prop :=
  (∀ (s : State) c m rest nb aw r rm cm t tk, MmaStarts (s.core c) m rest tk → m.what = .mma nb aw r rm cm t tk →
    let kb := (mmaArgs nb aw r).kb
    exec (.matrixUnitStart c) s = .next (s.setCore c { s.core c with
      lastArray := false, arrayIdle := false, matRun := some (begun (if nb = 16 then 128 * kb else 8 * nb * kb)) })) ∧
  (∀ (s : State) c q rest r b rm cm l ts, (s.core c).chunkWaits = true → (s.core c).mmaWaits = false → (s.core c).arrayBusy = false →
    (s.core c).scanRun = some r → (s.core c).scanQ = q :: rest → q.what = .scan b rm cm l ts →
    let w := (b.getD 1 0).toNat
    exec (.matrixUnitStart c) s = .next (s.setCore c { s.core c with lastArray := true, arrayIdle := false, scanRun := some { r with
      onArray := true, steps := chunkSteps (min l (bitsOf w 47 32 - r.t)) (bitsOf w 31 25 + 1) (bitsOf w 24 18 + 1) } })) ∧
  (∀ (s : State) c (b : MatBack) rest nb aw r rm cm t tk, (s.core c).matBack = b :: rest → b.cmd.what = .mma nb aw r rm cm t tk →
    b.last + 12 ≤ (s.core c).cycle.toNat →
    let k := { (s.core c).setAccStore ((s.core c).accStore.put b.writes) with matBack := rest }
    exec (.matrixCommandComplete c) s = .next ((s.setCore c (tk.foldl (fun (k : Core) p => k.dropTicket p.1 p.2) k)).endUnit c b.cmd.gid b.cmd.tl b.cmd.seq b.cmd.pc
      b.cmd.slot b.status none)) ∧
  (∀ (s : State) c, (s.core c).gafWin ≠ (s.core c).cycle.toNat / 128 →
    exec (.gafferWindow c) s = .next (s.setCore c { s.core c with gafWin := (s.core c).cycle.toNat / 128, gafUsed := 0, budget := (s.core c).budgetNext })) ∧
  (∀ (s : State) c m rest sp src t dst len, (s.core c).matQ = m :: rest → (s.core c).matRun = none → m.what = .wbld sp src t dst len →
    m.posted + 24 ≤ (s.core c).cycle.toNat →
    exec (.wbldRun c) s = .next (s.setCore c { s.core c with matRun := some (begun (len / 64)) })) ∧
  (∀ (s : State) c m rest sp src t dst len r, (s.core c).matQ = m :: rest → m.what = .wbld sp src t dst len → (s.core c).matRun = some r → r.steps = 0 →
    r.last + 12 ≤ (s.core c).cycle.toNat →
    exec (.wbldComplete c) s = .next ((s.setCore c { s.core c with
      weight := r.weights.foldl (fun w p => Memory.write w p.1 p.2) (s.core c).weight
      weightPoison := r.bad.foldl insertNat ((s.core c).weightPoison.filter (fun u => !((r.weights.map (fun p => p.1 / 8)).contains u)))
      loaded := (r.weights.map (fun p => p.1 / 64)).foldl insertNat (s.core c).loaded, matQ := rest, matRun := none }).endUnit c m.gid m.tl m.seq m.pc m.slot r.status r.fail)) ∧
  (∀ (s : State) c m rest off len g, (s.core c).matQ = m :: rest → (s.core c).matRun = none → m.what = .wbinv off len → s.group? c m.gid = some g →
    exec (.wbinvEffect c) s = .next (s.setCore c { s.core c with matQ := rest, loaded := (s.core c).loaded.filter (fun u =>
      !(((List.range (len / 64)).map (fun i => g.wphys (off + 64 * i) / 64)).contains u)) })) ∧
  (∀ (s : State) c q rest r rm cm l ts, (s.core c).scanRun = none → (s.core c).scanQ = q :: rest → q.what = .scan r rm cm l ts →
    let v := scanView r rm cm ts
    let h := v.elems.map (fun e => (128 * e.1 + e.2, BitVec.ofNat 32 (scanWord (s.core c) (v.tile 0) e.1 e.2).1))
    let now := (s.core c).cycle.toNat
    (∀ e ∈ v.elems, (scanWord (s.core c) (v.tile 0) e.1 e.2).2 = false) →
    (q.deny = false → exec (.scanStart c) s = .next (s.setCore c { s.core c with
      scanRun := some (scanBegun now 0 0 (if l = 0 then 2 * ((v.a.p * v.a.n + 63) / 64) else 0) h []) })) ∧
    (q.deny = true → exec (.scanStart c) s = .next (s.setCore c { s.core c with scanRun := some (scanBegun now v.a.t 0x13 0 h []) }))) ∧
  (∀ (s : State) c q rest a b, (s.core c).scanRun = none → (s.core c).scanQ = q :: rest → q.what = .scanst a b → q.deny = false →
    exec (.scanStart c) s = .next (s.setCore c { s.core c with scanRun := some (scanBegun (s.core c).cycle.toNat 0 0 ((a.rows * a.cols + 63) / 64) []
      ((tileCellsAll a).map (fun p => (f32Addr a p.1 p.2, f32Addr b p.1 p.2)))) })) ∧
  (∀ (s : State) c q rest r b rm cm l ts g, (s.core c).scanRun = some r → (s.core c).scanQ = q :: rest → q.what = .scan b rm cm l ts → s.group? c q.gid = some g →
    let v := scanView b rm cm ts
    v.a.t ≤ r.t → r.outs = [] → r.lanes = 0 → (l = 0 ∨ q.deny = true ∨ r.last + 12 ≤ (s.core c).cycle.toNat) →
    (v.a.rcd = true → (s.core c).untagged (wordsCovered g v.a.recAddr 8) = true) →
    exec (.scanComplete c) s =
      .next ((s.setCore c { writeScanRecord (s.core c) g v.a r.status l with scanQ := rest, scanRun := none }).endUnit c q.gid q.tl q.seq q.pc q.slot r.status none)) ∧
  (∀ (s : State) c q rest r a b, (s.core c).scanRun = some r → (s.core c).scanQ = q :: rest → q.what = .scanst a b → r.moves = [] → r.lanes = 0 →
    r.last + 12 ≤ (s.core c).cycle.toNat →
    exec (.scanstComplete c) s = .next ((s.setCore c { s.core c with scanQ := rest, scanRun := none }).endUnit c q.gid q.tl q.seq q.pc q.slot r.status none))

namespace Sys2Proof.Machine

/-! ## Events of groups, grids and tasks (02 R43 to R53; 09 R236 to R239; 14 R340 to R347) -/

/-- Pre-emption started on every group of a list that waiter `w` outranks. -/
def preemptFor (w : Waiter) (l : List (Nat × Nat × Group)) (s : State) : State :=
  l.foldl (fun s q => match s.group? q.1 q.2.1 with
    | some g => if s.outranked q.1 q.2.1 g w then s.startPreempt q.1 q.2.1 else s
    | none => s) s

/-- A cluster or task of at least the priority of group `gid` needs its resources. -/
abbrev neededBy (s : State) (c gid : Nat) (w : Waiter) : Prop := s.holdsUp w c gid (fun c n h => decide (s.groupPrio c n h ≤ (s.rank w).1)) = true

/-- A group has halted: nothing stops it, each of its warps has halted, and its commands have completed. -/
abbrev hasHalted (s : State) (c gid : Nat) (g : Group) : Prop :=
  g.stopped = false ∧ (∀ p ∈ (s.core c).warps, p.2.gid = gid → p.2.halted = true) ∧ s.commandsDone c gid = true

/-- A group may retire: its warps have exited, and its commands, accesses and, for a task's, write-throughs are done. -/
abbrev mayRetire (s : State) (c gid : Nat) (g : Group) : Prop :=
  g.stopped = false ∧ g.saving = false ∧ g.reported = false ∧ (s.core c).allExited gid = true ∧ s.commandsDone c gid = true ∧ s.warpsQuiet c gid = true ∧
  (g.taskIdx.isSome = true → s.throughsOf [gid] = false)

/-- The launch unit may take an entry of a queue. -/
abbrev mayTake (s : State) (asid q : Nat) : Prop :=
  s.pkg.bootState = 4 ∧ (s.lq asid q).en = true ∧ (s.lq asid q).sheet = none ∧ (s.lq asid q).blocked = false ∧ (s.lq asid q).taken ≠ (s.lq asid q).tail ∧ (s.asid asid).state = 1 ∧
  s.queueFree asid q = true

/-- The messages that are on their way to a core. -/
abbrev sentTo (s : State) (c : Nat) : List (Nat × TaskMsg) := s.pkg.arriving.filter (fun p => p.1 == c)

/-- A grid's end once its STATUS is performed: DONE counted, and its records gone. -/
def gridEnded (s : State) (id : Nat) (g : Grid) : State :=
  let h := s.gridHome g
  (s.addDone h.2 g.asid h.1 g.doneVa 1).modPkg (fun p => { p with grids := Tab.erase p.grids id, halted := p.halted.filter (fun x => x.gridId != id) })

end Sys2Proof.Machine

open Sys2Proof Sys2Proof.Machine

/-- Aged clusters and ended slices pre-empt; clusters, restored groups and tasks are placed when they fit and nothing goes before them; a group halts, retires or is held with its
error; a launch entry is taken, once read, and a call sheet once a slot is free; a grid ends with STATUS, and once that is performed with DONE and HEAD;
messages arrive in order.
STATUS performed before DONE and HEAD is log 48's (DEDUCED), and the order in which waiting clusters are placed log 28's (DEDUCED). -/
def Obligations.GroupEventsComplete : Prop :=
  (∀ (s : State) idx p, s.pkg.pending[idx]? = some p → 2 ^ 20 ≤ p.waited →
    exec (.priorityAging idx) s = .next (preemptFor (.cluster idx) (s.groupsOn (s.waiterDies (.cluster idx))) s)) ∧
  (∀ (s : State) c gid g, s.group? c gid = some g → g.tslice ≠ 0 → g.tslice * 2 ^ 16 ≤ g.slice →
    (g.eligible = true → (∃ w ∈ s.waiters, neededBy s c gid w) → exec (.timeSliceEnd c gid) s = .next (s.startPreempt c gid)) ∧
    ((g.eligible = false ∨ ∀ w ∈ s.waiters, ¬neededBy s c gid w) → exec (.timeSliceEnd c gid) s = .next (s.setGroup c gid { g with slice := 0 }))) ∧
  (∀ (s : State) idx p g cs, s.gridOfPending idx = some (p, g) → s.clusterCores p.die g [] = some cs → p.restore = none → s.mayPlace (.cluster idx) = true →
    (g.dies.length ≤ p.next ∨ s.quietDie p.die = true) → exec (.clusterPlacement idx) s = .next (s.placeCluster idx p g cs)) ∧
  (∀ (s : State) c gid g, s.group? c gid = some g →
    (g.saving = true → exec (.preemption c gid) s = .next (s.takePreempts c gid)) ∧
    (g.saving = false → (∃ w ∈ s.waiters, s.outranked c gid g w = true) → exec (.preemption c gid) s = .next (s.startPreempt c gid))) ∧
  (∀ (s : State) c gid g, s.group? c gid = some g → hasHalted s c gid g →
    let t := (s.groupGone c gid .halted).event (dieOf c) c 0x03 g.asid c g.idgrid 0 0
    (g.taskIdx.isSome = true → exec (.groupHaltRelease c gid) s = .next t) ∧
    (g.taskIdx = none → exec (.groupHaltRelease c gid) s = .next (t.modPkg (fun p => { p with halted := p.halted ++
      [{ gridId := g.gridId, asid := g.asid, idgrid := g.idgrid, idgroup := g.idgroup, idclus := g.idclus, cast := g.castOpen, asked := false }] })))) ∧
  (∀ (s : State) idx c p g r h a, s.gridOfPending idx = some (p, g) → p.restore = some r →
    s.pkg.halted.find? (fun h => h.gridId == p.gridId && h.idgrid == r.2.1 && h.asked) = some h → (s.core c).fitSlots g.kernel r.2.2.1 = some a →
    dieOf c ∈ r.2.2.2.2 → s.mayPlace (.cluster idx) = true → exec (.restorePlacement idx c) s = .next (s.placeRestored idx c h g a)) ∧
  (∀ (s : State) c gid g, s.group? c gid = some g → mayRetire s c gid g →
    (g.err = true ∨ g.fatal = true → exec (.groupRetirement c gid) s =
      .next ((s.setGroup c gid { g with reported := true }).event (dieOf c) c 0x01 g.asid c g.idgrid g.stat 0)) ∧
    (g.err = false → g.fatal = false → exec (.groupRetirement c gid) s = .next (s.groupGone c gid .retired))) ∧
  (∀ (s : State) asid q, mayTake s asid q →
    let va := (s.lq asid q).entryVa (s.lq asid q).taken.toNat
    (∀ t dw, s.readRecord (homeOf va) asid va = (t, .ok dw) → exec (.launchEntryTake asid q) s = .next (t.takeEntry asid q dw)) ∧
    (∀ t f, s.readRecord (homeOf va) asid va = (t, .error f) →
      exec (.launchEntryTake asid q) s = .next ((t.launchFault 0 asid f 0 q va).modLq asid q (fun l => { l with blocked := true })))) ∧
  (∀ (s : State) asid q t, s.pkg.bootState = 4 → (s.lq asid q).sheet = some t →
    exec (.launchEntryTake asid q) s = .next (if s.sheetsOf ((diesOf (ghd t.node 61 58)).headD 0) < 16 then
      (s.modLq asid q (fun l => { l with sheet := none })).startSheet asid q t
    else s)) ∧
  (∀ (s : State) id g, Tab.get? s.pkg.grids id = some g → s.gridQuiet id g = true →
    let h := s.gridHome g
    (g.told = false → exec (.gridEnd id) s =
      .next ((s.putStatus h.2 g.asid h.1 g.recVa g.outcome.1 g.outcome.2 g.nfg).modGrid id (fun g => { g with told := true }))) ∧
    (g.told = true → s.statusPending h.2 g.recVa = true → exec (.gridEnd id) s = .next s) ∧
    (g.told = true → s.statusPending h.2 g.recVa = false →
      (∀ a q n, g.src = .ring a q n → exec (.gridEnd id) s = .next ((gridEnded s id g).advanceHead a q)) ∧
      (∀ i n, g.src = .sheet i n → exec (.gridEnd id) s = .next ((gridEnded s id g).nodeEnded i n g.outcome.1)))) ∧
  (∀ (s : State) c idx m, (sentTo s c)[idx]? = some m → (∀ p ∈ (sentTo s c).take idx, p.2.rank % 256 ≠ m.2.rank % 256) →
    (s.core c).tskRank ≤ m.2.rank → (s.core c).freeEntries ≠ [] →
    exec (.taskArrival c idx) s = .next (((s.modPkg (fun p => { p with arriving := p.arriving.erase m })).modCore c
      (fun k => { k with tskRank := m.2.rank })).acceptTask c m.2)) ∧
  (∀ (s : State) c n t a, s.task? c n = some t → (s.core c).fit t.kernel (recWarps t.rcd) = some a → t.ready = true → s.mayPlace (.task c n) = true → s.quietDie (dieOf c) = true →
    ∃ u, exec (.taskPlacement c n) s = .next u ∧ (u.core c).tasks = (((s.raiseG (dieOf c)).placeNew c (t.birth (s.tsliceOf t.asid)) a).core c).tasks.map
      (fun x => if x.num = n then { x with state := 2, gid := s.pkg.nextGid } else x))

namespace Sys2Proof.Machine

/-! ## Events of the collectives, the fabric and the companion link (10 R259; 15 R363 to R382; 16 R410) -/

/-- Event `e` is the coming of request packet `r`. -/
def isPacket (e : Instr) (r : Request) : Prop :=
  match r with
  | .write p => e = .writePacket p
  | .read p => e = .readPacket p
  | .atomic p => e = .atomicPacket p
  | .flag p => e = .flagPacket p
  | .coll p => e = .collPacket p

/-- Event `e` is the coming of packet `r`, the inbound buffer of its port's class has room (18 R436), and the part answers: no boot has
failed, and the class has response credits (15 R371). -/
abbrev comes (s : State) (e : Instr) (r : Request) : Prop :=
  isPacket e r ∧ s.inLevel (portOf r) (streamOf r).2.1 < 2 ∧ s.bootFailed = false ∧ s.mayRespond (portOf r) (streamOf r).2.1 = true

/-- The state as a packet finds it: nothing sent yet, and a fresh stream's NEXT set to its number. -/
def arrived (s : State) (r : Request) : State :=
  ({ s with out := Out.reset }).modTarget (streamOf r).1 (streamOf r).2.1 (fun t => if t.fresh then { t with fresh := false, next := (streamOf r).2.2 } else t)

/-- The stream of a packet at the target. -/
abbrev streamAt (s : State) (r : Request) : Target := s.target (streamOf r).1 (streamOf r).2.1

/-- ACK(n) sent, with n the NEXT of the packet's stream, and HINT while the buffer is above three quarters (15 R376, R382). -/
def acking (s : State) (r : Request) : State :=
  { s with out := { s.out with acked := some (streamAt s r).next, hint := decide (1 ≤ s.inLevel (portOf r) (streamOf r).2.1) } }

/-- How far a packet's number is ahead of NEXT, modulo 2^32. -/
abbrev aheadBy (s : State) (r : Request) : Nat := ((streamOf r).2.2 - (streamAt s r).next).toNat

/-- The contexts of a collective, by die and number. -/
abbrev contextsOf (s : State) (key : CollKey) : List (Nat × Nat) :=
  s.dies.flatMap (fun p => (p.2.coll.filter (fun q => q.2.key == key)).map (fun q => (p.1, q.1)))

/-- The gateway from die `src` to die `dst` has all that it folds for context `x` of a folding collective: a member lies beyond it, no partial of it is
on its way, and every member of its own die has posted (15 R369). -/
structure GatewayReady (s : State) (key : CollKey) (src dst : Nat) (x : CollCtx) : Prop where
  key : x.key = key
  folds : x.b.folds = true
  live : x.status = 0
  beyond : ∃ m ∈ x.members, m.1 = s.pkg.devid.toNat ∧ dieOf m.2 = dst
  first : s.partial? x src dst = none
  all : ∀ m ∈ x.members, m.1 = s.pkg.devid.toNat → dieOf m.2 = src → (s.memberBytes x m).isSome = true

/-- A route runs over a port. -/
abbrev usesPort (r : Route) (port : Nat) : Prop := r.primary = port ∨ r.second = port

end Sys2Proof.Machine

open Sys2Proof Sys2Proof.Machine

/-- A packet that is next in its stream is performed and acknowledged, one ahead, or a FLAG whose data is still on its way, is held, one far behind is answered again or refused, and one that finds its buffer full is dropped; a collective's packet is handed on whole.
Collectives move on and members complete; gateways combine; an acknowledgement, a hint's end, a link's fall, a timeout and a retry act on streams and
routes; a retiring ASID becomes free; an access of the companion processor reads, writes or is refused whole (log 21, DESIGN CHOICE). A fresh stream's NEXT,
a duplicate's answer and a part with no response credits are log 26's (DEDUCED); the places of an acknowledgement, a timeout and a retry in time are log 25's. -/
def Obligations.FabricEventsComplete : Prop :=
  (∀ (s : State) e r, comes s e r → aheadBy (arrived s r) r = 0 → (arrived s r).mustWait r = false → (streamAt ((arrived s r).performNext r) r).held = [] →
    exec e s = .next (acking ((arrived s r).performNext r) r)) ∧
  (∀ (s : State) e r, comes s e r → (1 ≤ aheadBy (arrived s r) r ∨ (arrived s r).mustWait r = true) → aheadBy (arrived s r) r ≤ 1023 →
    (∀ x ∈ (streamAt (arrived s r) r).held, (streamOf x).2.2 ≠ (streamOf r).2.2) →
    exec e s =
      .next (acking ((arrived s r).modTarget (streamOf r).1 (streamOf r).2.1 (fun t => { t with held := t.held ++ [r] })) r)) ∧
  (∀ (s : State) e r, comes s e r → 1023 < aheadBy (arrived s r) r → aheadBy (arrived s r) r < 2 ^ 31 → exec e s = .next (arrived s r)) ∧
  (∀ (s : State) e r, comes s e r → 2 ^ 32 - 1024 ≤ aheadBy (arrived s r) r →
    exec e s = .next (acking (((arrived s r).duplicate r).1.answer (streamOf r).2.2 ((arrived s r).duplicate r).2) r)) ∧
  (∀ (s : State) e r, comes s e r → 2 ^ 31 ≤ aheadBy (arrived s r) r → aheadBy (arrived s r) r < 2 ^ 32 - 1024 →
    exec e s = .next (acking ((arrived s r).answer (streamOf r).2.2 .remoteNack) r)) ∧
  (∀ (s : State) e r, isPacket e r → 2 ≤ s.inLevel (portOf r) (streamOf r).2.1 ∨ s.bootFailed = true → exec e s = .next { s with out := Out.reset }) ∧
  (∀ (s : State) p, s.inLevel p.port p.tc.toNat < 2 → s.bootFailed = false → s.mayRespond p.port p.tc.toNat = true → (s.target p.src.toNat p.tc.toNat).fresh = false → (s.target p.src.toNat p.tc.toNat).next = p.q →
    (s.target p.src.toNat p.tc.toNat).held = [] →
    ∃ t, exec (.collPacket p) s = .next t ∧ t.pkg.peerColl = s.pkg.peerColl ++ [p] ∧ t.out.answers = [(p.q, .done)] ∧ t.out.acked = some (p.q + 1) ∧
      (t.target p.src.toNat p.tc.toNat).next = p.q + 1) ∧
  (∀ (s : State) key, exec (.collectiveMatched key) s = .next ((contextsOf s key).foldl (fun (t : State) p => t.collMove p.1 p.2) s)) ∧
  (∀ (s : State) d x k, Tab.get? (s.die d).coll x = some k →
    (k.status = 0 → k.phase = 3 → s.collReady k d = true → exec (.collMemberComplete d x) s = .next (s.modColl d x CollCtx.stored)) ∧
    (k.status = 0 → k.phase = 4 → s.collOver d x k = true → exec (.collMemberComplete d x) s = .next (s.collEnd d x k)) ∧
    (k.status ≠ 0 → k.phase = 3 → s.collOver d x k = true →
      exec (.collMemberComplete d x) s = .next ((s.collFailedStore d k).modColl d x (fun k => { k with phase := 4 }))) ∧
    (k.status ≠ 0 → k.phase ≠ 3 → s.collOver d x k = true → exec (.collMemberComplete d x) s = .next (s.collEnd d x k))) ∧
  (∀ (s : State) key src dst before after n x, src ≠ dst → (s.die src).coll = before ++ (n, x) :: after → GatewayReady s key src dst x →
    (∀ p ∈ before, ¬GatewayReady s key src dst p.2) →
    ∃ t, exec (.gatewayCombine key src dst) s = .next t ∧ (t.die dst).partials = (s.die dst).partials ++ [{ key := key, members := x.members, src := src, dst := dst, data := (List.range (x.b.srcLen x.members.length)).map (s.dieFold x s.pkg.devid.toNat src) }]) ∧
  (∀ (s : State) src dst, ((s.die dst).mcast.filter (fun m => m.src == src && m.buffered)).length < 64 →
    exec (.multicastPacketArrival src dst) s =
      .next (s.modDie dst (fun d => { d with mcast := modFirst (fun m => m.src == src && !m.buffered) (fun m => { m with buffered := true }) d.mcast }))) ∧
  (∀ (s : State) a, let dev := a.dev.toNat
    let tc := a.tc.toNat
    ∃ t, exec (.ackReceived a) s = .next t ∧ (t.stream dev tc).hint = a.hint ∧ (t.stream dev tc).ackAt = s.ucycle.toNat ∧
      (a.hint = true → (t.stream dev tc).hintAt = s.ucycle.toNat)) ∧
  (∀ (s : State) dev tc, (s.stream dev tc).hint = true → (s.stream dev tc).hintAt + 65536 ≤ s.ucycle.toNat →
    exec (.stallHintExpiry dev tc) s = .next (s.modStream dev tc (fun t => { t with hint := false }))) ∧
  (∀ (s : State) port, ∃ t, exec (.linkDown port) s = .next t ∧ (∀ dev r, Tab.get? s.pkg.routes dev = some r →
    (usesPort r port → Tab.get? t.pkg.routes dev = some (r.fail port s.ucycle.toNat)) ∧ (¬usesPort r port → Tab.get? t.pkg.routes dev = some r))) ∧
  (∀ (s : State) dev tc, (s.stream dev tc).unacked ≠ [] → (s.stream dev tc).ackAt + 66000 ≤ s.ucycle.toNat → (s.route dev).allFailed = false →
    exec (.ackTimeout dev tc) s = .next ((s.modRoute dev (fun r => r.fail r.port s.ucycle.toNat)).replay dev)) ∧
  (∀ (s : State) dev, (s.route dev).allFailed = true → (s.route dev).tried + (s.route dev).interval ≤ s.ucycle.toNat →
    exec (.routeRetry dev) s = .next ((s.modRoute dev (fun r => { r with alt := !r.alt && r.second != 0x1F, tried := s.ucycle.toNat })).replay dev)) ∧
  (∀ (s : State) asid, (s.asid asid).state = 2 → (∀ p ∈ (s.tlbFlush asid).dies, ∀ h ∈ p.2.guest, h.asid ≠ asid) →
    ∃ t, exec (.asidFreed asid) s = .next t ∧ (t.asid asid).state = 0 ∧ (∀ p ∈ t.dies, ∀ h ∈ p.2.home, h.asid ≠ asid)) ∧
  (∀ (s : State) a, s.bootFailed = true ∨ Tab.getD s.pkg.links a.link LinkState.down ≠ .up → exec (.companionDeviceMemoryAccess a) s = .next s.refuse) ∧
  (∀ (s : State) a, s.bootFailed = false → Tab.getD s.pkg.links a.link LinkState.down = .up → a.data = none →
    (∀ t bs, s.readGood a.asid.toNat (a.len + 1) a.va.toNat a.len = (t, some bs) →
      exec (.companionDeviceMemoryAccess a) s = .next { t with out := { Out.reset with data := bs } }) ∧
    (∀ t, s.readGood a.asid.toNat (a.len + 1) a.va.toNat a.len = (t, none) → exec (.companionDeviceMemoryAccess a) s = .next t.refuse)) ∧
  (∀ (s : State) a bs, s.bootFailed = false → Tab.getD s.pkg.links a.link LinkState.down = .up → a.data = some bs →
    (∀ t, s.mayWriteSpan a.asid.toNat (bs.length / 65536 + 2) a.va.toNat bs.length = (t, none) →
      let n := s.nextWrite a.link
      let u := (t.writeVa (if a.link = 0 then 0 else 2) a.asid.toNat (companionWriter a.link n) (bs.length + 1) a.va.toNat { bytes := bs, bad := [] }).1
      exec (.companionDeviceMemoryAccess a) s = .next { u.modPkg (fun p => { p with compWait := p.compWait ++ [(a.link, n)] }) with out := Out.reset }) ∧
    (∀ t e, s.mayWriteSpan a.asid.toNat (bs.length / 65536 + 2) a.va.toNat bs.length = (t, some e) →
      exec (.companionDeviceMemoryAccess a) s = .next t.refuse))

namespace Sys2Proof.Machine

/-! ## Events of the platform and of the management sideband (09 R239, R243; 16 R392; 18 R431 to R447) -/

/-- A transaction that is performed leaves `t`, with nothing read. -/
abbrev done (t : State) : Host.Outcome State Fault Refusal := .next { t with out := Out.reset }

/-- The named arguments of a command as its link's registers hold them. -/
abbrev sbArg (s : State) (link n : Nat) : Nat := (((s.sbOf link).args.map BitVec.toNat).getD n 0)

/-- A command's link may run it: the link carries the sideband, boot has not failed, no command of the link runs, and each argument is in its range. -/
structure CommandRuns (s : State) (link : Nat) (named : List (Nat → Bool)) : Prop where
  isOpen : s.linkOpen link = true
  boot : s.pkg.bootState ∉ [2, 5, 6]
  idle : (s.sbOf link).busy = false
  args : argsOk named ((s.sbOf link).args.map BitVec.toNat) = true

/-- A command has started and left state `t`: its link is BUSY with code `code` and status `status`, and awaits groups. -/
def started (t : State) (link code status : Nat) (waits : List (Nat × Nat)) : Host.Outcome State Fault Refusal :=
  done (t.modSb link (fun b => { b with busy := true, code := code, status := status, waits := waits, flushes := t.pkg.flushNum }))

/-- The ranges of the named arguments of RESTORE. -/
abbrev restoreArgs : List (Nat → Bool) := [argAsid, argAddr, argBelow (2 ^ 32), fun v => v != 0 && decide (v < 16), argAddr]

/-- The ranges of the named arguments of PREEMPT. -/
abbrev preemptArgs : List (Nat → Bool) := [argAsid, fun v => argCore v || v == 0xFFFF, argBelow (2 ^ 32)]

/-- The ranges of the named arguments of TASK-NAME. -/
abbrev taskArgs : List (Nat → Bool) := [argCore, argBelow 256, fun v => v == 0 || ((tallocBad v).isNone && bitsOf v 48 48 == 0)]

/-- The sideband address of the register at offset `o` of unit `i` of a block (18 R443). -/
abbrev sbAddr (block i o : Nat) : DWord := BitVec.ofNat 64 (block * 2 ^ 40 + i * 2 ^ 32 + o)

/-- A port of the route table as a write stores it: 18 and above name none (16 R404). -/
abbrev portStored (p : BitVec 5) : Nat := if p < 18 then p.toNat else 0x1F

/-- The size of a ring as a write stores it. -/
abbrev sizeStored (v : DWord) (hi : Nat) : Nat := let n := v.toNat % 32; if n = 0 then 0 else if n < 4 then 4 else if hi < n then hi else n

/-- What writes over link `l` do to the registers that 18 Table 10 lists as writable, those of boot and reset apart; any other address refuses. -/
structure RegisterWrites (s : State) (l : Nat) : Prop where
  devid : ∀ v, exec (.sidebandRegisterWrite l (sbAddr 0 0 0x08) v) s = done (s.modPkg (fun p => { p with devid := v.setWidth 12 }))
  ftimeout : ∀ v, exec (.sidebandRegisterWrite l (sbAddr 0 0 0x10) v) s =
    done (s.modPkg (fun p => { p with ftimeout := let n := v.setWidth 32; if n < 10000 then 10000 else if 1000000000 < n then 1000000000 else n }))
  islop : ∀ i v, i < 48 → exec (.sidebandRegisterWrite l (sbAddr 0 0 (0x100 + 8 * i)) v) s =
    done ((s.listIsland i).modPkg (fun p => { p with islands := Tab.set p.islands i { (s.island i) with req := min 2 (v.toNat % 4) } }))
  route : ∀ n v, n < 4096 → exec (.sidebandRegisterWrite l (sbAddr 0 0 (0x10000 + 8 * n)) v) s = done (s.modRoute n (fun r =>
    { r with primary := portStored (v.extractLsb' 0 5), second := portStored (v.extractLsb' 8 5), pf := r.pf && !(v.getLsbD 15), sf := r.sf && !(v.getLsbD 14) }))
  argument : ∀ i n v, i < 2 → n < 8 →
    ((s.sbOf i).busy = false → exec (.sidebandRegisterWrite l (sbAddr 1 i (8 + 8 * n)) v) s = done (s.modSb i (fun b => { b with args := List.set b.args n v }))) ∧
    ((s.sbOf i).busy = true → exec (.sidebandRegisterWrite l (sbAddr 1 i (8 + 8 * n)) v) s = .next s.refuse)
  eventRing : ∀ d v, d < 4 →
    exec (.sidebandRegisterWrite l (sbAddr 2 d 0x10) v) s = done (s.modDie d (fun k => { k with eq := { k.eq with base := BitVec.ofNat 64 (v.toNat % 2 ^ 52 / 32 * 32) } })) ∧
    exec (.sidebandRegisterWrite l (sbAddr 2 d 0x18) v) s = done (s.modDie d (fun k => { k with eq := { k.eq with head := v.setWidth 32 } })) ∧
    exec (.sidebandRegisterWrite l (sbAddr 2 d 0x20) v) s = done (s.modDie d (fun k => { k with eq := { k.eq with log2n := sizeStored v 20 } }))
  faultRing : ∀ d v, d < 4 →
    exec (.sidebandRegisterWrite l (sbAddr 2 d 0x28) v) s = done (s.modDie d (fun k => { k with fq := { k.fq with base := BitVec.ofNat 64 (v.toNat % 2 ^ 52 / 64 * 64) } })) ∧
    exec (.sidebandRegisterWrite l (sbAddr 2 d 0x30) v) s = done (s.modDie d (fun k => { k with fq := { k.fq with head := v.setWidth 32 } })) ∧
    exec (.sidebandRegisterWrite l (sbAddr 2 d 0x38) v) s = done (s.modDie d (fun k => { k with fq := { k.fq with log2n := sizeStored v 16 } }))
  core : ∀ c v, c < 192 →
    exec (.sidebandRegisterWrite l (sbAddr 3 c 0) v) s = done (s.modCore c (fun k => { k with taglim := v.extractLsb' 16 16, swap := v.getLsbD 0 })) ∧
    exec (.sidebandRegisterWrite l (sbAddr 3 c 8) v) s = done (s.modCore c (fun k => { k with budgetNext := min 128 (v.toNat % 256) })) ∧
    ∀ n, n < 4 → exec (.sidebandRegisterWrite l (sbAddr 3 c (0x30 + 8 * n)) v) s = done (s.modCore c (fun k => { k with bpa := Tab.set k.bpa n (BitVec.ofNat 52 (v.toNat % 2 ^ 52 / 4 * 4)) }))
  queue : ∀ a q v, a < 65536 → q < 8 →
    exec (.sidebandRegisterWrite l (sbAddr 4 0 (128 * a + 16 * q)) v) s = done (s.putQueue a q ((s.queueOf a q).write0 ((s.asid a).ret == 0) v.toNat)) ∧
    exec (.sidebandRegisterWrite l (sbAddr 4 0 (128 * a + 16 * q + 8)) v) s = done (s.putQueue a q ((s.queueOf a q).write1 v.toNat))
  command : l < 2 → ∀ e code, (e, code) ∈ [(Instr.asidBind l, 0x01), (.asidReroot l, 0x02), (.tlbFlush l, 0x03), (.asidRetire l, 0x04), (.faultVerdict l, 0x05),
      (.groupRelease l, 0x06), (.restore l, 0x07), (.preempt l, 0x08), (.streamReset l, 0x09), (.windowSync l, 0x0A), (.scopeWrite l, 0x0B), (.taskName l, 0x0C),
      (.attest l (Config.freeChoice s.free), 0x0D), (.coreRelease l, 0x0E)] → exec (.sidebandRegisterWrite l (sbAddr 1 l 0) (BitVec.ofNat 64 code)) s = exec e s
  rows : l < 2 →
    (∀ c v, c < 192 → exec (.sidebandRegisterWrite l (sbAddr 3 c 0x28) v) s = exec (.dbgctlResume c v) s) ∧
    (∀ d v, d < 4 → exec (.sidebandRegisterWrite l (sbAddr 2 d 0) v) s = exec (.diememWrite d v) s ∧
      exec (.sidebandRegisterWrite l (sbAddr 2 d 8) v) s = exec (.bwtabWrite d v) s)
  unlisted : ∀ block i o v, block < 256 → i < 256 → o < 2 ^ 32 → o % 8 ≠ 0 ∨ 5 ≤ block ∨ (block = 0 ∧ 0x18000 ≤ o) → exec (.sidebandRegisterWrite l (sbAddr block i o) v) s = .next s.refuse

/-- A sensor's reading crosses `deg` °C upward. -/
abbrev crosses (old new : BitVec 16) (deg : Int) : Prop := old.toInt < 16 * deg ∧ 16 * deg ≤ new.toInt

/-- The reading of a sensor before. -/
abbrev readingOf (s : State) (sensor : Nat) : BitVec 16 := Tab.getD s.pkg.sensors sensor 0

end Sys2Proof.Machine

open Sys2Proof Sys2Proof.Machine

/-- Resets leave what 18 R433 says; boot's registers start, fill and run a load; links change state; a sensor's thresholds act and are undone; the test port takes its instructions; the
sideband's registers are written while a link carries them, and refused otherwise. START in any state, the link turns that are legal and the pins held from a
cold reset on are log 22's (DEDUCED), and a turn or an undoing that may not be and so changes nothing is log 40's (DESIGN CHOICE); rows that name no link are
carried while either link is open (log 22). -/
def Obligations.PlatformEventsComplete : Prop :=
  (∀ (s : State), exec .coldReset s = .next { State.reset with agenda := s.agenda, free := s.free, pkg := { Package.reset with comp := s.pkg.comp, coldHeld := true } }) ∧
  (∀ (s : State), let t := { State.reset with agenda := s.agenda, free := s.free, pkg := { Package.reset with
      comp := s.pkg.comp, hbm := s.pkg.hbm, hbmPoison := s.pkg.hbmPoison, boots := s.pkg.boots + 1,
      targets := s.pkg.targets } }
    exec .warmReset s = .next t ∧ (sbUp s → exec .resetctlWarm s = .next t) ∧ (¬sbUp s → exec .resetctlWarm s = .next s.refuse)) ∧
  (∀ (s : State), s.linkOpen 0 = true ∨ s.linkOpen 1 = true →
    exec .bootctlStart s = done (s.modPkg (fun p => { p with bootState := 1, bootBuf := [], booting := none })) ∧
    (∀ v, s.pkg.bootState = 1 → exec (.bootbufWrite v) s = done (s.modPkg (fun p => { p with bootBuf := p.bootBuf ++ [v] }))) ∧
    (∀ v, s.pkg.bootState ≠ 1 → exec (.bootbufWrite v) s = .next s.refuse) ∧
    (∀ x, s.pkg.bootState = 1 → exec (.bootctlGo x) s = done (s.bootGo x)) ∧ (∀ x, s.pkg.bootState ≠ 1 → exec (.bootctlGo x) s = done s)) ∧
  (∀ (s : State) l d, linkMoves (Tab.getD s.pkg.links l .down) d = false ∨ (d = .up ∧ s.pkg.bootState ≠ 4) → exec (.linkStateChange l d) s = .next s) ∧
  (∀ (s : State) l d, linkMoves (Tab.getD s.pkg.links l .down) d = true → d ≠ .up ∨ s.pkg.bootState = 4 →
    ∃ t, exec (.linkStateChange l d) s = .next t ∧ Tab.get? t.pkg.links l = some d ∧ (∀ n, n ≠ l → Tab.get? t.pkg.links n = Tab.get? s.pkg.links n) ∧
      t.pkg.coldHeld = false ∧ t.pkg.tap.driven = false) ∧
  (∀ (s : State) l, s.linkOpen l = true → s.pkg.bootState ∉ [2, 5, 6] → RegisterWrites s l) ∧
  (∀ (s : State) l a v, s.linkOpen l = false → exec (.sidebandRegisterWrite l a v) s = .next s.refuse) ∧
  (∀ (s : State), sbUp s →
    (∀ c, exec (.errstatRead c) s = .next { s.modCore c (fun k => { k with cecnt := 0, uecnt := 0 }) with out := { Out.reset with data := toBytes (s.core c).errstat 8 } }) ∧
    (∀ a q v, exec (.lqd0Write a q v) s = done (s.putQueue a q ((s.queueOf a q).write0 ((s.asid a).ret == 0) v.toNat))) ∧
    (∀ a q v, exec (.lqd1TailWrite a q v) s = done (s.putQueue a q ((s.queueOf a q).write1 v.toNat))) ∧
    (∀ d v, (∀ x ∈ s.pkg.asids, x.2.state = 0) → exec (.diememWrite d v) s = done (s.modDie d (fun k => { k with
      scrubh := v.extractLsb' 32 8, stagew := min 4 (v.extractLsb' 8 3).toNat, guestw := min 8 (v.extractLsb' 4 4).toNat }))) ∧
    (∀ d v, (bwWeights v.toNat).sum ≤ 256 → exec (.bwtabWrite d v) s = done (s.modDie d (fun k => { k with weights := bwWeights v.toNat }))) ∧
    (∀ d v, 256 < (bwWeights v.toNat).sum → exec (.bwtabWrite d v) s = .next s.refuse) ∧
    (∀ d v, exec (.fqctlHeadWrite d v) s = done (s.modDie d (fun k => { k with fq := { k.fq with head := v.setWidth 32 } }))) ∧
    (∀ d v, exec (.eqctlHeadWrite d v) s = done (s.modDie d (fun k => { k with eq := { k.eq with head := v.setWidth 32 } }))) ∧
    (∀ i v, exec (.islopWrite i v) s = done ((s.listIsland i).modPkg (fun p => { p with islands := Tab.set p.islands i { (s.island i) with req := min 2 (v.toNat % 4) } })))) ∧
  (∀ (s : State) n x, n < 0x34 → crosses (readingOf s n) x 115 → ∃ t, exec (.thermalThreshold n x) s = .next t ∧ t.pkg.tripped = true) ∧
  (∀ (s : State) n x, n < 0x30 → crosses (readingOf s n) x 105 → ∃ t, exec (.thermalThreshold n x) s = .next t ∧ (t.island n).limit = 2) ∧
  (∀ (s : State) n x, 0x34 ≤ n → crosses (readingOf s n) x 85 → ∃ t, exec (.thermalThreshold n x) s = .next t ∧ (t.stack (n - 0x34)).refresh2 = true) ∧
  (∀ (s : State) n x, n < 0x30 → (s.island n).limit = 2 → (s.sensed n x).cooled n = true → ∃ t, exec (.thermalUndo n x) s = .next t ∧ (t.island n).limit = 1) ∧
  (∀ (s : State) n x, 0x34 ≤ n → (s.stack (n - 0x34)).halfBw = true → (s.sensed n x).cooled n = true → ∃ t, exec (.thermalUndo n x) s = .next t ∧ (t.stack (n - 0x34)).halfBw = false) ∧
  (∀ (s : State) ps, (s.pkg.coldHeld = true → exec (.jtagExtest ps) s = .next (s.modTap (fun t => { t with ir := 0, boundary := ps, driven := true }))) ∧
    (s.pkg.coldHeld = false → exec (.jtagExtest ps) s = .next (s.modTap (fun t => { t with ir := 0, driven := false }))) ∧
    exec (.jtagSamplePreload ps) s = .next (s.modTap (fun t => { t with ir := 2, boundary := ps, driven := false }))) ∧
  (∀ (s : State), exec .jtagIdcode s =
    .next { s.modTap (fun t => { t with ir := 1, driven := false }) with out := { Out.reset with data := [0x2B, 0x0E, 0x60, 0x19] } }) ∧
  (∀ (s : State) v, exec (.jtagBypass v) s = .next (s.modTap (fun t => { t with ir := v, driven := false })))

/-- A sideband command is refused while its link's last one runs, or the link is away; with an argument out of its range it starts with status 0xFFFFFFFF and does nothing; else it
acts as 18 Table 12 says, and SBRES shows its code and status; it finishes once its work is done.
SCOPE-WRITE's status for an image that meets an error, or a context that is not live, is log 20's (DESIGN CHOICE), and PREEMPT's skipping of held groups
log 34's (DEDUCED); the granules that TASK-NAME binds and the secret of a signature are free (log 4). -/
def Obligations.SidebandCommandsComplete : Prop :=
  (∀ (s : State) link k e code named, (e, code, named) ∈ [(.asidBind link, 0x01, [argAsid, argAddr, argAddr, argBelow 2]),
      (.asidReroot link, 0x02, [argAsid, argBelow 1, argAddr, argBelow 2]), (.tlbFlush link, 0x03, [argAsid]), (.asidRetire link, 0x04, [argAsid]),
      (.faultVerdict link, 0x05, [argCore, argBelow 2, argBelow 8, argAny, argBelow 3]), (.groupRelease link, 0x06, [argAsid, argCore, argBelow (2 ^ 32)]),
      (.restore link, 0x07, restoreArgs), (.preempt link, 0x08, preemptArgs), (.streamReset link, 0x09, [argBelow 4096, argBelow 4]), (.windowSync link, 0x0A, [argAsid]),
      (.scopeWrite link, 0x0B, [argAsid, argAny, argAddr]), (.taskName link, 0x0C, taskArgs), (.attest link k, 0x0D, [argAny, argAny, argAny, argAny, argAddr]),
      (.coreRelease link, 0x0E, [argCore])] →
    (s.linkOpen link = false ∨ s.pkg.bootState ∈ [2, 5, 6] ∨ (s.sbOf link).busy = true → exec e s = .next s.refuse) ∧
    (s.linkOpen link = true → s.pkg.bootState ∉ [2, 5, 6] → (s.sbOf link).busy = false → argsOk named ((s.sbOf link).args.map BitVec.toNat) = false →
      exec e s = started s link code 0xFFFFFFFF [])) ∧
  (∀ (s : State) link, CommandRuns s link [argAsid, argAddr, argAddr, argBelow 2] →
    let n := sbArg s link 0
    ((s.asid n).state = 0 → exec (.asidBind link) s =
      started (s.putRoot n (sbArg s link 2) (sbArg s link 3) (bitsOf (sbArg s link 1) 51 13 * 8192)) link 0x01 0 []) ∧
    ((s.asid n).state ≠ 0 → exec (.asidBind link) s = started s link 0x01 1 [])) ∧
  (∀ (s : State) link, CommandRuns s link [argAsid, argBelow 1, argAddr, argBelow 2] →
    let n := sbArg s link 0
    ((s.asid n).state = 1 → exec (.asidReroot link) s =
      started ((s.putRoot n (sbArg s link 2) (sbArg s link 3) (s.asid n).ctx).unblockQueues n) link 0x02 0 []) ∧
    ((s.asid n).state ≠ 1 → exec (.asidReroot link) s = started s link 0x02 1 [])) ∧
  (∀ (s : State) link, CommandRuns s link [argAsid] →
    let n := sbArg s link 0
    exec (.tlbFlush link) s = started ((s.tlbFlush n).unblockQueues n) link 0x03 0 [] ∧
    ((s.asid n).state = 1 → s.asidInUse n = false → exec (.asidRetire link) s = started (s.beginRetire n) link 0x04 0 []) ∧
    ((s.asid n).state ≠ 1 → exec (.asidRetire link) s = started s link 0x04 1 []) ∧
    ((s.asid n).state = 1 → s.asidInUse n = true → exec (.asidRetire link) s = started s link 0x04 2 []) ∧
    exec (.windowSync link) s = started s link 0x0A 0 []) ∧
  (∀ (s : State) link, CommandRuns s link [argCore, argBelow 2, argBelow 8, argAny, argBelow 3] →
    let c := sbArg s link 0
    let e := sbArg s link 1
    let x := sbArg s link 2
    let k := (s.core c).ctx e x
    (k.phase = .awaiting → k.batch % 2 ^ 64 = sbArg s link 3 → sbArg s link 4 = 0 →
      exec (.faultVerdict link) s = started (s.modCtx c e x (fun k => { k with phase := .running })) link 0x05 0 []) ∧
    (∀ j, k.phase = .awaiting → k.batch % 2 ^ 64 = sbArg s link 3 → sbArg s link 4 ≠ 0 → s.job c e x = some j →
      exec (.faultVerdict link) s = started (s.modCtx c e x (fun k =>
        { k with phase := .failed (if sbArg s link 4 = 1 then 0x10 else 0x11) (j.cleared s) (BitVec.ofNat 64 k.stop) 0 })) link 0x05 0 []) ∧
    (k.phase ≠ .awaiting ∨ k.batch % 2 ^ 64 ≠ sbArg s link 3 → exec (.faultVerdict link) s = started s link 0x05 1 [])) ∧
  (∀ (s : State) link, CommandRuns s link [argAsid, argCore, argBelow (2 ^ 32)] →
    let c := sbArg s link 1
    let names := fun (p : Nat × Group) => p.2.asid == sbArg s link 0 && p.2.idgrid == sbArg s link 2 && p.2.heldFor
    (∀ p, (s.core c).groups.find? names = some p → exec (.groupRelease link) s = started (s.releaseHeld c p.1) link 0x06 0 []) ∧
    ((s.core c).groups.find? names = none → exec (.groupRelease link) s = started s link 0x06 1 [])) ∧
  (∀ (s : State) link, CommandRuns s link restoreArgs →
    let r := s.askRestore link (sbArg s link 0) (sbArg s link 1) (sbArg s link 2) (sbArg s link 3) (sbArg s link 4)
    exec (.restore link) s = started r.1 link 0x07 (r.2.getD 0) []) ∧
  (∀ (s : State) link, CommandRuns s link preemptArgs →
    let gs := s.preemptees (sbArg s link 0) (sbArg s link 1) (sbArg s link 2)
    exec (.preempt link) s = started (gs.foldl (fun s g => s.startPreempt g.1 g.2) s) link 0x08 gs.length gs) ∧
  (∀ (s : State) link, CommandRuns s link [argBelow 4096, argBelow 4] →
    exec (.streamReset link) s = started (s.resetStream (sbArg s link 0) (sbArg s link 1)) link 0x09 0 []) ∧
  (∀ (s : State) link, CommandRuns s link [argAsid, argAny, argAddr] →
    let bs := Memory.readN s.pkg.hbm (sbArg s link 2) 64
    let dws := (List.range 8).map (fun i => ofBytes ((bs.drop (8 * i)).take 8))
    4 ≤ sbArg s link 1 → sbArg s link 1 ≤ 31 → s.physPoison (sbArg s link 2) 64 = false → (s.asid (sbArg s link 0)).state = 1 → (bitsOf (dws.getD 3 0) 63 63 = 1 → imageOk s.pkg.devid.toNat dws = true) →
    exec (.scopeWrite link) s = started (s.writeScope (sbArg s link 0) (sbArg s link 1) bs) link 0x0B 0 []) ∧
  (∀ (s : State) link, CommandRuns s link taskArgs →
    let c := sbArg s link 0
    let n := sbArg s link 1
    (((s.core c).liveTasks.any (fun u => u.touches n)) = true → exec (.taskName link) s = started s link 0x0C 2 []) ∧
    (((s.core c).liveTasks.any (fun u => u.touches n)) = false → sbArg s link 2 = 0 →
      exec (.taskName link) s = started (s.modCore c (fun k => k.unbindName n)) link 0x0C 0 []) ∧
    (((s.core c).liveTasks.any (fun u => u.touches n)) = false → sbArg s link 2 ≠ 0 →
      (∀ t, s.bindName c n (sbArg s link 2) = some t → exec (.taskName link) s = started t link 0x0C 0 []) ∧
      (s.bindName c n (sbArg s link 2) = none → exec (.taskName link) s = started s link 0x0C 1 []))) ∧
  (∀ (s : State) link k, CommandRuns s link [argAny, argAny, argAny, argAny, argAddr] →
    let nonce := (List.range 4).flatMap (fun i => toBytes (sbArg s link i) 8)
    exec (.attest link k) s = started (({ s with free := s.free + 1 } : State).writePhys (sbArg s link 4) (s.pkg.report nonce (signNumber k))) link 0x0D (if s.pkg.idok = true then 0 else 2) []) ∧
  (∀ (s : State) link, CommandRuns s link [argCore] →
    let c := sbArg s link 0
    ((s.core c).held = true → exec (.coreRelease link) s =
      started ((((s.core c).groups.map Prod.fst).foldl (fun s g => s.releaseHeld c g) s).modCore c (fun k => { k with held := false })) link 0x0E 0 []) ∧
    ((s.core c).held = false → exec (.coreRelease link) s = started s link 0x0E 1 [])) ∧
  (∀ (s : State) link, (s.sbOf link).busy = true → s.commandOver link (s.sbOf link) = true →
    exec (.sidebandCommandFinish link) s = .next (s.modSb link (fun b => { b with busy := false, waits := [] }))) ∧
  (∀ (s : State) link, (s.sbOf link).busy = true → s.commandOver link (s.sbOf link) = false → exec (.sidebandCommandFinish link) s = .next s)
end

