-- ==== Sys2Proof/Laws/Decode.lean ====
section
/-! SUPPORT. The fields of an instruction's words read back what the encoder wrote. -/

namespace Sys2Proof

/-! ## Operand codes -/

theorem Opnd.ofCode_code (o : Opnd) (h : o.wf) : Opnd.ofCode o.code = o := by
  cases o with
  | v n =>
    have := n.isLt
    simp only [Opnd.code, Opnd.ofCode, BitVec.toNat_ofNat]
    rw [if_pos (by omega)]
    exact congrArg Opnd.v (BitVec.eq_of_toNat_eq (by simp only [BitVec.toNat_ofNat]; omega))
  | s n =>
    have := n.isLt
    simp only [Opnd.code, Opnd.ofCode, BitVec.toNat_ofNat]
    rw [if_neg (by omega), if_pos (by omega)]
    exact congrArg Opnd.s (BitVec.eq_of_toNat_eq (by simp only [BitVec.toNat_ofNat]; omega))
  | c n =>
    have := n.isLt
    simp only [Opnd.code, Opnd.ofCode, BitVec.toNat_ofNat]
    rw [if_neg (by omega), if_neg (by omega), if_pos (by omega)]
    exact congrArg Opnd.c (BitVec.eq_of_toNat_eq (by simp only [BitVec.toNat_ofNat]; omega))
  | imm n =>
    have := n.isLt
    simp only [Opnd.code, Opnd.ofCode, BitVec.toNat_ofNat]
    repeat rw [if_neg (by omega)]
    rw [if_pos (by omega)]
    exact congrArg Opnd.imm (BitVec.eq_of_toNat_eq (by simp only [BitVec.toNat_ofNat]; omega))
  | id k => cases k <;> rfl
  | rsv w =>
    simp only [Opnd.wf, Bool.or_eq_true, Bool.and_eq_true, decide_eq_true_eq] at h
    show Opnd.ofCode w = .rsv w
    unfold Opnd.ofCode
    dsimp only
    repeat rw [if_neg (by omega)]
    split
    · have : SpecialId.ofIndex (w.toNat - 0x150) = none := by
        obtain ⟨n, hn⟩ : ∃ n, w.toNat - 0x150 = n + 12 := ⟨w.toNat - 0x150 - 12, by omega⟩
        rw [hn]; rfl
      rw [this]
    · rfl
  | _ => rfl

theorem Op7.ofCode_code (o : Op7) (h : o.wf) : Op7.ofCode o.code = o := by
  cases o with
  | v n =>
    have := n.isLt
    simp only [Op7.code, Op7.ofCode, BitVec.toNat_ofNat]
    rw [if_pos (by omega)]
    exact congrArg Op7.v (BitVec.eq_of_toNat_eq (by simp only [BitVec.toNat_ofNat]; omega))
  | c n =>
    have := n.isLt
    simp only [Op7.code, Op7.ofCode, BitVec.toNat_ofNat]
    rw [if_neg (by omega), if_pos (by omega)]
    exact congrArg Op7.c (BitVec.eq_of_toNat_eq (by simp only [BitVec.toNat_ofNat]; omega))
  | s n =>
    have := n.isLt
    simp only [Op7.code, Op7.ofCode, BitVec.toNat_ofNat]
    repeat rw [if_neg (by omega)]
    rw [if_pos (by omega)]
    exact congrArg Op7.s (BitVec.eq_of_toNat_eq (by simp only [BitVec.toNat_ofNat]; omega))
  | imm n =>
    have := n.isLt
    simp only [Op7.code, Op7.ofCode, BitVec.toNat_ofNat]
    repeat rw [if_neg (by omega)]
    exact congrArg Op7.imm (BitVec.eq_of_toNat_eq (by simp only [BitVec.toNat_ofNat]; omega))
  | rsv w =>
    simp only [Op7.wf, Bool.and_eq_true, decide_eq_true_eq] at h
    show Op7.ofCode w = .rsv w
    unfold Op7.ofCode
    dsimp only
    repeat rw [if_neg (by omega)]
    rw [if_pos (by omega)]
  | _ => rfl

/-! ## Fields -/

/-- A field of the high part of a word. -/
theorem field_high {v w : Nat} (a : BitVec v) (b : BitVec w) (k n : Nat) (h : w ≤ k) :
    (a ++ b).extractLsb' k n = a.extractLsb' (k - w) n := BitVec.extractLsb'_append_eq_of_le h
/-- A field of the low part of a word. -/
theorem field_low {v w : Nat} (a : BitVec v) (b : BitVec w) (k n : Nat) (h : k + n ≤ w) :
    (a ++ b).extractLsb' k n = b.extractLsb' k n := BitVec.extractLsb'_append_eq_of_add_le h
theorem field_all {w : Nat} (a : BitVec w) : a.extractLsb' 0 w = a := BitVec.extractLsb'_eq_self
/-- One bit of the high part. -/
theorem bit_high {v w : Nat} (a : BitVec v) (b : BitVec w) (k : Nat) (h : w ≤ k) : (a ++ b).getLsbD k = a.getLsbD (k - w) := by
  rw [BitVec.getLsbD_append, if_neg (by omega)]
/-- One bit of the low part. -/
theorem bit_low {v w : Nat} (a : BitVec v) (b : BitVec w) (k : Nat) (h : k < w) : (a ++ b).getLsbD k = b.getLsbD k := by
  rw [BitVec.getLsbD_append, if_pos h]
theorem bit_ofBool (b : Bool) : (BitVec.ofBool b).getLsbD 0 = b := by cases b <;> rfl

theorem Guard.ofBits_bits (g : Guard) : Guard.ofBits g.bits = g := by
  obtain ⟨n, p⟩ := g
  simp only [Guard.ofBits, Guard.bits]
  rw [bit_high _ _ _ (by decide), field_low _ _ _ _ (by decide), field_all, bit_ofBool]
theorem Src.ofBits_bits (s : Src) (h : s.op.wf) : Src.ofBits s.bits = s := by
  obtain ⟨o, d⟩ := s
  simp only [Src.ofBits, Src.bits]
  rw [bit_high _ _ _ (by decide), field_low _ _ _ _ (by decide), field_all, bit_ofBool, Opnd.ofCode_code _ h]

/-! ## Word 0 -/

theorem head_major (m : Nat) (b e l : Bool) (h : m < 128) : ((headBits m b e l).extractLsb' 3 7).toNat = m := by
  unfold headBits
  rw [field_high _ _ _ _ (by decide), field_high _ _ _ _ (by decide), field_high _ _ _ _ (by decide), field_all, BitVec.toNat_ofNat]
  exact Nat.mod_eq_of_lt h
theorem head_bnd (m : Nat) (b e l : Bool) : (headBits m b e l).getLsbD 2 = b := by
  unfold headBits
  rw [bit_high _ _ _ (by decide), bit_high _ _ _ (by decide), bit_low _ _ _ (by decide), bit_ofBool]
theorem head_len (m : Nat) (b e l : Bool) : ((headBits m b e l).extractLsb' 0 2).toNat = 2 * e.toNat + l.toNat := by
  have h : (headBits m b e l).extractLsb' 0 2 = BitVec.ofBool e ++ BitVec.ofBool l := by
    apply BitVec.eq_of_getLsbD_eq
    intro i hi
    rw [BitVec.getLsbD_extractLsb', Nat.zero_add]
    unfold headBits
    obtain rfl | rfl : i = 0 ∨ i = 1 := by omega
    · rw [bit_low _ _ _ (by decide), bit_low _ _ _ (by decide)]; rfl
    · rw [bit_high _ _ _ (by decide), bit_low _ _ _ (by decide), bit_high _ _ _ (by decide)]; rfl
  rw [h]
  cases e <;> cases l <;> rfl

/-! ## Whole instructions -/

/-- The two words of a literal, and no word without one. -/
theorem litWords_some (d : DWord) : d.extractLsb' 32 32 ++ d.extractLsb' 0 32 = d := by
  apply BitVec.eq_of_getLsbD_eq
  intro i hi
  rw [BitVec.getLsbD_append]
  split
  · rw [BitVec.getLsbD_extractLsb']; simp_all
  · rw [BitVec.getLsbD_extractLsb']
    have h1 : i - 32 < 32 := by omega
    have h2 : 32 + (i - 32) = i := by omega
    simp [h1, h2]

/-- The first words of an extended instruction give its fields back. -/
theorem extOf_words (major minor : Nat) (x : Ext) (h : x.wf) (lit : Option DWord) :
    extOf (x.mods ++ BitVec.ofNat 12 minor ++ headBits major x.bnd true x.lit.isSome)
      (x.mods2 ++ x.a.bits ++ BitVec.ofBool x.dstDead ++ x.dst.code ++ x.guard.bits)
      (x.mods3 ++ BitVec.ofBool x.cfen ++ x.cfslot ++ x.c.bits ++ x.b.bits) lit = { x with lit := lit } := by
  simp only [Ext.wf, Bool.and_eq_true] at h
  obtain ⟨⟨⟨h1, h2⟩, h3⟩, h4⟩ := h
  unfold extOf
  have e1 : (x.mods ++ BitVec.ofNat 12 minor ++ headBits major x.bnd true x.lit.isSome).getLsbD 2 = x.bnd := by
    rw [bit_low _ _ _ (by decide), head_bnd]
  have e2 : (x.mods ++ BitVec.ofNat 12 minor ++ headBits major x.bnd true x.lit.isSome).extractLsb' 22 10 = x.mods := by
    rw [field_high _ _ _ _ (by decide), field_high _ _ _ _ (by decide), field_all]
  have e3 : (x.mods2 ++ x.a.bits ++ BitVec.ofBool x.dstDead ++ x.dst.code ++ x.guard.bits).extractLsb' 26 6 = x.mods2 := by
    rw [field_high _ _ _ _ (by decide), field_high _ _ _ _ (by decide), field_high _ _ _ _ (by decide), field_high _ _ _ _ (by decide),
      field_all]
  have e4 : (x.mods3 ++ BitVec.ofBool x.cfen ++ x.cfslot ++ x.c.bits ++ x.b.bits).extractLsb' 26 6 = x.mods3 := by
    rw [field_high _ _ _ _ (by decide), field_high _ _ _ _ (by decide), field_high _ _ _ _ (by decide), field_high _ _ _ _ (by decide),
      field_all]
  have e5 : (x.mods2 ++ x.a.bits ++ BitVec.ofBool x.dstDead ++ x.dst.code ++ x.guard.bits).extractLsb' 0 4 = x.guard.bits := by
    rw [field_low _ _ _ _ (by decide), field_all]
  have e6 : (x.mods2 ++ x.a.bits ++ BitVec.ofBool x.dstDead ++ x.dst.code ++ x.guard.bits).extractLsb' 4 10 = x.dst.code := by
    rw [field_high _ _ _ _ (by decide), field_low _ _ _ _ (by decide), field_all]
  have e7 : (x.mods2 ++ x.a.bits ++ BitVec.ofBool x.dstDead ++ x.dst.code ++ x.guard.bits).getLsbD 14 = x.dstDead := by
    rw [bit_high _ _ _ (by decide), bit_high _ _ _ (by decide), bit_low _ _ _ (by decide), bit_ofBool]
  have e8 : (x.mods2 ++ x.a.bits ++ BitVec.ofBool x.dstDead ++ x.dst.code ++ x.guard.bits).extractLsb' 15 11 = x.a.bits := by
    rw [field_high _ _ _ _ (by decide), field_high _ _ _ _ (by decide), field_high _ _ _ _ (by decide), field_low _ _ _ _ (by decide),
      field_all]
  have e9 : (x.mods3 ++ BitVec.ofBool x.cfen ++ x.cfslot ++ x.c.bits ++ x.b.bits).extractLsb' 0 11 = x.b.bits := by
    rw [field_low _ _ _ _ (by decide), field_all]
  have e10 : (x.mods3 ++ BitVec.ofBool x.cfen ++ x.cfslot ++ x.c.bits ++ x.b.bits).extractLsb' 11 11 = x.c.bits := by
    rw [field_high _ _ _ _ (by decide), field_low _ _ _ _ (by decide), field_all]
  have e11 : (x.mods3 ++ BitVec.ofBool x.cfen ++ x.cfslot ++ x.c.bits ++ x.b.bits).getLsbD 25 = x.cfen := by
    rw [bit_high _ _ _ (by decide), bit_high _ _ _ (by decide), bit_high _ _ _ (by decide), bit_low _ _ _ (by decide), bit_ofBool]
  have e12 : (x.mods3 ++ BitVec.ofBool x.cfen ++ x.cfslot ++ x.c.bits ++ x.b.bits).extractLsb' 22 3 = x.cfslot := by
    rw [field_high _ _ _ _ (by decide), field_high _ _ _ _ (by decide), field_low _ _ _ _ (by decide), field_all]
  rw [e1, e2, e3, e4, e5, e6, e7, e8, e9, e10, e11, e12, Guard.ofBits_bits, Opnd.ofCode_code _ h1, Src.ofBits_bits _ h2,
    Src.ofBits_bits _ h3, Src.ofBits_bits _ h4]

/-- The words of an extended instruction decode as its major and minor say. -/
theorem decode_extWords (major minor : Nat) (x : Ext) (rest : List Word) (h : x.wf) (hm : major < 128) (hn : minor < 4096) :
    decode (extWords major minor x ++ rest) = ofExt major minor x := by
  have em : ((x.mods ++ BitVec.ofNat 12 minor ++ headBits major x.bnd true x.lit.isSome).extractLsb' 3 7).toNat = major := by
    rw [field_low _ _ _ _ (by decide), head_major _ _ _ _ hm]
  have en : ((x.mods ++ BitVec.ofNat 12 minor ++ headBits major x.bnd true x.lit.isSome).extractLsb' 10 12).toNat = minor := by
    rw [field_high _ _ _ _ (by decide), field_low _ _ _ _ (by decide), field_all, BitVec.toNat_ofNat, Nat.mod_eq_of_lt (by omega)]
  have el : ((x.mods ++ BitVec.ofNat 12 minor ++ headBits major x.bnd true x.lit.isSome).extractLsb' 0 2).toNat =
      2 + x.lit.isSome.toNat := by
    rw [field_low _ _ _ _ (by decide), head_len]; rfl
  have ex := extOf_words major minor x h
  unfold extWords decode
  simp only [List.cons_append, em, en, el]
  generalize hl : x.lit = lit
  cases lit with
  | none =>
    simp only [litWords, List.nil_append, Option.isSome_none, Bool.toNat_false, Nat.add_zero]
    have := ex none
    rw [hl] at this
    simp only [Option.isSome_none] at this
    rw [this, ← hl]
  | some d =>
    simp only [litWords, List.cons_append, List.nil_append, Option.isSome_some, Bool.toNat_true]
    have := ex (some d)
    rw [hl] at this
    simp only [Option.isSome_some] at this
    rw [litWords_some, this, ← hl]

theorem decode_baluWords (major : Nat) (b : BAlu) (rest : List Word) (hm : major < 128) :
    decode (baluWords major b ++ rest) =
      ofBase major (BitVec.ofBool b.k ++ b.b.code ++ b.a.code ++ b.dst.code ++ headBits major b.bnd false b.lit.isSome) b.lit := by
  have em : ((BitVec.ofBool b.k ++ b.b.code ++ b.a.code ++ b.dst.code ++ headBits major b.bnd false b.lit.isSome).extractLsb' 3 7).toNat = major := by
    rw [field_low _ _ _ _ (by decide), head_major _ _ _ _ hm]
  have el : ((BitVec.ofBool b.k ++ b.b.code ++ b.a.code ++ b.dst.code ++ headBits major b.bnd false b.lit.isSome).extractLsb' 0 2).toNat =
      b.lit.isSome.toNat := by
    rw [field_low _ _ _ _ (by decide), head_len]; simp
  unfold baluWords decode
  simp only [List.cons_append, em, el]
  generalize b.lit = lit
  cases lit with
  | none => rfl
  | some d => simp only [litWords, List.cons_append, List.nil_append, Option.isSome_some, Bool.toNat_true, litWords_some]
theorem baluOf_words (major : Nat) (b : BAlu) (h : b.wf) (l : Bool) :
    baluOf (BitVec.ofBool b.k ++ b.b.code ++ b.a.code ++ b.dst.code ++ headBits major b.bnd false l) b.lit = b := by
  simp only [BAlu.wf, Bool.and_eq_true] at h
  unfold baluOf
  rw [bit_low _ _ _ (by decide), head_bnd, bit_high _ _ _ (by decide), bit_high _ _ _ (by decide), bit_high _ _ _ (by decide),
    bit_high _ _ _ (by decide), field_high _ _ _ _ (by decide), field_low _ _ _ _ (by decide), field_high _ _ _ _ (by decide),
    field_high _ _ _ _ (by decide), field_low _ _ _ _ (by decide), field_high _ _ _ _ (by decide), field_high _ _ _ _ (by decide),
    field_high _ _ _ _ (by decide), field_low _ _ _ _ (by decide)]
  simp only [Nat.reduceSub, field_all, bit_ofBool, Op7.ofCode_code _ h.1.1, Op7.ofCode_code _ h.1.2, Op7.ofCode_code _ h.2]

theorem decode_bimmWords (major : Nat) (b : BImm) (rest : List Word) (hm : major < 128) :
    decode (bimmWords major b ++ rest) =
      ofBase major (b.imm ++ b.a.code ++ b.dst.code ++ headBits major b.bnd false b.lit.isSome) b.lit := by
  have em : ((b.imm ++ b.a.code ++ b.dst.code ++ headBits major b.bnd false b.lit.isSome).extractLsb' 3 7).toNat = major := by
    rw [field_low _ _ _ _ (by decide), head_major _ _ _ _ hm]
  have el : ((b.imm ++ b.a.code ++ b.dst.code ++ headBits major b.bnd false b.lit.isSome).extractLsb' 0 2).toNat = b.lit.isSome.toNat := by
    rw [field_low _ _ _ _ (by decide), head_len]; simp
  unfold bimmWords decode
  simp only [List.cons_append, em, el]
  generalize b.lit = lit
  cases lit with
  | none => rfl
  | some d => simp only [litWords, List.cons_append, List.nil_append, Option.isSome_some, Bool.toNat_true, litWords_some]
theorem bimmOf_words (major : Nat) (b : BImm) (h : b.wf) (l : Bool) :
    bimmOf (b.imm ++ b.a.code ++ b.dst.code ++ headBits major b.bnd false l) b.lit = b := by
  simp only [BImm.wf, Bool.and_eq_true] at h
  unfold bimmOf
  rw [bit_low _ _ _ (by decide), head_bnd, field_high _ _ _ _ (by decide), field_high _ _ _ _ (by decide), field_high _ _ _ _ (by decide),
    field_high _ _ _ _ (by decide), field_low _ _ _ _ (by decide), field_high _ _ _ _ (by decide), field_high _ _ _ _ (by decide),
    field_low _ _ _ _ (by decide)]
  simp only [Nat.reduceSub, field_all, Op7.ofCode_code _ h.1, Op7.ofCode_code _ h.2]

theorem decode_bmemWords (major : Nat) (b : BMem) (rest : List Word) (hm : major < 128) :
    decode (bmemWords major b ++ rest) =
      ofBase major (b.off ++ b.addr.code ++ b.data.code ++ headBits major b.bnd false b.lit.isSome) b.lit := by
  have em : ((b.off ++ b.addr.code ++ b.data.code ++ headBits major b.bnd false b.lit.isSome).extractLsb' 3 7).toNat = major := by
    rw [field_low _ _ _ _ (by decide), head_major _ _ _ _ hm]
  have el : ((b.off ++ b.addr.code ++ b.data.code ++ headBits major b.bnd false b.lit.isSome).extractLsb' 0 2).toNat = b.lit.isSome.toNat := by
    rw [field_low _ _ _ _ (by decide), head_len]; simp
  unfold bmemWords decode
  simp only [List.cons_append, em, el]
  generalize b.lit = lit
  cases lit with
  | none => rfl
  | some d => simp only [litWords, List.cons_append, List.nil_append, Option.isSome_some, Bool.toNat_true, litWords_some]
theorem bmemOf_words (major : Nat) (b : BMem) (h : b.wf) (l : Bool) :
    bmemOf (b.off ++ b.addr.code ++ b.data.code ++ headBits major b.bnd false l) b.lit = b := by
  simp only [BMem.wf, Bool.and_eq_true] at h
  unfold bmemOf
  rw [bit_low _ _ _ (by decide), head_bnd, field_high _ _ _ _ (by decide), field_high _ _ _ _ (by decide), field_high _ _ _ _ (by decide),
    field_high _ _ _ _ (by decide), field_high _ _ _ _ (by decide), field_low _ _ _ _ (by decide), field_high _ _ _ _ (by decide),
    field_low _ _ _ _ (by decide)]
  simp only [Nat.reduceSub, field_all, Op7.ofCode_code _ h.1, Op7.ofCode_code _ h.2]

theorem decode_bbrWords (major : Nat) (b : BBr) (rest : List Word) (hm : major < 128) :
    decode (bbrWords major b ++ rest) = ofBase major (b.off ++ headBits major b.bnd false false) none := by
  have em : ((b.off ++ headBits major b.bnd false false).extractLsb' 3 7).toNat = major := by
    rw [field_low _ _ _ _ (by decide), head_major _ _ _ _ hm]
  have el : ((b.off ++ headBits major b.bnd false false).extractLsb' 0 2).toNat = 0 := by
    rw [field_low _ _ _ _ (by decide), head_len]; rfl
  unfold bbrWords decode
  simp only [List.cons_append, em, el]
theorem bbrOf_words (major : Nat) (b : BBr) : bbrOf (b.off ++ headBits major b.bnd false false) = b := by
  unfold bbrOf
  rw [bit_low _ _ _ (by decide), head_bnd, field_high _ _ _ _ (by decide)]
  simp only [Nat.reduceSub, field_all]

end Sys2Proof
end

