-- ==== Sys2Proof/Laws/Word.lean ====
section
/-! SUPPORT. Lemmas of the containers: tables keyed by numbers, lane masks, lane vectors, and values as bytes. -/

namespace Sys2Proof

/-! ## Tables -/

theorem Tab.get?_set_same {α : Type} (t : Tab α) (k : Nat) (a : α) : Tab.get? (Tab.set t k a) k = some a := by
  induction t with
  | nil => simp [Tab.set, Tab.get?]
  | cons p t ih =>
    obtain ⟨j, b⟩ := p
    unfold Tab.set
    split
    · simp [Tab.get?]
    · split
      · simp [Tab.get?]
      · rename_i h; simp [Tab.get?, h, ih]

theorem Tab.get?_set_ne {α : Type} (t : Tab α) {k n : Nat} (a : α) (h : n ≠ k) :
    Tab.get? (Tab.set t k a) n = Tab.get? t n := by
  induction t with
  | nil => simp [Tab.set, Tab.get?, Ne.symm h]
  | cons p t ih =>
    obtain ⟨j, b⟩ := p
    unfold Tab.set
    split
    · simp [Tab.get?, Ne.symm h]
    · split
      · rename_i e; subst e; simp [Tab.get?, Ne.symm h]
      · simp [Tab.get?, ih]

theorem Tab.get?_set {α : Type} (t : Tab α) (k n : Nat) (a : α) :
    Tab.get? (Tab.set t k a) n = if n = k then some a else Tab.get? t n := by
  by_cases h : n = k
  · subst h; simp [Tab.get?_set_same]
  · simp [h, Tab.get?_set_ne t a h]

@[simp] theorem Tab.getD_set_same {α : Type} (t : Tab α) (k : Nat) (a d : α) : Tab.getD (Tab.set t k a) k d = a := by
  simp [Tab.getD, Tab.get?_set_same]

theorem Tab.getD_set_ne {α : Type} (t : Tab α) {k n : Nat} (a d : α) (h : n ≠ k) :
    Tab.getD (Tab.set t k a) n d = Tab.getD t n d := by
  simp [Tab.getD, Tab.get?_set_ne t a h]

@[simp] theorem Tab.getD_nil {α : Type} (k : Nat) (d : α) : Tab.getD ([] : Tab α) k d = d := rfl

theorem Tab.get?_mapVal {α β : Type} (t : Tab α) (f : Nat → α → β) (k : Nat) :
    Tab.get? (Tab.mapVal t f) k = (Tab.get? t k).map (f k) := by
  induction t with
  | nil => rfl
  | cons p t ih =>
    obtain ⟨j, b⟩ := p
    by_cases h : j = k
    · subst h; simp [Tab.mapVal, Tab.get?]
    · simpa [Tab.mapVal, Tab.get?, h] using ih

theorem Tab.get?_erase_same {α : Type} (t : Tab α) (k : Nat) : Tab.get? (Tab.erase t k) k = none := by
  induction t with
  | nil => rfl
  | cons p t ih =>
    obtain ⟨j, b⟩ := p
    by_cases h : j = k
    · subst h; simpa [Tab.erase] using ih
    · have : (j != k) = true := by simpa using h
      simpa [Tab.erase, this, Tab.get?, h] using ih

theorem Tab.get?_erase_ne {α : Type} (t : Tab α) {k n : Nat} (h : n ≠ k) : Tab.get? (Tab.erase t k) n = Tab.get? t n := by
  induction t with
  | nil => rfl
  | cons p t ih =>
    obtain ⟨j, b⟩ := p
    by_cases e : j = k
    · subst e; simpa [Tab.erase, Tab.get?, Ne.symm h] using ih
    · have : (j != k) = true := by simpa using e
      by_cases e2 : j = n
      · subst e2; simp [Tab.erase, Tab.get?, this]
      · simpa [Tab.erase, Tab.get?, this, e2] using ih

/-! ## Lane masks and lane vectors -/

theorem lanes_eq_range : lanes = List.range 32 := by decide

@[simp] theorem mem_lanes {l : Nat} : l ∈ lanes ↔ l < 32 := by simp [lanes_eq_range]

theorem foldl_mask_getLsbD (f : Nat → Bool) (ls : List Nat) (m : Mask) (n : Nat) :
    (ls.foldl (fun m l => if f l then m ||| (1#32 <<< l) else m) m).getLsbD n =
      (m.getLsbD n || (decide (n < 32) && ls.any (fun l => f l && l == n))) := by
  induction ls generalizing m with
  | nil => simp
  | cons l t ih =>
    rw [List.foldl_cons, ih]
    cases hf : f l
    · simp [hf]
    · by_cases hn : n < 32
      · by_cases e : l = n
        · subst e; simp [hn, hf]
        · have h1 : (decide (n < l) || !decide (n - l = 0)) = true := by
            by_cases h2 : n < l
            · simp [h2]
            · have : n - l ≠ 0 := by omega
              simp [this]
          have h3 : (!decide (n < l) && decide (n - l = 0)) = false := by
            rw [← Bool.not_eq_true', Bool.not_and, Bool.not_not]; exact h1
          simp [hn, hf, h3, beq_eq_false_iff_ne.2 e]
      · simp [hn, BitVec.getLsbD_of_ge _ _ (Nat.le_of_not_lt hn)]

theorem maskOf_has (f : Nat → Bool) (l : Nat) (h : l < 32) : (maskOf f).has l = f l := by
  rw [Mask.has, maskOf, foldl_mask_getLsbD]
  simp only [BitVec.getLsbD_zero, Bool.false_or, h, decide_true, Bool.true_and]
  rw [Bool.eq_iff_iff, List.any_eq_true]
  constructor
  · rintro ⟨k, -, hk⟩
    simp only [Bool.and_eq_true, beq_iff_eq] at hk
    exact hk.2 ▸ hk.1
  · intro hf
    exact ⟨l, mem_lanes.2 h, by simp [hf]⟩

theorem laneVec_getD {α : Type} (f : Nat → α) (l : Nat) (d : α) (h : l < 32) : (laneVec f).getD l d = f l := by
  simp [laneVec, lanes_eq_range, List.getD, h]

/-! ## Values as bytes -/

@[simp] theorem toBytes_length (v n : Nat) : (toBytes v n).length = n := by
  induction n generalizing v with
  | zero => rfl
  | succ n ih => simp [toBytes, ih]

theorem ofBytes_toBytes (v n : Nat) (h : v < 256 ^ n) : ofBytes (toBytes v n) = v := by
  induction n generalizing v with
  | zero => simp at h; simp [toBytes, ofBytes, h]
  | succ n ih =>
    have h2 : v / 256 < 256 ^ n := by
      rw [Nat.div_lt_iff_lt_mul (by decide)]; rwa [Nat.pow_succ] at h
    simp only [toBytes, ofBytes, ih _ h2, BitVec.toNat_ofNat]
    omega

end Sys2Proof
end

