-- ==== Sys2Proof/Laws/State.lean ====
section
/-! SUPPORT. What the updates of the state leave: one lemma for each field and each update, and reading back a part that an
update has put. -/

namespace Sys2Proof.Machine

/-! ## Fields of the state that an update leaves -/

@[simp] theorem State.setCore_agenda (s : State) (c : Nat) (k : Core) : (s.setCore c k).agenda = s.agenda := rfl
@[simp] theorem State.setCore_cur (s : State) (c : Nat) (k : Core) : (s.setCore c k).cur = s.cur := rfl
@[simp] theorem State.setCore_free (s : State) (c : Nat) (k : Core) : (s.setCore c k).free = s.free := rfl
@[simp] theorem State.setCore_ucycle (s : State) (c : Nat) (k : Core) : (s.setCore c k).ucycle = s.ucycle := rfl
@[simp] theorem State.setCore_order (s : State) (c : Nat) (k : Core) : (s.setCore c k).order = s.order := rfl
@[simp] theorem State.setCore_out (s : State) (c : Nat) (k : Core) : (s.setCore c k).out = s.out := rfl
@[simp] theorem State.setCore_pkg (s : State) (c : Nat) (k : Core) : (s.setCore c k).pkg = s.pkg := rfl
@[simp] theorem State.setCore_dies (s : State) (c : Nat) (k : Core) : (s.setCore c k).dies = s.dies := rfl
@[simp] theorem State.modCore_agenda (s : State) (c : Nat) (f : Core → Core) : (s.modCore c f).agenda = s.agenda := rfl
@[simp] theorem State.modCore_cur (s : State) (c : Nat) (f : Core → Core) : (s.modCore c f).cur = s.cur := rfl
@[simp] theorem State.modCore_free (s : State) (c : Nat) (f : Core → Core) : (s.modCore c f).free = s.free := rfl
@[simp] theorem State.modCore_ucycle (s : State) (c : Nat) (f : Core → Core) : (s.modCore c f).ucycle = s.ucycle := rfl
@[simp] theorem State.modCore_order (s : State) (c : Nat) (f : Core → Core) : (s.modCore c f).order = s.order := rfl
@[simp] theorem State.modCore_out (s : State) (c : Nat) (f : Core → Core) : (s.modCore c f).out = s.out := rfl
@[simp] theorem State.modCore_pkg (s : State) (c : Nat) (f : Core → Core) : (s.modCore c f).pkg = s.pkg := rfl
@[simp] theorem State.modCore_dies (s : State) (c : Nat) (f : Core → Core) : (s.modCore c f).dies = s.dies := rfl
@[simp] theorem State.setDie_agenda (s : State) (d : Nat) (k : Die) : (s.setDie d k).agenda = s.agenda := rfl
@[simp] theorem State.setDie_cur (s : State) (d : Nat) (k : Die) : (s.setDie d k).cur = s.cur := rfl
@[simp] theorem State.setDie_free (s : State) (d : Nat) (k : Die) : (s.setDie d k).free = s.free := rfl
@[simp] theorem State.setDie_ucycle (s : State) (d : Nat) (k : Die) : (s.setDie d k).ucycle = s.ucycle := rfl
@[simp] theorem State.setDie_order (s : State) (d : Nat) (k : Die) : (s.setDie d k).order = s.order := rfl
@[simp] theorem State.setDie_out (s : State) (d : Nat) (k : Die) : (s.setDie d k).out = s.out := rfl
@[simp] theorem State.setDie_pkg (s : State) (d : Nat) (k : Die) : (s.setDie d k).pkg = s.pkg := rfl
@[simp] theorem State.setDie_cores (s : State) (d : Nat) (k : Die) : (s.setDie d k).cores = s.cores := rfl
@[simp] theorem State.modDie_agenda (s : State) (d : Nat) (f : Die → Die) : (s.modDie d f).agenda = s.agenda := rfl
@[simp] theorem State.modDie_cur (s : State) (d : Nat) (f : Die → Die) : (s.modDie d f).cur = s.cur := rfl
@[simp] theorem State.modDie_free (s : State) (d : Nat) (f : Die → Die) : (s.modDie d f).free = s.free := rfl
@[simp] theorem State.modDie_ucycle (s : State) (d : Nat) (f : Die → Die) : (s.modDie d f).ucycle = s.ucycle := rfl
@[simp] theorem State.modDie_order (s : State) (d : Nat) (f : Die → Die) : (s.modDie d f).order = s.order := rfl
@[simp] theorem State.modDie_out (s : State) (d : Nat) (f : Die → Die) : (s.modDie d f).out = s.out := rfl
@[simp] theorem State.modDie_pkg (s : State) (d : Nat) (f : Die → Die) : (s.modDie d f).pkg = s.pkg := rfl
@[simp] theorem State.modDie_cores (s : State) (d : Nat) (f : Die → Die) : (s.modDie d f).cores = s.cores := rfl
@[simp] theorem State.modPkg_agenda (s : State) (f : Package → Package) : (s.modPkg f).agenda = s.agenda := rfl
@[simp] theorem State.modPkg_cur (s : State) (f : Package → Package) : (s.modPkg f).cur = s.cur := rfl
@[simp] theorem State.modPkg_free (s : State) (f : Package → Package) : (s.modPkg f).free = s.free := rfl
@[simp] theorem State.modPkg_ucycle (s : State) (f : Package → Package) : (s.modPkg f).ucycle = s.ucycle := rfl
@[simp] theorem State.modPkg_order (s : State) (f : Package → Package) : (s.modPkg f).order = s.order := rfl
@[simp] theorem State.modPkg_out (s : State) (f : Package → Package) : (s.modPkg f).out = s.out := rfl
@[simp] theorem State.modPkg_dies (s : State) (f : Package → Package) : (s.modPkg f).dies = s.dies := rfl
@[simp] theorem State.modPkg_cores (s : State) (f : Package → Package) : (s.modPkg f).cores = s.cores := rfl
@[simp] theorem State.setWarp_agenda (s : State) (c w : Nat) (x : Warp) : (s.setWarp c w x).agenda = s.agenda := rfl
@[simp] theorem State.setWarp_cur (s : State) (c w : Nat) (x : Warp) : (s.setWarp c w x).cur = s.cur := rfl
@[simp] theorem State.setWarp_free (s : State) (c w : Nat) (x : Warp) : (s.setWarp c w x).free = s.free := rfl
@[simp] theorem State.setWarp_ucycle (s : State) (c w : Nat) (x : Warp) : (s.setWarp c w x).ucycle = s.ucycle := rfl
@[simp] theorem State.setWarp_order (s : State) (c w : Nat) (x : Warp) : (s.setWarp c w x).order = s.order := rfl
@[simp] theorem State.setWarp_out (s : State) (c w : Nat) (x : Warp) : (s.setWarp c w x).out = s.out := rfl
@[simp] theorem State.setWarp_pkg (s : State) (c w : Nat) (x : Warp) : (s.setWarp c w x).pkg = s.pkg := rfl
@[simp] theorem State.setWarp_dies (s : State) (c w : Nat) (x : Warp) : (s.setWarp c w x).dies = s.dies := rfl
@[simp] theorem State.setGroup_agenda (s : State) (c g : Nat) (x : Group) : (s.setGroup c g x).agenda = s.agenda := rfl
@[simp] theorem State.setGroup_cur (s : State) (c g : Nat) (x : Group) : (s.setGroup c g x).cur = s.cur := rfl
@[simp] theorem State.setGroup_free (s : State) (c g : Nat) (x : Group) : (s.setGroup c g x).free = s.free := rfl
@[simp] theorem State.setGroup_ucycle (s : State) (c g : Nat) (x : Group) : (s.setGroup c g x).ucycle = s.ucycle := rfl
@[simp] theorem State.setGroup_order (s : State) (c g : Nat) (x : Group) : (s.setGroup c g x).order = s.order := rfl
@[simp] theorem State.setGroup_out (s : State) (c g : Nat) (x : Group) : (s.setGroup c g x).out = s.out := rfl
@[simp] theorem State.setGroup_pkg (s : State) (c g : Nat) (x : Group) : (s.setGroup c g x).pkg = s.pkg := rfl
@[simp] theorem State.setGroup_dies (s : State) (c g : Nat) (x : Group) : (s.setGroup c g x).dies = s.dies := rfl
@[simp] theorem State.modSched_agenda (s : State) (c i : Nat) (f : Scheduler → Scheduler) : (s.modSched c i f).agenda = s.agenda := rfl
@[simp] theorem State.modSched_cur (s : State) (c i : Nat) (f : Scheduler → Scheduler) : (s.modSched c i f).cur = s.cur := rfl
@[simp] theorem State.modSched_free (s : State) (c i : Nat) (f : Scheduler → Scheduler) : (s.modSched c i f).free = s.free := rfl
@[simp] theorem State.modSched_ucycle (s : State) (c i : Nat) (f : Scheduler → Scheduler) : (s.modSched c i f).ucycle = s.ucycle := rfl
@[simp] theorem State.modSched_order (s : State) (c i : Nat) (f : Scheduler → Scheduler) : (s.modSched c i f).order = s.order := rfl
@[simp] theorem State.modSched_out (s : State) (c i : Nat) (f : Scheduler → Scheduler) : (s.modSched c i f).out = s.out := rfl
@[simp] theorem State.modSched_pkg (s : State) (c i : Nat) (f : Scheduler → Scheduler) : (s.modSched c i f).pkg = s.pkg := rfl
@[simp] theorem State.modSched_dies (s : State) (c i : Nat) (f : Scheduler → Scheduler) : (s.modSched c i f).dies = s.dies := rfl
@[simp] theorem State.modGrip_agenda (s : State) (c g : Nat) (f : Grip → Grip) : (s.modGrip c g f).agenda = s.agenda := rfl
@[simp] theorem State.modGrip_cur (s : State) (c g : Nat) (f : Grip → Grip) : (s.modGrip c g f).cur = s.cur := rfl
@[simp] theorem State.modGrip_free (s : State) (c g : Nat) (f : Grip → Grip) : (s.modGrip c g f).free = s.free := rfl
@[simp] theorem State.modGrip_ucycle (s : State) (c g : Nat) (f : Grip → Grip) : (s.modGrip c g f).ucycle = s.ucycle := rfl
@[simp] theorem State.modGrip_order (s : State) (c g : Nat) (f : Grip → Grip) : (s.modGrip c g f).order = s.order := rfl
@[simp] theorem State.modGrip_out (s : State) (c g : Nat) (f : Grip → Grip) : (s.modGrip c g f).out = s.out := rfl
@[simp] theorem State.modGrip_pkg (s : State) (c g : Nat) (f : Grip → Grip) : (s.modGrip c g f).pkg = s.pkg := rfl
@[simp] theorem State.modGrip_dies (s : State) (c g : Nat) (f : Grip → Grip) : (s.modGrip c g f).dies = s.dies := rfl
@[simp] theorem State.modCtx_agenda (s : State) (c e x : Nat) (f : EngCtx → EngCtx) : (s.modCtx c e x f).agenda = s.agenda := rfl
@[simp] theorem State.modCtx_cur (s : State) (c e x : Nat) (f : EngCtx → EngCtx) : (s.modCtx c e x f).cur = s.cur := rfl
@[simp] theorem State.modCtx_free (s : State) (c e x : Nat) (f : EngCtx → EngCtx) : (s.modCtx c e x f).free = s.free := rfl
@[simp] theorem State.modCtx_ucycle (s : State) (c e x : Nat) (f : EngCtx → EngCtx) : (s.modCtx c e x f).ucycle = s.ucycle := rfl
@[simp] theorem State.modCtx_order (s : State) (c e x : Nat) (f : EngCtx → EngCtx) : (s.modCtx c e x f).order = s.order := rfl
@[simp] theorem State.modCtx_out (s : State) (c e x : Nat) (f : EngCtx → EngCtx) : (s.modCtx c e x f).out = s.out := rfl
@[simp] theorem State.modCtx_pkg (s : State) (c e x : Nat) (f : EngCtx → EngCtx) : (s.modCtx c e x f).pkg = s.pkg := rfl
@[simp] theorem State.modCtx_dies (s : State) (c e x : Nat) (f : EngCtx → EngCtx) : (s.modCtx c e x f).dies = s.dies := rfl
@[simp] theorem State.modStack_agenda (s : State) (k : Nat) (f : Stack → Stack) : (s.modStack k f).agenda = s.agenda := rfl
@[simp] theorem State.modStack_cur (s : State) (k : Nat) (f : Stack → Stack) : (s.modStack k f).cur = s.cur := rfl
@[simp] theorem State.modStack_free (s : State) (k : Nat) (f : Stack → Stack) : (s.modStack k f).free = s.free := rfl
@[simp] theorem State.modStack_ucycle (s : State) (k : Nat) (f : Stack → Stack) : (s.modStack k f).ucycle = s.ucycle := rfl
@[simp] theorem State.modStack_order (s : State) (k : Nat) (f : Stack → Stack) : (s.modStack k f).order = s.order := rfl
@[simp] theorem State.modStack_out (s : State) (k : Nat) (f : Stack → Stack) : (s.modStack k f).out = s.out := rfl
@[simp] theorem State.modStack_dies (s : State) (k : Nat) (f : Stack → Stack) : (s.modStack k f).dies = s.dies := rfl
@[simp] theorem State.modStack_cores (s : State) (k : Nat) (f : Stack → Stack) : (s.modStack k f).cores = s.cores := rfl
@[simp] theorem State.countCore_agenda (s : State) (c code n : Nat) : (s.countCore c code n).agenda = s.agenda := rfl
@[simp] theorem State.countCore_cur (s : State) (c code n : Nat) : (s.countCore c code n).cur = s.cur := rfl
@[simp] theorem State.countCore_free (s : State) (c code n : Nat) : (s.countCore c code n).free = s.free := rfl
@[simp] theorem State.countCore_ucycle (s : State) (c code n : Nat) : (s.countCore c code n).ucycle = s.ucycle := rfl
@[simp] theorem State.countCore_order (s : State) (c code n : Nat) : (s.countCore c code n).order = s.order := rfl
@[simp] theorem State.countCore_out (s : State) (c code n : Nat) : (s.countCore c code n).out = s.out := rfl
@[simp] theorem State.countCore_pkg (s : State) (c code n : Nat) : (s.countCore c code n).pkg = s.pkg := rfl
@[simp] theorem State.countCore_dies (s : State) (c code n : Nat) : (s.countCore c code n).dies = s.dies := rfl
@[simp] theorem State.countDie_agenda (s : State) (d code n : Nat) : (s.countDie d code n).agenda = s.agenda := rfl
@[simp] theorem State.countDie_cur (s : State) (d code n : Nat) : (s.countDie d code n).cur = s.cur := rfl
@[simp] theorem State.countDie_free (s : State) (d code n : Nat) : (s.countDie d code n).free = s.free := rfl
@[simp] theorem State.countDie_ucycle (s : State) (d code n : Nat) : (s.countDie d code n).ucycle = s.ucycle := rfl
@[simp] theorem State.countDie_order (s : State) (d code n : Nat) : (s.countDie d code n).order = s.order := rfl
@[simp] theorem State.countDie_out (s : State) (d code n : Nat) : (s.countDie d code n).out = s.out := rfl
@[simp] theorem State.countDie_pkg (s : State) (d code n : Nat) : (s.countDie d code n).pkg = s.pkg := rfl
@[simp] theorem State.countDie_cores (s : State) (d code n : Nat) : (s.countDie d code n).cores = s.cores := rfl
@[simp] theorem State.corrected_agenda (s : State) (c : Nat) : (s.corrected c).agenda = s.agenda := rfl
@[simp] theorem State.corrected_cur (s : State) (c : Nat) : (s.corrected c).cur = s.cur := rfl
@[simp] theorem State.corrected_free (s : State) (c : Nat) : (s.corrected c).free = s.free := rfl
@[simp] theorem State.corrected_ucycle (s : State) (c : Nat) : (s.corrected c).ucycle = s.ucycle := rfl
@[simp] theorem State.corrected_order (s : State) (c : Nat) : (s.corrected c).order = s.order := rfl
@[simp] theorem State.corrected_out (s : State) (c : Nat) : (s.corrected c).out = s.out := rfl
@[simp] theorem State.corrected_pkg (s : State) (c : Nat) : (s.corrected c).pkg = s.pkg := rfl
@[simp] theorem State.corrected_dies (s : State) (c : Nat) : (s.corrected c).dies = s.dies := rfl
@[simp] theorem State.uncorrectable_agenda (s : State) (c u : Nat) : (s.uncorrectable c u).agenda = s.agenda := rfl
@[simp] theorem State.uncorrectable_cur (s : State) (c u : Nat) : (s.uncorrectable c u).cur = s.cur := rfl
@[simp] theorem State.uncorrectable_free (s : State) (c u : Nat) : (s.uncorrectable c u).free = s.free := rfl
@[simp] theorem State.uncorrectable_ucycle (s : State) (c u : Nat) : (s.uncorrectable c u).ucycle = s.ucycle := rfl
@[simp] theorem State.uncorrectable_order (s : State) (c u : Nat) : (s.uncorrectable c u).order = s.order := rfl
@[simp] theorem State.uncorrectable_out (s : State) (c u : Nat) : (s.uncorrectable c u).out = s.out := rfl
@[simp] theorem State.uncorrectable_pkg (s : State) (c u : Nat) : (s.uncorrectable c u).pkg = s.pkg := rfl
@[simp] theorem State.uncorrectable_dies (s : State) (c u : Nat) : (s.uncorrectable c u).dies = s.dies := rfl
@[simp] theorem State.modPkg_pkg (s : State) (f : Package → Package) : (s.modPkg f).pkg = f s.pkg := rfl

@[simp] theorem State.modWarp_agenda (s : State) (c w : Nat) (f : Warp → Warp) : (s.modWarp c w f).agenda = s.agenda := by
  unfold State.modWarp; split <;> rfl
@[simp] theorem State.modWarp_cur (s : State) (c w : Nat) (f : Warp → Warp) : (s.modWarp c w f).cur = s.cur := by
  unfold State.modWarp; split <;> rfl
@[simp] theorem State.modWarp_free (s : State) (c w : Nat) (f : Warp → Warp) : (s.modWarp c w f).free = s.free := by
  unfold State.modWarp; split <;> rfl
@[simp] theorem State.modWarp_ucycle (s : State) (c w : Nat) (f : Warp → Warp) : (s.modWarp c w f).ucycle = s.ucycle := by
  unfold State.modWarp; split <;> rfl
@[simp] theorem State.modWarp_order (s : State) (c w : Nat) (f : Warp → Warp) : (s.modWarp c w f).order = s.order := by
  unfold State.modWarp; split <;> rfl
@[simp] theorem State.modWarp_out (s : State) (c w : Nat) (f : Warp → Warp) : (s.modWarp c w f).out = s.out := by
  unfold State.modWarp; split <;> rfl
@[simp] theorem State.modWarp_pkg (s : State) (c w : Nat) (f : Warp → Warp) : (s.modWarp c w f).pkg = s.pkg := by
  unfold State.modWarp; split <;> rfl
@[simp] theorem State.modWarp_dies (s : State) (c w : Nat) (f : Warp → Warp) : (s.modWarp c w f).dies = s.dies := by
  unfold State.modWarp; split <;> rfl
@[simp] theorem State.modGroup_agenda (s : State) (c g : Nat) (f : Group → Group) : (s.modGroup c g f).agenda = s.agenda := by
  unfold State.modGroup; split <;> rfl
@[simp] theorem State.modGroup_cur (s : State) (c g : Nat) (f : Group → Group) : (s.modGroup c g f).cur = s.cur := by
  unfold State.modGroup; split <;> rfl
@[simp] theorem State.modGroup_free (s : State) (c g : Nat) (f : Group → Group) : (s.modGroup c g f).free = s.free := by
  unfold State.modGroup; split <;> rfl
@[simp] theorem State.modGroup_ucycle (s : State) (c g : Nat) (f : Group → Group) : (s.modGroup c g f).ucycle = s.ucycle := by
  unfold State.modGroup; split <;> rfl
@[simp] theorem State.modGroup_order (s : State) (c g : Nat) (f : Group → Group) : (s.modGroup c g f).order = s.order := by
  unfold State.modGroup; split <;> rfl
@[simp] theorem State.modGroup_out (s : State) (c g : Nat) (f : Group → Group) : (s.modGroup c g f).out = s.out := by
  unfold State.modGroup; split <;> rfl
@[simp] theorem State.modGroup_pkg (s : State) (c g : Nat) (f : Group → Group) : (s.modGroup c g f).pkg = s.pkg := by
  unfold State.modGroup; split <;> rfl
@[simp] theorem State.modGroup_dies (s : State) (c g : Nat) (f : Group → Group) : (s.modGroup c g f).dies = s.dies := by
  unfold State.modGroup; split <;> rfl

/-! ## Reading a core back -/

@[simp] theorem State.core_setCore_same (s : State) (c : Nat) (k : Core) : (s.setCore c k).core c = k := by
  simp [State.core, State.setCore]
theorem State.core_setCore_ne (s : State) {c d : Nat} (k : Core) (h : d ≠ c) : (s.setCore c k).core d = s.core d := by
  simp [State.core, State.setCore, Tab.getD_set_ne _ _ _ h]
theorem State.core_setCore (s : State) (c d : Nat) (k : Core) : (s.setCore c k).core d = if d = c then k else s.core d := by
  by_cases h : d = c
  · subst h; simp
  · simp [h, State.core_setCore_ne s k h]
@[simp] theorem State.core_modCore_same (s : State) (c : Nat) (f : Core → Core) : (s.modCore c f).core c = f (s.core c) :=
  State.core_setCore_same s c _
theorem State.core_modCore_ne (s : State) {c d : Nat} (f : Core → Core) (h : d ≠ c) : (s.modCore c f).core d = s.core d :=
  State.core_setCore_ne s _ h
@[simp] theorem State.core_modPkg (s : State) (f : Package → Package) (c : Nat) : (s.modPkg f).core c = s.core c := rfl
@[simp] theorem State.core_modDie (s : State) (d : Nat) (f : Die → Die) (c : Nat) : (s.modDie d f).core c = s.core c := rfl
@[simp] theorem State.die_setDie_same (s : State) (d : Nat) (k : Die) : (s.setDie d k).die d = k := by
  simp [State.die, State.setDie]
theorem State.die_setDie_ne (s : State) {d e : Nat} (k : Die) (h : e ≠ d) : (s.setDie d k).die e = s.die e := by
  simp [State.die, State.setDie, Tab.getD_set_ne _ _ _ h]
@[simp] theorem State.die_modDie_same (s : State) (d : Nat) (f : Die → Die) : (s.modDie d f).die d = f (s.die d) :=
  State.die_setDie_same s d _
@[simp] theorem State.die_modPkg (s : State) (f : Package → Package) (d : Nat) : (s.modPkg f).die d = s.die d := rfl
@[simp] theorem State.die_modCore (s : State) (c : Nat) (f : Core → Core) (d : Nat) : (s.modCore c f).die d = s.die d := rfl

/-! ## Reading a warp, a group or a scheduler back -/

theorem State.core_setWarp (s : State) (c w : Nat) (x : Warp) :
    (s.setWarp c w x).core c = { s.core c with warps := Tab.set (s.core c).warps w x } := State.core_modCore_same s c _
theorem State.core_setWarp_ne (s : State) {c d : Nat} (w : Nat) (x : Warp) (h : d ≠ c) : (s.setWarp c w x).core d = s.core d :=
  State.core_modCore_ne s _ h
@[simp] theorem State.warp?_setWarp_same (s : State) (c w : Nat) (x : Warp) : (s.setWarp c w x).warp? c w = some x := by
  simp [State.warp?, State.core_setWarp, Tab.get?_set_same]
theorem State.warp?_setWarp_ne (s : State) (c : Nat) {w v : Nat} (x : Warp) (h : v ≠ w) :
    (s.setWarp c w x).warp? c v = s.warp? c v := by
  simp [State.warp?, State.core_setWarp, Tab.get?_set_ne _ _ h]
@[simp] theorem State.group?_setWarp (s : State) (c w : Nat) (x : Warp) (d g : Nat) :
    (s.setWarp c w x).group? d g = s.group? d g := by
  by_cases h : d = c
  · subst h; simp [State.group?, State.core_setWarp]
  · simp [State.group?, State.core_setWarp_ne s w x h]
theorem State.modWarp_eq (s : State) {c w : Nat} {x : Warp} (f : Warp → Warp) (h : s.warp? c w = some x) :
    s.modWarp c w f = s.setWarp c w (f x) := by
  simp [State.modWarp, h]

theorem State.core_setGroup (s : State) (c g : Nat) (x : Group) :
    (s.setGroup c g x).core c = { s.core c with groups := Tab.set (s.core c).groups g x } := State.core_modCore_same s c _
theorem State.core_setGroup_ne (s : State) {c d : Nat} (g : Nat) (x : Group) (h : d ≠ c) :
    (s.setGroup c g x).core d = s.core d := State.core_modCore_ne s _ h
@[simp] theorem State.group?_setGroup_same (s : State) (c g : Nat) (x : Group) : (s.setGroup c g x).group? c g = some x := by
  simp [State.group?, State.core_setGroup, Tab.get?_set_same]
theorem State.group?_setGroup_ne (s : State) (c : Nat) {g h : Nat} (x : Group) (e : h ≠ g) :
    (s.setGroup c g x).group? c h = s.group? c h := by
  simp [State.group?, State.core_setGroup, Tab.get?_set_ne _ _ e]
@[simp] theorem State.warp?_setGroup (s : State) (c g : Nat) (x : Group) (d w : Nat) :
    (s.setGroup c g x).warp? d w = s.warp? d w := by
  by_cases h : d = c
  · subst h; simp [State.warp?, State.core_setGroup]
  · simp [State.warp?, State.core_setGroup_ne s g x h]
theorem State.modGroup_eq (s : State) {c g : Nat} {x : Group} (f : Group → Group) (h : s.group? c g = some x) :
    s.modGroup c g f = s.setGroup c g (f x) := by
  simp [State.modGroup, h]

@[simp] theorem Core.sched_setSched_same (k : Core) (i : Nat) (x : Scheduler) : (k.setSched i x).sched i = x := by
  simp [Core.sched, Core.setSched]
theorem Core.sched_setSched_ne (k : Core) {i j : Nat} (x : Scheduler) (h : j ≠ i) : (k.setSched i x).sched j = k.sched j := by
  simp [Core.sched, Core.setSched, Tab.getD_set_ne _ _ _ h]
theorem State.core_modSched (s : State) (c i : Nat) (f : Scheduler → Scheduler) :
    (s.modSched c i f).core c = (s.core c).setSched i (f ((s.core c).sched i)) := State.core_modCore_same s c _
theorem State.core_modSched_ne (s : State) {c d : Nat} (i : Nat) (f : Scheduler → Scheduler) (h : d ≠ c) :
    (s.modSched c i f).core d = s.core d := State.core_modCore_ne s _ h
@[simp] theorem State.warp?_modSched (s : State) (c i : Nat) (f : Scheduler → Scheduler) (d w : Nat) :
    (s.modSched c i f).warp? d w = s.warp? d w := by
  by_cases h : d = c
  · subst h; simp [State.warp?, State.core_modSched, Core.setSched]
  · simp [State.warp?, State.core_modSched_ne s i f h]
@[simp] theorem State.group?_modSched (s : State) (c i : Nat) (f : Scheduler → Scheduler) (d g : Nat) :
    (s.modSched c i f).group? d g = s.group? d g := by
  by_cases h : d = c
  · subst h; simp [State.group?, State.core_modSched, Core.setSched]
  · simp [State.group?, State.core_modSched_ne s i f h]

end Sys2Proof.Machine
end

