-- ==== Sys2Proof/Laws/Issue.lean ====
section
/-! SUPPORT. What the issue of an instruction does: the lemmas of its parts, and once for all what a completed instruction leaves. -/

namespace Sys2Proof.Machine

/-! ## Registers of a warp -/

@[simp] theorem Warp.reg_putReg_same (w : Warp) (n : Nat) (v : List Word) : (w.putReg n v).reg n = v := by
  simp [Warp.reg, Warp.putReg]
theorem Warp.reg_putReg_ne (w : Warp) {n m : Nat} (v : List Word) (h : m ≠ n) : (w.putReg n v).reg m = w.reg m := by
  simp [Warp.reg, Warp.putReg, Tab.getD_set_ne _ _ _ h]
theorem zeroLanes_getD (l : Nat) : zeroLanes.getD l 0 = 0 := by
  by_cases h : l < 32
  · exact laneVec_getD (fun _ => 0#32) l 0 h
  · have : zeroLanes.length ≤ l := by simpa [zeroLanes, lanes_eq_range] using h
    simp [List.getD, this]
theorem Warp.laneWord_of_reg {w u : Warp} {n : Nat} (h : w.reg n = u.reg n) (l : Nat) : w.laneWord n l = u.laneWord n l := by
  unfold Warp.laneWord; rw [h]

theorem Warp.laneWord_writeWords (w : Warp) (n m l : Nat) (ls : Mask) (f : Nat → Nat) (h : l < 32) :
    (w.writeWords n ls f).laneWord m l = if m = n ∧ ls.has l then BitVec.ofNat 32 (f l) else w.laneWord m l := by
  by_cases e : m = n
  · subst e
    have : (w.writeWords m ls f).reg m = laneVec (fun l => if ls.has l then BitVec.ofNat 32 (f l) else w.laneWord m l) :=
      Warp.reg_putReg_same w m _
    rw [Warp.laneWord, this, laneVec_getD _ _ _ h]; simp
  · have : (w.writeWords n ls f).reg m = w.reg m := Warp.reg_putReg_ne w _ e
    rw [Warp.laneWord_of_reg this]; simp [e]
theorem Warp.live_writeWords (w : Warp) (n m : Nat) (ls : Mask) (f : Nat → Nat) :
    (w.writeWords n ls f).live m = (decide (m = n) || w.live m) := by
  have : (w.writeWords n ls f).v = Tab.set w.v n (laneVec (fun l => if ls.has l then BitVec.ofNat 32 (f l) else (w.reg n).getD l 0)) := rfl
  simp only [Warp.live, this, Tab.get?_set]
  by_cases e : m = n <;> simp [e]

theorem Warp.laneWord_kill (w : Warp) (n m l : Nat) : (w.kill n).laneWord m l = if m = n then 0 else w.laneWord m l := by
  by_cases e : m = n
  · subst e
    have : (w.kill m).reg m = zeroLanes := by simp [Warp.reg, Warp.kill, Tab.getD, Tab.get?_erase_same]
    rw [Warp.laneWord, this, zeroLanes_getD]; simp
  · have : (w.kill n).reg m = w.reg m := by simp [Warp.reg, Warp.kill, Tab.getD, Tab.get?_erase_ne _ e]
    rw [Warp.laneWord_of_reg this]; simp [e]
theorem Warp.live_kill (w : Warp) (n m : Nat) : (w.kill n).live m = (w.live m && !decide (m = n)) := by
  by_cases e : m = n
  · subst e; simp [Warp.live, Warp.kill, Tab.get?_erase_same]
  · simp [Warp.live, Warp.kill, Tab.get?_erase_ne _ e, e]

theorem Warp.laneWord_deadMark (w : Warp) (p : Option Pos) (f : Src) (m l : Nat) :
    (w.deadMark p f).laneWord m l = if m ∈ deadSrc p f then 0 else w.laneWord m l := by
  obtain ⟨op, dead⟩ := f
  unfold Warp.deadMark deadSrc
  cases p <;> cases dead <;> cases op <;> try rfl
  rename_i q n
  by_cases h : q.w = 64
  · simp only [h, if_true, Warp.laneWord_kill, List.mem_cons, List.not_mem_nil, or_false]
    by_cases h1 : m = n.toNat <;> by_cases h2 : m = n.toNat + 1 <;> simp [h1, h2]
  · simp [h, Warp.laneWord_kill]
theorem Warp.live_deadMark (w : Warp) (p : Option Pos) (f : Src) (m : Nat) :
    (w.deadMark p f).live m = (w.live m && !decide (m ∈ deadSrc p f)) := by
  obtain ⟨op, dead⟩ := f
  unfold Warp.deadMark deadSrc
  cases p <;> cases dead <;> cases op <;> try simp
  rename_i q n
  by_cases h : q.w = 64
  · simp [h, Warp.live_kill, Bool.and_assoc]
  · simp [h, Warp.live_kill]

theorem Warp.fillMiss_v (w : Warp) (p : Option Pos) (f : Src) : (w.fillMiss p f).v = w.v := by
  unfold Warp.fillMiss; split
  · dsimp only; split <;> rfl
  · rfl

theorem markSources_laneWord (w : Warp) (sh : Shape) (x : Ext) (m l : Nat) :
    (markSources w sh x).laneWord m l = if m ∈ deadSrcs sh x then 0 else w.laneWord m l := by
  have hv : ∀ (w : Warp) (p : Option Pos) (f : Src), (w.fillMiss p f).laneWord m l = w.laneWord m l := by
    intro w p f; exact Warp.laneWord_of_reg (by simp [Warp.reg, Warp.fillMiss_v]) l
  simp only [markSources, Warp.laneWord_deadMark, hv, deadSrcs, List.mem_append]
  by_cases h1 : m ∈ deadSrc sh.a x.a <;> by_cases h2 : m ∈ deadSrc sh.b x.b <;> by_cases h3 : m ∈ deadSrc sh.c x.c <;>
    simp [h1, h2, h3]
theorem markSources_live (w : Warp) (sh : Shape) (x : Ext) (m : Nat) :
    (markSources w sh x).live m = (w.live m && !decide (m ∈ deadSrcs sh x)) := by
  have hv : ∀ (w : Warp) (p : Option Pos) (f : Src), (w.fillMiss p f).live m = w.live m := by
    intro w p f; simp [Warp.live, Warp.fillMiss_v]
  simp [markSources, Warp.live_deadMark, hv, deadSrcs, Bool.and_assoc]

/-! ## What each part of an instruction's end leaves of the warp -/

/-- Two warps that differ only in their registers, cache and parity marks. -/
structure Warp.SameBut (w u : Warp) : Prop where
  eq : u = { w with
    v := u.v, s := u.s, p := u.p, cache := u.cache, regPoison := u.regPoison, tagPoison := u.tagPoison }

theorem Warp.SameBut.refl (w : Warp) : w.SameBut w := ⟨rfl⟩
theorem Warp.SameBut.trans {a b c : Warp} (h1 : a.SameBut b) (h2 : b.SameBut c) : a.SameBut c := by
  constructor
  rw [h2.eq, h1.eq]
theorem Warp.sameBut_fillMiss (w : Warp) (p : Option Pos) (f : Src) : w.SameBut (w.fillMiss p f) := by
  unfold Warp.fillMiss; split
  · dsimp only; split <;> exact ⟨rfl⟩
  · exact ⟨rfl⟩
theorem Warp.sameBut_kill (w : Warp) (n : Nat) : w.SameBut (w.kill n) := ⟨rfl⟩
theorem Warp.sameBut_deadMark (w : Warp) (p : Option Pos) (f : Src) : w.SameBut (w.deadMark p f) := by
  unfold Warp.deadMark; split
  · split
    · exact (Warp.sameBut_kill _ _).trans (Warp.sameBut_kill _ _)
    · exact Warp.sameBut_kill _ _
  · exact ⟨rfl⟩
theorem sameBut_markSources (w : Warp) (sh : Shape) (x : Ext) : w.SameBut (markSources w sh x) :=
  (((Warp.sameBut_fillMiss _ _ _).trans (Warp.sameBut_fillMiss _ _ _)).trans (Warp.sameBut_fillMiss _ _ _)).trans
    (((Warp.sameBut_deadMark _ _ _).trans (Warp.sameBut_deadMark _ _ _)).trans (Warp.sameBut_deadMark _ _ _))
theorem Warp.sameBut_setLive (w : Warp) (n : Nat) : w.SameBut (w.setLive n) := by
  unfold Warp.setLive; split <;> exact ⟨rfl⟩
theorem Warp.sameBut_writeVec (w : Warp) (n width : Nat) (ls : Mask) (f : Nat → Nat) : w.SameBut (w.writeVec n width ls f) := by
  unfold Warp.writeVec; dsimp only; split <;> exact ⟨rfl⟩
theorem Warp.sameBut_putS (w : Warp) (n : Nat) (v : DWord) : w.SameBut (w.putS n v) := by
  unfold Warp.putS; split <;> exact ⟨rfl⟩
theorem Warp.sameBut_putPred (w : Warp) (n : Nat) (ls bits : Mask) : w.SameBut (w.putPred n ls bits) := by
  unfold Warp.putPred; split <;> exact ⟨rfl⟩
theorem sameBut_writeDst (w : Warp) (d : Dst) (x : Ext) (run : Mask) (f : Nat → Nat) : w.SameBut (writeDst w d x run f) := by
  unfold writeDst; split
  · dsimp only; split
    · exact (Warp.sameBut_writeVec _ _ _ _ _).trans ⟨rfl⟩
    · exact Warp.sameBut_writeVec _ _ _ _ _
  · exact Warp.sameBut_putS _ _ _
  · exact ⟨rfl⟩
theorem Warp.sameBut_foldl {α : Type} (f : Warp → α → Warp) (h : ∀ w a, Warp.SameBut w (f w a)) (ls : List α) (w : Warp) :
    w.SameBut (ls.foldl f w) := by
  induction ls generalizing w with
  | nil => exact ⟨rfl⟩
  | cons a t ih => exact (h w a).trans (ih _)
theorem sameBut_writeBack (w : Warp) (sh : Shape) (x : Ext) (run : Mask) (r : Res) : w.SameBut (writeBack w sh x run r) := by
  have h1 : w.SameBut (r.claims.foldl (fun w n => w.setLive n) (markSources w sh x)) :=
    (sameBut_markSources w sh x).trans (Warp.sameBut_foldl _ Warp.sameBut_setLive _ _)
  unfold writeBack
  dsimp only
  refine Warp.SameBut.trans ?_ (Warp.sameBut_foldl (fun w (p : Nat × Mask × Mask) => w.putPred p.1 p.2.1 p.2.2)
    (fun w p => Warp.sameBut_putPred w p.1 p.2.1 p.2.2) _ _)
  split
  · split
    · exact h1.trans (sameBut_writeDst _ _ _ _ _)
    · exact h1
  · exact h1

/-! ## Registers after a write-back -/

theorem Warp.laneWord_setLive (w : Warp) (n m l : Nat) : (w.setLive n).laneWord m l = w.laneWord m l := by
  unfold Warp.setLive
  split
  · rfl
  · rename_i h
    by_cases e : m = n
    · subst e
      have h0 : Tab.get? w.v m = none := by simpa [Warp.live] using h
      refine Warp.laneWord_of_reg ?_ l
      simp [Warp.reg, Warp.landReg, Warp.dropCache, Tab.getD, Tab.get?_set_same, h0]
    · refine Warp.laneWord_of_reg ?_ l
      simp [Warp.reg, Warp.landReg, Warp.dropCache, Tab.getD_set_ne _ _ _ e]
theorem Warp.live_setLive (w : Warp) (n m : Nat) : (w.setLive n).live m = (decide (m = n) || w.live m) := by
  unfold Warp.setLive
  split
  · rename_i h
    by_cases e : m = n
    · subst e; simp [h]
    · simp [e]
  · by_cases e : m = n
    · subst e; simp [Warp.live, Warp.landReg, Tab.get?_set_same]
    · simp [Warp.live, Warp.landReg, Warp.dropCache, Tab.get?_set_ne _ _ e, e]
theorem foldl_setLive_laneWord (cs : List Nat) (w : Warp) (m l : Nat) :
    (cs.foldl (fun w n => w.setLive n) w).laneWord m l = w.laneWord m l := by
  induction cs generalizing w with
  | nil => rfl
  | cons a t ih => rw [List.foldl_cons, ih, Warp.laneWord_setLive]
theorem foldl_setLive_live (cs : List Nat) (w : Warp) (m : Nat) :
    (cs.foldl (fun w n => w.setLive n) w).live m = (decide (m ∈ cs) || w.live m) := by
  induction cs generalizing w with
  | nil => simp
  | cons a t ih =>
    rw [List.foldl_cons, ih, Warp.live_setLive]
    by_cases h1 : m = a <;> simp [h1]
theorem foldl_setLive_sp (cs : List Nat) (w : Warp) :
    (cs.foldl (fun w n => w.setLive n) w).s = w.s ∧ (cs.foldl (fun w n => w.setLive n) w).p = w.p := by
  induction cs generalizing w with
  | nil => exact ⟨rfl, rfl⟩
  | cons a t ih =>
    have h : (w.setLive a).s = w.s ∧ (w.setLive a).p = w.p := by
      unfold Warp.setLive; split <;> exact ⟨rfl, rfl⟩
    rw [List.foldl_cons]; exact ⟨(ih _).1.trans h.1, (ih _).2.trans h.2⟩
theorem markSources_sp (w : Warp) (sh : Shape) (x : Ext) : (markSources w sh x).s = w.s ∧ (markSources w sh x).p = w.p := by
  have hf : ∀ (w : Warp) (p : Option Pos) (f : Src), (w.fillMiss p f).s = w.s ∧ (w.fillMiss p f).p = w.p := by
    intro w p f; unfold Warp.fillMiss; split
    · dsimp only; split <;> exact ⟨rfl, rfl⟩
    · exact ⟨rfl, rfl⟩
  have hd : ∀ (w : Warp) (p : Option Pos) (f : Src), (w.deadMark p f).s = w.s ∧ (w.deadMark p f).p = w.p := by
    intro w p f; unfold Warp.deadMark; split
    · split <;> exact ⟨rfl, rfl⟩
    · exact ⟨rfl, rfl⟩
  simp [markSources, hf, hd]

theorem Warp.laneWord_writeVec (w : Warp) (n width m l : Nat) (ls : Mask) (f : Nat → Nat) (h : l < 32) :
    (w.writeVec n width ls f).laneWord m l =
      if width = 64 ∧ m = n + 1 ∧ ls.has l then BitVec.ofNat 32 (f l / 2 ^ 32)
      else if m = n ∧ ls.has l then BitVec.ofNat 32 (f l) else w.laneWord m l := by
  unfold Warp.writeVec
  by_cases hw : width = 64
  · simp [hw, Warp.laneWord_writeWords _ _ _ _ _ _ h]
  · simp [hw, Warp.laneWord_writeWords _ _ _ _ _ _ h]
theorem Warp.live_writeVec (w : Warp) (n width m : Nat) (ls : Mask) (f : Nat → Nat) :
    (w.writeVec n width ls f).live m = (decide (m ∈ if width = 64 then [n, n + 1] else [n]) || w.live m) := by
  unfold Warp.writeVec
  by_cases hw : width = 64
  · by_cases h1 : m = n <;> by_cases h2 : m = n + 1 <;> simp [hw, Warp.live_writeWords, h1, h2]
  · simp [hw, Warp.live_writeWords]
theorem Warp.writeVec_sp (w : Warp) (n width : Nat) (ls : Mask) (f : Nat → Nat) :
    (w.writeVec n width ls f).s = w.s ∧ (w.writeVec n width ls f).p = w.p := by
  unfold Warp.writeVec; dsimp only; split <;> exact ⟨rfl, rfl⟩

/-- What an instruction's DST leaves in a lane word. -/
theorem laneWord_dst (sh : Shape) (x : Ext) (run : Mask) (f : Nat → Nat) (w : Warp) (n l : Nat) (h : l < 32) :
    (match sh.dst with
      | some d => if sh.fixed then writeDst w d x run f else w
      | none => w).laneWord n l = (dstLane sh x run f n l).getD (w.laneWord n l) := by
  unfold dstLane
  cases hd : sh.dst with
  | none => rfl
  | some d =>
    cases hf : sh.fixed with
    | false => simp; cases x.dst <;> rfl
    | true =>
      simp only [if_true, Bool.true_and]
      unfold writeDst
      cases x.dst with
      | v m =>
        have hc : ∀ u : Warp, (if x.cfen = true then u.cfill x.cfslot.toNat m.toNat else u).laneWord n l = u.laneWord n l := by
          intro u; split <;> rfl
        dsimp only
        rw [hc, Warp.laneWord_writeVec _ _ _ _ _ _ _ h]
        cases hr : run.has l
        · simp
        · by_cases hw : d.w = 64 ∧ n = m.toNat + 1
          · simp [hw]
          · by_cases hn : n = m.toNat
            · have : ¬(d.w = 64 ∧ m.toNat = m.toNat + 1) := by omega
              simp [hn]
            · simp only [hn, and_true, if_false]
              split <;> simp_all
      | s m =>
        have : (w.putS m.toNat (BitVec.ofNat 64 (f 0))).laneWord n l = w.laneWord n l :=
          Warp.laneWord_of_reg (by unfold Warp.putS Warp.reg; split <;> rfl) l
        simpa using this
      | _ => rfl

theorem live_dst (sh : Shape) (x : Ext) (run : Mask) (f : Nat → Nat) (w : Warp) (n : Nat) :
    (match sh.dst with
      | some d => if sh.fixed then writeDst w d x run f else w
      | none => w).live n = (decide (n ∈ writtenRegs sh x) || w.live n) := by
  unfold writtenRegs
  cases hd : sh.dst with
  | none => simp
  | some d =>
    cases hf : sh.fixed with
    | false => cases x.dst <;> simp
    | true =>
      simp only [if_true]
      unfold writeDst
      cases x.dst with
      | v m =>
        have hc : ∀ u : Warp, (if x.cfen = true then u.cfill x.cfslot.toNat m.toNat else u).live n = u.live n := by
          intro u; split <;> rfl
        dsimp only
        rw [hc, Warp.live_writeVec]
      | s m =>
        have : (w.putS m.toNat (BitVec.ofNat 64 (f 0))).live n = w.live n := by unfold Warp.putS Warp.live; split <;> rfl
        simpa using this
      | _ => simp

theorem sreg_dst (sh : Shape) (x : Ext) (run : Mask) (f : Nat → Nat) (w : Warp) (n : Nat) :
    (match sh.dst with
      | some d => if sh.fixed then writeDst w d x run f else w
      | none => w).sreg n = (dstUniform sh x f n).getD (w.sreg n) := by
  unfold dstUniform
  cases hd : sh.dst with
  | none => rfl
  | some d =>
    cases hf : sh.fixed with
    | false => cases x.dst <;> simp
    | true =>
      simp only [if_true, true_and]
      unfold writeDst
      cases x.dst with
      | v m =>
        have hs : ∀ u : Warp, u.s = w.s → u.sreg n = w.sreg n := by
          intro u hu; unfold Warp.sreg; rw [hu]
        dsimp only
        split <;> exact hs _ (Warp.writeVec_sp _ _ _ _ _).1
      | s m =>
        dsimp only [Warp.putS]
        by_cases h63 : m.toNat = 63
        · by_cases hn : n = 63
          · simp [h63, hn]
          · have : n ≠ m.toNat := by omega
            simp [h63, hn]
        · by_cases hn : n = m.toNat
          · subst hn; simp [h63, Warp.sreg]
          · simp only [h63, if_false, hn, false_and, Option.getD_none, Warp.sreg, Tab.getD_set_ne _ _ _ hn]
      | _ => rfl

theorem pred_dst (sh : Shape) (x : Ext) (run : Mask) (f : Nat → Nat) (w : Warp) :
    (match sh.dst with
      | some d => if sh.fixed then writeDst w d x run f else w
      | none => w).p = w.p := by
  cases sh.dst with
  | none => rfl
  | some d =>
    dsimp only
    split
    · unfold writeDst; split
      · dsimp only; split <;> exact (Warp.writeVec_sp _ _ _ _ _).2
      · unfold Warp.putS; split <;> rfl
      · rfl
    · rfl

theorem Warp.pred_putPred (w : Warp) (k : Nat) (ls bits : Mask) (n l : Nat) (h : l < 32) :
    (w.putPred k ls bits).pred n l = if k = n ∧ n ≠ 7 ∧ ls.has l then bits.has l else w.pred n l := by
  unfold Warp.putPred
  by_cases h7 : k = 7
  · by_cases hn : n = 7
    · simp [h7, hn]
    · have : ¬ (7 = n) := fun e => hn e.symm
      simp [h7, this]
  · by_cases hk : k = n
    · subst hk
      simp only [h7, if_false, Warp.pred, Tab.getD_set_same, Mask.has, BitVec.getLsbD_or, BitVec.getLsbD_and,
        BitVec.getLsbD_not, true_and, ne_eq, not_false_eq_true]
      cases hl : ls.getLsbD l <;> simp [h]
    · by_cases hn : n = 7
      · simp [h7, hn, Warp.pred]
      · simp [h7, hk, Warp.pred, Tab.getD_set_ne _ _ _ (Ne.symm hk)]

theorem foldl_putPred_vs (ps : List (Nat × Mask × Mask)) (w : Warp) :
    (ps.foldl (fun w p => w.putPred p.1 p.2.1 p.2.2) w).v = w.v ∧ (ps.foldl (fun w p => w.putPred p.1 p.2.1 p.2.2) w).s = w.s := by
  induction ps generalizing w with
  | nil => exact ⟨rfl, rfl⟩
  | cons a t ih =>
    have h : (w.putPred a.1 a.2.1 a.2.2).v = w.v ∧ (w.putPred a.1 a.2.1 a.2.2).s = w.s := by
      unfold Warp.putPred; split <;> exact ⟨rfl, rfl⟩
    rw [List.foldl_cons]; exact ⟨(ih _).1.trans h.1, (ih _).2.trans h.2⟩

theorem foldl_putPred_pred (ps : List (Nat × Mask × Mask)) (w : Warp) (n l : Nat) (h : l < 32) :
    (ps.foldl (fun w p => w.putPred p.1 p.2.1 p.2.2) w).pred n l = predAfter w ps n l := by
  unfold predAfter
  induction ps generalizing w with
  | nil => rfl
  | cons a t ih => rw [List.foldl_cons, ih, List.foldl_cons, Warp.pred_putPred _ _ _ _ _ _ h]

/-- The registers, live bits and predicates after a write-back. -/
theorem writeBack_laneWord (w : Warp) (sh : Shape) (x : Ext) (run : Mask) (r : Res) (n l : Nat) (h : l < 32) :
    (writeBack w sh x run r).laneWord n l =
      (dstLane sh x run r.out n l).getD (if n ∈ deadSrcs sh x then 0 else w.laneWord n l) := by
  unfold writeBack
  dsimp only
  have h0 : ∀ u : Warp, (r.preds.foldl (fun w p => w.putPred p.1 p.2.1 p.2.2) u).laneWord n l = u.laneWord n l := by
    intro u; exact Warp.laneWord_of_reg (by simp only [Warp.reg, (foldl_putPred_vs _ _).1]) l
  refine (h0 _).trans ((laneWord_dst sh x run r.out _ n l h).trans ?_)
  rw [foldl_setLive_laneWord, markSources_laneWord]
theorem writeBack_live (w : Warp) (sh : Shape) (x : Ext) (run : Mask) (r : Res) (n : Nat) :
    (writeBack w sh x run r).live n =
      (decide (n ∈ writtenRegs sh x ∨ n ∈ r.claims) || (w.live n && !decide (n ∈ deadSrcs sh x))) := by
  have h : ∀ u : Warp, (r.preds.foldl (fun w p => w.putPred p.1 p.2.1 p.2.2) u).live n = u.live n := by
    intro u; simp only [Warp.live, (foldl_putPred_vs _ _).1]
  unfold writeBack
  dsimp only
  refine (h _).trans ((live_dst sh x run r.out _ n).trans ?_)
  rw [foldl_setLive_live, markSources_live]
  by_cases h1 : n ∈ writtenRegs sh x <;> by_cases h2 : n ∈ r.claims <;> simp [h1, h2]
theorem writeBack_sreg (w : Warp) (sh : Shape) (x : Ext) (run : Mask) (r : Res) (n : Nat) :
    (writeBack w sh x run r).sreg n = (dstUniform sh x r.out n).getD (w.sreg n) := by
  have h : ∀ u : Warp, (r.preds.foldl (fun w p => w.putPred p.1 p.2.1 p.2.2) u).sreg n = u.sreg n := by
    intro u; simp only [Warp.sreg, (foldl_putPred_vs _ _).2]
  have h2 : (r.claims.foldl (fun w n => w.setLive n) (markSources w sh x)).sreg n = w.sreg n := by
    simp only [Warp.sreg, (foldl_setLive_sp _ _).1, (markSources_sp _ _ _).1]
  unfold writeBack
  dsimp only
  exact (h _).trans ((sreg_dst sh x run r.out _ n).trans (by rw [h2]))
theorem writeBack_pred (w : Warp) (sh : Shape) (x : Ext) (run : Mask) (r : Res) (n l : Nat) (h : l < 32) :
    (writeBack w sh x run r).pred n l = predAfter w r.preds n l := by
  have h2 : ∀ u : Warp, u.p = w.p → predAfter u r.preds n l = predAfter w r.preds n l := by
    intro u hu; unfold predAfter Warp.pred; rw [hu]
  unfold writeBack
  dsimp only
  rw [foldl_putPred_pred _ _ _ _ h]
  refine h2 _ ?_
  exact (pred_dst sh x run r.out _).trans (by rw [(foldl_setLive_sp _ _).2, (markSources_sp _ _ _).2])

/-! ## The end of an instruction -/

theorem Warp.advance_pc (w : Warp) (pc : VAddr) (e : Bool) (now : Nat) : (w.advance pc e now).pc = pc := by
  unfold Warp.advance; split <;> rfl

theorem core_modGroup_ne (s : State) {c d : Nat} (g : Nat) (f : Group → Group) (h : d ≠ c) :
    (s.modGroup c g f).core d = s.core d := by
  unfold State.modGroup; split
  · rfl
  · exact State.core_setGroup_ne s g _ h
theorem warp?_modGroup (s : State) (c g : Nat) (f : Group → Group) (d w : Nat) :
    (s.modGroup c g f).warp? d w = s.warp? d w := by
  unfold State.modGroup; split
  · rfl
  · exact State.warp?_setGroup s c g _ d w
theorem group?_modGroup (s : State) (c g : Nat) (f : Group → Group) (h : Nat) :
    (s.modGroup c g f).group? c h = if h = g then (s.group? c g).map f else s.group? c h := by
  unfold State.modGroup
  cases e : s.group? c g with
  | none =>
    by_cases hg : h = g
    · subst hg; simp [e]
    · simp [hg]
  | some x =>
    by_cases hg : h = g
    · subst hg; simp
    · simp [hg, State.group?_setGroup_ne s c _ hg]
/-- Changing a group leaves every other part of its core. -/
theorem core_modGroup (s : State) (c g : Nat) (f : Group → Group) :
    (s.modGroup c g f).core c = { s.core c with groups := ((s.modGroup c g f).core c).groups } := by
  unfold State.modGroup; split
  · rfl
  · rw [State.core_setGroup]

/-- A scheduler's change replaces that scheduler only. -/
theorem core_modSched_frame (s : State) (c i : Nat) (f : Scheduler → Scheduler) :
    (s.modSched c i f).core c = { s.core c with scheds := ((s.modSched c i f).core c).scheds } := by
  rw [State.core_modSched]; rfl

theorem stateFrame_modCore (s : State) (c : Nat) (f : Core → Core) : s.modCore c f = { s with cores := (s.modCore c f).cores } := rfl
theorem stateFrame_modGroup (s : State) (c g : Nat) (f : Group → Group) :
    s.modGroup c g f = { s with cores := (s.modGroup c g f).cores } := by
  unfold State.modGroup; split <;> rfl

/-- The state of an instruction's end before the trap that may follow it. -/
def finishState (sp : Spec) (i : Issue) (r : Res) (w0 : Warp) : State :=
  let ends := i.x.bnd || sp.ends
  let w1 := writeBack w0 sp.shape i.x i.run r
  let w2 := w1.advance (r.next.getD i.nextPc) ends (r.s.core i.c).cycle.toNat
  let s1 := shiftLatches (r.s.setWarp i.c i.slot w2) i.c i.slot w1 sp.shape i.x i.run r.out
  let s2 := if ends then s1.endRun i.c i.slot else s1
  countIssue sp.shape i (s2.modGroup i.c i.w.gid (fun g => { g with fpFlags := g.fpFlags ||| BitVec.ofNat 5 r.flags }))

theorem finish_eq (sp : Spec) (i : Issue) (r : Res) (w0 : Warp) (h : r.s.warp? i.c i.slot = some w0)
    (ht : afterTrap i.g r = none) : finish sp i r = finishState sp i r w0 := by
  simp [finish, h, ht, finishState]

/-- A change of schedulers and of nothing else, on one core. -/
structure SchedsOnly (s t : State) (c : Nat) : Prop where
  core : t.core c = { s.core c with scheds := (t.core c).scheds }
  others : ∀ n, n ≠ c → t.core n = s.core n
  state : t = { s with cores := t.cores }

theorem SchedsOnly.refl (s : State) (c : Nat) : SchedsOnly s s c := ⟨rfl, fun _ _ => rfl, rfl⟩
theorem SchedsOnly.trans {s t u : State} {c : Nat} (h : SchedsOnly s t c) (k : SchedsOnly t u c) : SchedsOnly s u c :=
  ⟨by rw [k.core, h.core], fun n hn => (k.others n hn).trans (h.others n hn), by rw [k.state, h.state]⟩
theorem schedsOnly_modSched (s : State) (c i : Nat) (f : Scheduler → Scheduler) : SchedsOnly s (s.modSched c i f) c :=
  ⟨core_modSched_frame s c i f, fun _ hn => State.core_modSched_ne s i f hn, rfl⟩
theorem schedsOnly_shiftLatches (s : State) (c slot : Nat) (w : Warp) (sh : Shape) (x : Ext) (run : Mask) (f : Nat → Nat) :
    SchedsOnly s (shiftLatches s c slot w sh x run f) c := by
  unfold shiftLatches; split
  · exact SchedsOnly.refl _ _
  · split
    · exact schedsOnly_modSched _ _ _ _
    · exact SchedsOnly.refl _ _
theorem schedsOnly_endRun (s : State) (c slot : Nat) : SchedsOnly s (s.endRun c slot) c := schedsOnly_modSched _ _ _ _
theorem SchedsOnly.warp? {s t : State} {c : Nat} (h : SchedsOnly s t c) (d w : Nat) : t.warp? d w = s.warp? d w := by
  by_cases e : d = c
  · subst e; unfold State.warp?; rw [h.core]
  · unfold State.warp?; rw [h.others d e]
theorem SchedsOnly.group? {s t : State} {c : Nat} (h : SchedsOnly s t c) (d g : Nat) : t.group? d g = s.group? d g := by
  by_cases e : d = c
  · subst e; unfold State.group?; rw [h.core]
  · unfold State.group?; rw [h.others d e]

/-- The schedulers after the latches shift and the run ends. -/
theorem sched_shift_end (sp : Spec) (i : Issue) (r : Res) (s : State) (w : Warp) (n : Nat) :
    let s1 := shiftLatches s i.c i.slot w sp.shape i.x i.run r.out
    ((if (i.x.bnd || sp.ends) = true then s1.endRun i.c i.slot else s1).core i.c).sched n =
      if n = schedOf i.slot then schedAfter sp i r w ((s.core i.c).sched n) else (s.core i.c).sched n := by
  have h1 : ((shiftLatches s i.c i.slot w sp.shape i.x i.run r.out).core i.c).sched n =
      if n = schedOf i.slot then
        (match sp.shape.dst with
          | some d => if shifts sp.shape i.x ∧ ((s.core i.c).sched n).cur = some i.slot ∧ ((s.core i.c).sched n).midRun then
              ((s.core i.c).sched n).shift (latchLanes w d i.x i.run r.out) (d.w == 64) else (s.core i.c).sched n
          | none => (s.core i.c).sched n)
      else (s.core i.c).sched n := by
    unfold shiftLatches
    cases sp.shape.dst with
    | none => simp
    | some d =>
      by_cases hs : shifts sp.shape i.x = true
      · simp only [hs, if_true, true_and]
        rw [State.core_modSched]
        by_cases hn : n = schedOf i.slot
        · subst hn; simp
        · simp [hn, Core.sched_setSched_ne _ _ hn]
      · simp [hs]
  dsimp only
  by_cases he : (i.x.bnd || sp.ends) = true
  · simp only [he, if_true, State.endRun, State.core_modSched]
    by_cases hn : n = schedOf i.slot
    · subst hn
      rw [Core.sched_setSched_same, h1]
      simp only [if_true, schedAfter, he, true_and] <;> rfl
    · rw [Core.sched_setSched_ne _ _ hn, h1]; simp [hn]
  · rw [if_neg he, h1]
    by_cases hn : n = schedOf i.slot
    · subst hn
      simp only [if_true, schedAfter]
      rw [if_neg (fun h => he h.1)] <;> rfl
    · rw [if_neg hn, if_neg hn]

/-- Two cores that differ only in warps, groups, schedulers and event counters. -/
structure Core.SameBut (k m : Core) : Prop where
  eq : m = { k with warps := m.warps, groups := m.groups, scheds := m.scheds, evctrs := m.evctrs }

theorem Core.SameBut.trans {a b c : Core} (h1 : a.SameBut b) (h2 : b.SameBut c) : a.SameBut c := by
  constructor
  rw [h2.eq, h1.eq]
theorem sameBut_setWarp (s : State) (c w : Nat) (x : Warp) : (s.core c).SameBut ((s.setWarp c w x).core c) := by
  rw [State.core_setWarp]; exact ⟨rfl⟩
theorem SchedsOnly.sameBut {s t : State} {c : Nat} (h : SchedsOnly s t c) : (s.core c).SameBut (t.core c) := by
  rw [h.core]; exact ⟨rfl⟩
theorem sameBut_modGroup (s : State) (c g : Nat) (f : Group → Group) : (s.core c).SameBut ((s.modGroup c g f).core c) := by
  unfold State.modGroup; split
  · exact ⟨rfl⟩
  · rw [State.core_setGroup]; exact ⟨rfl⟩
/-- The counting of an issued instruction leaves all but the counters. -/
theorem countIssue_core (sh : Shape) (i : Issue) (s : State) :
    (countIssue sh i s).core i.c = { s.core i.c with evctrs := ((countIssue sh i s).core i.c).evctrs } := by
  unfold countIssue; split
  · rfl
  · rw [State.core_modCore_same]
theorem sameBut_countIssue (sh : Shape) (i : Issue) (s : State) : (s.core i.c).SameBut ((countIssue sh i s).core i.c) := by
  rw [countIssue_core]; exact ⟨rfl⟩
theorem countIssue_core_ne (sh : Shape) (i : Issue) (s : State) {n : Nat} (h : n ≠ i.c) : (countIssue sh i s).core n = s.core n := by
  unfold countIssue; split
  · rfl
  · exact State.core_modCore_ne _ _ h
theorem countIssue_stateFrame (sh : Shape) (i : Issue) (s : State) : countIssue sh i s = { s with cores := (countIssue sh i s).cores } := by
  unfold countIssue; split
  · rfl
  · exact stateFrame_modCore _ _ _
theorem countIssue_warp? (sh : Shape) (i : Issue) (s : State) (n : Nat) : (countIssue sh i s).warp? i.c n = s.warp? i.c n := by
  unfold State.warp?; rw [countIssue_core]
theorem countIssue_group? (sh : Shape) (i : Issue) (s : State) (n : Nat) : (countIssue sh i s).group? i.c n = s.group? i.c n := by
  unfold State.group?; rw [countIssue_core]
theorem countIssue_sched (sh : Shape) (i : Issue) (s : State) (n : Nat) :
    ((countIssue sh i s).core i.c).sched n = (s.core i.c).sched n := by
  rw [countIssue_core]; rfl
theorem countIssue_evctr (sh : Shape) (i : Issue) (s : State) (n : Nat) (x : EvCtr) (h : Tab.get? (s.core i.c).evctrs n = some x)
    (hs : x.counting.toNat ∉ [0x02, 0x03, 0x04, 0x05, 0x06, 0x07]) : Tab.get? ((countIssue sh i s).core i.c).evctrs n = some x := by
  unfold countIssue; split
  · exact h
  · rw [State.core_modCore_same]
    simp only [List.mem_cons, List.not_mem_nil, or_false, not_or] at hs
    simp [Tab.get?_mapVal, h, EvCtr.bump, hs]
theorem sched_modGroup (s : State) (c g n : Nat) (f : Group → Group) :
    ((s.modGroup c g f).core c).sched n = (s.core c).sched n := by
  unfold State.modGroup; split
  · rfl
  · rw [State.core_setGroup]; rfl
theorem evctrs_modGroup (s : State) (c g : Nat) (f : Group → Group) : ((s.modGroup c g f).core c).evctrs = (s.core c).evctrs := by
  unfold State.modGroup; split
  · rfl
  · rw [State.core_setGroup]

theorem Warp.advance_run (w : Warp) (pc : VAddr) (e : Bool) (now : Nat) :
    if e then (w.advance pc e now).runPos = 0 ∧ (w.advance pc e now).runStart = (w.advance pc e now).pc
    else (w.advance pc e now).runPos = w.runPos + 1 ∧ (w.advance pc e now).runStart = w.runStart := by
  cases e <;> exact ⟨rfl, rfl⟩
theorem Warp.advance_frame (w : Warp) (pc : VAddr) (e : Bool) (now : Nat) :
    w.advance pc e now = { w with
      pc := (w.advance pc e now).pc, runPos := (w.advance pc e now).runPos, runStart := (w.advance pc e now).runStart, bpSkip := false
      waiting := none, relatch := none, since := (w.advance pc e now).since, issueFrom := (w.advance pc e now).issueFrom } := by
  cases e <;> rfl

/-- What the end of an instruction leaves: the whole of `Completed`. -/
theorem finishState_completed (sp : Spec) (i : Issue) (r : Res) (wb : Warp) :
    ∃ w', Completed sp i r wb w' (finishState sp i r wb) := by
  have hsame := sameBut_writeBack wb sp.shape i.x i.run r
  have hlane := fun n l hl => writeBack_laneWord wb sp.shape i.x i.run r n l hl
  have hlive := fun n => writeBack_live wb sp.shape i.x i.run r n
  have hsreg := fun n => writeBack_sreg wb sp.shape i.x i.run r n
  have hpred := fun n l hl => writeBack_pred wb sp.shape i.x i.run r n l hl
  unfold finishState
  dsimp only
  generalize hw1 : writeBack wb sp.shape i.x i.run r = w1 at *
  generalize he : (i.x.bnd || sp.ends) = ends
  generalize hpc : r.next.getD i.nextPc = pc
  generalize (r.s.core i.c).cycle.toNat = now
  have hso : SchedsOnly (r.s.setWarp i.c i.slot (w1.advance pc ends now))
      (if ends = true then (shiftLatches (r.s.setWarp i.c i.slot (w1.advance pc ends now)) i.c i.slot w1 sp.shape i.x i.run r.out).endRun i.c i.slot
        else shiftLatches (r.s.setWarp i.c i.slot (w1.advance pc ends now)) i.c i.slot w1 sp.shape i.x i.run r.out) i.c := by
    split
    · exact (schedsOnly_shiftLatches _ _ _ _ _ _ _ _).trans (schedsOnly_endRun _ _ _)
    · exact schedsOnly_shiftLatches _ _ _ _ _ _ _ _
  have hsched := fun n => sched_shift_end sp i r (r.s.setWarp i.c i.slot (w1.advance pc ends now)) w1 n
  simp only [he] at hsched
  generalize (if ends = true then
      (shiftLatches (r.s.setWarp i.c i.slot (w1.advance pc ends now)) i.c i.slot w1 sp.shape i.x i.run r.out).endRun i.c i.slot
    else shiftLatches (r.s.setWarp i.c i.slot (w1.advance pc ends now)) i.c i.slot w1 sp.shape i.x i.run r.out) = s2 at *
  have hreg : ∀ n, (w1.advance pc ends now).reg n = w1.reg n := by intro n; cases ends <;> rfl
  have hs0 : ∀ n, ((r.s.setWarp i.c i.slot (w1.advance pc ends now)).core i.c).sched n = (r.s.core i.c).sched n := by
    intro n; rw [State.core_setWarp]; rfl
  refine ⟨w1.advance pc ends now, ?_⟩
  constructor
  · rw [hpc]; exact Warp.advance_pc _ _ _ _
  · intro n l hl
    rw [Warp.laneWord_of_reg (hreg n)]; exact hlane n l hl
  · intro n
    rw [← hlive n]; cases ends <;> rfl
  · intro n
    rw [← hsreg n]; cases ends <;> rfl
  · intro n l hl
    rw [← hpred n l hl]; cases ends <;> rfl
  · have h := Warp.advance_run w1 pc ends now
    have h1 : w1.runPos = wb.runPos := by rw [hsame.eq]
    have h2 : w1.runStart = wb.runStart := by rw [hsame.eq]
    rw [he]; rw [h1, h2] at h; exact h
  · rw [Warp.advance_frame, hsame.eq]
  · rw [countIssue_warp?, warp?_modGroup, hso.warp?]; exact State.warp?_setWarp_same _ _ _ _
  · intro n hn
    rw [countIssue_warp?, warp?_modGroup, hso.warp?]; exact State.warp?_setWarp_ne _ _ _ hn
  · rw [countIssue_sched, sched_modGroup, hsched, hs0]
    simp only [if_true, schedAfter, latchLanes, hreg, he]
  · intro n hn
    rw [countIssue_sched, sched_modGroup, hsched, hs0]; simp [hn]
  · rw [countIssue_group?, group?_modGroup, hso.group?, State.group?_setWarp]; simp
  · intro n hn
    rw [countIssue_group?, group?_modGroup, if_neg hn, hso.group?, State.group?_setWarp]
  · intro n x hx hsrc
    refine countIssue_evctr _ _ _ _ _ ?_ hsrc
    rw [evctrs_modGroup, ← hx]
    have : (s2.core i.c).evctrs = ((r.s.setWarp i.c i.slot (w1.advance pc ends now)).core i.c).evctrs := by rw [hso.core]
    rw [this, State.core_setWarp]
  · exact ((((sameBut_setWarp _ _ _ _).trans hso.sameBut).trans (sameBut_modGroup _ _ _ _)).trans (sameBut_countIssue _ _ _)).eq
  · intro n hn
    rw [countIssue_core_ne _ _ _ hn, core_modGroup_ne _ _ _ hn, hso.others n hn]
    exact State.core_setWarp_ne _ _ _ hn
  · rw [countIssue_stateFrame, stateFrame_modGroup, hso.state]; rfl

/-! ## One instruction of a warp -/

/-- An instruction that may execute and whose meaning is done completes, unless a trap follows. -/
theorem runSpec_completes (sp : Spec) (kBad : Bool) (x : Ext) (len : Nat) (s : State) (c slot : Nat) (w : Warp) (g : Group)
    (r : Res) (ha : Acts s c slot w g) (hr : Ready sp kBad (mkIssue s c slot w g sp.shape x len))
    (hb : sp.body (mkIssue s c slot w g sp.shape x len) = .done r) (ht : afterTrap g r = none)
    (hw : (r.s.warp? c slot).isSome) :
    Completes sp (mkIssue s c slot w g sp.shape x len) r (runSpec sp kBad x len s) := by
  obtain ⟨wb, hwb⟩ := Option.isSome_iff_exists.1 hw
  obtain ⟨w', h⟩ := finishState_completed sp (mkIssue s c slot w g sp.shape x len) r wb
  refine ⟨_, wb, w', ?_, hwb, h⟩
  have hf : finish sp (mkIssue s c slot w g sp.shape x len) r = finishState sp (mkIssue s c slot w g sp.shape x len) r wb :=
    finish_eq _ _ _ _ hwb ht
  simp only [runSpec, ha.cur, ha.warp, ha.group, issueState, hr.checks, hr.clean, hb, settle, hf]

/-- An instruction that fails a check takes the trap of 03 Table 7. -/
theorem runSpec_traps (sp : Spec) (kBad : Bool) (x : Ext) (len : Nat) (s : State) (c slot : Nat) (w : Warp) (g : Group)
    (t : Trap) (ha : Acts s c slot w g) (ht : checkTrap sp kBad (mkIssue s c slot w g sp.shape x len) = some t) :
    runSpec sp kBad x len s = .next (s.takeTrap c slot t false) := by
  simp only [runSpec, ha.cur, ha.warp, ha.group, issueState, ht]
  rfl

/-- The forms of an instruction whose meaning is done with `res`. -/
theorem extForm_of_body (mk : Ext → Instr) (sp : Ext → Spec) (res : Issue → Res) (he : ∀ x s, exec (mk x) s = runExt sp x s)
    (hb : ∀ x i, i.x = x → (sp x).body i = .done (res i)) (hs : ∀ i, (res i).s = i.s) : ExtForm mk sp res := by
  intro x s c slot w g ha i hr ht
  rw [he]
  refine runSpec_completes _ _ _ _ _ _ _ _ _ _ ha hr (hb x i rfl) ht ?_
  rw [hs]
  exact Option.isSome_iff_exists.2 ⟨w, ha.warp⟩
theorem aluForm_of_body (mk : BAlu → Instr) (sp : Ext → Spec) (res : Issue → Res) (he : ∀ b s, exec (mk b) s = runAlu sp b s)
    (hb : ∀ x i, i.x = x → (sp x).body i = .done (res i)) (hs : ∀ i, (res i).s = i.s) : AluForm mk sp res := by
  intro b s c slot w g ha sh x i hr ht
  rw [he]
  refine runSpec_completes _ _ _ _ _ _ _ _ _ _ ha hr (hb x i rfl) ht ?_
  rw [hs]
  exact Option.isSome_iff_exists.2 ⟨w, ha.warp⟩
theorem immForm_of_body (mk : BImm → Instr) (sp : Ext → Spec) (res : Issue → Res) (he : ∀ b s, exec (mk b) s = runImm sp b s)
    (hb : ∀ x i, i.x = x → (sp x).body i = .done (res i)) (hs : ∀ i, (res i).s = i.s) : ImmForm mk sp res := by
  intro b s c slot w g ha x i hr ht
  rw [he]
  refine runSpec_completes _ _ _ _ _ _ _ _ _ _ ha hr (hb x i rfl) ht ?_
  rw [hs]
  exact Option.isSome_iff_exists.2 ⟨w, ha.warp⟩


/-! The other forms of Sys2Proof.Safety, from the same two facts about a meaning. -/

/-- A meaning that keeps the issuing warp in its slot. -/
def KeepsWarp (ok : Issue → Prop) (res : Issue → Res) : Prop :=
  ∀ i, (i.s.warp? i.c i.slot).isSome → ok i → ((res i).s.warp? i.c i.slot).isSome

theorem keepsWarp_of_state {ok : Issue → Prop} {res : Issue → Res} (h : ∀ i, (res i).s = i.s) : KeepsWarp ok res := by
  intro i hi _; rw [h]; exact hi

theorem runSpec_form (sp : Spec) (kBad : Bool) (x : Ext) (len : Nat) (ok : Issue → Prop) (res : Issue → Res)
    (hb : ∀ i, i.x = x → ok i → sp.body i = .done (res i)) (hs : KeepsWarp ok res) (s : State) (c slot : Nat) (w : Warp)
    (g : Group) (ha : Acts s c slot w g) :
    let i := mkIssue s c slot w g sp.shape x len
    Ready sp kBad i → ok i → afterTrap g (res i) = none → Completes sp i (res i) (runSpec sp kBad x len s) := by
  intro i hr ho ht
  exact runSpec_completes _ _ _ _ _ _ _ _ _ _ ha hr (hb i rfl ho) ht (hs i (Option.isSome_iff_exists.2 ⟨w, ha.warp⟩) ho)

theorem extFormWhen_of_body (mk : Ext → Instr) (sp : Ext → Spec) (ok : Issue → Prop) (res : Issue → Res)
    (he : ∀ x s, exec (mk x) s = runExt sp x s) (hb : ∀ x i, i.x = x → ok i → (sp x).body i = .done (res i))
    (hs : KeepsWarp ok res) : ExtFormWhen mk sp ok res := by
  intro x s c slot w g ha
  rw [he]
  exact runSpec_form (sp x) false x (extLen x) ok res (hb x) hs s c slot w g ha
theorem aluFormWhen_of_body (mk : BAlu → Instr) (sp : Ext → Spec) (ok : Issue → Prop) (res : Issue → Res)
    (he : ∀ x s, exec (mk x) s = runAlu sp x s) (hb : ∀ x i, i.x = x → ok i → (sp x).body i = .done (res i))
    (hs : KeepsWarp ok res) : AluFormWhen mk sp ok res := by
  intro b s c slot w g ha
  rw [he]
  exact runSpec_form (sp _) _ _ _ ok res (hb _) hs s c slot w g ha
theorem memForm_of_body (load : Bool) (mk : BMem → Instr) (sp : BMem → Ext → Spec) (ok : Issue → Prop) (res : Issue → Res)
    (he : ∀ b s, exec (mk b) s = runMem load (sp b) b s) (hb : ∀ b x i, i.x = x → ok i → (sp b x).body i = .done (res i))
    (hs : KeepsWarp ok res) : MemForm load mk sp ok res := by
  intro b s c slot w g ha
  rw [he]
  exact runSpec_form (sp b _) _ _ _ ok res (hb b _) hs s c slot w g ha
theorem brForm_of_body (mk : BBr → Instr) (sp : Spec) (dst : Opnd) (ok : Issue → Prop) (res : Issue → Res)
    (he : ∀ b s, exec (mk b) s = runSpec sp false (bbrExt b dst) 4 s) (hb : ∀ i, ok i → sp.body i = .done (res i))
    (hs : KeepsWarp ok res) : BrForm mk sp dst ok res := by
  intro b s c slot w g ha
  rw [he]
  exact runSpec_form sp _ _ _ ok res (fun i _ => hb i) hs s c slot w g ha

/-- An instruction that may execute ends as its meaning says. -/
theorem runSpec_settles (sp : Spec) (kBad : Bool) (x : Ext) (len : Nat) (s : State) (c slot : Nat) (w : Warp) (g : Group)
    (ha : Acts s c slot w g) (hr : Ready sp kBad (mkIssue s c slot w g sp.shape x len)) :
    runSpec sp kBad x len s =
      .next (settle sp (mkIssue s c slot w g sp.shape x len) (sp.body (mkIssue s c slot w g sp.shape x len))) := by
  simp only [runSpec, ha.cur, ha.warp, ha.group, issueState, hr.checks, hr.clean]

theorem extLeaves_of_body (mk : Ext → Instr) (sp : Ext → Spec) (ok : Issue → Prop) (st : Issue → State)
    (he : ∀ x s, exec (mk x) s = runExt sp x s)
    (hb : ∀ x i, i.x = x → ok i → settle (sp x) i ((sp x).body i) = st i) : ExtLeaves mk sp ok st := by
  intro x s c slot w g ha i hr ho
  rw [he, runExt, runSpec_settles _ _ _ _ _ _ _ _ _ ha hr, hb x i rfl ho]

/-- The end of an instruction that a trap follows. -/
theorem finish_traps (sp : Spec) (i : Issue) (r : Res) (w0 : Warp) (t : Trap) (h : r.s.warp? i.c i.slot = some w0)
    (ht : afterTrap i.g r = some t) : finish sp i r = (finishState sp i r w0).takeTrap i.c i.slot t false := by
  simp [finish, h, ht, finishState, State.trapHere]

theorem runSpec_trapForm (sp : Spec) (kBad : Bool) (x : Ext) (len : Nat) (ok : Issue → Prop) (res : Issue → Res) (tr : Issue → Trap)
    (hb : ∀ i, i.x = x → ok i → sp.body i = .done (res i)) (ht : ∀ i, i.x = x → ok i → afterTrap i.g (res i) = some (tr i))
    (hs : KeepsWarp ok res) (s : State) (c slot : Nat) (w : Warp) (g : Group) (ha : Acts s c slot w g) :
    let i := mkIssue s c slot w g sp.shape x len
    Ready sp kBad i → ok i →
      ∃ t wb w', runSpec sp kBad x len s = .next (t.takeTrap c slot (tr i) false) ∧ (res i).s.warp? c slot = some wb ∧
        Completed sp i (res i) wb w' t := by
  intro i hr ho
  obtain ⟨wb, hwb⟩ := Option.isSome_iff_exists.1 (hs i (Option.isSome_iff_exists.2 ⟨w, ha.warp⟩) ho)
  obtain ⟨w', h⟩ := finishState_completed sp i (res i) wb
  refine ⟨_, wb, w', ?_, hwb, h⟩
  rw [runSpec_settles _ _ _ _ _ _ _ _ _ ha hr, hb i rfl ho]
  exact congrArg Host.Outcome.next (finish_traps sp i (res i) wb (tr i) hwb (ht i rfl ho))

theorem extTraps_of_body (mk : Ext → Instr) (sp : Ext → Spec) (ok : Issue → Prop) (res : Issue → Res) (tr : Issue → Trap)
    (he : ∀ x s, exec (mk x) s = runExt sp x s) (hb : ∀ x i, i.x = x → ok i → (sp x).body i = .done (res i))
    (ht : ∀ i, ok i → afterTrap i.g (res i) = some (tr i)) (hs : KeepsWarp ok res) : ExtTraps mk sp ok res tr := by
  intro x s c slot w g ha
  rw [he]
  exact runSpec_trapForm (sp x) false x (extLen x) ok res tr (hb x) (fun i _ => ht i) hs s c slot w g ha
theorem immTraps_of_body (mk : BImm → Instr) (sp : Ext → Spec) (ok : Issue → Prop) (res : Issue → Res) (tr : Issue → Trap)
    (he : ∀ x s, exec (mk x) s = runImm sp x s) (hb : ∀ x i, i.x = x → ok i → (sp x).body i = .done (res i))
    (ht : ∀ i, ok i → afterTrap i.g (res i) = some (tr i)) (hs : KeepsWarp ok res) : ImmTraps mk sp ok res tr := by
  intro b s c slot w g ha
  rw [he]
  exact runSpec_trapForm (sp _) false _ _ ok res tr (hb _) (fun i _ => ht i) hs s c slot w g ha

end Sys2Proof.Machine
end

