-- ==== Sys2Proof/Laws/Keeps.lean ====
section
/-! SUPPORT. The operations over the state leave every resident warp in its slot. -/

namespace Sys2Proof.Machine

/-- Every warp of core `c` is still in its slot. -/
def Keeps (c : Nat) (s t : State) : Prop := ∀ n, (s.warp? c n).isSome → (t.warp? c n).isSome

theorem Keeps.refl (c : Nat) (s : State) : Keeps c s s := fun _ h => h
theorem Keeps.trans {c : Nat} {s t u : State} (h : Keeps c s t) (k : Keeps c t u) : Keeps c s u := fun n x => k n (h n x)
theorem keeps_setWarp (s : State) (c d n : Nat) (w : Warp) : Keeps c s (s.setWarp d n w) := by
  intro m h
  by_cases e : c = d
  · subst e
    by_cases f : m = n
    · subst f; simp [State.warp?_setWarp_same]
    · rw [State.warp?_setWarp_ne _ _ _ f]; exact h
  · unfold State.warp? at *; rw [State.core_setWarp_ne _ _ _ e]; exact h
theorem keeps_modWarp (s : State) (c d n : Nat) (f : Warp → Warp) : Keeps c s (s.modWarp d n f) := by
  unfold State.modWarp; split
  · exact Keeps.refl _ _
  · exact keeps_setWarp _ _ _ _ _
/-- A change of a core that leaves its warps alone. -/
theorem keeps_modCore (s : State) (c d : Nat) (f : Core → Core) (h : ∀ k, (f k).warps = k.warps) : Keeps c s (s.modCore d f) := by
  intro n x
  by_cases e : c = d
  · subst e; unfold State.warp? at *; rw [State.core_modCore_same, h]; exact x
  · unfold State.warp? at *; rw [State.core_modCore_ne _ _ e]; exact x
theorem keeps_modGroup (s : State) (c d g : Nat) (f : Group → Group) : Keeps c s (s.modGroup d g f) := by
  unfold State.modGroup; split
  · exact Keeps.refl _ _
  · exact keeps_modCore _ _ _ _ (fun _ => rfl)
theorem keeps_modSched (s : State) (c d i : Nat) (f : Scheduler → Scheduler) : Keeps c s (s.modSched d i f) :=
  keeps_modCore _ _ _ _ (fun _ => rfl)
theorem keeps_countCore (s : State) (c d k n : Nat) : Keeps c s (s.countCore d k n) := keeps_modCore _ _ _ _ (fun _ => rfl)
theorem keeps_modPkg (s : State) (c : Nat) (f : Package → Package) : Keeps c s (s.modPkg f) := fun _ h => h
theorem keeps_modDie (s : State) (c d : Nat) (f : Die → Die) : Keeps c s (s.modDie d f) := fun _ h => h
theorem keeps_uncorrectable (s : State) (c d u : Nat) : Keeps c s (s.uncorrectable d u) := by
  exact keeps_modCore _ _ _ _ (fun _ => rfl)

/-! Local memory: the window may change a warp's registers, and leaves it in its slot. -/

/-- Every warp of a core is still in its slot. -/
def Core.Keeps (k m : Core) : Prop := ∀ n, (Tab.get? k.warps n).isSome → (Tab.get? m.warps n).isSome

theorem Core.Keeps.refl (k : Core) : k.Keeps k := fun _ h => h
theorem Core.Keeps.trans {a b c : Core} (h : a.Keeps b) (k : b.Keeps c) : a.Keeps c := fun n x => k n (h n x)
theorem Core.keeps_of_warps {k m : Core} (h : m.warps = k.warps) : k.Keeps m := by intro n x; rw [h]; exact x
theorem Core.keeps_set (k : Core) (n : Nat) (w : Warp) : k.Keeps { k with warps := Tab.set k.warps n w } := by
  intro m h
  by_cases f : m = n
  · subst f; simp [Tab.get?_set]
  · simp only [Tab.get?_set, f, if_false]; exact h
theorem Core.keeps_foldl {α : Type} (f : Core → α → Core) (h : ∀ k a, Core.Keeps k (f k a)) (l : List α) (k : Core) :
    k.Keeps (l.foldl f k) := by
  induction l generalizing k with
  | nil => exact Core.Keeps.refl _
  | cons a t ih => exact (h k a).trans (ih _)
theorem keeps_localPut (k : Core) (g : Group) (a : Nat) (b : Byte) : k.Keeps (localPut k g a b) := by
  unfold localPut; split
  · exact Core.keeps_of_warps rfl
  · split
    · exact Core.Keeps.refl _
    · exact Core.keeps_set _ _ _
  · exact Core.Keeps.refl _
theorem keeps_localUnpoison (k : Core) (g : Group) (a : Nat) : k.Keeps (localUnpoison k g a) := by
  unfold localUnpoison; split
  · exact Core.keeps_of_warps rfl
  · split
    · exact Core.Keeps.refl _
    · exact Core.keeps_set _ _ _
  · exact Core.Keeps.refl _
theorem keeps_localWrite (k : Core) (g : Group) (bs : List (Nat × Byte)) : k.Keeps (localWrite k g bs) := by
  unfold localWrite
  refine ((Core.keeps_foldl _ (fun k p => keeps_localPut k g p.1 p.2) bs k).trans
    (Core.keeps_foldl _ (fun k a => keeps_localUnpoison k g a) _ _)).trans (Core.keeps_foldl _ ?_ _ _)
  intro k a
  split
  · exact Core.keeps_of_warps rfl
  · exact Core.Keeps.refl _
theorem keeps_setCore (s : State) (c d : Nat) (k : Core) (h : (s.core d).Keeps k) : Keeps c s (s.setCore d k) := by
  intro n x
  by_cases e : c = d
  · subst e
    have : (s.setCore c k).core c = k := State.core_modCore_same s c (fun _ => k)
    unfold State.warp? at *; rw [this]; exact h n x
  · have : (s.setCore d k).core c = s.core c := State.core_modCore_ne s (fun _ => k) e
    unfold State.warp? at *; rw [this]; exact x

/-! The store queue, barriers and failures. -/

theorem keeps_arrive (s : State) (c d g i w : Nat) : Keeps c s (s.arrive d g i w) := by
  unfold State.arrive; split
  · exact Keeps.refl _ _
  · dsimp only
    refine Keeps.trans ?_ (keeps_countCore _ _ _ _ _)
    exact keeps_modCore _ _ _ _ (fun _ => rfl)
theorem keeps_atomLane (g : Group) (op n : Nat) (nat : Bool) (k : Core) (l : AtomLane) : k.Keeps (atomLane g op n nat k l).1 := by
  unfold atomLane; dsimp only; split
  · exact Core.Keeps.refl _
  · exact keeps_localWrite _ _ _
theorem keeps_atomLanes (g : Group) (op n : Nat) (nat : Bool) (ls : List AtomLane) (k : Core) :
    k.Keeps (atomLanes g op n nat ls k).1 := by
  induction ls generalizing k with
  | nil => exact Core.Keeps.refl _
  | cons l t ih => exact (keeps_atomLane g op n nat k l).trans (ih _)
theorem keeps_performBody (s : State) (c d gid : Nat) (b : SqBody) : Keeps c s (s.performBody d gid b).1 := by
  unfold State.performBody; split
  · exact Keeps.refl _ _
  · split
    · exact keeps_setCore _ _ _ _ (keeps_localWrite _ _ _)
    · dsimp only
      split
      · exact (keeps_setCore _ _ _ _ (keeps_atomLanes _ _ _ _ _ _)).trans (keeps_uncorrectable _ _ _ _)
      · exact keeps_setCore _ _ _ _ (keeps_atomLanes _ _ _ _ _ _)
    · exact keeps_arrive _ _ _ _ _ _
    · exact Keeps.refl _ _
theorem keeps_performHead (s : State) (c d n : Nat) : Keeps c s (s.performHead d n) := by
  unfold State.performHead; split
  · exact Keeps.refl _ _
  · split
    · exact Keeps.refl _ _
    · exact (keeps_performBody _ _ _ _ _).trans (keeps_modWarp _ _ _ _ _)
theorem keeps_performN (s : State) (c d n k : Nat) : Keeps c s (s.performN d n k) := by
  induction k generalizing s with
  | zero => exact Keeps.refl _ _
  | succ k ih => exact (keeps_performHead s c d n).trans (ih _)
theorem keeps_drain (s : State) (c d n : Nat) : Keeps c s (s.drain d n) := by
  unfold State.drain; split
  · exact Keeps.refl _ _
  · exact keeps_performN _ _ _ _ _
theorem keeps_faultRecord (s : State) (c d gid seq : Nat) (pc : DWord) (e : Nat) (addr : DWord) (x : Nat) :
    Keeps c s (s.faultRecord d gid seq pc e addr x) := by
  unfold State.faultRecord; split
  · exact Keeps.refl _ _
  · dsimp only
    refine Keeps.trans ?_ (keeps_modGroup _ _ _ _ _)
    split
    · exact keeps_setCore _ _ _ _ (keeps_localWrite _ _ _)
    · exact Keeps.refl _ _
theorem keeps_drainRed (s : State) (c d : Nat) (b : Bool) (p : Nat → RedEntry → Bool) : Keeps c s (s.drainRed d b p) :=
  keeps_modCore _ _ _ _ (fun _ => rfl)
theorem keeps_drainAtExit (s : State) (c d g : Nat) : Keeps c s (s.drainAtExit d g) := by
  unfold State.drainAtExit; dsimp only; split
  · exact (((keeps_drainRed _ _ _ _ _).trans (keeps_faultRecord _ _ _ _ _ _ _ _ _)).trans (keeps_modGroup _ _ _ _ _)).trans
      (keeps_modGroup _ _ _ _ _)
  · exact keeps_drainRed _ _ _ _ _
theorem keeps_warpExited (s : State) (c d g : Nat) : Keeps c s (s.warpExited d g) := by
  unfold State.warpExited; split
  · exact keeps_drainAtExit _ _ _ _
  · exact Keeps.refl _ _

/-- A meaning whose state keeps the warps keeps the issuing one. -/
theorem keepsWarp_of_keeps {ok : Issue → Prop} {res : Issue → Res} (h : ∀ i, ok i → Keeps i.c i.s (res i).s) : KeepsWarp ok res :=
  fun i hi ho => h i ho _ hi

end Sys2Proof.Machine
end

