-- ==== Sys2Proof/Laws/Memory.lean ====
section
/-! SUPPORT. The laws of the byte memory: a read after a write, and that every operation keeps the canonical form. -/

namespace Sys2Proof.Machine.Memory

theorem wfFrom_mono {lo hi : Nat} (m : Memory) (h : lo ≤ hi) (w : wfFrom hi m = true) : wfFrom lo m = true := by
  cases m with
  | nil => rfl
  | cons p t =>
    obtain ⟨a, b⟩ := p
    simp only [wfFrom, Bool.and_eq_true, decide_eq_true_eq] at w ⊢
    exact ⟨⟨by omega, w.1.2⟩, w.2⟩

/-- Below its first address a canonical memory reads 0. -/
theorem read_below (m : Memory) {lo k : Nat} (w : wfFrom lo m = true) (h : k < lo) : read m k = 0 := by
  induction m generalizing lo with
  | nil => rfl
  | cons p t ih =>
    obtain ⟨a, b⟩ := p
    simp only [wfFrom, Bool.and_eq_true, decide_eq_true_eq] at w
    have hne : a ≠ k := by omega
    simp only [read, hne, if_false]
    exact ih w.2 (by omega)

theorem read_write (m : Memory) {lo : Nat} (a : Nat) (v : Byte) (k : Nat) (w : wfFrom lo m = true) :
    read (write m a v) k = if k = a then v else read m k := by
  induction m generalizing lo with
  | nil =>
    by_cases hv : v = 0
    · simp [write, hv, read]
    · rw [show write [] a v = [(a, v)] from if_neg hv]
      by_cases hk : k = a
      · simp [read, hk]
      · simp [read, hk, Ne.symm hk]
  | cons p t ih =>
    obtain ⟨b, u⟩ := p
    have w' := w
    simp only [wfFrom, Bool.and_eq_true, decide_eq_true_eq] at w
    unfold write
    by_cases h1 : a < b
    · have hbelow : read ((b, u) :: t) a = 0 := by
        refine read_below (lo := b) _ ?_ h1
        simp only [wfFrom, Bool.and_eq_true, decide_eq_true_eq]
        exact ⟨⟨Nat.le_refl b, w.1.2⟩, w.2⟩
      by_cases hv : v = 0
      · simp only [h1, hv, if_true]
        by_cases hk : k = a
        · subst hk; rw [hbelow]; simp
        · simp [hk]
      · simp only [h1, hv, if_true, if_false]
        by_cases hk : k = a
        · subst hk; simp [read]
        · simp [read, hk, Ne.symm hk]
    · by_cases h2 : b = a
      · subst h2
        simp only [Nat.lt_irrefl, if_true, if_false]
        by_cases hv : v = 0
        · simp only [hv, if_true]
          by_cases hk : k = b
          · subst hk; rw [read_below t w.2 (Nat.lt_succ_self _)]; simp
          · simp [read, hk, Ne.symm hk]
        · simp only [hv, if_false]
          by_cases hk : k = b
          · subst hk; simp [read]
          · simp [read, hk, Ne.symm hk]
      · simp only [h1, h2, if_false]
        by_cases hk : b = k
        · have : k ≠ a := fun e => h2 (hk.trans e)
          simp [read, hk, this]
        · simp only [read, hk, if_false]; exact ih w.2

theorem wfFrom_write (m : Memory) {lo : Nat} (a : Nat) (v : Byte) (w : wfFrom lo m = true) (h : lo ≤ a) :
    wfFrom lo (write m a v) = true := by
  induction m generalizing lo with
  | nil =>
    by_cases hv : v = 0
    · simp [write, hv, wfFrom]
    · rw [show write [] a v = [(a, v)] from if_neg hv]
      simp only [wfFrom, Bool.and_eq_true, decide_eq_true_eq]
      exact ⟨⟨h, hv⟩, trivial⟩
  | cons p t ih =>
    obtain ⟨b, u⟩ := p
    have w' := w
    simp only [wfFrom, Bool.and_eq_true, decide_eq_true_eq] at w
    unfold write
    by_cases h1 : a < b
    · by_cases hv : v = 0
      · simp only [h1, hv, if_true]; exact w'
      · simp only [h1, hv, if_true, if_false, wfFrom, Bool.and_eq_true, decide_eq_true_eq]
        exact ⟨⟨h, hv⟩, ⟨by omega, w.1.2⟩, w.2⟩
    · by_cases h2 : b = a
      · subst h2
        by_cases hv : v = 0
        · simp only [Nat.lt_irrefl, hv, if_true, if_false]; exact wfFrom_mono t (by omega) w.2
        · simp only [Nat.lt_irrefl, hv, if_true, if_false, wfFrom, Bool.and_eq_true, decide_eq_true_eq]
          exact ⟨⟨h, hv⟩, w.2⟩
      · simp only [h1, h2, if_false, wfFrom, Bool.and_eq_true, decide_eq_true_eq]
        exact ⟨w.1, ih w.2 (by omega)⟩

/-- A write keeps the canonical form. -/
theorem wf_write (m : Memory) (a : Nat) (v : Byte) (w : wf m = true) : wf (write m a v) = true := wfFrom_write m a v w (Nat.zero_le a)
theorem wf_writeN (bs : List Byte) (m : Memory) (a : Nat) (w : wf m = true) : wf (writeN m a bs) = true := by
  induction bs generalizing m a with
  | nil => exact w
  | cons b t ih => exact ih _ _ (wf_write m a b w)
theorem wf_writeV (m : Memory) (a n v : Nat) (w : wf m = true) : wf (writeV m a n v) = true := wf_writeN _ m a w
theorem wfFrom_filter (f : Host.Cell → Bool) (m : Memory) {lo : Nat} (w : wfFrom lo m = true) : wfFrom lo (m.filter f) = true := by
  induction m generalizing lo with
  | nil => rfl
  | cons p t ih =>
    obtain ⟨c, b⟩ := p
    simp only [wfFrom, Bool.and_eq_true, decide_eq_true_eq] at w
    rw [List.filter_cons]
    split
    · simp only [wfFrom, Bool.and_eq_true, decide_eq_true_eq]; exact ⟨w.1, ih w.2⟩
    · exact wfFrom_mono _ (by omega) (ih w.2)
theorem wf_clear (m : Memory) (a n : Nat) (w : wf m = true) : wf (clear m a n) = true := wfFrom_filter _ m w

/-- A byte read after bytes were written: inside them the byte written, outside them what was there. -/
theorem read_writeN (bs : List Byte) (m : Memory) (a k : Nat) (w : wf m = true) :
    read (writeN m a bs) k = if a ≤ k ∧ k < a + bs.length then bs.getD (k - a) 0 else read m k := by
  induction bs generalizing m a with
  | nil =>
    have : ¬(a ≤ k ∧ k < a + ([] : List Byte).length) := by simp only [List.length_nil]; omega
    rw [if_neg this]; rfl
  | cons b t ih =>
    have h1 := ih (write m a b) (a + 1) (wf_write m a b w)
    have h2 := read_write m a b k w
    unfold writeN
    rw [h1, h2]
    by_cases e : k = a
    · subst e
      have h3 : ¬(k + 1 ≤ k ∧ k < k + 1 + t.length) := by omega
      have h4 : k ≤ k ∧ k < k + (b :: t).length := by simp only [List.length_cons]; omega
      rw [if_neg h3, if_pos h4]; simp
    · by_cases h : a + 1 ≤ k ∧ k < a + 1 + t.length
      · rw [if_pos h, if_pos ⟨by omega, by simp only [List.length_cons]; omega⟩]
        obtain ⟨j, hj⟩ : ∃ j, k - a = j + 1 := ⟨k - a - 1, by omega⟩
        rw [hj, show k - (a + 1) = j by omega]; rfl
      · rw [if_neg h, if_neg e, if_neg]
        simp only [List.length_cons]; omega
theorem read_filter_keep (f : Host.Cell → Bool) (k : Nat) (m : Memory) (h : ∀ b, f (k, b) = true) : read (m.filter f) k = read m k := by
  induction m with
  | nil => rfl
  | cons p t ih =>
    obtain ⟨a, b⟩ := p
    rw [List.filter_cons]
    by_cases e : a = k
    · subst e; simp [h b, read]
    · split <;> simp [read, e, ih]
theorem read_filter_drop (f : Host.Cell → Bool) (k : Nat) (m : Memory) (h : ∀ b, f (k, b) = false) : read (m.filter f) k = 0 := by
  induction m with
  | nil => rfl
  | cons p t ih =>
    obtain ⟨a, b⟩ := p
    rw [List.filter_cons]
    by_cases e : a = k
    · subst e; simp [h b, ih]
    · split <;> simp [read, e, ih]
/-- A byte read after a range was cleared. -/
theorem read_clear (m : Memory) (a n k : Nat) : read (clear m a n) k = if a ≤ k ∧ k < a + n then 0 else read m k := by
  unfold clear
  by_cases h : a ≤ k ∧ k < a + n
  · rw [if_pos h]
    refine read_filter_drop _ _ _ (fun b => ?_)
    simp; omega
  · rw [if_neg h]
    refine read_filter_keep _ _ _ (fun b => ?_)
    simp; omega

end Sys2Proof.Machine.Memory

namespace Sys2Proof.Machine

/-- Every memory of the machine lists nothing after reset. -/
theorem reset_memories :
    Memory.wf State.reset.pkg.hbm = true ∧ Memory.wf State.reset.pkg.comp = true ∧ Memory.wf Core.reset.scratch = true ∧
    Memory.wf Core.reset.tileMem = true ∧ Memory.wf Core.reset.weight = true ∧ Memory.wf Core.reset.acc = true ∧
    Memory.wf Die.reset.staging = true ∧ Memory.wf Grip.reset.istore = true ∧ Memory.wf Grip.reset.dstore = true := by decide

end Sys2Proof.Machine
end

