-- ==== Sys2Proof/Laws/PerInstr.lean ====
section
/-! SUPPORT. Families of statements about every instruction. RoundTrip: the words of a well-formed instruction of a warp decode to it. -/

namespace Sys2Proof.Laws.RoundTrip

set_option Elab.async false

/-- The words that the encoder writes for an instruction of a warp decode to that instruction, whatever words follow. -/
def Statement (i : Instr) : Prop :=
  i.wf = true → encode i ≠ [] → i.isGrip = false → ∀ rest, decode (encode i ++ rest) = some i

theorem of_ext (i : Instr) (major minor : Nat) (x : Ext) (he : encode i = extWords major minor x) (ho : ofExt major minor x = some i)
    (hw : i.wf = true → x.wf = true) (hm : major < 128) (hn : minor < 4096) : Statement i := by
  intro h _ _ rest
  rw [he, decode_extWords _ _ _ _ (hw h) hm hn, ho]
theorem of_alu (i : Instr) (major : Nat) (b : BAlu) (he : encode i = baluWords major b)
    (ho : i.wf = true → ofBase major (BitVec.ofBool b.k ++ b.b.code ++ b.a.code ++ b.dst.code ++ headBits major b.bnd false b.lit.isSome)
      b.lit = some i) (hm : major < 128) : Statement i := by
  intro h _ _ rest
  rw [he, decode_baluWords _ _ _ hm, ho h]
theorem of_imm (i : Instr) (major : Nat) (b : BImm) (he : encode i = bimmWords major b)
    (ho : i.wf = true → ofBase major (b.imm ++ b.a.code ++ b.dst.code ++ headBits major b.bnd false b.lit.isSome) b.lit = some i)
    (hm : major < 128) : Statement i := by
  intro h _ _ rest
  rw [he, decode_bimmWords _ _ _ hm, ho h]
theorem of_mem (i : Instr) (major : Nat) (b : BMem) (he : encode i = bmemWords major b)
    (ho : i.wf = true → ofBase major (b.off ++ b.addr.code ++ b.data.code ++ headBits major b.bnd false b.lit.isSome) b.lit = some i)
    (hm : major < 128) : Statement i := by
  intro h _ _ rest
  rw [he, decode_bmemWords _ _ _ hm, ho h]
theorem of_br (i : Instr) (major : Nat) (b : BBr) (he : encode i = bbrWords major b)
    (ho : ofBase major (b.off ++ headBits major b.bnd false false) none = some i) (hm : major < 128) : Statement i := by
  intro h _ _ rest
  rw [he, decode_bbrWords _ _ _ hm, ho]
theorem of_sscmd (x : Ext) (i : Instr) (k : Nat) (he : encode i = extWords 105 0 x)
    (hw : i.wf = true → (x.wf && x.isSscmd k) = true) (ho : x.isSscmd k = true → mtsOf x = i) : Statement i := by
  intro h _ _ rest
  have h2 := hw h
  simp only [Bool.and_eq_true] at h2
  rw [he, decode_extWords _ _ _ _ h2.1 (by decide) (by decide)]
  exact congrArg some (ho h2.2)
theorem isSscmd_ne (x : Ext) {k : Nat} (h : x.isSscmd k = true) (j : Nat) (hj : (Opnd.imm (BitVec.ofNat 9 k) == Opnd.imm (BitVec.ofNat 9 j)) = false) :
    x.isSscmd j = false := by
  unfold Ext.isSscmd at *
  simp only [Bool.and_eq_true, beq_iff_eq] at h
  rw [h.1, h.2, hj, Bool.and_false]

theorem braBr (b : BBr) : Statement (.braBr b) := of_br _ _ b rfl (by simp only [ofBase, bbrOf_words _ b]) (by decide)
theorem braExt (x : Ext) : Statement (.braExt x) := of_ext _ _ _ x rfl rfl id (by decide) (by decide)
theorem brp (x : Ext) : Statement (.brp x) := of_ext _ _ _ x rfl rfl id (by decide) (by decide)
theorem brx (x : Ext) : Statement (.brx x) := of_ext _ _ _ x rfl rfl id (by decide) (by decide)
theorem joinAlu (b : BAlu) : Statement (.joinAlu b) := of_alu _ _ b rfl (fun h => by simp only [ofBase, baluOf_words _ b h]) (by decide)
theorem joinExt (x : Ext) : Statement (.joinExt x) := of_ext _ _ _ x rfl rfl id (by decide) (by decide)
theorem callBr (b : BBr) : Statement (.callBr b) := of_br _ _ b rfl (by simp only [ofBase, bbrOf_words _ b]) (by decide)
theorem callExt (x : Ext) : Statement (.callExt x) := of_ext _ _ _ x rfl rfl id (by decide) (by decide)
theorem calliAlu (b : BAlu) : Statement (.calliAlu b) := of_alu _ _ b rfl (fun h => by simp only [ofBase, baluOf_words _ b h]) (by decide)
theorem calliExt (x : Ext) : Statement (.calliExt x) := of_ext _ _ _ x rfl rfl id (by decide) (by decide)
theorem retAlu (b : BAlu) : Statement (.retAlu b) := of_alu _ _ b rfl (fun h => by simp only [ofBase, baluOf_words _ b h]) (by decide)
theorem retExt (x : Ext) : Statement (.retExt x) := of_ext _ _ _ x rfl rfl id (by decide) (by decide)
theorem jmpiAlu (b : BAlu) : Statement (.jmpiAlu b) := of_alu _ _ b rfl (fun h => by simp only [ofBase, baluOf_words _ b h]) (by decide)
theorem jmpiExt (x : Ext) : Statement (.jmpiExt x) := of_ext _ _ _ x rfl rfl id (by decide) (by decide)
theorem exitAlu (b : BAlu) : Statement (.exitAlu b) := of_alu _ _ b rfl (fun h => by simp only [ofBase, baluOf_words _ b h]) (by decide)
theorem exitExt (x : Ext) : Statement (.exitExt x) := of_ext _ _ _ x rfl rfl id (by decide) (by decide)
theorem recast (x : Ext) : Statement (.recast x) := of_ext _ _ _ x rfl rfl id (by decide) (by decide)
theorem yieldAlu (b : BAlu) : Statement (.yieldAlu b) := of_alu _ _ b rfl (fun h => by simp only [ofBase, baluOf_words _ b h]) (by decide)
theorem yieldExt (x : Ext) : Statement (.yieldExt x) := of_ext _ _ _ x rfl rfl id (by decide) (by decide)
theorem nopAlu (b : BAlu) : Statement (.nopAlu b) := of_alu _ _ b rfl (fun h => by simp only [ofBase, baluOf_words _ b h]) (by decide)
theorem nopExt (x : Ext) : Statement (.nopExt x) := of_ext _ _ _ x rfl rfl id (by decide) (by decide)
theorem bkptImm (b : BImm) : Statement (.bkptImm b) := of_imm _ _ b rfl (fun h => by simp only [ofBase, bimmOf_words _ b h]) (by decide)
theorem bkptExt (x : Ext) : Statement (.bkptExt x) := of_ext _ _ _ x rfl rfl id (by decide) (by decide)
theorem trapImm (b : BImm) : Statement (.trapImm b) := of_imm _ _ b rfl (fun h => by simp only [ofBase, bimmOf_words _ b h]) (by decide)
theorem trapExt (x : Ext) : Statement (.trapExt x) := of_ext _ _ _ x rfl rfl id (by decide) (by decide)
theorem svcImm (b : BImm) : Statement (.svcImm b) := of_imm _ _ b rfl (fun h => by simp only [ofBase, bimmOf_words _ b h]) (by decide)
theorem svcExt (x : Ext) : Statement (.svcExt x) := of_ext _ _ _ x rfl rfl id (by decide) (by decide)
theorem iaddAlu (b : BAlu) : Statement (.iaddAlu b) := of_alu _ _ b rfl (fun h => by simp only [ofBase, baluOf_words _ b h]) (by decide)
theorem iaddImm (b : BImm) : Statement (.iaddImm b) := of_imm _ _ b rfl (fun h => by simp only [ofBase, bimmOf_words _ b h]) (by decide)
theorem iaddExt (x : Ext) : Statement (.iaddExt x) := of_ext _ _ _ x rfl rfl id (by decide) (by decide)
theorem isubAlu (b : BAlu) : Statement (.isubAlu b) := of_alu _ _ b rfl (fun h => by simp only [ofBase, baluOf_words _ b h]) (by decide)
theorem isubImm (b : BImm) : Statement (.isubImm b) := of_imm _ _ b rfl (fun h => by simp only [ofBase, bimmOf_words _ b h]) (by decide)
theorem isubExt (x : Ext) : Statement (.isubExt x) := of_ext _ _ _ x rfl rfl id (by decide) (by decide)
theorem iaddc (x : Ext) : Statement (.iaddc x) := of_ext _ _ _ x rfl rfl id (by decide) (by decide)
theorem imulAlu (b : BAlu) : Statement (.imulAlu b) := of_alu _ _ b rfl (fun h => by simp only [ofBase, baluOf_words _ b h]) (by decide)
theorem imulImm (b : BImm) : Statement (.imulImm b) := of_imm _ _ b rfl (fun h => by simp only [ofBase, bimmOf_words _ b h]) (by decide)
theorem imulExt (x : Ext) : Statement (.imulExt x) := of_ext _ _ _ x rfl rfl id (by decide) (by decide)
theorem imulhAlu (b : BAlu) : Statement (.imulhAlu b) := of_alu _ _ b rfl (fun h => by simp only [ofBase, baluOf_words _ b h]) (by decide)
theorem imulhImm (b : BImm) : Statement (.imulhImm b) := of_imm _ _ b rfl (fun h => by simp only [ofBase, bimmOf_words _ b h]) (by decide)
theorem imulhExt (x : Ext) : Statement (.imulhExt x) := of_ext _ _ _ x rfl rfl id (by decide) (by decide)
theorem imad (x : Ext) : Statement (.imad x) := of_ext _ _ _ x rfl rfl id (by decide) (by decide)
theorem imadw (x : Ext) : Statement (.imadw x) := of_ext _ _ _ x rfl rfl id (by decide) (by decide)
theorem ishlAlu (b : BAlu) : Statement (.ishlAlu b) := of_alu _ _ b rfl (fun h => by simp only [ofBase, baluOf_words _ b h]) (by decide)
theorem ishlImm (b : BImm) : Statement (.ishlImm b) := of_imm _ _ b rfl (fun h => by simp only [ofBase, bimmOf_words _ b h]) (by decide)
theorem ishlExt (x : Ext) : Statement (.ishlExt x) := of_ext _ _ _ x rfl rfl id (by decide) (by decide)
theorem ishrAlu (b : BAlu) : Statement (.ishrAlu b) := of_alu _ _ b rfl (fun h => by simp only [ofBase, baluOf_words _ b h]) (by decide)
theorem ishrImm (b : BImm) : Statement (.ishrImm b) := of_imm _ _ b rfl (fun h => by simp only [ofBase, bimmOf_words _ b h]) (by decide)
theorem ishrExt (x : Ext) : Statement (.ishrExt x) := of_ext _ _ _ x rfl rfl id (by decide) (by decide)
theorem isarAlu (b : BAlu) : Statement (.isarAlu b) := of_alu _ _ b rfl (fun h => by simp only [ofBase, baluOf_words _ b h]) (by decide)
theorem isarImm (b : BImm) : Statement (.isarImm b) := of_imm _ _ b rfl (fun h => by simp only [ofBase, bimmOf_words _ b h]) (by decide)
theorem isarExt (x : Ext) : Statement (.isarExt x) := of_ext _ _ _ x rfl rfl id (by decide) (by decide)
theorem irotAlu (b : BAlu) : Statement (.irotAlu b) := of_alu _ _ b rfl (fun h => by simp only [ofBase, baluOf_words _ b h]) (by decide)
theorem irotImm (b : BImm) : Statement (.irotImm b) := of_imm _ _ b rfl (fun h => by simp only [ofBase, bimmOf_words _ b h]) (by decide)
theorem irotExt (x : Ext) : Statement (.irotExt x) := of_ext _ _ _ x rfl rfl id (by decide) (by decide)
theorem andAlu (b : BAlu) : Statement (.andAlu b) := of_alu _ _ b rfl (fun h => by simp only [ofBase, baluOf_words _ b h]) (by decide)
theorem andImm (b : BImm) : Statement (.andImm b) := of_imm _ _ b rfl (fun h => by simp only [ofBase, bimmOf_words _ b h]) (by decide)
theorem andExt (x : Ext) : Statement (.andExt x) := of_ext _ _ _ x rfl rfl id (by decide) (by decide)
theorem orAlu (b : BAlu) : Statement (.orAlu b) := of_alu _ _ b rfl (fun h => by simp only [ofBase, baluOf_words _ b h]) (by decide)
theorem orImm (b : BImm) : Statement (.orImm b) := of_imm _ _ b rfl (fun h => by simp only [ofBase, bimmOf_words _ b h]) (by decide)
theorem orExt (x : Ext) : Statement (.orExt x) := of_ext _ _ _ x rfl rfl id (by decide) (by decide)
theorem xorAlu (b : BAlu) : Statement (.xorAlu b) := of_alu _ _ b rfl (fun h => by simp only [ofBase, baluOf_words _ b h]) (by decide)
theorem xorImm (b : BImm) : Statement (.xorImm b) := of_imm _ _ b rfl (fun h => by simp only [ofBase, bimmOf_words _ b h]) (by decide)
theorem xorExt (x : Ext) : Statement (.xorExt x) := of_ext _ _ _ x rfl rfl id (by decide) (by decide)
theorem andnAlu (b : BAlu) : Statement (.andnAlu b) := of_alu _ _ b rfl (fun h => by simp only [ofBase, baluOf_words _ b h]) (by decide)
theorem andnImm (b : BImm) : Statement (.andnImm b) := of_imm _ _ b rfl (fun h => by simp only [ofBase, bimmOf_words _ b h]) (by decide)
theorem andnExt (x : Ext) : Statement (.andnExt x) := of_ext _ _ _ x rfl rfl id (by decide) (by decide)
theorem lmix (x : Ext) : Statement (.lmix x) := of_ext _ _ _ x rfl rfl id (by decide) (by decide)
theorem bfx (x : Ext) : Statement (.bfx x) := of_ext _ _ _ x rfl rfl id (by decide) (by decide)
theorem bfi (x : Ext) : Statement (.bfi x) := of_ext _ _ _ x rfl rfl id (by decide) (by decide)
theorem iminAlu (b : BAlu) : Statement (.iminAlu b) := of_alu _ _ b rfl (fun h => by simp only [ofBase, baluOf_words _ b h]) (by decide)
theorem iminImm (b : BImm) : Statement (.iminImm b) := of_imm _ _ b rfl (fun h => by simp only [ofBase, bimmOf_words _ b h]) (by decide)
theorem iminExt (x : Ext) : Statement (.iminExt x) := of_ext _ _ _ x rfl rfl id (by decide) (by decide)
theorem imaxAlu (b : BAlu) : Statement (.imaxAlu b) := of_alu _ _ b rfl (fun h => by simp only [ofBase, baluOf_words _ b h]) (by decide)
theorem imaxImm (b : BImm) : Statement (.imaxImm b) := of_imm _ _ b rfl (fun h => by simp only [ofBase, bimmOf_words _ b h]) (by decide)
theorem imaxExt (x : Ext) : Statement (.imaxExt x) := of_ext _ _ _ x rfl rfl id (by decide) (by decide)
theorem iabsAlu (b : BAlu) : Statement (.iabsAlu b) := of_alu _ _ b rfl (fun h => by simp only [ofBase, baluOf_words _ b h]) (by decide)
theorem iabsExt (x : Ext) : Statement (.iabsExt x) := of_ext _ _ _ x rfl rfl id (by decide) (by decide)
theorem isel (x : Ext) : Statement (.isel x) := of_ext _ _ _ x rfl rfl id (by decide) (by decide)
theorem idot4 (x : Ext) : Statement (.idot4 x) := of_ext _ _ _ x rfl rfl id (by decide) (by decide)
theorem lea (x : Ext) : Statement (.lea x) := of_ext _ _ _ x rfl rfl id (by decide) (by decide)
theorem iadd64Alu (b : BAlu) : Statement (.iadd64Alu b) := of_alu _ _ b rfl (fun h => by simp only [ofBase, baluOf_words _ b h]) (by decide)
theorem iadd64Imm (b : BImm) : Statement (.iadd64Imm b) := of_imm _ _ b rfl (fun h => by simp only [ofBase, bimmOf_words _ b h]) (by decide)
theorem iadd64Ext (x : Ext) : Statement (.iadd64Ext x) := of_ext _ _ _ x rfl rfl id (by decide) (by decide)
theorem ldiAlu (b : BAlu) : Statement (.ldiAlu b) := of_alu _ _ b rfl (fun h => by simp only [ofBase, baluOf_words _ b h]) (by decide)
theorem ldiExt (x : Ext) : Statement (.ldiExt x) := of_ext _ _ _ x rfl rfl id (by decide) (by decide)
theorem clz (x : Ext) : Statement (.clz x) := of_ext _ _ _ x rfl rfl id (by decide) (by decide)
theorem ctz (x : Ext) : Statement (.ctz x) := of_ext _ _ _ x rfl rfl id (by decide) (by decide)
theorem popc (x : Ext) : Statement (.popc x) := of_ext _ _ _ x rfl rfl id (by decide) (by decide)
theorem brev (x : Ext) : Statement (.brev x) := of_ext _ _ _ x rfl rfl id (by decide) (by decide)
theorem iset (x : Ext) : Statement (.iset x) := of_ext _ _ _ x rfl rfl id (by decide) (by decide)
theorem pset (x : Ext) : Statement (.pset x) := of_ext _ _ _ x rfl rfl id (by decide) (by decide)
theorem pmov (x : Ext) : Statement (.pmov x) := of_ext _ _ _ x rfl rfl id (by decide) (by decide)
theorem pcnt (x : Ext) : Statement (.pcnt x) := of_ext _ _ _ x rfl rfl id (by decide) (by decide)
theorem vtos (x : Ext) : Statement (.vtos x) := of_ext _ _ _ x rfl rfl id (by decide) (by decide)
theorem stov (x : Ext) : Statement (.stov x) := of_ext _ _ _ x rfl rfl id (by decide) (by decide)
theorem elect (x : Ext) : Statement (.elect x) := of_ext _ _ _ x rfl rfl id (by decide) (by decide)
theorem faddAlu (b : BAlu) : Statement (.faddAlu b) := of_alu _ _ b rfl (fun h => by simp only [ofBase, baluOf_words _ b h]) (by decide)
theorem faddImm (b : BImm) : Statement (.faddImm b) := of_imm _ _ b rfl (fun h => by simp only [ofBase, bimmOf_words _ b h]) (by decide)
theorem faddExt (x : Ext) : Statement (.faddExt x) := of_ext _ _ _ x rfl rfl id (by decide) (by decide)
theorem fsubAlu (b : BAlu) : Statement (.fsubAlu b) := of_alu _ _ b rfl (fun h => by simp only [ofBase, baluOf_words _ b h]) (by decide)
theorem fsubImm (b : BImm) : Statement (.fsubImm b) := of_imm _ _ b rfl (fun h => by simp only [ofBase, bimmOf_words _ b h]) (by decide)
theorem fsubExt (x : Ext) : Statement (.fsubExt x) := of_ext _ _ _ x rfl rfl id (by decide) (by decide)
theorem fmulAlu (b : BAlu) : Statement (.fmulAlu b) := of_alu _ _ b rfl (fun h => by simp only [ofBase, baluOf_words _ b h]) (by decide)
theorem fmulImm (b : BImm) : Statement (.fmulImm b) := of_imm _ _ b rfl (fun h => by simp only [ofBase, bimmOf_words _ b h]) (by decide)
theorem fmulExt (x : Ext) : Statement (.fmulExt x) := of_ext _ _ _ x rfl rfl id (by decide) (by decide)
theorem ffma (x : Ext) : Statement (.ffma x) := of_ext _ _ _ x rfl rfl id (by decide) (by decide)
theorem fminAlu (b : BAlu) : Statement (.fminAlu b) := of_alu _ _ b rfl (fun h => by simp only [ofBase, baluOf_words _ b h]) (by decide)
theorem fminImm (b : BImm) : Statement (.fminImm b) := of_imm _ _ b rfl (fun h => by simp only [ofBase, bimmOf_words _ b h]) (by decide)
theorem fminExt (x : Ext) : Statement (.fminExt x) := of_ext _ _ _ x rfl rfl id (by decide) (by decide)
theorem fmaxAlu (b : BAlu) : Statement (.fmaxAlu b) := of_alu _ _ b rfl (fun h => by simp only [ofBase, baluOf_words _ b h]) (by decide)
theorem fmaxImm (b : BImm) : Statement (.fmaxImm b) := of_imm _ _ b rfl (fun h => by simp only [ofBase, bimmOf_words _ b h]) (by decide)
theorem fmaxExt (x : Ext) : Statement (.fmaxExt x) := of_ext _ _ _ x rfl rfl id (by decide) (by decide)
theorem fset (x : Ext) : Statement (.fset x) := of_ext _ _ _ x rfl rfl id (by decide) (by decide)
theorem fclass (x : Ext) : Statement (.fclass x) := of_ext _ _ _ x rfl rfl id (by decide) (by decide)
theorem frcp (x : Ext) : Statement (.frcp x) := of_ext _ _ _ x rfl rfl id (by decide) (by decide)
theorem frsq (x : Ext) : Statement (.frsq x) := of_ext _ _ _ x rfl rfl id (by decide) (by decide)
theorem fsqrt (x : Ext) : Statement (.fsqrt x) := of_ext _ _ _ x rfl rfl id (by decide) (by decide)
theorem fexp2 (x : Ext) : Statement (.fexp2 x) := of_ext _ _ _ x rfl rfl id (by decide) (by decide)
theorem flog2 (x : Ext) : Statement (.flog2 x) := of_ext _ _ _ x rfl rfl id (by decide) (by decide)
theorem fsin (x : Ext) : Statement (.fsin x) := of_ext _ _ _ x rfl rfl id (by decide) (by decide)
theorem fcos (x : Ext) : Statement (.fcos x) := of_ext _ _ _ x rfl rfl id (by decide) (by decide)
theorem ftanh (x : Ext) : Statement (.ftanh x) := of_ext _ _ _ x rfl rfl id (by decide) (by decide)
theorem daddAlu (b : BAlu) : Statement (.daddAlu b) := of_alu _ _ b rfl (fun h => by simp only [ofBase, baluOf_words _ b h]) (by decide)
theorem daddExt (x : Ext) : Statement (.daddExt x) := of_ext _ _ _ x rfl rfl id (by decide) (by decide)
theorem dmulAlu (b : BAlu) : Statement (.dmulAlu b) := of_alu _ _ b rfl (fun h => by simp only [ofBase, baluOf_words _ b h]) (by decide)
theorem dmulExt (x : Ext) : Statement (.dmulExt x) := of_ext _ _ _ x rfl rfl id (by decide) (by decide)
theorem dfma (x : Ext) : Statement (.dfma x) := of_ext _ _ _ x rfl rfl id (by decide) (by decide)
theorem pkaddAlu (b : BAlu) : Statement (.pkaddAlu b) := of_alu _ _ b rfl (fun h => by simp only [ofBase, baluOf_words _ b h]) (by decide)
theorem pkaddExt (x : Ext) : Statement (.pkaddExt x) := of_ext _ _ _ x rfl rfl id (by decide) (by decide)
theorem pkmulAlu (b : BAlu) : Statement (.pkmulAlu b) := of_alu _ _ b rfl (fun h => by simp only [ofBase, baluOf_words _ b h]) (by decide)
theorem pkmulExt (x : Ext) : Statement (.pkmulExt x) := of_ext _ _ _ x rfl rfl id (by decide) (by decide)
theorem pkfma (x : Ext) : Statement (.pkfma x) := of_ext _ _ _ x rfl rfl id (by decide) (by decide)
theorem cvt (x : Ext) : Statement (.cvt x) := of_ext _ _ _ x rfl rfl id (by decide) (by decide)
theorem cvtq (x : Ext) : Statement (.cvtq x) := of_ext _ _ _ x rfl rfl id (by decide) (by decide)
theorem bqdot (x : Ext) : Statement (.bqdot x) := of_ext _ _ _ x rfl rfl id (by decide) (by decide)
theorem bqscl (x : Ext) : Statement (.bqscl x) := of_ext _ _ _ x rfl rfl id (by decide) (by decide)
theorem qswz (x : Ext) : Statement (.qswz x) := of_ext _ _ _ x rfl rfl id (by decide) (by decide)
theorem qbc (x : Ext) : Statement (.qbc x) := of_ext _ _ _ x rfl rfl id (by decide) (by decide)
theorem qdx (x : Ext) : Statement (.qdx x) := of_ext _ _ _ x rfl rfl id (by decide) (by decide)
theorem qdy (x : Ext) : Statement (.qdy x) := of_ext _ _ _ x rfl rfl id (by decide) (by decide)
theorem lxch (x : Ext) : Statement (.lxch x) := of_ext _ _ _ x rfl rfl id (by decide) (by decide)
theorem qrm (x : Ext) : Statement (.qrm x) := of_ext _ _ _ x rfl rfl id (by decide) (by decide)
theorem peer (x : Ext) : Statement (.peer x) := of_ext _ _ _ x rfl rfl id (by decide) (by decide)
theorem wfold (x : Ext) : Statement (.wfold x) := of_ext _ _ _ x rfl rfl id (by decide) (by decide)
theorem prefixFold (x : Ext) : Statement (.prefixFold x) := of_ext _ _ _ x rfl rfl id (by decide) (by decide)
theorem isect (x : Ext) : Statement (.isect x) := of_ext _ _ _ x rfl rfl id (by decide) (by decide)
theorem mma2 (x : Ext) : Statement (.mma2 x) := of_ext _ _ _ x rfl rfl id (by decide) (by decide)
theorem mma3 (x : Ext) : Statement (.mma3 x) := of_ext _ _ _ x rfl rfl id (by decide) (by decide)
theorem mma4 (x : Ext) : Statement (.mma4 x) := of_ext _ _ _ x rfl rfl id (by decide) (by decide)
theorem mma5 (x : Ext) : Statement (.mma5 x) := of_ext _ _ _ x rfl rfl id (by decide) (by decide)
theorem mma6 (x : Ext) : Statement (.mma6 x) := of_ext _ _ _ x rfl rfl id (by decide) (by decide)
theorem mma7 (x : Ext) : Statement (.mma7 x) := of_ext _ _ _ x rfl rfl id (by decide) (by decide)
theorem mma8 (x : Ext) : Statement (.mma8 x) := of_ext _ _ _ x rfl rfl id (by decide) (by decide)
theorem mmaw (x : Ext) : Statement (.mmaw x) := of_ext _ _ _ x rfl rfl id (by decide) (by decide)
theorem wbld (x : Ext) : Statement (.wbld x) := of_ext _ _ _ x rfl rfl id (by decide) (by decide)
theorem wbinv (x : Ext) : Statement (.wbinv x) := of_ext _ _ _ x rfl rfl id (by decide) (by decide)
theorem aclr (x : Ext) : Statement (.aclr x) := of_ext _ _ _ x rfl rfl id (by decide) (by decide)
theorem ard (x : Ext) : Statement (.ard x) := of_ext _ _ _ x rfl rfl id (by decide) (by decide)
theorem awr (x : Ext) : Statement (.awr x) := of_ext _ _ _ x rfl rfl id (by decide) (by decide)
theorem scan (x : Ext) : Statement (.scan x) := of_ext _ _ _ x rfl rfl id (by decide) (by decide)
theorem scanst (x : Ext) : Statement (.scanst x) := of_ext _ _ _ x rfl rfl id (by decide) (by decide)
theorem mfs (x : Ext) : Statement (.mfs x) := of_ext _ _ _ x rfl rfl id (by decide) (by decide)
theorem mts (x : Ext) : Statement (.mts x) := by
  intro hw _ _ rest
  simp only [Instr.wf, Bool.and_eq_true, Bool.not_eq_true', Bool.or_eq_false_iff] at hw
  refine (decode_extWords _ _ x rest hw.1 (by decide) (by decide)).trans ?_
  simp [ofExt, mtsOf, hw.2]
theorem sscmdSpill (x : Ext) : Statement (.sscmdSpill x) :=
  of_sscmd x _ 1 rfl id (fun h => by simp [mtsOf, h])
theorem sscmdFill (x : Ext) : Statement (.sscmdFill x) :=
  of_sscmd x _ 2 rfl id (fun h => by simp [mtsOf, isSscmd_ne x h 1 (by decide), h])
theorem sscmdPop (x : Ext) : Statement (.sscmdPop x) :=
  of_sscmd x _ 3 rfl id (fun h => by simp [mtsOf, isSscmd_ne x h 1 (by decide), isSscmd_ne x h 2 (by decide), h])
theorem sscmdPush (x : Ext) : Statement (.sscmdPush x) :=
  of_sscmd x _ 4 rfl id (fun h => by simp [mtsOf, isSscmd_ne x h 1 (by decide), isSscmd_ne x h 2 (by decide), isSscmd_ne x h 3 (by decide), h])
theorem eret (x : Ext) : Statement (.eret x) := of_ext _ _ _ x rfl rfl id (by decide) (by decide)
theorem halt (x : Ext) : Statement (.halt x) := of_ext _ _ _ x rfl rfl id (by decide) (by decide)
theorem clrerr (x : Ext) : Statement (.clrerr x) := of_ext _ _ _ x rfl rfl id (by decide) (by decide)
theorem tlbflush (x : Ext) : Statement (.tlbflush x) := of_ext _ _ _ x rfl rfl id (by decide) (by decide)
theorem tlbsync (x : Ext) : Statement (.tlbsync x) := of_ext _ _ _ x rfl rfl id (by decide) (by decide)
theorem asidret (x : Ext) : Statement (.asidret x) := of_ext _ _ _ x rfl rfl id (by decide) (by decide)
theorem sgwr (x : Ext) : Statement (.sgwr x) := of_ext _ _ _ x rfl rfl id (by decide) (by decide)
theorem ttrd (x : Ext) : Statement (.ttrd x) := of_ext _ _ _ x rfl rfl id (by decide) (by decide)
theorem bwset (x : Ext) : Statement (.bwset x) := of_ext _ _ _ x rfl rfl id (by decide) (by decide)
theorem ldsMem (b : BMem) : Statement (.ldsMem b) := of_mem _ _ b rfl (fun h => by simp only [ofBase, bmemOf_words _ b h]) (by decide)
theorem ldsExt (x : Ext) : Statement (.ldsExt x) := of_ext _ _ _ x rfl rfl id (by decide) (by decide)
theorem stsMem (b : BMem) : Statement (.stsMem b) := of_mem _ _ b rfl (fun h => by simp only [ofBase, bmemOf_words _ b h]) (by decide)
theorem stsExt (x : Ext) : Statement (.stsExt x) := of_ext _ _ _ x rfl rfl id (by decide) (by decide)
theorem ldsfMem (b : BMem) : Statement (.ldsfMem b) := of_mem _ _ b rfl (fun h => by simp only [ofBase, bmemOf_words _ b h]) (by decide)
theorem ldsfExt (x : Ext) : Statement (.ldsfExt x) := of_ext _ _ _ x rfl rfl id (by decide) (by decide)
theorem stseMem (b : BMem) : Statement (.stseMem b) := of_mem _ _ b rfl (fun h => by simp only [ofBase, bmemOf_words _ b h]) (by decide)
theorem stseExt (x : Ext) : Statement (.stseExt x) := of_ext _ _ _ x rfl rfl id (by decide) (by decide)
theorem ldsp (x : Ext) : Statement (.ldsp x) := of_ext _ _ _ x rfl rfl id (by decide) (by decide)
theorem tags (x : Ext) : Statement (.tags x) := of_ext _ _ _ x rfl rfl id (by decide) (by decide)
theorem tagc (x : Ext) : Statement (.tagc x) := of_ext _ _ _ x rfl rfl id (by decide) (by decide)
theorem ats (x : Ext) : Statement (.ats x) := of_ext _ _ _ x rfl rfl id (by decide) (by decide)
theorem atsn (x : Ext) : Statement (.atsn x) := of_ext _ _ _ x rfl rfl id (by decide) (by decide)
theorem talloc (x : Ext) : Statement (.talloc x) := of_ext _ _ _ x rfl rfl id (by decide) (by decide)
theorem tfree (x : Ext) : Statement (.tfree x) := of_ext _ _ _ x rfl rfl id (by decide) (by decide)
theorem tld (x : Ext) : Statement (.tld x) := of_ext _ _ _ x rfl rfl id (by decide) (by decide)
theorem tst (x : Ext) : Statement (.tst x) := of_ext _ _ _ x rfl rfl id (by decide) (by decide)
theorem fence (x : Ext) : Statement (.fence x) := of_ext _ _ _ x rfl rfl id (by decide) (by decide)
theorem icinv (x : Ext) : Statement (.icinv x) := of_ext _ _ _ x rfl rfl id (by decide) (by decide)
theorem cpost (x : Ext) : Statement (.cpost x) := of_ext _ _ _ x rfl rfl id (by decide) (by decide)
theorem red (x : Ext) : Statement (.red x) := of_ext _ _ _ x rfl rfl id (by decide) (by decide)
theorem amo (x : Ext) : Statement (.amo x) := of_ext _ _ _ x rfl rfl id (by decide) (by decide)
theorem redflush (x : Ext) : Statement (.redflush x) := of_ext _ _ _ x rfl rfl id (by decide) (by decide)
theorem cfence (x : Ext) : Statement (.cfence x) := of_ext _ _ _ x rfl rfl id (by decide) (by decide)
theorem cpstat (x : Ext) : Statement (.cpstat x) := of_ext _ _ _ x rfl rfl id (by decide) (by decide)
theorem coll (x : Ext) : Statement (.coll x) := of_ext _ _ _ x rfl rfl id (by decide) (by decide)
theorem cgrp (x : Ext) : Statement (.cgrp x) := of_ext _ _ _ x rfl rfl id (by decide) (by decide)
theorem fxwin (x : Ext) : Statement (.fxwin x) := of_ext _ _ _ x rfl rfl id (by decide) (by decide)
theorem tskpost (x : Ext) : Statement (.tskpost x) := of_ext _ _ _ x rfl rfl id (by decide) (by decide)
theorem launch (x : Ext) : Statement (.launch x) := of_ext _ _ _ x rfl rfl id (by decide) (by decide)
theorem itemput (x : Ext) : Statement (.itemput x) := of_ext _ _ _ x rfl rfl id (by decide) (by decide)
theorem waitc (x : Ext) : Statement (.waitc x) := of_ext _ _ _ x rfl rfl id (by decide) (by decide)
theorem tlwait (x : Ext) : Statement (.tlwait x) := of_ext _ _ _ x rfl rfl id (by decide) (by decide)
theorem tlrd (x : Ext) : Statement (.tlrd x) := of_ext _ _ _ x rfl rfl id (by decide) (by decide)
theorem balloc (x : Ext) : Statement (.balloc x) := of_ext _ _ _ x rfl rfl id (by decide) (by decide)
theorem bfree (x : Ext) : Statement (.bfree x) := of_ext _ _ _ x rfl rfl id (by decide) (by decide)
theorem barv (x : Ext) : Statement (.barv x) := of_ext _ _ _ x rfl rfl id (by decide) (by decide)
theorem barvw (x : Ext) : Statement (.barvw x) := of_ext _ _ _ x rfl rfl id (by decide) (by decide)
theorem bwait (x : Ext) : Statement (.bwait x) := of_ext _ _ _ x rfl rfl id (by decide) (by decide)
theorem ecrd (x : Ext) : Statement (.ecrd x) := of_ext _ _ _ x rfl rfl id (by decide) (by decide)
theorem ecsel (x : Ext) : Statement (.ecsel x) := of_ext _ _ _ x rfl rfl id (by decide) (by decide)
theorem gPost (rd rs1 : BitVec 5) : Statement (.gPost rd rs1) := fun _ _ hg => Bool.noConfusion hg
theorem gTlwait (rd rs1 rs2 : BitVec 5) : Statement (.gTlwait rd rs1 rs2) := fun _ _ hg => Bool.noConfusion hg
theorem gTlrd (rd rs1 : BitVec 5) : Statement (.gTlrd rd rs1) := fun _ _ hg => Bool.noConfusion hg
theorem gLdf (rd rs1 : BitVec 5) : Statement (.gLdf rd rs1) := fun _ _ hg => Bool.noConfusion hg
theorem gSte (rs1 rs2 : BitVec 5) : Statement (.gSte rs1 rs2) := fun _ _ hg => Bool.noConfusion hg
theorem gItem (rd rs1 : BitVec 5) : Statement (.gItem rd rs1) := fun _ _ hg => Bool.noConfusion hg
theorem gItemClose (rd rs1 : BitVec 5) : Statement (.gItemClose rd rs1) := fun _ _ hg => Bool.noConfusion hg
theorem gTask (rd rs1 rs2 : BitVec 5) : Statement (.gTask rd rs1 rs2) := fun _ _ hg => Bool.noConfusion hg
theorem gBarv (rd rs1 : BitVec 5) : Statement (.gBarv rd rs1) := fun _ _ hg => Bool.noConfusion hg
theorem gEvt (rs1 : BitVec 5) : Statement (.gEvt rs1) := fun _ _ hg => Bool.noConfusion hg
theorem gEvtEnd (rs1 : BitVec 5) : Statement (.gEvtEnd rs1) := fun _ _ hg => Bool.noConfusion hg
theorem gEvtFail (rs1 : BitVec 5) : Statement (.gEvtFail rs1) := fun _ _ hg => Bool.noConfusion hg
theorem gripStandardInstruction (r : Rv) (short : Bool) : Statement (.gripStandardInstruction r short) := fun _ _ hg => Bool.noConfusion hg
theorem trapEntry (core slot : Nat) : Statement (.trapEntry core slot) := fun _ he => absurd rfl he
theorem tagwait (core : Nat) (who : TagWaiter) : Statement (.tagwait core who) := fun _ he => absurd rfl he
theorem machine (m : MachineError) : Statement (.machine m) := fun _ he => absurd rfl he
theorem breakpointHit (core sched n : Nat) : Statement (.breakpointHit core sched n) := fun _ he => absurd rfl he
theorem dbgctlResume (core : Nat) (value : DWord) : Statement (.dbgctlResume core value) := fun _ he => absurd rfl he
theorem schedulerSelect (core sched : Nat) : Statement (.schedulerSelect core sched) := fun _ he => absurd rfl he
theorem storeQueuePerform (core slot : Nat) : Statement (.storeQueuePerform core slot) := fun _ he => absurd rfl he
theorem gripStorePerform (core grip : Nat) : Statement (.gripStorePerform core grip) := fun _ he => absurd rfl he
theorem loadLand (core slot idx : Nat) (which : Mask) : Statement (.loadLand core slot idx which) := fun _ he => absurd rfl he
theorem tileAccessLand (core slot idx : Nat) : Statement (.tileAccessLand core slot idx) := fun _ he => absurd rfl he
theorem tagWaitSatisfied (core : Nat) (who : TagWaiter) : Statement (.tagWaitSatisfied core who) := fun _ he => absurd rfl he
theorem waitcReturn (core slot : Nat) : Statement (.waitcReturn core slot) := fun _ he => absurd rfl he
theorem tlwaitReturn (core slot : Nat) : Statement (.tlwaitReturn core slot) := fun _ he => absurd rfl he
theorem bwaitReturn (core slot : Nat) : Statement (.bwaitReturn core slot) := fun _ he => absurd rfl he
theorem recastWake (core slot : Nat) : Statement (.recastWake core slot) := fun _ he => absurd rfl he
theorem cpostAccept (core slot : Nat) : Statement (.cpostAccept core slot) := fun _ he => absurd rfl he
theorem mmaAccept (core slot : Nat) : Statement (.mmaAccept core slot) := fun _ he => absurd rfl he
theorem fenceDrained (core slot : Nat) : Statement (.fenceDrained core slot) := fun _ he => absurd rfl he
theorem icinvDone (core slot : Nat) : Statement (.icinvDone core slot) := fun _ he => absurd rfl he
theorem sgwrDone (core slot : Nat) : Statement (.sgwrDone core slot) := fun _ he => absurd rfl he
theorem tlbsyncDone (core slot : Nat) : Statement (.tlbsyncDone core slot) := fun _ he => absurd rfl he
theorem atomicElementPerform (who : AtomicRef) : Statement (.atomicElementPerform who) := fun _ he => absurd rfl he
theorem writeThroughAck (die asid line : Nat) : Statement (.writeThroughAck die asid line) := fun _ he => absurd rfl he
theorem scrubPass (u : StoreUnit) (found : ScrubFound) : Statement (.scrubPass u found) := fun _ he => absurd rfl he
theorem copyDispatch (core engine ctx : Nat) : Statement (.copyDispatch core engine ctx) := fun _ he => absurd rfl he
theorem copyFaultSuspend (core engine ctx : Nat) : Statement (.copyFaultSuspend core engine ctx) := fun _ he => absurd rfl he
theorem faultBatchPost (core engine ctx : Nat) : Statement (.faultBatchPost core engine ctx) := fun _ he => absurd rfl he
theorem copyComplete (core engine ctx : Nat) : Statement (.copyComplete core engine ctx) := fun _ he => absurd rfl he
theorem matrixUnitStart (core : Nat) : Statement (.matrixUnitStart core) := fun _ he => absurd rfl he
theorem matrixCommandComplete (core : Nat) : Statement (.matrixCommandComplete core) := fun _ he => absurd rfl he
theorem gafferWindow (core : Nat) : Statement (.gafferWindow core) := fun _ he => absurd rfl he
theorem wbldRun (core : Nat) : Statement (.wbldRun core) := fun _ he => absurd rfl he
theorem wbldComplete (core : Nat) : Statement (.wbldComplete core) := fun _ he => absurd rfl he
theorem wbinvEffect (core : Nat) : Statement (.wbinvEffect core) := fun _ he => absurd rfl he
theorem scanStart (core : Nat) : Statement (.scanStart core) := fun _ he => absurd rfl he
theorem scanComplete (core : Nat) : Statement (.scanComplete core) := fun _ he => absurd rfl he
theorem scanstComplete (core : Nat) : Statement (.scanstComplete core) := fun _ he => absurd rfl he
theorem tokenRefill (port : PortRef) : Statement (.tokenRefill port) := fun _ he => absurd rfl he
theorem portSend (port : PortRef) : Statement (.portSend port) := fun _ he => absurd rfl he
theorem priorityAging (idx : Nat) : Statement (.priorityAging idx) := fun _ he => absurd rfl he
theorem timeSliceEnd (core gid : Nat) : Statement (.timeSliceEnd core gid) := fun _ he => absurd rfl he
theorem clusterPlacement (idx : Nat) : Statement (.clusterPlacement idx) := fun _ he => absurd rfl he
theorem preemption (core gid : Nat) : Statement (.preemption core gid) := fun _ he => absurd rfl he
theorem groupHaltRelease (core gid : Nat) : Statement (.groupHaltRelease core gid) := fun _ he => absurd rfl he
theorem restorePlacement (idx core : Nat) : Statement (.restorePlacement idx core) := fun _ he => absurd rfl he
theorem groupRetirement (core gid : Nat) : Statement (.groupRetirement core gid) := fun _ he => absurd rfl he
theorem launchEntryTake (asid queue : Nat) : Statement (.launchEntryTake asid queue) := fun _ he => absurd rfl he
theorem gridEnd (gridId : Nat) : Statement (.gridEnd gridId) := fun _ he => absurd rfl he
theorem taskArrival (core idx : Nat) : Statement (.taskArrival core idx) := fun _ he => absurd rfl he
theorem taskPlacement (core entry : Nat) : Statement (.taskPlacement core entry) := fun _ he => absurd rfl he
theorem collectiveMatched (key : CollKey) : Statement (.collectiveMatched key) := fun _ he => absurd rfl he
theorem collMemberComplete (die ctx : Nat) : Statement (.collMemberComplete die ctx) := fun _ he => absurd rfl he
theorem gatewayCombine (key : CollKey) (src dst : Nat) : Statement (.gatewayCombine key src dst) := fun _ he => absurd rfl he
theorem multicastPacketArrival (src dst : Nat) : Statement (.multicastPacketArrival src dst) := fun _ he => absurd rfl he
theorem writePacket (p : Packet) : Statement (.writePacket p) := fun _ he => absurd rfl he
theorem readPacket (p : Packet) : Statement (.readPacket p) := fun _ he => absurd rfl he
theorem atomicPacket (p : Packet) : Statement (.atomicPacket p) := fun _ he => absurd rfl he
theorem flagPacket (p : Packet) : Statement (.flagPacket p) := fun _ he => absurd rfl he
theorem collPacket (p : CollPacket) : Statement (.collPacket p) := fun _ he => absurd rfl he
theorem ackReceived (a : Ack) : Statement (.ackReceived a) := fun _ he => absurd rfl he
theorem stallHintExpiry (dev tc : Nat) : Statement (.stallHintExpiry dev tc) := fun _ he => absurd rfl he
theorem linkDown (port : Nat) : Statement (.linkDown port) := fun _ he => absurd rfl he
theorem ackTimeout (dev tc : Nat) : Statement (.ackTimeout dev tc) := fun _ he => absurd rfl he
theorem routeRetry (dev : Nat) : Statement (.routeRetry dev) := fun _ he => absurd rfl he
theorem fabricTimeout (core engine ctx : Nat) : Statement (.fabricTimeout core engine ctx) := fun _ he => absurd rfl he
theorem asidFreed (asid : Nat) : Statement (.asidFreed asid) := fun _ he => absurd rfl he
theorem coldReset : Statement .coldReset := fun _ he => absurd rfl he
theorem warmReset : Statement .warmReset := fun _ he => absurd rfl he
theorem resetctlWarm : Statement .resetctlWarm := fun _ he => absurd rfl he
theorem bootctlStart : Statement .bootctlStart := fun _ he => absurd rfl he
theorem bootbufWrite (value : DWord) : Statement (.bootbufWrite value) := fun _ he => absurd rfl he
theorem bootctlGo (outcome : BootOutcome) : Statement (.bootctlGo outcome) := fun _ he => absurd rfl he
theorem linkStateChange (link : Nat) (dest : LinkState) : Statement (.linkStateChange link dest) := fun _ he => absurd rfl he
theorem sidebandRegisterWrite (link : Nat) (addr value : DWord) : Statement (.sidebandRegisterWrite link addr value) := fun _ he => absurd rfl he
theorem errstatRead (core : Nat) : Statement (.errstatRead core) := fun _ he => absurd rfl he
theorem lqd0Write (asid queue : Nat) (value : DWord) : Statement (.lqd0Write asid queue value) := fun _ he => absurd rfl he
theorem lqd1TailWrite (asid queue : Nat) (value : DWord) : Statement (.lqd1TailWrite asid queue value) := fun _ he => absurd rfl he
theorem diememWrite (die : Nat) (value : DWord) : Statement (.diememWrite die value) := fun _ he => absurd rfl he
theorem bwtabWrite (die : Nat) (value : DWord) : Statement (.bwtabWrite die value) := fun _ he => absurd rfl he
theorem fqctlHeadWrite (die : Nat) (value : DWord) : Statement (.fqctlHeadWrite die value) := fun _ he => absurd rfl he
theorem eqctlHeadWrite (die : Nat) (value : DWord) : Statement (.eqctlHeadWrite die value) := fun _ he => absurd rfl he
theorem islopWrite (island : Nat) (value : DWord) : Statement (.islopWrite island value) := fun _ he => absurd rfl he
theorem asidBind (link : Nat) : Statement (.asidBind link) := fun _ he => absurd rfl he
theorem asidReroot (link : Nat) : Statement (.asidReroot link) := fun _ he => absurd rfl he
theorem tlbFlush (link : Nat) : Statement (.tlbFlush link) := fun _ he => absurd rfl he
theorem asidRetire (link : Nat) : Statement (.asidRetire link) := fun _ he => absurd rfl he
theorem faultVerdict (link : Nat) : Statement (.faultVerdict link) := fun _ he => absurd rfl he
theorem groupRelease (link : Nat) : Statement (.groupRelease link) := fun _ he => absurd rfl he
theorem restore (link : Nat) : Statement (.restore link) := fun _ he => absurd rfl he
theorem preempt (link : Nat) : Statement (.preempt link) := fun _ he => absurd rfl he
theorem streamReset (link : Nat) : Statement (.streamReset link) := fun _ he => absurd rfl he
theorem windowSync (link : Nat) : Statement (.windowSync link) := fun _ he => absurd rfl he
theorem scopeWrite (link : Nat) : Statement (.scopeWrite link) := fun _ he => absurd rfl he
theorem taskName (link : Nat) : Statement (.taskName link) := fun _ he => absurd rfl he
theorem attest (link secret : Nat) : Statement (.attest link secret) := fun _ he => absurd rfl he
theorem coreRelease (link : Nat) : Statement (.coreRelease link) := fun _ he => absurd rfl he
theorem sidebandCommandFinish (link : Nat) : Statement (.sidebandCommandFinish link) := fun _ he => absurd rfl he
theorem thermalThreshold (sensor : Nat) (temp : BitVec 16) : Statement (.thermalThreshold sensor temp) := fun _ he => absurd rfl he
theorem thermalUndo (sensor : Nat) (temp : BitVec 16) : Statement (.thermalUndo sensor temp) := fun _ he => absurd rfl he
theorem jtagExtest (pins : List Bool) : Statement (.jtagExtest pins) := fun _ he => absurd rfl he
theorem jtagIdcode : Statement .jtagIdcode := fun _ he => absurd rfl he
theorem jtagSamplePreload (pins : List Bool) : Statement (.jtagSamplePreload pins) := fun _ he => absurd rfl he
theorem jtagBypass (code : BitVec 4) : Statement (.jtagBypass code) := fun _ he => absurd rfl he
theorem companionDeviceMemoryAccess (a : CompanionAccess) : Statement (.companionDeviceMemoryAccess a) := fun _ he => absurd rfl he
theorem linkAbsenceTimeout (core engine ctx : Nat) : Statement (.linkAbsenceTimeout core engine ctx) := fun _ he => absurd rfl he

end Sys2Proof.Laws.RoundTrip
end

