-- ==== Sys2Proof/Laws/Trap.lean ====
section
/-! SUPPORT. The laws of a write inside a group's scratchpad and of taking a trap. -/

namespace Sys2Proof.Machine

/-! ## Local writes -/

/-- A local address inside the group's scratchpad names the byte of the core's scratchpad. -/
theorem localPlace_inside {g : Group} {a : Nat} (h : a < g.scrSize) : localPlace g a = some (.scratch (g.scrBase + a)) := by
  simp [localPlace, h]

/-- What changes in a core when a group's scratchpad is written: its bytes, its poison marks and the grips' reservations. -/
structure Core.ScratchOnly (k m : Core) (bytes : Memory) : Prop where
  eq : ∃ p gr, m = { k with scratch := bytes, scratchPoison := p, grips := gr }

theorem withAddrs_fst (a : Nat) (bs : List Byte) : ∀ x ∈ withAddrs a bs, a ≤ x.1 ∧ x.1 < a + bs.length := by
  induction bs generalizing a with
  | nil => intro x h; cases h
  | cons b t ih =>
    intro x h
    rcases List.mem_cons.1 h with rfl | h
    · simp
    · have := ih (a + 1) x h
      simp only [List.length_cons]; omega

theorem localPut_withAddrs (g : Group) (bs : List Byte) (k : Core) (a : Nat) (h : a + bs.length ≤ g.scrSize) :
    (withAddrs a bs).foldl (fun k p => localPut k g p.1 p.2) k = { k with scratch := Memory.writeN k.scratch (g.scrBase + a) bs } := by
  induction bs generalizing k a with
  | nil => rfl
  | cons b t ih =>
    simp only [List.length_cons] at h
    simp only [withAddrs, List.foldl_cons]
    rw [ih _ _ (by omega)]
    simp only [localPut, localPlace_inside (show a < g.scrSize by omega), Memory.writeN, Nat.add_assoc]

theorem Core.scratchOnly_foldl {α : Type} (f : Core → α → Core) (l : List α) (k m : Core) (b : Memory)
    (hf : ∀ x ∈ l, ∀ m, k.ScratchOnly m b → k.ScratchOnly (f m x) b) (h : k.ScratchOnly m b) : k.ScratchOnly (l.foldl f m) b := by
  induction l generalizing m with
  | nil => exact h
  | cons x t ih => exact ih _ (fun y hy => hf y (List.mem_cons_of_mem _ hy)) (hf x (List.mem_cons_self ..) m h)

/-- Consecutive bytes written inside a group's scratchpad. -/
theorem localWrite_inside (k : Core) (g : Group) (a : Nat) (bs : List Byte) (h : a + bs.length ≤ g.scrSize) :
    k.ScratchOnly (localWrite k g (withAddrs a bs)) (Memory.writeN k.scratch (g.scrBase + a) bs) := by
  have hin : ∀ x ∈ (withAddrs a bs).map Prod.fst, x < g.scrSize := by
    intro x hx
    obtain ⟨y, hy, rfl⟩ := List.mem_map.1 hx
    have := withAddrs_fst a bs y hy; omega
  unfold localWrite
  dsimp only
  rw [localPut_withAddrs g bs k a h]
  refine Core.scratchOnly_foldl _ _ _ _ _ ?_ (Core.scratchOnly_foldl _ _ _ _ _ ?_ ⟨_, _, rfl⟩)
  · rintro x hx m ⟨p, gr, rfl⟩
    simp only [localPlace_inside (hin x hx), dropResv]
    exact ⟨_, _, rfl⟩
  · rintro x hx m ⟨p, gr, rfl⟩
    have hx' := (List.mem_filter.1 (List.mem_filter.1 hx).1).1
    simp only [localUnpoison, localPlace_inside (hin x hx')]
    exact ⟨_, _, rfl⟩

/-! ## Taking a trap -/

theorem drain_empty (s : State) {c slot : Nat} {w : Warp} (h : s.warp? c slot = some w) (e : w.storeQ = []) : s.drain c slot = s := by
  simp only [State.drain, h, e, List.length_nil, State.performN]

theorem flatMap_length {α β : Type} (l : List α) (f : α → List β) (n : Nat) (h : ∀ x, (f x).length = n) : (l.flatMap f).length = n * l.length := by
  induction l with
  | nil => rfl
  | cons a t ih => simp [List.flatMap_cons, h, ih, Nat.mul_succ]; omega

/-- A trap frame is 1,024 bytes (05 R136; 09 R228). -/
theorem frameBytes_length (k : Core) (slot : Nat) (w : Warp) (cause : Nat) (tval : DWord) (b : Bool) :
    (frameBytes k slot w cause tval b).length = 0x400 := by
  have hl : lanes.length = 32 := by decide
  unfold frameBytes Latch.bytes
  simp only [List.length_append, toBytes_length]
  rw [flatMap_length _ _ 8 (fun _ => toBytes_length _ _), flatMap_length _ _ 8 (fun _ => toBytes_length _ _),
    flatMap_length _ _ 8 (fun _ => toBytes_length _ _), hl]

theorem enterHandler_cache (w : Warp) (n : Nat) (x : CacheSlot) (pc : VAddr) (h : Tab.get? w.cache n = some x) :
    Tab.get? (w.enterHandler pc).cache n = some { x with valid := false } := by
  have : (w.enterHandler pc).cache = Tab.mapVal w.cache (fun _ x => { x with valid := false }) := rfl
  rw [this]; clear this
  generalize w.cache = l at *
  induction l with
  | nil => cases h
  | cons p t ih =>
    obtain ⟨k, v⟩ := p
    simp only [Tab.get?, Tab.mapVal, List.map_cons] at h ⊢
    split at h
    · next e => simp_all
    · next e => simp only [e, if_false]; exact ih h

/-- The state in which a trap's frame is written. -/
def State.trapping (s : State) (c slot : Nat) : State := (s.countCore c 0x28 1).modCore c (fun k => k.unwait (.warp slot))

theorem State.core_trapping_ne (s : State) {c d : Nat} (slot : Nat) (h : d ≠ c) : (s.trapping c slot).core d = s.core d := by
  unfold State.trapping State.countCore
  rw [State.core_modCore_ne _ _ h, State.core_modCore_ne _ _ h]
theorem State.core_trapping (s : State) (c slot : Nat) :
    ∃ e q, (s.trapping c slot).core c = { s.core c with evctrs := e, tagQ := q } := by
  refine ⟨Tab.mapVal (s.core c).evctrs (fun _ x => x.bump 0x28 1), (s.core c).tagQ.filter (fun t => t != TagWaiter.warp slot), ?_⟩
  unfold State.trapping State.countCore
  rw [State.core_modCore_same, State.core_modCore_same]; rfl
theorem State.warp?_trapping (s : State) (c slot n : Nat) : (s.trapping c slot).warp? c n = s.warp? c n := by
  obtain ⟨e, q, h⟩ := s.core_trapping c slot
  unfold State.warp?; rw [h]
theorem State.group?_trapping (s : State) (c slot n : Nat) : (s.trapping c slot).group? c n = s.group? c n := by
  obtain ⟨e, q, h⟩ := s.core_trapping c slot
  unfold State.group?; rw [h]

/-- The state after a frame is written, and the registers with it (09 R227 step 4). -/
theorem writeFrame_eq (s : State) (c slot cause : Nat) (tval : DWord) (b : Bool) (w : Warp) (g : Group) (hw : s.warp? c slot = some w)
    (hg : s.group? c w.gid = some g) (hf : w.tframe.toNat + 0x400 ≤ g.scrSize) :
    ∃ m, (s.core c).ScratchOnly m (Memory.writeN (s.core c).scratch (g.scrBase + w.tframe.toNat) (frameBytes (s.core c) slot w cause tval b)) ∧
      s.writeFrame c slot cause tval b = (s.setCore c m).setWarp c slot
        { w with tcause := BitVec.ofNat 8 cause, tpc := w.pc.setWidth 64, tval := tval, trunpc := w.runStart.setWidth 64 } := by
  have hm := localWrite_inside (s.core c) g w.tframe.toNat (frameBytes (s.core c) slot w cause tval b) (by rw [frameBytes_length]; exact hf)
  refine ⟨_, hm, ?_⟩
  have hw' : (s.setCore c (localWrite (s.core c) g (withAddrs w.tframe.toNat (frameBytes (s.core c) slot w cause tval b)))).warp? c slot = some w := by
    obtain ⟨p, gr, e⟩ := hm.eq
    unfold State.warp?
    rw [State.core_setCore_same, e]; exact hw
  simp only [State.writeFrame, hw, hg]
  rw [State.modWarp_eq _ _ hw']

theorem takeTrap_eq (s : State) (c slot : Nat) (w : Warp) (g : Group) (t : Trap) (b : Bool) (hw : s.warp? c slot = some w)
    (hg : s.group? c w.gid = some g) (hq : w.storeQ = []) :
    s.takeTrap c slot t b =
      if w.handler then (s.trapping c slot).machineGroup c w.gid 0 0 0
      else if !(frameFits g w) then (s.trapping c slot).machineGroup c w.gid 0 0 w.tframe.toNat
      else
        let s2 := (s.trapping c slot).writeFrame c slot t.cause t.tval b
        match s2.vector g t.cause with
        | none => s2.machineGroup c w.gid 0 0 0
        | some pc =>
          let s3 := s2.modWarp c slot (fun x => { x.enterHandler pc with since := s2.runEnd c slot x, due := s2.trapDelay c })
          (s3.modSched c (schedOf slot) (fun q => if q.cur = some slot then q.clearLatches else q)).leaveSched c slot := by
  have h1 := s.warp?_trapping c slot slot
  have h2 := s.group?_trapping c slot w.gid
  rw [hw] at h1; rw [hg] at h2
  unfold State.takeTrap
  dsimp only
  rw [drain_empty s hw hq]
  rw [show (s.countCore c 0x28 1).modCore c (fun k => k.unwait (.warp slot)) = s.trapping c slot from rfl]
  cases hv : ((s.trapping c slot).writeFrame c slot t.cause t.tval b).vector g t.cause <;> simp only [h1, h2, hv]

end Sys2Proof.Machine
end

