-- ==== Sys2Proof/Tests/Slice0.lean ====
section
/-! SUPPORT. The tests: well-formedness, words written out from the encodings, and witnesses of the statements' hypotheses. -/

namespace Sys2Proof.Tests

open Sys2Proof Sys2Proof.Machine

/-! ## Well-formedness -/

/-- A packet to write 4 bytes. -/
def pktOne : Packet :=
  { port := 0, src := 0x101, tc := 0, q := 0, asid := 1, va := 0x1000, data := [1, 2, 3, 4], bad := [], len := 4, rop := none, size := 4,
    nat := false, cmp := 0 }

/-- An operand code that names a register may not be spelt as a reserved one. -/
theorem test_wf_refuses_operand : (Instr.iaddExt { extZero with dst := .rsv 0x003#10 }).wf = false := by decide
/-- The same in a short code. -/
theorem test_wf_refuses_short : (Instr.iaddAlu { bnd := false, k := false, dst := .rsv 0x01#7, a := .v 0, b := .v 0, lit := none }).wf = false := by
  decide

/-- The same in a memory form, and in a source of an extended one. -/
theorem test_wf_refuses_source :
    (Instr.ldsMem { bnd := false, off := 0, addr := .rsv 0x01#7, data := .v 0, lit := none }).wf = false ∧
    (Instr.iaddExt { extZero with b := { op := .rsv 0x003#10, dead := false } }).wf = false ∧
    (Instr.iaddImm { bnd := false, imm := 0, dst := .rsv 0x01#7, a := .v 0, lit := none }).wf = false := by decide
/-- The operand that gives an SSCMD operation its constructor is part of the term; MTS is not a second spelling of it. -/
theorem test_wf_refuses_sscmd :
    (Instr.sscmdFill extZero).wf = false ∧
    (Instr.mts { extZero with mods := 8, a := { op := .imm 2, dead := false } }).wf = false := by decide
/-- Units that the part does not have. -/
theorem test_wf_refuses_units :
    (Instr.schedulerSelect 192 0).wf = false ∧ (Instr.schedulerSelect 0 4).wf = false ∧ (Instr.storeQueuePerform 0 64).wf = false ∧
    (Instr.copyDispatch 0 2 0).wf = false ∧ (Instr.copyDispatch 0 0 8).wf = false ∧ (Instr.tokenRefill (.coll 4)).wf = false ∧
    (Instr.launchEntryTake 0 8).wf = false ∧ (Instr.linkDown 18).wf = false ∧ (Instr.islopWrite 48 0).wf = false ∧
    (Instr.thermalUndo 60 0).wf = false ∧ (Instr.preempt 2).wf = false ∧ (Instr.asidFreed 65536).wf = false ∧
    (Instr.atomicElementPerform (.element 0 2 0 0)).wf = false := by decide
/-- A packet on a port that the part does not have, one that is too long, and an atomic of a size that there is not. -/
theorem test_wf_refuses_packets :
    let p : Packet := pktOne
    (Instr.readPacket { p with port := 18 }).wf = false ∧ (Instr.readPacket { p with len := 257 }).wf = false ∧
    (Instr.atomicPacket { p with rop := some 0, size := 3, data := [0, 0, 0] }).wf = false ∧
    (Instr.atomicPacket { p with rop := some 0, size := 4, data := [0, 0, 0, 0] }).wf = true := by decide

/-! ## Words written out from the encodings -/

/-- Extended operands of a test: modifiers, MODS2, MODS3, guard, DST, the sources. -/
def xT (m : BitVec 10) (m2 m3 : BitVec 6) (p : BitVec 3) (d a b c : Opnd) : Ext :=
  { Ext.base false d ⟨a, false⟩ ⟨b, false⟩ ⟨c, false⟩ none with mods := m, mods2 := m2, mods3 := m3, guard := { neg := false, p := p } }

/-- 06 Table 6: the base forms IADD v3, v2, 1; ISUB v3, v2, 1; BRA with OFF22 = 2; JOIN; and the NOP of R164. -/
theorem test_decode_base :
    decode [0x71040C80#32] = some (.iaddAlu { bnd := false, k := false, dst := .v 3, a := .v 2, b := .imm 0x11, lit := none }) ∧
    decode [0x71040C88#32] = some (.isubAlu { bnd := false, k := false, dst := .v 3, a := .v 2, b := .imm 0x11, lit := none }) ∧
    decode [0x00000808#32] = some (.braBr { bnd := false, off := 2 }) ∧
    decode [0x00000020#32] = some (.joinAlu { bnd := false, k := false, dst := .v 0, a := .v 0, b := .v 0, lit := none }) ∧
    decode [0x00000060#32] = some (.nopAlu { bnd := false, k := false, dst := .v 0, a := .v 0, b := .v 0, lit := none }) := by decide
/-- 03 Table 3 and Table 14: FADD v1, v2, v3, and FADD v1, v2 with the immediate 1 under its immediate major 0x5C. -/
theorem test_decode_float :
    decode [0x03040580#32] = some (.faddAlu { bnd := false, k := false, dst := .v 1, a := .v 2, b := .v 3, lit := none }) ∧
    decode [0x010406E0#32] = some (.faddImm { bnd := false, imm := 1, dst := .v 1, a := .v 2, lit := none }) := by decide
/-- 06 Table 6: iset.lt.s32 p1, v2, 0; brx (p1) with SRCB = 5. 22: pmov m1, 7, 0. -/
theorem test_decode_predicate :
    decode [0x0400015A#32, 0x04010007#32, 0x1C000300#32] = some (.iset (xT 0x10 1 7 7 (.v 0) (.v 2) (.imm 0) (.v 0))) ∧
    decode [0x0000001A#32, 0x00000001#32, 0x00000305#32] = some (.brx (xT 0 0 0 1 (.v 0) (.v 0) (.imm 5) (.v 0))) ∧
    decode [0x0300095A#32, 0x01838007#32, 0x00000300#32] = some (.pmov (xT 0xC 0 0 7 (.v 0) (.imm 7) (.imm 0) (.v 0))) := by decide
/-- 12 Table 2: lds v1, v9, 0x40; ldsf and stse with BND; (p6) ats.add.n32 v40, s20, 1, 0. -/
theorem test_decode_local :
    decode [0x40120780#32] = some (.ldsMem { bnd := false, off := 0x40, addr := .v 9, data := .v 1, lit := none }) ∧
    decode [0x40120794#32] = some (.ldsfMem { bnd := true, off := 0x40, addr := .v 9, data := .v 1, lit := none }) ∧
    decode [0x40120B9C#32] = some (.stseMem { bnd := true, off := 0x40, addr := .v 9, data := .v 2, lit := none }) ∧
    decode [0x000003AA#32, 0x008A0286#32, 0x00180301#32] = some (.ats (xT 0 0 0 6 (.v 40) (.s 20) (.imm 1) (.imm 0))) := by decide
/-- 08 R191: mma8 s10, s4 with BND. 19: mma4 s19, s10 with BND. 23: scan s1, s4. -/
theorem test_decode_matrix :
    decode [0x00002306#32, 0x008210A7#32, 0#32] = some (.mma8 { xT 0 0 0 7 (.s 10) (.s 4) (.v 0) (.v 0) with bnd := true }) ∧
    decode [0x00001306#32, 0x00851137#32, 0#32] = some (.mma4 { xT 0 0 0 7 (.s 19) (.s 10) (.v 0) (.v 0) with bnd := true }) ∧
    decode [0x0000031A#32, 0x00821017#32, 0#32] = some (.scan (xT 0 0 0 7 (.s 1) (.s 4) (.v 0) (.v 0))) := by decide
/-- 09 R216, R217: mfs s60, tval; mts sscmd, s60. -/
theorem test_decode_system :
    decode [0x00800342#32, 0x000013C7#32, 0#32] = some (.mfs (xT 2 0 0 7 (.s 60) (.v 0) (.v 0) (.v 0))) ∧
    decode [0x0200034A#32, 0x009E0007#32, 0#32] = some (.mts (xT 8 0 0 7 (.v 0) (.s 60) (.v 0) (.v 0))) := by decide
/-- 09 R217, R225: an MTS of the immediate 2 to SSCMD is FILL. -/
theorem test_decode_sscmd :
    decode [0x0200034A#32, 0x01810007#32, 0#32] = some (.sscmdFill (xT 8 0 0 7 (.v 0) (.imm 2) (.v 0) (.v 0))) := by decide
/-- 13 R308, R334: cpost s10, s20 with BND; cfence.acq 2. 21: red.add.n32 v20, v16; amo.add.n32.tl1.sc2 s14, s13, 1. -/
theorem test_decode_copy :
    decode [0x000003C6#32, 0x008A10A7#32, 0#32] = some (.cpost { xT 0 0 0 7 (.s 10) (.s 20) (.v 0) (.v 0) with bnd := true }) ∧
    decode [0x024003D2#32, 0x00000007#32, 0#32] = some (.cfence (xT 9 0 0 7 (.v 0) (.v 0) (.v 0) (.v 0))) ∧
    decode [0x000003CA#32, 0x000A0007#32, 0x00000010#32] = some (.red (xT 0 0 0 7 (.v 0) (.v 20) (.v 16) (.v 0))) ∧
    decode [0x000007CA#32, 0x048690E7#32, 0x08000301#32] = some (.amo (xT 0 1 2 7 (.s 14) (.s 13) (.imm 1) (.v 0))) := by decide
/-- 14 R342, R350: launch s9, s14, 2, 12, 0b0001; itemput.close s8, v20. -/
theorem test_decode_launch :
    decode [0x004007E2#32, 0x00871097#32, 0x00186302#32] = some (.launch (xT 1 0 0 7 (.s 9) (.s 14) (.imm 2) (.imm 12))) ∧
    decode [0x004003EA#32, 0x000A1087#32, 0#32] = some (.itemput (xT 1 0 0 7 (.s 8) (.v 20) (.v 0) (.v 0))) := by decide
/-- 15 R360, R361, R374: cgrp s5, 6; coll s11, s24; fxwin s6, 17. -/
theorem test_decode_collective :
    decode [0x000007DA#32, 0x01831057#32, 0#32] = some (.cgrp (xT 0 0 0 7 (.s 5) (.imm 6) (.v 0) (.v 0))) ∧
    decode [0x000003DA#32, 0x008C10B7#32, 0#32] = some (.coll (xT 0 0 0 7 (.s 11) (.s 24) (.v 0) (.v 0))) ∧
    decode [0x00000BDA#32, 0x01889067#32, 0#32] = some (.fxwin (xT 0 0 0 7 (.s 6) (.imm 17) (.v 0) (.v 0))) := by decide
/-- 16 R395, R406, R408: ttrd s40, 5; bwset.all s9, 2, 192; tlbflush 7. -/
theorem test_decode_table :
    decode [0x0000135A#32, 0x01829287#32, 0#32] = some (.ttrd (xT 0 0 0 7 (.s 40) (.imm 5) (.v 0) (.v 0))) ∧
    decode [0x0040175A#32, 0x01811097#32, 0x000003C0#32] = some (.bwset (xT 1 0 0 7 (.s 9) (.imm 2) (.imm 192) (.v 0))) ∧
    decode [0x0000035A#32, 0x01838007#32, 0#32] = some (.tlbflush (xT 0 0 0 7 (.v 0) (.imm 7) (.v 0) (.v 0))) := by decide
/-- 17 R413, R416, R419, R421: tlwait.tl1 s12, s10, p4; barv s24, 3; bwait 3, s24, p3. -/
theorem test_decode_counter :
    decode [0x004007F6#32, 0x108510C7#32, 0#32] = some (.tlwait { xT 1 4 0 7 (.s 12) (.s 10) (.v 0) (.v 0) with bnd := true }) ∧
    decode [0x000017F2#32, 0x01819187#32, 0#32] = some (.barv (xT 0 0 0 7 (.s 24) (.imm 3) (.v 0) (.v 0))) ∧
    decode [0x00001BF6#32, 0x0D818007#32, 0x00000118#32] = some (.bwait { xT 0 3 0 7 (.v 0) (.imm 3) (.s 24) (.v 0) with bnd := true }) := by decide
/-- 21: peer.class v12, v11. -/
theorem test_decode_lane :
    decode [0x000002B2#32, 0x000580C7#32, 0#32] = some (.peer (xT 0 0 0 7 (.v 12) (.v 11) (.v 0) (.v 0))) := by decide
/-- 23: tst h3, 0, v8, 4; and 12 Table 1: fence. -/
theorem test_decode_tile :
    decode [0x0C000FB2#32, 0x01818007#32, 0x00180008#32] = some (.tst (xT 0x30 0 0 7 (.v 0) (.imm 3) (.v 8) (.imm 0))) ∧
    decode [0x000003BA#32, 0x00000007#32, 0#32] = some (.fence (xT 0 0 0 7 (.v 0) (.v 0) (.v 0) (.v 0))) := by decide
/-- 22: g.ldf t1, t0; g.ste t2, t0; g.post t4, t2; g.tlwait t5, x0, t4; g.barv t6, x0; g.evt.end x0. -/
theorem test_decode_grip :
    decodeGrip 0x0002B30B#32 = .gLdf 6 5 ∧ decodeGrip 0x0072C00B#32 = .gSte 5 7 ∧ decodeGrip 0x00038E8B#32 = .gPost 29 7 ∧
    decodeGrip 0x01D01F0B#32 = .gTlwait 30 0 29 ∧ decodeGrip 0x00002FAB#32 = .gBarv 31 0 ∧ decodeGrip 0x0200302B#32 = .gEvtEnd 0 := by decide
/-- RISC-V: addi x1, x2, 3 is 0x00310093. -/
theorem test_decode_riscv : decodeGrip 0x00310093#32 = .gripStandardInstruction (.opImm .add false 1 2 3) false := by decide
/-- 03 Table 8: iadd v12:c3, v4~, v5; imul la, c3, 3; (!p2) iadd v13, la, v6 with BND. -/
theorem test_decode_marks :
    decode [0x00000082#32, 0x020200C7#32, 0x02C00005#32] =
      some (.iaddExt { xT 0 0 0 7 (.v 12) (.v 4) (.v 5) (.v 0) with a := { op := .v 4, dead := true }, cfen := true, cfslot := 3 }) ∧
    decode [0x73872098#32] = some (.imulAlu { bnd := false, k := false, dst := .la, a := .c 3, b := .imm 0x13, lit := none }) ∧
    decode [0x00000086#32, 0x00A400DA#32, 0x00000006#32] =
      some (.iaddExt { xT 0 0 0 2 (.v 13) .la (.v 6) (.v 0) with guard := { neg := true, p := 2 }, bnd := true }) := by decide
/-- 03 Table 14: major 0x00 is unassigned. -/
theorem test_decode_refuses : decode [0x00000002#32, 0#32, 0#32] = none := by decide

/-! ## Witnesses: small states, one group of one warp on core 0, whose warp acts -/

/-- The witnesses' state, warp and group. -/
structure Setup where
  s : State
  w : Warp
  g : Group

/-- Warp `w` of group `g` on core 0, the core changed by `f`. -/
def setup (f : Core → Core) (w : Warp) (g : Group) : Setup :=
  let s := State.reset.withFetchWord 32 0x60
  { s := { s with cur := .warp 0 0, cores := Tab.set s.cores 0 (f { s.core 0 with warps := [(0, w)], groups := [(0, g)] }) }, w := w, g := g }

/-- The same in a package changed by `h`. -/
def setupIn (h : State → State) (f : Core → Core) (w : Warp) (g : Group) : Setup := { setup f w g with s := h (setup f w g).s }

/-- A fresh group. -/
def gOne : Group := freshGroup probeBirth probeAlloc
/-- Its warp. -/
def wOne : Warp := freshWarp probeBirth 0 0 0
/-- Both as placed. -/
def one : Setup := setup id wOne gOne

/-- Extended operands with no modifiers but `m`. -/
def xOf (d a b c : Opnd) (m : BitVec 10) : Ext := xT m 0 0 7 d a b c
/-- Base operands. -/
def bOf (d a b : Op7) : BAlu := { bnd := false, k := false, dst := d, a := a, b := b, lit := none }
/-- Base operands with an immediate. -/
def mOf (d a : Op7) (n : BitVec 8) : BImm := { bnd := false, imm := n, dst := d, a := a, lit := none }
/-- Base operands of an access. -/
def eOf (addr data : Op7) (n : BitVec 8) : BMem := { bnd := false, off := n, addr := addr, data := data, lit := none }
/-- The same instruction, ending its run. -/
def lastX (x : Ext) : Ext := { x with bnd := true }
/-- The same instruction, ending its run. -/
def lastB (b : BAlu) : BAlu := { b with bnd := true }
/-- The same instruction, ending its run. -/
def lastE (b : BMem) : BMem := { b with bnd := true }

/-- The issue of an extended instruction. -/
def iExt (u : Setup) (sp : Ext → Spec) (x : Ext) : Issue := mkIssue u.s 0 0 u.w u.g (sp x).shape x (extLen x)
/-- The issue of a B-ALU form. -/
def iAlu (u : Setup) (sp : Ext → Spec) (b : BAlu) : Issue :=
  mkIssue u.s 0 0 u.w u.g (sp (b.toExt (sp extZero).shape)).shape (b.toExt (sp extZero).shape) (baseLen b.lit)
/-- The issue of a B-IMM form. -/
def iImm (u : Setup) (sp : Ext → Spec) (b : BImm) : Issue :=
  mkIssue u.s 0 0 u.w u.g (sp (b.toExt (sp extZero).shape)).shape (b.toExt (sp extZero).shape) (baseLen b.lit)
/-- The issue of a B-MEM form. -/
def iMem (u : Setup) (load : Bool) (sp : BMem → Ext → Spec) (b : BMem) : Issue :=
  mkIssue u.s 0 0 u.w u.g (sp b (b.toExt load (sp b extZero).shape)).shape (b.toExt load (sp b extZero).shape) (baseLen b.lit)
/-- The issue of a B-BR form. -/
def iBr (u : Setup) (sp : Spec) (d : Opnd) (b : BBr) : Issue := mkIssue u.s 0 0 u.w u.g sp.shape (bbrExt b d) 4

/-- A warp acts, its instruction may execute, and it meets `ok`. -/
structure May (u : Setup) (sp : Spec) (kBad : Bool) (ok : Issue → Prop) (i : Issue) : Prop where
  acts : Acts u.s 0 0 u.w u.g
  ready : Ready sp kBad i
  ok : ok i

/-- The same, and no trap follows its result. -/
structure Meets (u : Setup) (sp : Spec) (kBad : Bool) (ok : Issue → Prop) (res : Issue → Res) (i : Issue) : Prop where
  may : May u sp kBad ok i
  after : afterTrap u.g (res i) = none

/-- With no flag enabled, an instruction without a trap of its own goes on. -/
theorem meets_of (u : Setup) (sp : Spec) (kBad : Bool) (ok : Issue → Prop) (res : Issue → Res) (i : Issue) (ha : Acts u.s 0 0 u.w u.g)
    (h1 : checkTrap sp kBad i = none) (h2 : specPoison sp i = none) (h3 : ok i) (h4 : (res i).poison = none) (h5 : (res i).after = none)
    (h6 : u.g.fpEn = 0) : Meets u sp kBad ok res i := by
  refine ⟨⟨ha, ⟨h1, h2⟩, h3⟩, ?_⟩
  simp only [afterTrap, h4, h6, h5]
  rw [if_neg (by simp)]

/-- Met by an extended instruction. -/
def ExtMeets (u : Setup) (sp : Ext → Spec) (ok : Issue → Prop) (res : Issue → Res) (x : Ext) : Prop := Meets u (sp x) false ok res (iExt u sp x)
/-- Met by a B-ALU form. -/
def AluMeets (u : Setup) (sp : Ext → Spec) (ok : Issue → Prop) (res : Issue → Res) (b : BAlu) : Prop :=
  Meets u (sp (b.toExt (sp extZero).shape)) (b.kBad (sp extZero).shape) ok res (iAlu u sp b)
/-- Met by a B-IMM form. -/
def ImmMeets (u : Setup) (sp : Ext → Spec) (ok : Issue → Prop) (res : Issue → Res) (b : BImm) : Prop :=
  Meets u (sp (b.toExt (sp extZero).shape)) false ok res (iImm u sp b)
/-- Met by a B-MEM form. -/
def MemMeets (u : Setup) (load : Bool) (sp : BMem → Ext → Spec) (ok : Issue → Prop) (res : Issue → Res) (b : BMem) : Prop :=
  Meets u (sp b (b.toExt load (sp b extZero).shape)) false ok res (iMem u load sp b)
/-- Met by a B-BR form. -/
def BrMeets (u : Setup) (sp : Spec) (d : Opnd) (ok : Issue → Prop) (res : Issue → Res) (b : BBr) : Prop := Meets u sp false ok res (iBr u sp d b)
/-- Met by an extended instruction whose effect is stated as a whole. -/
def ExtMay (u : Setup) (sp : Ext → Spec) (ok : Issue → Prop) (x : Ext) : Prop := May u (sp x) false ok (iExt u sp x)
/-- The same of a B-ALU form. -/
def AluMay (u : Setup) (sp : Ext → Spec) (ok : Issue → Prop) (b : BAlu) : Prop :=
  May u (sp (b.toExt (sp extZero).shape)) (b.kBad (sp extZero).shape) ok (iAlu u sp b)
/-- The same of a B-MEM form. -/
def MemMay (u : Setup) (load : Bool) (sp : BMem → Ext → Spec) (ok : Issue → Prop) (b : BMem) : Prop :=
  May u (sp b (b.toExt load (sp b extZero).shape)) false ok (iMem u load sp b)
/-- The same of a B-BR form. -/
def BrMay (u : Setup) (sp : Spec) (d : Opnd) (ok : Issue → Prop) (b : BBr) : Prop := May u sp false ok (iBr u sp d b)
/-- The same of a B-IMM form. -/
def ImmMay (u : Setup) (sp : Ext → Spec) (ok : Issue → Prop) (b : BImm) : Prop := May u (sp (b.toExt (sp extZero).shape)) false ok (iImm u sp b)

/-- A scratchpad without a mark holds no uncorrectable error. -/
theorem clean_scratch (k : Core) (g : Group) (a : Nat) (h : k.scratchPoison = []) (ha : a < g.scrSize) : localPoison k g a = false := by
  unfold localPoison localPlace
  rw [if_pos ha]; simp [h]

/-- The hypotheses of IntegerArithmeticCompletes are met. -/
theorem witness_IntegerArithmeticCompletes :
    AluMeets one iaddSpec (fun _ => True) (intResult (· + ·)) (bOf (.v 2) (.v 4) (.v 6)) ∧
    ImmMeets one iaddSpec (fun _ => True) (intResult (· + ·)) (mOf (.v 2) (.v 4) 1) ∧
    ExtMeets one iaddSpec (fun _ => True) (intResult (· + ·)) (xOf (.v 2) (.v 4) (.v 6) (.v 0) 0) ∧
    AluMeets one isubSpec (fun _ => True) (intResult (· - ·)) (bOf (.v 2) (.v 4) (.v 6)) ∧
    ImmMeets one isubSpec (fun _ => True) (intResult (· - ·)) (mOf (.v 2) (.v 4) 1) ∧
    ExtMeets one isubSpec (fun _ => True) (intResult (· - ·)) (xOf (.v 2) (.v 4) (.v 6) (.v 0) 0) ∧
    AluMeets one imulSpec (fun _ => True) (intResult (· * ·)) (bOf (.v 2) (.v 4) (.v 6)) ∧
    ImmMeets one imulSpec (fun _ => True) (intResult (· * ·)) (mOf (.v 2) (.v 4) 1) ∧
    ExtMeets one imulSpec (fun _ => True) (intResult (· * ·)) (xOf (.v 2) (.v 4) (.v 6) (.v 0) 0) ∧
    AluMeets one imulhSpec (fun _ => True) imulhResult (bOf (.v 2) (.v 4) (.v 6)) ∧
    ImmMeets one imulhSpec (fun _ => True) imulhResult (mOf (.v 2) (.v 4) 1) ∧
    ExtMeets one imulhSpec (fun _ => True) imulhResult (xOf (.v 2) (.v 4) (.v 6) (.v 0) 0) ∧
    AluMeets one (iminmaxSpec false) (fun _ => True) (intResult min) (bOf (.v 2) (.v 4) (.v 6)) ∧
    ImmMeets one (iminmaxSpec false) (fun _ => True) (intResult min) (mOf (.v 2) (.v 4) 1) ∧
    ExtMeets one (iminmaxSpec false) (fun _ => True) (intResult min) (xOf (.v 2) (.v 4) (.v 6) (.v 0) 0) ∧
    AluMeets one (iminmaxSpec true) (fun _ => True) (intResult max) (bOf (.v 2) (.v 4) (.v 6)) ∧
    ImmMeets one (iminmaxSpec true) (fun _ => True) (intResult max) (mOf (.v 2) (.v 4) 1) ∧
    ExtMeets one (iminmaxSpec true) (fun _ => True) (intResult max) (xOf (.v 2) (.v 4) (.v 6) (.v 0) 0) ∧
    AluMeets one iabsSpec (fun _ => True) iabsResult (bOf (.v 2) (.v 4) (.v 0)) ∧
    ExtMeets one iabsSpec (fun _ => True) iabsResult (xOf (.v 2) (.v 4) (.v 0) (.v 0) 0) ∧
    AluMeets one iadd64Spec (fun _ => True) int64Result (bOf (.v 2) (.v 4) (.v 6)) ∧
    ImmMeets one iadd64Spec (fun _ => True) int64Result (mOf (.v 2) (.v 4) 1) ∧
    ExtMeets one iadd64Spec (fun _ => True) int64Result (xOf (.v 2) (.v 4) (.v 6) (.v 0) 0) := by
  and_intros <;> exact meets_of _ _ _ _ _ _ ⟨rfl, rfl, rfl⟩ rfl rfl trivial rfl rfl rfl

/-- The hypotheses of WideIntegerCompletes are met. -/
theorem witness_WideIntegerCompletes :
    ExtMeets one iaddcSpec (fun _ => True) iaddcResult (xOf (.v 2) (.v 4) (.v 6) (.v 0) 0) ∧
    ExtMeets one imadSpec (fun _ => True) imadResult (xOf (.v 2) (.v 4) (.v 6) (.v 8) 0) ∧
    ExtMeets one imadwSpec (fun _ => True) imadwResult (xOf (.v 2) (.v 4) (.v 6) (.v 8) 0) ∧
    ExtMeets one idot4Spec (fun _ => True) idot4Result (xOf (.v 2) (.v 4) (.v 6) (.v 8) 0) ∧
    ExtMeets one leaSpec (fun _ => True) leaResult (xOf (.v 2) (.v 4) (.v 6) (.v 0) 0) := by
  and_intros <;> exact meets_of _ _ _ _ _ _ ⟨rfl, rfl, rfl⟩ rfl rfl trivial rfl rfl rfl

/-- The hypotheses of ShiftsAndLogicComplete are met. -/
theorem witness_ShiftsAndLogicComplete :
    AluMeets one (shiftOp 1#10 shlVal) (fun _ => True) ishlResult (bOf (.v 2) (.v 4) (.v 6)) ∧
    ImmMeets one (shiftOp 1#10 shlVal) (fun _ => True) ishlResult (mOf (.v 2) (.v 4) 1) ∧
    ExtMeets one (shiftOp 1#10 shlVal) (fun _ => True) ishlResult (xOf (.v 2) (.v 4) (.v 6) (.v 0) 0) ∧
    AluMeets one (shiftOp 1#10 shrVal) (fun _ => True) ishrResult (bOf (.v 2) (.v 4) (.v 6)) ∧
    ImmMeets one (shiftOp 1#10 shrVal) (fun _ => True) ishrResult (mOf (.v 2) (.v 4) 1) ∧
    ExtMeets one (shiftOp 1#10 shrVal) (fun _ => True) ishrResult (xOf (.v 2) (.v 4) (.v 6) (.v 0) 0) ∧
    AluMeets one (shiftOp 1#10 sarVal) (fun _ => True) isarResult (bOf (.v 2) (.v 4) (.v 6)) ∧
    ImmMeets one (shiftOp 1#10 sarVal) (fun _ => True) isarResult (mOf (.v 2) (.v 4) 1) ∧
    ExtMeets one (shiftOp 1#10 sarVal) (fun _ => True) isarResult (xOf (.v 2) (.v 4) (.v 6) (.v 0) 0) ∧
    AluMeets one irotSpec (fun _ => True) irotResult (bOf (.v 2) (.v 4) (.v 6)) ∧
    ImmMeets one irotSpec (fun _ => True) irotResult (mOf (.v 2) (.v 4) 1) ∧
    ExtMeets one irotSpec (fun _ => True) irotResult (xOf (.v 2) (.v 4) (.v 6) (.v 0) 0) ∧
    AluMeets one (logicOp andVal) (fun _ => True) (bitResult (· &&& ·)) (bOf (.v 2) (.v 4) (.v 6)) ∧
    ImmMeets one (logicOp andVal) (fun _ => True) (bitResult (· &&& ·)) (mOf (.v 2) (.v 4) 1) ∧
    ExtMeets one (logicOp andVal) (fun _ => True) (bitResult (· &&& ·)) (xOf (.v 2) (.v 4) (.v 6) (.v 0) 0) ∧
    AluMeets one (logicOp orVal) (fun _ => True) (bitResult (· ||| ·)) (bOf (.v 2) (.v 4) (.v 6)) ∧
    ImmMeets one (logicOp orVal) (fun _ => True) (bitResult (· ||| ·)) (mOf (.v 2) (.v 4) 1) ∧
    ExtMeets one (logicOp orVal) (fun _ => True) (bitResult (· ||| ·)) (xOf (.v 2) (.v 4) (.v 6) (.v 0) 0) ∧
    AluMeets one (logicOp xorVal) (fun _ => True) (bitResult (· ^^^ ·)) (bOf (.v 2) (.v 4) (.v 6)) ∧
    ImmMeets one (logicOp xorVal) (fun _ => True) (bitResult (· ^^^ ·)) (mOf (.v 2) (.v 4) 1) ∧
    ExtMeets one (logicOp xorVal) (fun _ => True) (bitResult (· ^^^ ·)) (xOf (.v 2) (.v 4) (.v 6) (.v 0) 0) ∧
    AluMeets one (logicOp andnVal) (fun _ => True) andnResult (bOf (.v 2) (.v 4) (.v 6)) ∧
    ImmMeets one (logicOp andnVal) (fun _ => True) andnResult (mOf (.v 2) (.v 4) 1) ∧
    ExtMeets one (logicOp andnVal) (fun _ => True) andnResult (xOf (.v 2) (.v 4) (.v 6) (.v 0) 0) ∧
    ExtMeets one lmixSpec (fun _ => True) lmixResult (xOf (.v 2) (.v 4) (.v 6) (.v 8) 0) := by
  and_intros <;> exact meets_of _ _ _ _ _ _ ⟨rfl, rfl, rfl⟩ rfl rfl trivial rfl rfl rfl

/-- The hypotheses of BitFieldsAndMovesComplete are met. -/
theorem witness_BitFieldsAndMovesComplete :
    ExtMeets one (bitOp false clzVal) (fun _ => True) clzResult (xOf (.v 2) (.v 4) (.v 0) (.v 0) 0) ∧
    ExtMeets one (bitOp false ctzVal) (fun _ => True) ctzResult (xOf (.v 2) (.v 4) (.v 0) (.v 0) 0) ∧
    ExtMeets one (bitOp false popcVal) (fun _ => True) popcResult (xOf (.v 2) (.v 4) (.v 0) (.v 0) 0) ∧
    ExtMeets one (bitOp true brevVal) (fun _ => True) brevResult (xOf (.v 2) (.v 4) (.v 0) (.v 0) 0) ∧
    ExtMeets one bfxSpec (fun _ => True) bfxResult (xOf (.v 2) (.v 4) (.v 6) (.v 0) 0) ∧
    ExtMeets one bfiSpec (fun _ => True) bfiResult (xOf (.v 2) (.v 4) (.v 6) (.v 8) 0) ∧
    ExtMeets one iselSpec (fun _ => True) iselResult (xOf (.v 2) (.v 4) (.v 6) (.v 0) 0) ∧
    AluMeets one ldiSpec (fun _ => True) ldiResult (bOf (.v 2) (.v 4) (.v 0)) ∧
    ExtMeets one ldiSpec (fun _ => True) ldiResult (xOf (.v 2) (.v 4) (.v 0) (.v 0) 0) := by
  and_intros <;> exact meets_of _ _ _ _ _ _ ⟨rfl, rfl, rfl⟩ rfl rfl trivial rfl rfl rfl

/-- The hypotheses of PredicatesComplete are met. -/
theorem witness_PredicatesComplete :
    ExtMeets one isetSpec (fun _ => True) isetResult (xOf (.v 0) (.v 4) (.v 6) (.v 0) 0) ∧
    ExtMeets one psetSpec (fun _ => True) psetResult (xOf (.v 0) (.v 0) (.v 0) (.v 0) 0) ∧
    ExtMeets one pmovSpec (fun _ => True) pmovResult (xOf (.v 0) (.v 4) (.v 0) (.v 0) 0) ∧
    ExtMeets one pcntSpec (fun _ => True) pcntResult (xOf (.s 2) (.v 0) (.v 0) (.v 0) 0) := by
  and_intros <;> exact meets_of _ _ _ _ _ _ ⟨rfl, rfl, rfl⟩ rfl rfl trivial rfl rfl rfl

/-- The hypotheses of LaneToWarpMovesComplete are met. -/
theorem witness_LaneToWarpMovesComplete :
    ExtMeets one vtosSpec (fun _ => True) vtosResult (xOf (.s 2) (.v 4) (.v 0) (.v 0) 0) ∧
    ExtMeets one stovSpec (fun _ => True) stovResult (xOf (.v 2) (.s 4) (.s 6) (.v 0) 0) ∧
    ExtMeets one electSpec (fun _ => True) electResult (xOf (.s 2) (.v 0) (.v 0) (.v 0) 0) := by
  and_intros <;> exact meets_of _ _ _ _ _ _ ⟨rfl, rfl, rfl⟩ rfl rfl trivial rfl rfl rfl

/-- The hypotheses of SingleArithmeticCompletes are met. -/
theorem witness_SingleArithmeticCompletes :
    AluMeets one faddSpec (fun _ => True) (fpResult .f32 (fpAdd .f32)) (bOf (.v 2) (.v 4) (.v 6)) ∧
    ImmMeets one faddSpec (fun _ => True) (fpResult .f32 (fpAdd .f32)) (mOf (.v 2) (.v 4) 1) ∧
    ExtMeets one faddSpec (fun _ => True) (fpResult .f32 (fpAdd .f32)) (xOf (.v 2) (.v 4) (.v 6) (.v 0) 0) ∧
    AluMeets one fsubSpec (fun _ => True) (fpResult .f32 (fpSub .f32)) (bOf (.v 2) (.v 4) (.v 6)) ∧
    ImmMeets one fsubSpec (fun _ => True) (fpResult .f32 (fpSub .f32)) (mOf (.v 2) (.v 4) 1) ∧
    ExtMeets one fsubSpec (fun _ => True) (fpResult .f32 (fpSub .f32)) (xOf (.v 2) (.v 4) (.v 6) (.v 0) 0) ∧
    AluMeets one fmulSpec (fun _ => True) (fpResult .f32 (fpMul .f32)) (bOf (.v 2) (.v 4) (.v 6)) ∧
    ImmMeets one fmulSpec (fun _ => True) (fpResult .f32 (fpMul .f32)) (mOf (.v 2) (.v 4) 1) ∧
    ExtMeets one fmulSpec (fun _ => True) (fpResult .f32 (fpMul .f32)) (xOf (.v 2) (.v 4) (.v 6) (.v 0) 0) ∧
    ExtMeets one (fun x => fpOp .f32 0b111111111#10 3 (fmaOp .f32 (rmOf x)) x) (fun _ => True) (fpResult .f32 (fpFma .f32)) (xOf (.v 2) (.v 4) (.v 6) (.v 8) 0) ∧
    AluMeets one (fminmaxSpec false) (fun _ => True) (fpResult .f32 (fun _ a b _ => Fmt.f32.minMax false a b)) (bOf (.v 2) (.v 4) (.v 6)) ∧
    ImmMeets one (fminmaxSpec false) (fun _ => True) (fpResult .f32 (fun _ a b _ => Fmt.f32.minMax false a b)) (mOf (.v 2) (.v 4) 1) ∧
    ExtMeets one (fminmaxSpec false) (fun _ => True) (fpResult .f32 (fun _ a b _ => Fmt.f32.minMax false a b)) (xOf (.v 2) (.v 4) (.v 6) (.v 0) 0) ∧
    AluMeets one (fminmaxSpec true) (fun _ => True) (fpResult .f32 (fun _ a b _ => Fmt.f32.minMax true a b)) (bOf (.v 2) (.v 4) (.v 6)) ∧
    ImmMeets one (fminmaxSpec true) (fun _ => True) (fpResult .f32 (fun _ a b _ => Fmt.f32.minMax true a b)) (mOf (.v 2) (.v 4) 1) ∧
    ExtMeets one (fminmaxSpec true) (fun _ => True) (fpResult .f32 (fun _ a b _ => Fmt.f32.minMax true a b)) (xOf (.v 2) (.v 4) (.v 6) (.v 0) 0) := by
  and_intros <;> exact meets_of _ _ _ _ _ _ ⟨rfl, rfl, rfl⟩ rfl rfl trivial rfl rfl rfl

/-- The hypotheses of DoubleAndPackedComplete are met. -/
theorem witness_DoubleAndPackedComplete :
    AluMeets one daddSpec (fun _ => True) (fpResult .f64 (fpAdd .f64)) (bOf (.v 2) (.v 4) (.v 6)) ∧
    ExtMeets one daddSpec (fun _ => True) (fpResult .f64 (fpAdd .f64)) (xOf (.v 2) (.v 4) (.v 6) (.v 0) 0) ∧
    AluMeets one dmulSpec (fun _ => True) (fpResult .f64 (fpMul .f64)) (bOf (.v 2) (.v 4) (.v 6)) ∧
    ExtMeets one dmulSpec (fun _ => True) (fpResult .f64 (fpMul .f64)) (xOf (.v 2) (.v 4) (.v 6) (.v 0) 0) ∧
    ExtMeets one (fun x => fpOp .f64 0b111111011#10 3 (fmaOp .f64 (rmOf x)) x) (fun _ => True) (fpResult .f64 (fpFma .f64)) (xOf (.v 2) (.v 4) (.v 6) (.v 8) 0) ∧
    AluMeets one pkaddSpec (fun _ => True) (packResult fpAdd) (bOf (.v 2) (.v 4) (.v 6)) ∧
    ExtMeets one pkaddSpec (fun _ => True) (packResult fpAdd) (xOf (.v 2) (.v 4) (.v 6) (.v 0) 0) ∧
    AluMeets one pkmulSpec (fun _ => True) (packResult fpMul) (bOf (.v 2) (.v 4) (.v 6)) ∧
    ExtMeets one pkmulSpec (fun _ => True) (packResult fpMul) (xOf (.v 2) (.v 4) (.v 6) (.v 0) 0) ∧
    ExtMeets one (fun x => packOp 0b1111111111#10 3 (fun f => fmaOp f (rmOf x)) x) (fun _ => True) (packResult fpFma) (xOf (.v 2) (.v 4) (.v 6) (.v 8) 0) := by
  and_intros <;> exact meets_of _ _ _ _ _ _ ⟨rfl, rfl, rfl⟩ rfl rfl trivial rfl rfl rfl

/-- The hypotheses of FloatFunctionsComplete are met. -/
theorem witness_FloatFunctionsComplete :
    ExtMeets one (transSpec 0) (fun _ => True) (fpResult .f32 (fun m a _ _ => Fmt.f32.transcendental 0 m a)) (xOf (.v 2) (.v 4) (.v 0) (.v 0) 0) ∧
    ExtMeets one (transSpec 1) (fun _ => True) (fpResult .f32 (fun m a _ _ => Fmt.f32.transcendental 1 m a)) (xOf (.v 2) (.v 4) (.v 0) (.v 0) 0) ∧
    ExtMeets one (transSpec 2) (fun _ => True) (fpResult .f32 (fun m a _ _ => Fmt.f32.transcendental 2 m a)) (xOf (.v 2) (.v 4) (.v 0) (.v 0) 0) ∧
    ExtMeets one (transSpec 3) (fun _ => True) (fpResult .f32 (fun m a _ _ => Fmt.f32.transcendental 3 m a)) (xOf (.v 2) (.v 4) (.v 0) (.v 0) 0) ∧
    ExtMeets one (transSpec 4) (fun _ => True) (fpResult .f32 (fun m a _ _ => Fmt.f32.transcendental 4 m a)) (xOf (.v 2) (.v 4) (.v 0) (.v 0) 0) ∧
    ExtMeets one (transSpec 5) (fun _ => True) (fpResult .f32 (fun m a _ _ => Fmt.f32.transcendental 5 m a)) (xOf (.v 2) (.v 4) (.v 0) (.v 0) 0) ∧
    ExtMeets one (transSpec 6) (fun _ => True) (fpResult .f32 (fun m a _ _ => Fmt.f32.transcendental 6 m a)) (xOf (.v 2) (.v 4) (.v 0) (.v 0) 0) ∧
    ExtMeets one (transSpec 7) (fun _ => True) (fpResult .f32 (fun m a _ _ => Fmt.f32.transcendental 7 m a)) (xOf (.v 2) (.v 4) (.v 0) (.v 0) 0) ∧
    ExtMeets one fsetSpec (fun _ => True) fsetResult (xOf (.v 0) (.v 4) (.v 6) (.v 0) 0) ∧
    ExtMeets one (fun _ => Spec.plain (intShape 0 (Dst.lane 32) (some (Pos.fp .f32)) none none) (fun i => i.out (fun l => fclassVal (i.a l)))) (fun _ => True) fclassResult (xOf (.v 2) (.v 4) (.v 0) (.v 0) 0) ∧
    ExtMeets one cvtSpec (fun _ => True) cvtResult (xOf (.v 2) (.v 4) (.v 0) (.v 0) 0) ∧
    ExtMeets one (fun x => if modBit x 3 then cvtqUnpack x else cvtqPack x) (fun _ => True) cvtqResult (xOf (.v 2) (.v 4) (.v 0) (.v 8) 7) ∧
    ExtMeets one bqdotSpec (fun _ => True) bqdotResult (xOf (.v 2) (.v 4) (.v 6) (.v 8) 7) ∧
    ExtMeets one bqsclSpec (fun _ => True) bqsclResult (xOf (.v 2) (.v 4) (.v 0) (.v 8) 7) := by
  and_intros <;> exact meets_of _ _ _ _ _ _ ⟨rfl, rfl, rfl⟩ rfl rfl trivial rfl rfl rfl

/-- The hypotheses of LaneExchangeCompletes are met. -/
theorem witness_LaneExchangeCompletes :
    ExtMeets one (fun x => quadMove 0b1011111111#10 (fun p => modField x 7 0 / 4 ^ p % 4) x) (fun _ => True) (quadResult (fun i p => bitsOf i.x.mods.toNat 7 0 / 4 ^ p % 4)) (xOf (.v 2) (.v 4) (.v 0) (.v 0) 0) ∧
    ExtMeets one (fun x => quadMove 0b1000000011#10 (fun _ => modField x 1 0) x) (fun _ => True) (quadResult (fun i _ => bitsOf i.x.mods.toNat 1 0)) (xOf (.v 2) (.v 4) (.v 0) (.v 0) 0) ∧
    ExtMeets one (fun x => quadDiff (fun p => if modBit x 0 ∨ p < 2 then (1, 0) else (3, 2)) x) (fun _ => True) (quadDiffResult (fun i p => if modBit i.x 0 ∨ p < 2 then (1, 0) else (3, 2))) (xOf (.v 2) (.v 4) (.v 0) (.v 0) 0) ∧
    ExtMeets one (fun x => quadDiff (fun p => if modBit x 0 ∨ p % 2 = 0 then (2, 0) else (3, 1)) x) (fun _ => True) (quadDiffResult (fun i p => if modBit i.x 0 ∨ p % 2 = 0 then (2, 0) else (3, 1))) (xOf (.v 2) (.v 4) (.v 0) (.v 0) 0) ∧
    ExtMeets one lxchSpec (fun _ => True) lxchResult (xOf (.v 2) (.v 4) (.v 6) (.v 0) 0) ∧
    ExtMeets one qrmSpec (fun _ => True) qrmResult (xOf (.v 0) (.v 0) (.v 0) (.v 0) 0) ∧
    ExtMeets one peerSpec (fun _ => True) peerResult (xOf (.v 2) (.v 4) (.v 0) (.v 0) 0) ∧
    ExtMeets one wfoldSpec (fun _ => True) wfoldResult (xOf (.v 2) (.v 4) (.v 0) (.v 0) 0) ∧
    ExtMeets one prefixSpec (fun _ => True) prefixResult (xOf (.v 2) (.v 4) (.v 0) (.v 0) 0) ∧
    ExtMeets one isectSpec (fun _ => True) isectResult (xOf (.v 2) (.v 4) (.v 6) (.s 8) 0) := by
  and_intros <;> exact meets_of _ _ _ _ _ _ ⟨rfl, rfl, rfl⟩ rfl rfl trivial rfl rfl rfl

/-- The hypotheses of BranchesComplete are met. -/
theorem witness_BranchesComplete :
    BrMeets one braSpec (.v 0) targetLegal branchResult { bnd := false, off := 2 } ∧
    ExtMeets one (fun _ => braSpec) targetLegal branchResult (xOf (.v 0) (.v 0) (.imm 1) (.v 0) 0) ∧
    ExtMeets one brpSpec targetLegal brpResult (xOf (.v 0) (.v 0) (.imm 1) (.v 0) 0) ∧
    BrMeets one callSpec (.s 15) targetLegal callResult { bnd := false, off := 2 } ∧
    ExtMeets one (fun _ => callSpec) targetLegal callResult (xOf (.s 2) (.v 0) (.imm 1) (.v 0) 0) ∧
    AluMeets one (indirectSpec false true) indirectLegal indirectResult (bOf (.s 2) (.s 4) (.v 0)) ∧
    ExtMeets one (indirectSpec true true) indirectLegal indirectResult (xOf (.s 2) (.s 4) (.v 0) (.v 0) 0) ∧
    AluMeets one (indirectSpec false false) indirectLegal indirectResult (bOf (.v 0) (.s 4) (.v 0)) ∧
    ExtMeets one (indirectSpec true false) indirectLegal indirectResult (xOf (.v 0) (.s 4) (.v 0) (.v 0) 0) ∧
    AluMeets one (indirectSpec false false) indirectLegal indirectResult (bOf (.v 0) (.s 4) (.v 0)) ∧
    ExtMeets one (indirectSpec true false) indirectLegal indirectResult (xOf (.v 0) (.s 4) (.v 0) (.v 0) 0) := by
  and_intros <;> exact meets_of _ _ _ _ _ _ ⟨rfl, rfl, rfl⟩ rfl rfl (by decide) rfl rfl rfl

/-- The hypotheses of BadTargetsAndSplitsTrap are met. -/
theorem witness_BadTargetsAndSplitsTrap :
    ExtMay (setup id { wOne with pc := 0 } gOne) (fun _ => braSpec) (fun i => ¬targetLegal i) (xOf (.v 0) (.v 0) (.imm 0x1FF) (.v 0) 0) ∧
    ExtMay (setup id { wOne with pc := 0 } gOne) brpSpec (fun i => ¬targetLegal i) (xOf (.v 0) (.v 0) (.imm 0x1FF) (.v 0) 0) ∧
    BrMay (setup id { wOne with pc := 0 } gOne) callSpec (.s 15) (fun i => ¬targetLegal i) { bnd := false, off := 0x3FFFFF } ∧
    ExtMay (setup id { wOne with pc := 0 } gOne) (fun _ => callSpec) (fun i => ¬targetLegal i) (xOf (.s 2) (.v 0) (.imm 0x1FF) (.v 0) 0) ∧
    ExtMay (setup id { wOne with pc := 0 } gOne) (fun _ => brxSpec) (fun i => i.w.split.length < 16 ∧ ¬targetLegal i) (xOf (.v 0) (.v 0) (.imm 0x1FF) (.v 0) 0) ∧
    ExtMay (setup id { wOne with pc := 0 } gOne) recastSpec (fun i => ¬targetLegal i) (lastX (xOf (.v 2) (.v 0) (.imm 0x1FF) (.v 0) 0)) ∧
    AluMay (setup id { wOne with s := Tab.set wOne.s 4 2 } gOne) (indirectSpec false true) (fun i => ¬indirectLegal i) (bOf (.s 2) (.s 4) (.v 0)) ∧
    ExtMay (setup id { wOne with s := Tab.set wOne.s 4 2 } gOne) (indirectSpec true true) (fun i => ¬indirectLegal i) (xOf (.s 2) (.s 4) (.v 0) (.v 0) 0) ∧
    AluMay (setup id { wOne with s := Tab.set wOne.s 4 2 } gOne) (indirectSpec false false) (fun i => ¬indirectLegal i) (bOf (.v 0) (.s 4) (.v 0)) ∧
    ExtMay (setup id { wOne with s := Tab.set wOne.s 4 2 } gOne) (indirectSpec true false) (fun i => ¬indirectLegal i) (xOf (.v 0) (.s 4) (.v 0) (.v 0) 0) ∧
    AluMay (setup id { wOne with s := Tab.set wOne.s 4 2 } gOne) (indirectSpec false false) (fun i => ¬indirectLegal i) (bOf (.v 0) (.s 4) (.v 0)) ∧
    ExtMay (setup id { wOne with s := Tab.set wOne.s 4 2 } gOne) (indirectSpec true false) (fun i => ¬indirectLegal i) (xOf (.v 0) (.s 4) (.v 0) (.v 0) 0) ∧
    ExtMay (setup id { wOne with split := List.replicate 16 { pc := 0, mask := 0, w := false } } gOne) (fun _ => brxSpec) (fun i => 16 ≤ i.w.split.length) (xOf (.v 0) (.v 0) (.imm 1) (.v 0) 0) ∧
    AluMay (setup id { wOne with splCount := 1 } gOne) joinSpec (fun i => ¬joinOk i) (bOf (.v 0) (.v 0) (.v 0)) ∧
    ExtMay (setup id { wOne with splCount := 1 } gOne) joinSpec (fun i => ¬joinOk i) (xOf (.v 0) (.v 0) (.v 0) (.v 0) 0) ∧
    AluMay (setup id { wOne with splCount := 1 } gOne) exitSpec (fun i => ¬exitOk i) (lastB (bOf (.v 0) (.v 0) (.v 0))) ∧
    ExtMay (setup id { wOne with splCount := 1 } gOne) exitSpec (fun i => ¬exitOk i) (lastX (xOf (.v 0) (.v 0) (.v 0) (.v 0) 0)) := by
  and_intros <;> exact ⟨⟨rfl, rfl, rfl⟩, ⟨rfl, rfl⟩, (by decide)⟩

/-- The hypotheses of BadTargetsAndSplitsTrap's first clause are met. -/
theorem witness_BadTargetsAndSplitsTrap_bra :
    BrMay (setup id { wOne with pc := 0 } gOne) braSpec (.v 0) (fun i => ¬targetLegal i) { bnd := false, off := 0x3FFFFF } :=
  ⟨⟨rfl, rfl, rfl⟩, ⟨rfl, rfl⟩, by decide⟩

/-- The hypotheses of DivergenceCompletes are met. -/
theorem witness_DivergenceCompletes :
    ExtMeets one (fun _ => brxSpec) brxOk brxResult (xOf (.v 0) (.v 0) (.imm 1) (.v 0) 0) ∧
    AluMeets one joinSpec joinOk joinResult (bOf (.v 0) (.v 0) (.v 0)) ∧
    ExtMeets one joinSpec joinOk joinResult (xOf (.v 0) (.v 0) (.v 0) (.v 0) 0) ∧
    AluMeets one exitSpec exitOk exitResult (lastB (bOf (.v 0) (.v 0) (.v 0))) ∧
    ExtMeets one exitSpec exitOk exitResult (lastX (xOf (.v 0) (.v 0) (.v 0) (.v 0) 0)) ∧
    ExtMeets one recastSpec recastOk recastResult (lastX (xOf (.v 2) (.v 0) (.imm 1) (.v 0) 0)) := by
  and_intros <;> exact meets_of _ _ _ _ _ _ ⟨rfl, rfl, rfl⟩ rfl rfl (by decide) rfl rfl rfl

/-- The hypotheses of DivergenceCompletes' clause on a RECAST that blocks are met. -/
theorem witness_DivergenceCompletes_blocks :
    ExtMay (setup id wOne { gOne with castOpen := true }) recastSpec recastBlocks (lastX (xOf (.v 2) (.v 0) (.imm 1) (.v 0) 0)) :=
  ⟨⟨rfl, rfl, rfl⟩, ⟨rfl, rfl⟩, by decide⟩

/-- The hypotheses of YieldNopAndTrapsComplete are met. -/
theorem witness_YieldNopAndTrapsComplete :
    AluMeets one yieldSpec (fun _ => True) yieldResult (lastB (bOf (.v 0) (.v 0) (.v 0))) ∧
    ExtMeets one yieldSpec (fun _ => True) yieldResult (lastX (xOf (.v 0) (.v 0) (.v 0) (.v 0) 0)) ∧
    AluMeets one nopSpec (fun _ => True) nopResult (bOf (.v 0) (.v 0) (.v 0)) ∧
    ExtMeets one nopSpec (fun _ => True) nopResult (xOf (.v 0) (.v 0) (.v 0) (.v 0) 0) ∧
    ImmMay one (codeTrapSpec 0x21 false) someGuard (mOf (.v 0) (.v 0) 1) ∧
    ExtMay one (codeTrapSpec 0x21 false) someGuard (xOf (.v 0) (.v 0) (.imm 1) (.v 0) 0) ∧
    ImmMay one (codeTrapSpec 0x22 false) someGuard (mOf (.v 0) (.v 0) 1) ∧
    ExtMay one (codeTrapSpec 0x22 false) someGuard (xOf (.v 0) (.v 0) (.imm 1) (.v 0) 0) ∧
    ImmMay one (codeTrapSpec 0x20 true) (fun _ => True) (mOf (.v 0) (.v 0) 1) ∧
    ExtMay one (codeTrapSpec 0x20 true) (fun _ => True) (xOf (.v 0) (.v 0) (.imm 1) (.v 0) 0) ∧
    ExtMeets one (codeTrapSpec 0x21 false) (fun _ => True) (fun i => if i.w.active &&& i.grd = 0 then i.res else codeResult 0x21 i) (xT 0 0 0 0 (.v 0) (.v 0) (.imm 1) (.v 0)) ∧
    ExtMeets one (codeTrapSpec 0x22 false) (fun _ => True) (fun i => if i.w.active &&& i.grd = 0 then i.res else codeResult 0x22 i) (xT 0 0 0 0 (.v 0) (.v 0) (.imm 1) (.v 0)) := 
  ⟨meets_of _ _ _ _ _ _ ⟨rfl, rfl, rfl⟩ rfl rfl trivial rfl rfl rfl,
   meets_of _ _ _ _ _ _ ⟨rfl, rfl, rfl⟩ rfl rfl trivial rfl rfl rfl,
   meets_of _ _ _ _ _ _ ⟨rfl, rfl, rfl⟩ rfl rfl trivial rfl rfl rfl,
   meets_of _ _ _ _ _ _ ⟨rfl, rfl, rfl⟩ rfl rfl trivial rfl rfl rfl,
   ⟨⟨rfl, rfl, rfl⟩, ⟨rfl, rfl⟩, (by decide)⟩,
   ⟨⟨rfl, rfl, rfl⟩, ⟨rfl, rfl⟩, (by decide)⟩,
   ⟨⟨rfl, rfl, rfl⟩, ⟨rfl, rfl⟩, (by decide)⟩,
   ⟨⟨rfl, rfl, rfl⟩, ⟨rfl, rfl⟩, (by decide)⟩,
   ⟨⟨rfl, rfl, rfl⟩, ⟨rfl, rfl⟩, trivial⟩,
   ⟨⟨rfl, rfl, rfl⟩, ⟨rfl, rfl⟩, trivial⟩,
   meets_of _ _ _ _ _ _ ⟨rfl, rfl, rfl⟩ rfl rfl trivial rfl rfl rfl,
   meets_of _ _ _ _ _ _ ⟨rfl, rfl, rfl⟩ rfl rfl trivial rfl rfl rfl⟩

/-- The hypotheses of SystemRegistersComplete are met. -/
theorem witness_SystemRegistersComplete :
    ExtMeets one mfsSpec (fun _ => True) mfsResult (xOf (.s 2) (.v 0) (.v 0) (.v 0) 0) ∧
    ExtMeets (setup id { wOne with handler := true } gOne) mtsSpec mtsPlain mtsResult (xOf (.v 0) (.s 4) (.v 0) (.v 0) 4) ∧
    ExtMeets one clrerrSpec (fun _ => True) clrerrResult (xOf (.v 0) (.v 0) (.v 0) (.v 0) 0) ∧
    ExtMeets (setup id { wOne with handler := true } gOne) haltSpec inHandler haltResult (xOf (.v 0) (.v 0) (.v 0) (.v 0) 0) := 
  ⟨meets_of _ _ _ _ _ _ ⟨rfl, rfl, rfl⟩ rfl rfl trivial rfl rfl rfl,
   meets_of _ _ _ _ _ _ ⟨rfl, rfl, rfl⟩ rfl rfl (by decide) rfl rfl rfl,
   meets_of _ _ _ _ _ _ ⟨rfl, rfl, rfl⟩ rfl rfl trivial rfl rfl rfl,
   meets_of _ _ _ _ _ _ ⟨rfl, rfl, rfl⟩ rfl rfl (by decide) rfl rfl rfl⟩

/-- The hypotheses of SplitStackCommandsComplete are met. -/
theorem witness_SplitStackCommandsComplete :
    ExtMeets (setup id { wOne with handler := true, splCount := 1, splLimit := 4 } { gOne with scrSize := 64 }) (sscmdSpec doFill) fillPlain (fun i => onWarp i (fillEntries i.k i.g (fillN i))) (xOf (.v 0) (.imm 1) (.v 0) (.v 0) 8) ∧
    ExtMeets (setup id { wOne with handler := true, split := [] } gOne) (sscmdSpec doPush) (fun i => calm i ∧ i.w.split.length < 16) (fun i => onWarp i (fun w => { w with split := { pc := w.sslo, mask := w.sshiMask, w := w.sshiW } :: w.split })) (xOf (.v 0) (.imm 1) (.v 0) (.v 0) 8) ∧
    ExtMeets (setup id { wOne with handler := true, split := [{ pc := 8, mask := 1, w := false }], splLimit := 4 } { gOne with scrSize := 64 }) (sscmdSpec doSpill) spillOk spillResult (xOf (.v 0) (.imm 1) (.v 0) (.v 0) 8) ∧
    ExtMeets (setup id { wOne with handler := true, splCount := 1, splLimit := 4 } { gOne with scrSize := 64 }) (sscmdSpec doFill) fillOk fillResult (xOf (.v 0) (.imm 1) (.v 0) (.v 0) 8) ∧
    ExtMeets (setup id { wOne with handler := true, split := [{ pc := 8, mask := 1, w := false }] } gOne) (sscmdSpec doPop) (fun i => i.w.split ≠ []) popResult (xOf (.v 0) (.imm 1) (.v 0) (.v 0) 8) ∧
    ExtMeets (setup id { wOne with handler := true, split := [] } gOne) (sscmdSpec doPush) (fun i => i.w.split.length < 16) pushResult (xOf (.v 0) (.imm 1) (.v 0) (.v 0) 8) ∧
    ExtMeets (setup id { wOne with handler := true, s := [(4, 1)], split := [{ pc := 8, mask := 1, w := false }], splLimit := 4 } { gOne with scrSize := 64 }) mtsSpec (fun i => i.x.mods.toNat = 8 ∧ i.a 0 = 1 ∧ spillOk i) spillResult (xOf (.v 0) (.s 4) (.v 0) (.v 0) 8) ∧
    ExtMeets (setup id { wOne with handler := true, s := [(4, 2)], splCount := 1, splLimit := 4 } { gOne with scrSize := 64 }) mtsSpec (fun i => i.x.mods.toNat = 8 ∧ i.a 0 = 2 ∧ fillOk i) fillResult (xOf (.v 0) (.s 4) (.v 0) (.v 0) 8) ∧
    ExtMeets (setup id { wOne with handler := true, s := [(4, 3)], split := [{ pc := 8, mask := 1, w := false }] } gOne) mtsSpec (fun i => i.x.mods.toNat = 8 ∧ i.a 0 = 3 ∧ i.w.split ≠ []) popResult (xOf (.v 0) (.s 4) (.v 0) (.v 0) 8) ∧
    ExtMeets (setup id { wOne with handler := true, s := [(4, 4)], split := [] } gOne) mtsSpec (fun i => i.x.mods.toNat = 8 ∧ i.a 0 = 4 ∧ i.w.split.length < 16) pushResult (xOf (.v 0) (.s 4) (.v 0) (.v 0) 8) ∧
    ExtMay (setup id { wOne with handler := true, split := [] } gOne) (sscmdSpec doSpill) (fun i => spillK i = 0) (xOf (.v 0) (.imm 1) (.v 0) (.v 0) 8) ∧
    ExtMay (setup id { wOne with handler := true, split := [] } gOne) (sscmdSpec doFill) (fun i => fillK i = 0) (xOf (.v 0) (.imm 1) (.v 0) (.v 0) 8) ∧
    ExtMay (setup id { wOne with handler := true, s := [(4, 1)], split := [] } gOne) mtsSpec (fun i => i.x.mods.toNat = 8 ∧ i.a 0 = 1 ∧ spillK i = 0) (xOf (.v 0) (.s 4) (.v 0) (.v 0) 8) ∧
    ExtMay (setup id { wOne with handler := true, s := [(4, 2)], split := [] } gOne) mtsSpec (fun i => i.x.mods.toNat = 8 ∧ i.a 0 = 2 ∧ fillK i = 0) (xOf (.v 0) (.s 4) (.v 0) (.v 0) 8) ∧
    ExtMay (setup id { wOne with handler := true, s := [(4, 3)], split := [] } gOne) mtsSpec (fun i => i.x.mods.toNat = 8 ∧ i.a 0 = 3 ∧ i.w.split = []) (xOf (.v 0) (.s 4) (.v 0) (.v 0) 8) ∧
    ExtMay (setup id { wOne with handler := true, s := [(4, 4)], split := List.replicate 16 { pc := 0, mask := 0, w := false } } gOne) mtsSpec (fun i => i.x.mods.toNat = 8 ∧ i.a 0 = 4 ∧ 16 ≤ i.w.split.length) (xOf (.v 0) (.s 4) (.v 0) (.v 0) 8) ∧
    ExtMay (setup id { wOne with handler := true, split := [] } gOne) (sscmdSpec doPop) (fun i => i.w.split = []) (xOf (.v 0) (.imm 1) (.v 0) (.v 0) 8) ∧
    ExtMay (setup id { wOne with handler := true, split := List.replicate 16 { pc := 0, mask := 0, w := false } } gOne) (sscmdSpec doPush) (fun i => 16 ≤ i.w.split.length) (xOf (.v 0) (.imm 1) (.v 0) (.v 0) 8) ∧
    ExtMay (setup id { wOne with handler := true, s := [(4, 0)], split := [] } gOne) mtsSpec (fun i => i.x.mods.toNat = 8 ∧ (i.a 0 = 0 ∨ 4 < i.a 0)) (xOf (.v 0) (.s 4) (.v 0) (.v 0) 8) := 
  ⟨meets_of _ _ _ _ _ _ ⟨rfl, rfl, rfl⟩ rfl rfl (by decide) rfl rfl rfl,
   meets_of _ _ _ _ _ _ ⟨rfl, rfl, rfl⟩ rfl rfl (by decide) rfl rfl rfl,
   meets_of _ _ _ _ _ _ ⟨rfl, rfl, rfl⟩ rfl rfl (by decide) rfl rfl rfl,
   meets_of _ _ _ _ _ _ ⟨rfl, rfl, rfl⟩ rfl rfl (by decide) rfl rfl rfl,
   meets_of _ _ _ _ _ _ ⟨rfl, rfl, rfl⟩ rfl rfl (by decide) rfl rfl rfl,
   meets_of _ _ _ _ _ _ ⟨rfl, rfl, rfl⟩ rfl rfl (by decide) rfl rfl rfl,
   meets_of _ _ _ _ _ _ ⟨rfl, rfl, rfl⟩ rfl rfl (by decide) rfl rfl rfl,
   meets_of _ _ _ _ _ _ ⟨rfl, rfl, rfl⟩ rfl rfl (by decide) rfl rfl rfl,
   meets_of _ _ _ _ _ _ ⟨rfl, rfl, rfl⟩ rfl rfl (by decide) rfl rfl rfl,
   meets_of _ _ _ _ _ _ ⟨rfl, rfl, rfl⟩ rfl rfl (by decide) rfl rfl rfl,
   ⟨⟨rfl, rfl, rfl⟩, ⟨rfl, rfl⟩, (by decide)⟩,
   ⟨⟨rfl, rfl, rfl⟩, ⟨rfl, rfl⟩, (by decide)⟩,
   ⟨⟨rfl, rfl, rfl⟩, ⟨rfl, rfl⟩, (by decide)⟩,
   ⟨⟨rfl, rfl, rfl⟩, ⟨rfl, rfl⟩, (by decide)⟩,
   ⟨⟨rfl, rfl, rfl⟩, ⟨rfl, rfl⟩, (by decide)⟩,
   ⟨⟨rfl, rfl, rfl⟩, ⟨rfl, rfl⟩, (by decide)⟩,
   ⟨⟨rfl, rfl, rfl⟩, ⟨rfl, rfl⟩, (by decide)⟩,
   ⟨⟨rfl, rfl, rfl⟩, ⟨rfl, rfl⟩, (by decide)⟩,
   ⟨⟨rfl, rfl, rfl⟩, ⟨rfl, rfl⟩, (by decide)⟩⟩

/-- The hypotheses of SplitStackCommandsComplete's clause of POP are met. -/
theorem witness_pop_plain : ∃ e rest,
    ExtMeets (setup id { wOne with handler := true, split := [{ pc := 8, mask := 1, w := false }] } gOne) (sscmdSpec doPop) (fun i => calm i ∧ i.w.split = e :: rest)
      (fun i => onWarp i (fun w => { w with split := rest, sslo := e.pc, sshiW := e.w, sshiMask := e.mask })) (xOf (.v 0) (.imm 1) (.v 0) (.v 0) 8) :=
  ⟨_, _, meets_of _ _ _ _ _ _ ⟨rfl, rfl, rfl⟩ rfl rfl ⟨by decide, rfl⟩ rfl rfl rfl⟩

/-- The hypotheses of EretReturns are met. -/
theorem witness_EretReturns :
    ExtMay (setup (fun k => { k with scratch := [(40, 255), (41, 255), (42, 255), (43, 255)] }) { wOne with handler := true } gOne) eretSpec returnPlain (lastX (xOf (.v 0) (.v 0) (.v 0) (.v 0) 0)) ∧
    ExtMay (setup id { wOne with handler := true } gOne) eretSpec inHandler (lastX (xOf (.v 0) (.v 0) (.v 0) (.v 0) 0)) ∧
    ExtMay one eretSpec (fun i => i.w.handler = false) (lastX (xOf (.v 0) (.v 0) (.v 0) (.v 0) 0)) ∧
    ExtMay one haltSpec (fun i => i.w.handler = false) (xOf (.v 0) (.v 0) (.v 0) (.v 0) 0) := 
  ⟨⟨⟨rfl, rfl, rfl⟩, ⟨rfl, rfl⟩, ⟨rfl, rfl, rfl, by decide, fun n h => clean_scratch _ _ _ rfl (Nat.lt_of_lt_of_le (Nat.add_lt_add_left (Nat.mul_lt_mul_of_pos_left h (by decide)) _) (by decide)), by decide⟩⟩,
   ⟨⟨rfl, rfl, rfl⟩, ⟨rfl, rfl⟩, (by decide)⟩,
   ⟨⟨rfl, rfl, rfl⟩, ⟨rfl, rfl⟩, (by decide)⟩,
   ⟨⟨rfl, rfl, rfl⟩, ⟨rfl, rfl⟩, (by decide)⟩⟩

/-- The hypotheses of LocalAccessesComplete are met. -/
theorem witness_LocalAccessesComplete :
    MemMeets (setup id wOne { gOne with scrSize := 1024 }) true (fun _ => ldsSpec) (fun i => lanesOk i (szBytes i.x) true (laneAddr i) ∧ i.w.ld < 63) (fun i => loadResult .lds (szBytes i.x) ((szOf (szField i.x)).getD (4, false)).2 true i) (eOf (.v 4) (.v 6) 1) ∧
    ExtMeets (setup id wOne { gOne with scrSize := 1024 }) ldsSpec (fun i => lanesOk i (szBytes i.x) true (laneAddr i) ∧ i.w.ld < 63) (fun i => loadResult .lds (szBytes i.x) ((szOf (szField i.x)).getD (4, false)).2 true i) (xOf (.v 2) (.v 4) (.v 0) (.s 8) 0) ∧
    ExtMeets (setup id wOne { gOne with scrSize := 1024 }) ldspSpec (fun i => lanesOk i 4 false (laneAddr i) ∧ i.w.ld < 63) (fun i => loadResult (.ldsp (bitsOf i.x.mods2.toNat 2 0)) 4 false false i) (xOf (.v 2) (.v 4) (.v 0) (.s 8) 0) ∧
    MemMeets (setup id wOne { gOne with scrSize := 1024 }) false (fun _ => stsSpec) (fun i => lanesOk i (szBytes i.x) true (laneAddr i) ∧ i.w.st < 63 ∧ i.w.storeQ.length < 16) storeResult (eOf (.v 4) (.v 0) 1) ∧
    ExtMeets (setup id wOne { gOne with scrSize := 1024 }) stsSpec (fun i => lanesOk i (szBytes i.x) true (laneAddr i) ∧ i.w.st < 63 ∧ i.w.storeQ.length < 16) storeResult (xOf (.v 0) (.v 4) (.v 6) (.s 8) 0) ∧
    ExtMeets (setup id wOne { gOne with scrSize := 1024 }) (tagsSpec .tags) (fun i => lanesOk i (szBytes i.x) false (laneAddr i)) (tagsResult .tags) (xOf (.v 0) (.v 4) (.v 0) (.s 8) 0) ∧
    ExtMeets (setup id wOne { gOne with scrSize := 1024 }) (tagsSpec .tagc) (fun i => lanesOk i (szBytes i.x) false (laneAddr i)) (tagsResult .tagc) (xOf (.v 0) (.v 4) (.v 0) (.s 8) 0) ∧
    ExtMeets (setup id wOne { gOne with scrSize := 1024 }) (atsSpec true) (fun i => lanesOk i (szBytes i.x) false (atomAddr i) ∧ i.w.ld < 63 ∧ i.w.storeQ.length < 16) atsResult (xOf (.v 2) (.v 4) (.v 6) (.s 8) 0) ∧
    ExtMeets (setup id wOne { gOne with scrSize := 1024 }) (atsSpec false) (fun i => lanesOk i (szBytes i.x) false (atomAddr i) ∧ i.w.st < 63 ∧ i.w.storeQ.length < 16) atsnResult (xOf (.v 0) (.v 4) (.v 6) (.s 8) 0) := by
  and_intros <;> exact meets_of _ _ _ _ _ _ ⟨rfl, rfl, rfl⟩ rfl rfl (by decide) rfl rfl rfl

/-- The hypotheses of LocalAddressTraps are met. -/
theorem witness_LocalAddressTraps :
    MemMay (setup id wOne { gOne with scrSize := 0 }) true (fun _ => ldsSpec) (fun i => ¬lanesOk i (szBytes i.x) true (laneAddr i)) (eOf (.v 4) (.v 6) 1) ∧
    ExtMay (setup id wOne { gOne with scrSize := 0 }) ldsSpec (fun i => ¬lanesOk i (szBytes i.x) true (laneAddr i)) (xOf (.v 2) (.v 4) (.v 0) (.s 8) 0) ∧
    ExtMay (setup id wOne { gOne with scrSize := 0 }) ldspSpec (fun i => ¬lanesOk i 4 false (laneAddr i)) (xOf (.v 2) (.v 4) (.v 0) (.s 8) 0) ∧
    MemMay (setup id wOne { gOne with scrSize := 0 }) false (fun _ => stsSpec) (fun i => ¬lanesOk i (szBytes i.x) true (laneAddr i)) (eOf (.v 4) (.v 0) 1) ∧
    ExtMay (setup id wOne { gOne with scrSize := 0 }) stsSpec (fun i => ¬lanesOk i (szBytes i.x) true (laneAddr i)) (xOf (.v 0) (.v 4) (.v 6) (.s 8) 0) ∧
    ExtMay (setup id wOne { gOne with scrSize := 0 }) (tagsSpec .tags) (fun i => ¬lanesOk i (szBytes i.x) false (laneAddr i)) (xOf (.v 0) (.v 4) (.v 0) (.s 8) 0) ∧
    ExtMay (setup id wOne { gOne with scrSize := 0 }) (tagsSpec .tagc) (fun i => ¬lanesOk i (szBytes i.x) false (laneAddr i)) (xOf (.v 0) (.v 4) (.v 0) (.s 8) 0) ∧
    ExtMay (setup id wOne { gOne with scrSize := 0 }) (atsSpec true) (fun i => ¬lanesOk i (szBytes i.x) false (atomAddr i)) (xOf (.v 2) (.v 4) (.v 6) (.s 8) 0) ∧
    ExtMay (setup id wOne { gOne with scrSize := 0 }) (atsSpec false) (fun i => ¬lanesOk i (szBytes i.x) false (atomAddr i)) (xOf (.v 0) (.v 4) (.v 6) (.s 8) 0) ∧
    MemMay (setup id { wOne with ld := 63, st := 63 } { gOne with scrSize := 1024 }) true (fun _ => ldsSpec) (fun i => lanesOk i (szBytes i.x) true (laneAddr i) ∧ 63 ≤ i.w.ld) (eOf (.v 4) (.v 6) 1) ∧
    ExtMay (setup id { wOne with ld := 63, st := 63 } { gOne with scrSize := 1024 }) ldsSpec (fun i => lanesOk i (szBytes i.x) true (laneAddr i) ∧ 63 ≤ i.w.ld) (xOf (.v 2) (.v 4) (.v 0) (.s 8) 0) ∧
    ExtMay (setup id { wOne with ld := 63, st := 63 } { gOne with scrSize := 1024 }) ldspSpec (fun i => lanesOk i 4 false (laneAddr i) ∧ 63 ≤ i.w.ld) (xOf (.v 2) (.v 4) (.v 0) (.s 8) 0) ∧
    MemMay (setup id { wOne with ld := 63, st := 63 } { gOne with scrSize := 1024 }) false (fun _ => stsSpec) (fun i => lanesOk i (szBytes i.x) true (laneAddr i) ∧ (63 ≤ i.w.st ∨ 16 ≤ i.w.storeQ.length)) (eOf (.v 4) (.v 0) 1) ∧
    ExtMay (setup id { wOne with ld := 63, st := 63 } { gOne with scrSize := 1024 }) stsSpec (fun i => lanesOk i (szBytes i.x) true (laneAddr i) ∧ (63 ≤ i.w.st ∨ 16 ≤ i.w.storeQ.length)) (xOf (.v 0) (.v 4) (.v 6) (.s 8) 0) ∧
    ExtMay (setup id { wOne with ld := 63, st := 63 } { gOne with scrSize := 1024 }) (atsSpec true) (fun i => lanesOk i (szBytes i.x) false (atomAddr i) ∧ (63 ≤ i.w.ld ∨ 16 ≤ i.w.storeQ.length)) (xOf (.v 2) (.v 4) (.v 6) (.s 8) 0) ∧
    ExtMay (setup id { wOne with ld := 63, st := 63 } { gOne with scrSize := 1024 }) (atsSpec false) (fun i => lanesOk i (szBytes i.x) false (atomAddr i) ∧ (63 ≤ i.w.st ∨ 16 ≤ i.w.storeQ.length)) (xOf (.v 0) (.v 4) (.v 6) (.s 8) 0) := by
  and_intros <;> exact ⟨⟨rfl, rfl, rfl⟩, ⟨rfl, rfl⟩, (by decide)⟩

/-- The hypotheses of TagAccessesComplete are met. -/
theorem witness_TagAccessesComplete :
    MemMeets (setup (fun k => { k with full := List.range 64 }) wOne { gOne with scrSize := 1024 }) true (fun b => ldsfSpec (.ldsfMem b)) (tagsReady true) ldsfResult (lastE (eOf (.v 4) (.v 6) 1)) ∧
    ExtMeets (setup (fun k => { k with full := List.range 64 }) wOne { gOne with scrSize := 1024 }) (fun x => ldsfSpec (.ldsfExt x) x) (tagsReady true) ldsfResult (lastX (xOf (.v 2) (.v 4) (.v 0) (.s 8) 0)) ∧
    MemMeets (setup id wOne { gOne with scrSize := 1024 }) false (fun b => stseSpec (.stseMem b)) (tagsReady false) stseResult (lastE (eOf (.v 4) (.v 0) 1)) ∧
    ExtMeets (setup id wOne { gOne with scrSize := 1024 }) (fun x => stseSpec (.stseExt x) x) (tagsReady false) stseResult (lastX (xOf (.v 0) (.v 4) (.v 6) (.s 8) 0)) ∧
    MemMay (setup id wOne { gOne with scrSize := 1024 }) true (fun b => ldsfSpec (.ldsfMem b)) (tagsBlocked true) (lastE (eOf (.v 4) (.v 6) 1)) ∧
    MemMay (setup (fun k => { k with full := List.range 64 }) wOne { gOne with scrSize := 1024 }) false (fun b => stseSpec (.stseMem b)) (tagsBlocked false) (lastE (eOf (.v 4) (.v 0) 1)) ∧
    ExtMay (setup id wOne { gOne with scrSize := 1024 }) (fun x => ldsfSpec (.ldsfExt x) x) (tagsBlocked true) (lastX (xOf (.v 2) (.v 4) (.v 0) (.s 8) 0)) ∧
    ExtMay (setup (fun k => { k with full := List.range 64 }) wOne { gOne with scrSize := 1024 }) (fun x => stseSpec (.stseExt x) x) (tagsBlocked false) (lastX (xOf (.v 0) (.v 4) (.v 6) (.s 8) 0)) ∧
    ExtMeets one fenceSpec (fun i => i.w.storeQ = []) Issue.res (xOf (.v 0) (.v 0) (.v 0) (.v 0) 0) ∧
    ExtMay (setup id { wOne with storeQ := [{ seq := 0, counted := false, body := .store [] }] } gOne) fenceSpec (fun i => i.w.storeQ ≠ []) (xOf (.v 0) (.v 0) (.v 0) (.v 0) 0) := 
  ⟨meets_of _ _ _ _ _ _ ⟨rfl, rfl, rfl⟩ rfl rfl (by decide) rfl rfl rfl,
   meets_of _ _ _ _ _ _ ⟨rfl, rfl, rfl⟩ rfl rfl (by decide) rfl rfl rfl,
   meets_of _ _ _ _ _ _ ⟨rfl, rfl, rfl⟩ rfl rfl (by decide) rfl rfl rfl,
   meets_of _ _ _ _ _ _ ⟨rfl, rfl, rfl⟩ rfl rfl (by decide) rfl rfl rfl,
   ⟨⟨rfl, rfl, rfl⟩, ⟨rfl, rfl⟩, (by decide)⟩,
   ⟨⟨rfl, rfl, rfl⟩, ⟨rfl, rfl⟩, (by decide)⟩,
   ⟨⟨rfl, rfl, rfl⟩, ⟨rfl, rfl⟩, (by decide)⟩,
   ⟨⟨rfl, rfl, rfl⟩, ⟨rfl, rfl⟩, (by decide)⟩,
   meets_of _ _ _ _ _ _ ⟨rfl, rfl, rfl⟩ rfl rfl (by decide) rfl rfl rfl,
   ⟨⟨rfl, rfl, rfl⟩, ⟨rfl, rfl⟩, (by decide)⟩⟩

/-- A warp that waits in an LDSF or STSE of lane 31 at address 0, all its words full or all empty. -/
def uWoken (i : Instr) (full : Bool) : Setup :=
  setup (fun k => { k with full := if full then List.range 64 else [] })
    { wOne with waiting := some { instr := i, len := 12, start := 0, tag := some (full, 4), lns := [{ lane := 31, addr := 0, operand := 5, cmp := 0 }], flushes := 0 } }
    { gOne with scrSize := 1024 }
/-- The hypotheses of TagAccessesComplete are met by an access whose wait ends. -/
theorem witness_TagAccessesComplete_woken :
    (let x := lastX (xOf (.v 2) (.v 4) (.v 0) (.s 8) 0)
     ExtMeets (uWoken (.ldsfExt x) true) (fun x => ldsfSpec (.ldsfExt x) x) (tagsReady true) ldsfResult x) ∧
    (let x := lastX (xOf (.v 0) (.v 4) (.v 6) (.s 8) 0)
     ExtMeets (uWoken (.stseExt x) false) (fun x => stseSpec (.stseExt x) x) (tagsReady false) stseResult x) :=
  ⟨meets_of _ _ _ _ _ _ ⟨rfl, rfl, rfl⟩ rfl rfl (by decide) rfl rfl rfl, meets_of _ _ _ _ _ _ ⟨rfl, rfl, rfl⟩ rfl rfl (by decide) rfl rfl rfl⟩

/-- The hypotheses of CounterWaitsComplete are met. -/
theorem witness_CounterWaitsComplete :
    ExtMeets one waitcSpec waitcMet Issue.res (lastX (xT 0 0 0 7 (.v 0) (.imm 0) (.v 0) (.v 0))) ∧
    ExtMay (setup id { wOne with ld := 1 } gOne) waitcSpec (fun i => ¬waitcMet i) (lastX (xT 0 0 0 7 (.v 0) (.imm 0) (.v 0) (.v 0))) ∧
    ExtMeets (setup id { wOne with s := [(4, 1)] } { gOne with nTl := 1, tls := [(0, { value := 1, next := 4, ended := [(2, 3)], counts := [] })] }) tlwaitSpec (fun i => hasLine i ∧ i.a 0 ≤ (lineOf i).value) (lineResult false) (lastX (xT 0 7 0 7 (.s 12) (.s 4) (.v 0) (.v 0))) ∧
    ExtMeets (setup id { wOne with s := [(4, 3)] } { gOne with nTl := 1, tls := [(0, { value := 1, next := 4, ended := [(2, 3)], counts := [] })] }) tlwaitSpec (fun i => hasLine i ∧ (lineOf i).value < i.a 0 ∧ lineFailed i ∧ i.g.asyncen = false) (lineResult true) (lastX (xT 0 7 0 7 (.s 12) (.s 4) (.v 0) (.v 0))) ∧
    ExtMay (setup id { wOne with s := [(4, 3)] } { gOne with nTl := 1, tls := [(0, { value := 1, next := 4, ended := [(2, 3)], counts := [] })], asyncen := true }) tlwaitSpec (fun i => hasLine i ∧ (lineOf i).value < i.a 0 ∧ lineFailed i ∧ i.g.asyncen = true) (lastX (xT 0 7 0 7 (.s 12) (.s 4) (.v 0) (.v 0))) ∧
    ExtMay (setup id { wOne with s := [(4, 3)] } { gOne with nTl := 1, tls := [(0, { value := 1, next := 4, ended := [(3, 0)], counts := [] })] }) tlwaitSpec (fun i => hasLine i ∧ (lineOf i).value < i.a 0 ∧ ¬lineFailed i) (lastX (xT 0 7 0 7 (.s 12) (.s 4) (.v 0) (.v 0))) ∧
    ExtMeets (setup id wOne { gOne with nTl := 1, tls := [(0, { value := 1, next := 4, ended := [(2, 3)], counts := [] })] }) tlrdSpec (fun i => hasLine i ∧ ¬setBit 4 i) (fun i => lineResult (lineOf i).blocked i) (xT 0 7 0 7 (.s 12) (.v 0) (.v 0) (.v 0)) ∧
    ExtMeets (setup id { wOne with handler := true, s := [(4, 9)] } { gOne with nTl := 1, tls := [(0, { value := 1, next := 4, ended := [(2, 3), (3, 0)], counts := [] })] }) tlrdSpec (fun i => hasLine i ∧ setBit 4 i ∧ ¬lineBusy i) lineSet (xT 16 7 0 7 (.s 12) (.s 4) (.v 0) (.v 0)) := 
  ⟨meets_of _ _ _ _ _ _ ⟨rfl, rfl, rfl⟩ rfl rfl (by decide) rfl rfl rfl,
   ⟨⟨rfl, rfl, rfl⟩, ⟨rfl, rfl⟩, (by decide)⟩,
   meets_of _ _ _ _ _ _ ⟨rfl, rfl, rfl⟩ rfl rfl (by decide) rfl rfl rfl,
   meets_of _ _ _ _ _ _ ⟨rfl, rfl, rfl⟩ rfl rfl (by decide) rfl rfl rfl,
   ⟨⟨rfl, rfl, rfl⟩, ⟨rfl, rfl⟩, (by decide)⟩,
   ⟨⟨rfl, rfl, rfl⟩, ⟨rfl, rfl⟩, (by decide)⟩,
   meets_of _ _ _ _ _ _ ⟨rfl, rfl, rfl⟩ rfl rfl (by decide) rfl rfl rfl,
   meets_of _ _ _ _ _ _ ⟨rfl, rfl, rfl⟩ rfl rfl (by decide) rfl rfl rfl⟩

/-- The hypotheses of BarriersComplete are met. -/
theorem witness_BarriersComplete :
    ExtMeets (setup id wOne { gOne with nBar := 2, bars := [(0, { phase := 5, expected := 2, arrived := 0 })] }) ballocSpec (fun i => ¬setBit 0 i ∧ ¬setBit 1 i ∧ countOk (i.a 0) ∧ lowestFree i (freeOne i)) (fun i => ballocResult (freeOne i) i) (xT 0 0 0 7 (.s 5) (.imm 2) (.v 0) (.v 0)) ∧
    ExtMeets (setup id wOne { gOne with nBar := 1, bars := [(0, { phase := 5, expected := 2, arrived := 0 })] }) ballocSpec (fun i => ¬setBit 0 i ∧ ¬setBit 1 i ∧ countOk (i.a 0) ∧ ∀ n < i.g.nBar, ¬barFree i n) ballocNone (xT 0 0 0 7 (.s 5) (.imm 2) (.v 0) (.v 0)) ∧
    ExtMeets (setup id wOne { gOne with nBar := 2, bars := [(0, { phase := 5, expected := 2, arrived := 0 })] }) ballocSpec (fun i => setBit 0 i ∧ ¬setBit 1 i ∧ i.b 0 < i.g.nBar ∧ countOk (i.a 0) ∧ barFree i (i.b 0)) (fun i => ballocResult (i.b 0) i) (xT 1 0 0 7 (.s 5) (.imm 2) (.imm 1) (.v 0)) ∧
    ExtMeets (setup id wOne { gOne with nBar := 2, bars := [(0, { phase := 5, expected := 2, arrived := 0 })] }) ballocSpec (fun i => setBit 0 i ∧ ¬setBit 1 i ∧ i.b 0 < i.g.nBar ∧ countOk (i.a 0) ∧ ¬barFree i (i.b 0)) ballocNone (xT 1 0 0 7 (.s 5) (.imm 2) (.imm 0) (.v 0)) ∧
    ExtMeets (setup id { wOne with handler := true, s := [(4, 131077)] } { gOne with nBar := 2, bars := [(0, { phase := 5, expected := 2, arrived := 0 })] }) ballocSpec (fun i => setBit 1 i ∧ i.b 0 < i.g.nBar ∧ savedOk i) ballocSaved (xT 2 0 0 7 (.s 5) (.s 4) (.imm 1) (.v 0)) ∧
    ExtMeets (setup id wOne { gOne with nBar := 2, bars := [(0, { phase := 5, expected := 2, arrived := 0 })] }) bfreeSpec (fun i => i.a 0 < i.g.nBar) bfreeResult (xT 0 0 0 7 (.v 0) (.imm 0) (.v 0) (.v 0)) ∧
    ExtMeets (setup id wOne { gOne with nBar := 2, bars := [(0, { phase := 5, expected := 2, arrived := 0 })] }) barvSpec arriveOk (arriveResult 1) (xT 0 0 0 7 (.s 5) (.imm 0) (.v 0) (.v 0)) ∧
    ExtMeets (setup id wOne { gOne with nBar := 2, bars := [(0, { phase := 5, expected := 2, arrived := 0 })] }) barvwSpec (fun i => arriveOk i ∧ countOk (i.b 0)) (fun i => arriveResult (i.b 0) i) (xT 0 0 0 7 (.s 5) (.imm 0) (.imm 3) (.v 0)) ∧
    ExtMeets (setup id wOne { gOne with nBar := 2, bars := [(0, { phase := 5, expected := 2, arrived := 0 })] }) bwaitSpec (fun i => bwaitOk i ∧ lapped i ≠ 0) bwaitResult (lastX (xT 0 7 0 7 (.v 0) (.imm 0) (.imm 3) (.v 0))) ∧
    ExtMay (setup id wOne { gOne with nBar := 2, bars := [(0, { phase := 5, expected := 2, arrived := 0 })] }) bwaitSpec (fun i => bwaitOk i ∧ lapped i = 0) (lastX (xT 0 7 0 7 (.v 0) (.imm 0) (.imm 5) (.v 0))) := 
  ⟨meets_of _ _ _ _ _ _ ⟨rfl, rfl, rfl⟩ rfl rfl (by decide) rfl rfl rfl,
   meets_of _ _ _ _ _ _ ⟨rfl, rfl, rfl⟩ rfl rfl (by decide) rfl rfl rfl,
   meets_of _ _ _ _ _ _ ⟨rfl, rfl, rfl⟩ rfl rfl (by decide) rfl rfl rfl,
   meets_of _ _ _ _ _ _ ⟨rfl, rfl, rfl⟩ rfl rfl (by decide) rfl rfl rfl,
   meets_of _ _ _ _ _ _ ⟨rfl, rfl, rfl⟩ rfl rfl (by decide) rfl rfl rfl,
   meets_of _ _ _ _ _ _ ⟨rfl, rfl, rfl⟩ rfl rfl (by decide) rfl rfl rfl,
   meets_of _ _ _ _ _ _ ⟨rfl, rfl, rfl⟩ rfl rfl (by decide) rfl rfl rfl,
   meets_of _ _ _ _ _ _ ⟨rfl, rfl, rfl⟩ rfl rfl (by decide) rfl rfl rfl,
   meets_of _ _ _ _ _ _ ⟨rfl, rfl, rfl⟩ rfl rfl (by decide) rfl rfl rfl,
   ⟨⟨rfl, rfl, rfl⟩, ⟨rfl, rfl⟩, (by decide)⟩⟩

/-- The hypotheses of EventCountersComplete are met. -/
theorem witness_EventCountersComplete :
    ExtMeets one ecrdSpec evIn ecrdResult (xT 0 0 0 7 (.s 5) (.imm 7) (.v 0) (.v 0)) ∧
    ExtMeets one ecselSpec (fun i => evIn i ∧ sourceIn i) ecselResult (xT 0 0 0 7 (.v 0) (.imm 7) (.imm 1) (.v 0)) := by
  and_intros <;> exact meets_of _ _ _ _ _ _ ⟨rfl, rfl, rfl⟩ rfl rfl (by decide) rfl rfl rfl

/-- The hypotheses of CounterSlatesTrap are met. -/
theorem witness_CounterSlatesTrap :
    ExtMay (setup id wOne { gOne with nTl := 0 }) tlwaitSpec (fun i => ¬hasLine i) (lastX (xT 0 7 0 7 (.s 12) (.s 4) (.v 0) (.v 0))) ∧
    ExtMay (setup id wOne { gOne with nTl := 0 }) tlrdSpec (fun i => ¬hasLine i ∨ (setBit 4 i ∧ lineBusy i)) (xT 0 7 0 7 (.s 12) (.v 0) (.v 0) (.v 0)) ∧
    ExtMay (setup id wOne { gOne with nBar := 1, bars := [(0, { phase := 5, expected := 2, arrived := 0 })] }) ballocSpec (fun i => (setBit 0 i ∨ setBit 1 i) ∧ i.g.nBar ≤ i.b 0) (xT 1 0 0 7 (.s 5) (.imm 2) (.imm 1) (.v 0)) ∧
    ExtMay (setup id { wOne with handler := true, s := [(4, 281474976710656)] } { gOne with nBar := 2, bars := [(0, { phase := 5, expected := 2, arrived := 0 })] }) ballocSpec (fun i => setBit 1 i ∧ i.b 0 < i.g.nBar ∧ ¬savedOk i) (xT 2 0 0 7 (.s 5) (.s 4) (.imm 1) (.v 0)) ∧
    ExtMay (setup id wOne { gOne with nBar := 2, bars := [(0, { phase := 5, expected := 2, arrived := 0 })] }) ballocSpec (fun i => ¬setBit 0 i ∧ ¬setBit 1 i ∧ ¬countOk (i.a 0)) (xT 0 0 0 7 (.s 5) (.imm 0) (.v 0) (.v 0)) ∧
    ExtMay (setup id wOne { gOne with nBar := 1, bars := [(0, { phase := 5, expected := 2, arrived := 0 })] }) bfreeSpec (fun i => i.g.nBar ≤ i.a 0) (xT 0 0 0 7 (.v 0) (.imm 1) (.v 0) (.v 0)) ∧
    ExtMay (setup id wOne { gOne with nBar := 1, bars := [(0, { phase := 5, expected := 2, arrived := 0 })] }) barvSpec (fun i => i.g.nBar ≤ i.a 0) (xT 0 0 0 7 (.s 5) (.imm 1) (.v 0) (.v 0)) ∧
    ExtMay (setup id wOne { gOne with nBar := 2, bars := [(0, { phase := 5, expected := 2, arrived := 0 })] }) barvSpec (fun i => i.a 0 < i.g.nBar ∧ barFree i (i.a 0)) (xT 0 0 0 7 (.s 5) (.imm 1) (.v 0) (.v 0)) ∧
    ExtMay (setup id wOne { gOne with nBar := 2, bars := [(0, { phase := 5, expected := 2, arrived := 0 })] }) barvwSpec (fun i => i.a 0 < i.g.nBar ∧ ¬countOk (i.b 0)) (xT 0 0 0 7 (.s 5) (.imm 0) (.imm 0) (.v 0)) ∧
    ExtMay (setup id wOne { gOne with nBar := 2, bars := [(0, { phase := 5, expected := 2, arrived := 0 })] }) bwaitSpec (fun i => i.a 0 < i.g.nBar ∧ barFree i (i.a 0) ∧ i.w.waiting.isSome = false) (lastX (xT 0 7 0 7 (.v 0) (.imm 1) (.imm 5) (.v 0))) ∧
    ExtMay one ecrdSpec (fun i => ¬evIn i) (xT 0 0 0 7 (.s 5) (.imm 8) (.v 0) (.v 0)) ∧
    ExtMay one ecselSpec (fun i => ¬(evIn i ∧ sourceIn i)) (xT 0 0 0 7 (.v 0) (.imm 0) (.imm 15) (.v 0)) := by
  and_intros <;> exact ⟨⟨rfl, rfl, rfl⟩, ⟨rfl, rfl⟩, (by decide)⟩

/-- The hypotheses of TileHandlesComplete are met. -/
theorem witness_TileHandlesComplete :
    ExtMeets (setup id { wOne with s := [(6, 17592188141584)] } { gOne with nTile := 1 }) tallocSpec tallocOk tallocResult (xT 0 0 0 7 (.s 5) (.imm 0) (.s 6) (.v 0)) ∧
    ExtMeets (setup (fun k => { k with tileTable := [(0, { TileEntry.unbound with bound := true, rows := 16, cols := 32, rstride := 1 })] }) wOne { gOne with nTile := 1 }) tfreeSpec tfreeOk tfreeResult (xT 0 0 0 7 (.v 0) (.imm 0) (.v 0) (.v 0)) ∧
    ExtMeets (setup (fun k => { k with tileTable := [(0, { TileEntry.unbound with bound := true, rows := 16, cols := 32, rstride := 1 })] }) wOne { gOne with nTile := 1 }) ttrdSpec (fun _ => True) ttrdResult (xT 0 0 0 7 (.s 40) (.imm 0) (.v 0) (.v 0)) ∧
    ExtMay (setup (fun k => { k with tileTable := [(0, { TileEntry.unbound with bound := true, rows := 16, cols := 32, rstride := 1 })] }) { wOne with s := [(6, 17592188141584)] } { gOne with nTile := 1 }) tallocSpec (fun i => descOk (i.b 0) ∧ ¬ofTask i ∧ (entryOf i).bound = true) (xT 0 0 0 7 (.s 5) (.imm 0) (.s 6) (.v 0)) ∧
    ExtMay (setup id wOne { gOne with nTile := 1 }) tfreeSpec (fun i => (entryOf i).bound = false) (xT 0 0 0 7 (.v 0) (.imm 0) (.v 0) (.v 0)) ∧
    ExtMay one icinvSpec (fun i => i.w.waiting = none) (xT 3 0 0 7 (.v 0) (.v 0) (.v 0) (.v 0)) ∧
    ExtMeets (setup id { wOne with waiting := some { instr := .nopExt extZero, len := 12, start := 0, tag := none, lns := [], flushes := 0 } } gOne) icinvSpec (fun i => i.w.waiting.isSome = true) icinvResult (xT 3 0 0 7 (.v 0) (.v 0) (.v 0) (.v 0)) := 
  ⟨meets_of _ _ _ _ _ _ ⟨rfl, rfl, rfl⟩ rfl rfl (by decide) (by unfold tallocResult; split <;> rfl) (by unfold tallocResult; split <;> rfl) rfl,
   meets_of _ _ _ _ _ _ ⟨rfl, rfl, rfl⟩ rfl rfl (by decide) rfl rfl rfl,
   meets_of _ _ _ _ _ _ ⟨rfl, rfl, rfl⟩ rfl rfl trivial rfl rfl rfl,
   ⟨⟨rfl, rfl, rfl⟩, ⟨rfl, rfl⟩, (by decide)⟩,
   ⟨⟨rfl, rfl, rfl⟩, ⟨rfl, rfl⟩, (by decide)⟩,
   ⟨⟨rfl, rfl, rfl⟩, ⟨rfl, rfl⟩, (by decide)⟩,
   meets_of _ _ _ _ _ _ ⟨rfl, rfl, rfl⟩ rfl rfl (by decide) rfl rfl rfl⟩

/-- The hypotheses of TileAccessesComplete are met. -/
theorem witness_TileAccessesComplete :
    ExtMeets (setup (fun k => { k with tileTable := [(0, { TileEntry.unbound with bound := true, rows := 16, cols := 32, rstride := 1 })] }) wOne { gOne with nTile := 1 }) tldSpec (fun i => posOk i ∧ i.w.tl < 63) tldResult (xT 0 0 0 7 (.v 8) (.imm 0) (.v 0) (.imm 2)) ∧
    ExtMeets (setup (fun k => { k with tileTable := [(0, { TileEntry.unbound with bound := true, rows := 16, cols := 32, rstride := 1 })] }) wOne { gOne with nTile := 1 }) tstSpec (fun i => notReadOnly i ∧ posOk i ∧ i.w.tl < 63) tstResult (xT 0 0 0 7 (.v 0) (.imm 0) (.v 8) (.imm 2)) ∧
    ExtMeets one ardSpec (fun i => i.a 0 + countOf i ≤ 128 ∧ i.w.tl < 63) ardResult (xT 0 0 0 7 (.v 8) (.imm 3) (.v 0) (.v 0)) ∧
    ExtMeets one awrSpec (fun i => i.a 0 + countOf i ≤ 128 ∧ i.w.tl < 63) awrResult (xT 0 0 0 7 (.v 0) (.imm 3) (.v 8) (.v 0)) ∧
    ExtMeets one aclrSpec (fun _ => True) aclrResult (xT 0 0 0 7 (.v 0) (.v 0) (.v 0) (.v 0)) ∧
    ExtMay (setup (fun k => { k with tileTable := [(0, { TileEntry.unbound with bound := true, rows := 16, cols := 32, rstride := 1 })] }) wOne { gOne with nTile := 1 }) tldSpec (fun i => ¬posOk i) (xT 0 0 0 7 (.v 8) (.imm 0) (.v 0) (.imm 16)) ∧
    ExtMay (setup (fun k => { k with tileTable := [(0, { TileEntry.unbound with bound := true, rows := 16, cols := 32, rstride := 1 })] }) wOne { gOne with nTile := 1 }) tstSpec (fun i => ¬(notReadOnly i ∧ posOk i)) (xT 0 0 0 7 (.v 0) (.imm 0) (.v 8) (.imm 16)) ∧
    ExtMay one ardSpec (fun i => 128 < i.a 0 + countOf i) (xT 0 0 0 7 (.v 8) (.imm 128) (.v 0) (.v 0)) ∧
    ExtMay one awrSpec (fun i => 128 < i.a 0 + countOf i) (xT 0 0 0 7 (.v 0) (.imm 128) (.v 8) (.v 0)) ∧
    ExtMay (setup (fun k => { k with tileTable := [(0, { TileEntry.unbound with bound := true, rows := 16, cols := 32, rstride := 1 })] }) { wOne with tl := 63 } { gOne with nTile := 1 }) tldSpec (fun i => posOk i ∧ 63 ≤ i.w.tl) (xT 0 0 0 7 (.v 8) (.imm 0) (.v 0) (.imm 2)) ∧
    ExtMay (setup (fun k => { k with tileTable := [(0, { TileEntry.unbound with bound := true, rows := 16, cols := 32, rstride := 1 })] }) { wOne with tl := 63 } { gOne with nTile := 1 }) tstSpec (fun i => notReadOnly i ∧ posOk i ∧ 63 ≤ i.w.tl) (xT 0 0 0 7 (.v 0) (.imm 0) (.v 8) (.imm 2)) ∧
    ExtMay (setup id { wOne with tl := 63 } gOne) ardSpec (fun i => i.a 0 + countOf i ≤ 128 ∧ 63 ≤ i.w.tl) (xT 0 0 0 7 (.v 8) (.imm 3) (.v 0) (.v 0)) ∧
    ExtMay (setup id { wOne with tl := 63 } gOne) awrSpec (fun i => i.a 0 + countOf i ≤ 128 ∧ 63 ≤ i.w.tl) (xT 0 0 0 7 (.v 0) (.imm 3) (.v 8) (.v 0)) := 
  ⟨meets_of _ _ _ _ _ _ ⟨rfl, rfl, rfl⟩ rfl rfl (by decide) rfl rfl rfl,
   meets_of _ _ _ _ _ _ ⟨rfl, rfl, rfl⟩ rfl rfl (by decide) rfl rfl rfl,
   meets_of _ _ _ _ _ _ ⟨rfl, rfl, rfl⟩ rfl rfl (by decide) rfl rfl rfl,
   meets_of _ _ _ _ _ _ ⟨rfl, rfl, rfl⟩ rfl rfl (by decide) rfl rfl rfl,
   meets_of _ _ _ _ _ _ ⟨rfl, rfl, rfl⟩ rfl rfl trivial rfl rfl rfl,
   ⟨⟨rfl, rfl, rfl⟩, ⟨rfl, rfl⟩, (by decide)⟩,
   ⟨⟨rfl, rfl, rfl⟩, ⟨rfl, rfl⟩, (by decide)⟩,
   ⟨⟨rfl, rfl, rfl⟩, ⟨rfl, rfl⟩, (by decide)⟩,
   ⟨⟨rfl, rfl, rfl⟩, ⟨rfl, rfl⟩, (by decide)⟩,
   ⟨⟨rfl, rfl, rfl⟩, ⟨rfl, rfl⟩, (by decide)⟩,
   ⟨⟨rfl, rfl, rfl⟩, ⟨rfl, rfl⟩, (by decide)⟩,
   ⟨⟨rfl, rfl, rfl⟩, ⟨rfl, rfl⟩, (by decide)⟩,
   ⟨⟨rfl, rfl, rfl⟩, ⟨rfl, rfl⟩, (by decide)⟩⟩

/-- The hypotheses of TablesComplete are met. -/
theorem witness_TablesComplete :
    ExtMeets one tlbflushSpec asidOk tlbflushResult (xT 0 0 0 7 (.v 0) (.imm 3) (.v 0) (.v 0)) ∧
    ExtMeets one tlbsyncSpec flushed Issue.res (xT 0 0 0 7 (.v 0) (.v 0) (.v 0) (.v 0)) ∧
    ExtMay (setupIn (fun s => s.setAsidState 9 2) id wOne gOne) tlbsyncSpec (fun i => ¬flushed i) (xT 0 0 0 7 (.v 0) (.v 0) (.v 0) (.v 0)) ∧
    ExtMeets one asidretSpec asidOk asidretResult (xT 0 0 0 7 (.s 5) (.imm 3) (.v 0) (.v 0)) ∧
    ExtMeets (setup id { wOne with waiting := some { instr := .nopExt extZero, len := 12, start := 0, tag := none, lns := [], flushes := 0 } } gOne) sgwrSpec (fun i => i.w.waiting.isSome = true) Issue.res (xT 0 0 0 7 (.v 0) (.imm 6) (.imm 0) (.v 0)) ∧
    ExtMay one sgwrSpec sgwrOk (xT 0 0 0 7 (.v 0) (.imm 6) (.imm 0) (.v 0)) ∧
    ExtMeets one bwsetSpec bwOk bwsetResult (xT 0 0 0 7 (.s 5) (.imm 2) (.imm 3) (.v 0)) ∧
    ExtMeets one cgrpSpec scopeIn cgrpResult (xT 0 0 0 7 (.s 5) (.imm 1) (.v 0) (.v 0)) ∧
    ExtMeets one fxwinSpec (fun i => i.a 0 < 256) fxwinResult (xT 0 0 0 7 (.s 5) (.imm 1) (.v 0) (.v 0)) := 
  ⟨meets_of _ _ _ _ _ _ ⟨rfl, rfl, rfl⟩ rfl rfl (by decide) rfl rfl rfl,
   meets_of _ _ _ _ _ _ ⟨rfl, rfl, rfl⟩ rfl rfl (by decide) rfl rfl rfl,
   ⟨⟨rfl, rfl, rfl⟩, ⟨rfl, rfl⟩, (by decide)⟩,
   meets_of _ _ _ _ _ _ ⟨rfl, rfl, rfl⟩ rfl rfl (by decide) rfl rfl rfl,
   meets_of _ _ _ _ _ _ ⟨rfl, rfl, rfl⟩ rfl rfl (by decide) rfl rfl rfl,
   ⟨⟨rfl, rfl, rfl⟩, ⟨rfl, rfl⟩, (by decide)⟩,
   meets_of _ _ _ _ _ _ ⟨rfl, rfl, rfl⟩ rfl rfl (by decide) rfl rfl rfl,
   meets_of _ _ _ _ _ _ ⟨rfl, rfl, rfl⟩ rfl rfl (by decide) rfl rfl rfl,
   meets_of _ _ _ _ _ _ ⟨rfl, rfl, rfl⟩ rfl rfl (by decide) rfl rfl rfl⟩

/-- The hypotheses of TableTraps are met. -/
theorem witness_TableTraps :
    ExtMay (setup id { wOne with s := [(4, 65536)] } gOne) tlbflushSpec (fun i => ¬asidOk i) (xT 0 0 0 7 (.v 0) (.s 4) (.v 0) (.v 0)) ∧
    ExtMay (setup id { wOne with s := [(4, 65536)] } gOne) asidretSpec (fun i => ¬asidOk i) (xT 0 0 0 7 (.s 5) (.s 4) (.v 0) (.v 0)) ∧
    ExtMay one bwsetSpec (fun i => ¬bwOk i) (xT 0 0 0 7 (.s 5) (.imm 8) (.imm 3) (.v 0)) ∧
    ExtMay one cgrpSpec (fun i => 32 ≤ i.a 0) (xT 0 0 0 7 (.s 5) (.imm 32) (.v 0) (.v 0)) ∧
    ExtMay one cgrpSpec (fun i => i.a 0 < 32 ∧ i.s.scopeOk i.c i.g.asid (i.a 0) = false) (xT 0 0 0 7 (.s 5) (.imm 31) (.v 0) (.v 0)) ∧
    ExtMay (setup id { wOne with s := [(4, 256)] } gOne) fxwinSpec (fun i => 256 ≤ i.a 0) (xT 0 0 0 7 (.s 5) (.s 4) (.v 0) (.v 0)) := by
  and_intros <;> exact ⟨⟨rfl, rfl, rfl⟩, ⟨rfl, rfl⟩, (by decide)⟩

/-- The hypotheses of SystemOnly are met. -/
theorem witness_TableTraps_system : Acts (setup id wOne { gOne with kernel := [] }).s 0 0 wOne { gOne with kernel := [] } ∧
    ({ gOne with kernel := [] } : Group).kernel.sys = false :=
  ⟨⟨rfl, rfl, rfl⟩, rfl⟩

/-- The hypotheses of MatrixPostsComplete are met: posted by each, and off, full and bad. -/
theorem witness_MatrixPostsComplete :
    ExtMay (setup (fun k => { k with tileTable := [(0, { TileEntry.unbound with bound := true, fmt := 9, rows := 16, cols := 32, rstride := 1 })] }) { wOne with s := [(4, 1024), (5, 65536), (6, 0)] } { gOne with nTile := 1 }) (fun x => mmaSpec 2 (.mma2 x) x) (fun i => elects i ∧ i.k.matUsed < 32 ∧ mmaFails 2 i = none) (lastX (xT 0 0 0 7 (.s 2) (.s 4) (.v 0) (.v 0))) ∧
    ExtMay (setup (fun k => { k with tileTable := [(0, { TileEntry.unbound with bound := true, fmt := 9, rows := 16, cols := 32, rstride := 1 })] }) { wOne with s := [(4, 1024), (5, 65536), (6, 0)] } { gOne with nTile := 1 }) (fun x => mmaSpec 3 (.mma3 x) x) (fun i => elects i ∧ i.k.matUsed < 32 ∧ mmaFails 3 i = none) (lastX (xT 0 0 0 7 (.s 2) (.s 4) (.v 0) (.v 0))) ∧
    ExtMay (setup (fun k => { k with tileTable := [(0, { TileEntry.unbound with bound := true, fmt := 9, rows := 16, cols := 32, rstride := 1 })] }) { wOne with s := [(4, 1024), (5, 65536), (6, 0)] } { gOne with nTile := 1 }) (fun x => mmaSpec 4 (.mma4 x) x) (fun i => elects i ∧ i.k.matUsed < 32 ∧ mmaFails 4 i = none) (lastX (xT 0 0 0 7 (.s 2) (.s 4) (.v 0) (.v 0))) ∧
    ExtMay (setup (fun k => { k with tileTable := [(0, { TileEntry.unbound with bound := true, fmt := 9, rows := 16, cols := 32, rstride := 1 })] }) { wOne with s := [(4, 1024), (5, 65536), (6, 0)] } { gOne with nTile := 1 }) (fun x => mmaSpec 5 (.mma5 x) x) (fun i => elects i ∧ i.k.matUsed < 32 ∧ mmaFails 5 i = none) (lastX (xT 0 0 0 7 (.s 2) (.s 4) (.v 0) (.v 0))) ∧
    ExtMay (setup (fun k => { k with tileTable := [(0, { TileEntry.unbound with bound := true, fmt := 9, rows := 16, cols := 32, rstride := 1 })] }) { wOne with s := [(4, 1024), (5, 65536), (6, 0)] } { gOne with nTile := 1 }) (fun x => mmaSpec 6 (.mma6 x) x) (fun i => elects i ∧ i.k.matUsed < 32 ∧ mmaFails 6 i = none) (lastX (xT 0 0 0 7 (.s 2) (.s 4) (.v 0) (.v 0))) ∧
    ExtMay (setup (fun k => { k with tileTable := [(0, { TileEntry.unbound with bound := true, fmt := 9, rows := 16, cols := 32, rstride := 1 })] }) { wOne with s := [(4, 1024), (5, 65536), (6, 0)] } { gOne with nTile := 1 }) (fun x => mmaSpec 7 (.mma7 x) x) (fun i => elects i ∧ i.k.matUsed < 32 ∧ mmaFails 7 i = none) (lastX (xT 0 0 0 7 (.s 2) (.s 4) (.v 0) (.v 0))) ∧
    ExtMay (setup (fun k => { k with tileTable := [(0, { TileEntry.unbound with bound := true, fmt := 9, rows := 16, cols := 32, rstride := 1 })] }) { wOne with s := [(4, 1024), (5, 65536), (6, 0)] } { gOne with nTile := 1 }) (fun x => mmaSpec 8 (.mma8 x) x) (fun i => elects i ∧ i.k.matUsed < 32 ∧ mmaFails 8 i = none) (lastX (xT 0 0 0 7 (.s 2) (.s 4) (.v 0) (.v 0))) ∧
    ExtMay (setup (fun k => { k with tileTable := [(0, { TileEntry.unbound with bound := true, fmt := 9, rows := 16, cols := 32, rstride := 1 })] }) { wOne with s := [(4, 1024), (5, 65536), (6, 70368744177664)] } { gOne with nTile := 1 }) (fun x => mmaSpec 16 (.mmaw x) x) (fun i => elects i ∧ i.k.matUsed < 32 ∧ mmaFails 16 i = none) (lastX (xT 0 0 0 7 (.s 2) (.s 4) (.v 0) (.v 0))) ∧
    ExtMay one (fun x => mmaSpec 2 (.mma2 x) x) (fun i => ¬elects i) (lastX (xT 0 0 0 3 (.s 2) (.s 4) (.v 0) (.v 0))) ∧
    ExtMay (setup (fun k => { k with tileTable := [(0, { TileEntry.unbound with bound := true, fmt := 9, rows := 16, cols := 32, rstride := 1 })], matQ := List.replicate 32 { gid := 0, tl := 0, seq := 1, pc := 0, slot := 0, posted := 0, what := .wbld false 0 none 0 64 } }) { wOne with s := [(4, 1024), (5, 65536), (6, 0)] } { gOne with nTile := 1 }) (fun x => mmaSpec 2 (.mma2 x) x) (fun i => elects i ∧ 32 ≤ i.k.matUsed) (lastX (xT 0 0 0 7 (.s 2) (.s 4) (.v 0) (.v 0))) ∧
    ExtMay (setup (fun k => { k with tileTable := [(0, { TileEntry.unbound with bound := true, fmt := 9, rows := 16, cols := 32, rstride := 1 })] }) { wOne with s := [(4, 1024), (5, 65536), (6, 70368744177664)] } { gOne with nTile := 1 }) (fun x => mmaSpec 2 (.mma2 x) x) (fun i => elects i ∧ i.k.matUsed < 32 ∧ (mmaFails 2 i).isSome = true) (lastX (xT 0 0 0 7 (.s 2) (.s 4) (.v 0) (.v 0))) := by
  and_intros <;> exact ⟨⟨rfl, rfl, rfl⟩, ⟨rfl, rfl⟩, by decide⟩

/-- The hypotheses of WeightsAndScansPost are met. -/
theorem witness_WeightsAndScansPost :
    ExtMeets (setup id { wOne with s := [(4, 0), (6, 0), (8, 64)] } gOne) wbldSpec (fun i => wbldFails i = none ∧ i.k.matUsed < 32) (numbered (pushMat wbldCmd (fun i => ((wbFrom i).takeSeq i.c i.w.gid (wbTl i)).1)) (fun i => ((wbFrom i).takeSeq i.c i.w.gid (wbTl i)).2)) (xT 0 0 0 7 (.s 2) (.s 4) (.s 6) (.s 8)) ∧
    ExtMeets (setup (fun k => { k with matQ := List.replicate 32 { gid := 0, tl := 0, seq := 1, pc := 0, slot := 0, posted := 0, what := .wbld false 0 none 0 64 } }) { wOne with s := [(4, 0), (6, 0), (8, 64)] } gOne) wbldSpec (fun i => wbldFails i = none ∧ 32 ≤ i.k.matUsed) noRoom (xT 0 0 0 7 (.s 2) (.s 4) (.s 6) (.s 8)) ∧
    ExtMay (setup id { wOne with s := [(4, 0), (6, 0), (8, 0)] } gOne) wbldSpec (fun i => (wbldFails i).isSome = true) (xT 0 0 0 7 (.s 2) (.s 4) (.s 6) (.s 8)) ∧
    ExtMeets (setup id { wOne with s := [(4, 64), (6, 65472)] } gOne) wbinvSpec wbinvOk (fun i => { i.res with s := pushMat wbinvCmd Issue.s i }) (xT 0 0 0 7 (.v 0) (.s 4) (.s 6) (.v 0)) ∧
    ExtMay (setup id { wOne with s := [(4, 32), (6, 64)] } gOne) wbinvSpec (fun i => i.a 0 % 64 ≠ 0) (xT 0 0 0 7 (.v 0) (.s 4) (.s 6) (.v 0)) ∧
    ExtMeets (setup (fun k => { k with tileTable := [(0, { TileEntry.unbound with bound := true, rows := 16, cols := 32, rstride := 1 }), (1, { TileEntry.unbound with bound := true, rows := 16, cols := 32, rstride := 1 })] }) { wOne with s := [(4, 282578800082944), (5, 4294967296), (6, 0)] } { gOne with nTile := 2 }) scanSpec (fun i => elects i ∧ scanFails i = none ∧ i.k.scanQ.length < 16) (numbered (pushScan (fun i => (scanOf i).tl) scanCmd) (nextSeq (fun i => (scanOf i).tl))) (xT 0 0 0 7 (.s 2) (.s 4) (.v 0) (.v 0)) ∧
    ExtMeets (setup (fun k => { k with tileTable := [(0, { TileEntry.unbound with bound := true, rows := 16, cols := 32, rstride := 1 }), (1, { TileEntry.unbound with bound := true, rows := 16, cols := 32, rstride := 1 })], scanQ := List.replicate 16 { gid := 0, tl := 0, seq := 1, pc := 0, slot := 0, posted := 0, deny := false, what := .scanst TileEntry.unbound.ref TileEntry.unbound.ref } }) { wOne with s := [(4, 282578800082944), (5, 4294967296), (6, 0)] } { gOne with nTile := 2 }) scanSpec (fun i => elects i ∧ scanFails i = none ∧ 16 ≤ i.k.scanQ.length) noRoom (xT 0 0 0 7 (.s 2) (.s 4) (.v 0) (.v 0)) ∧
    ExtMeets one scanSpec (fun i => ¬elects i) Issue.res (xT 0 0 0 3 (.s 2) (.s 4) (.v 0) (.v 0)) ∧
    ExtMay (setup id { wOne with s := [(4, 0)] } gOne) scanSpec (fun i => elects i ∧ (scanFails i).isSome = true) (xT 0 0 0 7 (.s 2) (.s 4) (.v 0) (.v 0)) ∧
    ExtMeets (setup (fun k => { k with tileTable := [(0, { TileEntry.unbound with bound := true, rows := 16, cols := 32, rstride := 1 }), (1, { TileEntry.unbound with bound := true, rows := 16, cols := 32, rstride := 1 })] }) wOne { gOne with nTile := 2 }) scanstSpec (fun i => scanstFails i = none ∧ i.k.scanQ.length < 16) (numbered (pushScan ssTl scanstCmd) (nextSeq ssTl)) (xT 0 0 0 7 (.s 2) (.imm 0) (.imm 1) (.v 0)) ∧
    ExtMeets (setup (fun k => { k with tileTable := [(0, { TileEntry.unbound with bound := true, rows := 16, cols := 32, rstride := 1 }), (1, { TileEntry.unbound with bound := true, rows := 16, cols := 32, rstride := 1 })], scanQ := List.replicate 16 { gid := 0, tl := 0, seq := 1, pc := 0, slot := 0, posted := 0, deny := false, what := .scanst TileEntry.unbound.ref TileEntry.unbound.ref } }) wOne { gOne with nTile := 2 }) scanstSpec (fun i => scanstFails i = none ∧ 16 ≤ i.k.scanQ.length) noRoom (xT 0 0 0 7 (.s 2) (.imm 0) (.imm 1) (.v 0)) ∧
    ExtMay (setup id wOne { gOne with nTile := 2 }) scanstSpec (fun i => (scanstFails i).isSome = true) (xT 0 0 0 7 (.s 2) (.imm 0) (.imm 1) (.v 0)) := 
  ⟨meets_of _ _ _ _ _ _ ⟨rfl, rfl, rfl⟩ rfl rfl (by decide) rfl rfl rfl,
   meets_of _ _ _ _ _ _ ⟨rfl, rfl, rfl⟩ rfl rfl (by decide) rfl rfl rfl,
   ⟨⟨rfl, rfl, rfl⟩, ⟨rfl, rfl⟩, (by decide)⟩,
   meets_of _ _ _ _ _ _ ⟨rfl, rfl, rfl⟩ rfl rfl (by decide) rfl rfl rfl,
   ⟨⟨rfl, rfl, rfl⟩, ⟨rfl, rfl⟩, (by decide)⟩,
   meets_of _ _ _ _ _ _ ⟨rfl, rfl, rfl⟩ rfl rfl (by decide) rfl rfl rfl,
   meets_of _ _ _ _ _ _ ⟨rfl, rfl, rfl⟩ rfl rfl (by decide) rfl rfl rfl,
   meets_of _ _ _ _ _ _ ⟨rfl, rfl, rfl⟩ rfl rfl (by decide) rfl rfl rfl,
   ⟨⟨rfl, rfl, rfl⟩, ⟨rfl, rfl⟩, (by decide)⟩,
   meets_of _ _ _ _ _ _ ⟨rfl, rfl, rfl⟩ rfl rfl (by decide) rfl rfl rfl,
   meets_of _ _ _ _ _ _ ⟨rfl, rfl, rfl⟩ rfl rfl (by decide) rfl rfl rfl,
   ⟨⟨rfl, rfl, rfl⟩, ⟨rfl, rfl⟩, (by decide)⟩⟩

/-- The hypotheses of CopyPostsComplete are met. -/
theorem witness_CopyPostsComplete :
    ExtMeets (setup id { wOne with s := [(9, 1)] } gOne) cpostSpec (fun i => elects i ∧ i.k.copyQ.length < 64 ∧ slateFails i = none) (numbered (fun i => (slatePosted i).1) (fun i => (slatePosted i).2)) (lastX (xT 0 0 0 7 (.s 2) (.s 4) (.v 0) (.v 0))) ∧
    ExtMay (setup (fun k => { k with copyQ := List.replicate 64 { cid := 0, gid := 0, asid := 1, tl := 0, seq := 1, pc := 0, poster := 0, eng := 0, wide := false, what := .slate [], src := none, dst := none, dstTaskRead := false } }) { wOne with s := [(9, 1)] } gOne) cpostSpec (fun i => elects i ∧ 64 ≤ i.k.copyQ.length) (lastX (xT 0 0 0 7 (.s 2) (.s 4) (.v 0) (.v 0))) ∧
    ExtMay (setup id { wOne with s := [(9, 0)] } gOne) cpostSpec (fun i => elects i ∧ i.k.copyQ.length < 64 ∧ (slateFails i).isSome = true) (lastX (xT 0 0 0 7 (.s 2) (.s 4) (.v 0) (.v 0))) ∧
    ExtMeets one cpostSpec (fun i => ¬elects i) Issue.res (lastX (xT 0 0 0 3 (.s 2) (.s 4) (.v 0) (.v 0))) ∧
    ExtMeets (setup id { wOne with s := [(4, 4503599627370492)] } gOne) redSpec redOk redResult (xT 0 0 0 7 (.v 0) (.s 4) (.v 6) (.v 0)) ∧
    ExtMeets one redflushSpec (fun i => flushFails i = none ∧ i.g.flushes.length < 4) (numbered (fun i => (flushStart i).1) (fun i => (flushStart i).2)) (xT 0 0 0 7 (.s 2) (.v 0) (.v 0) (.v 0)) ∧
    ExtMeets (setup id wOne { gOne with flushes := List.replicate 4 { tl := 0, seq := 1, pc := 0, wide := false, cscope := 0, slot := 0, cid := 0, waits := [1], failed := none } }) redflushSpec (fun i => flushFails i = none ∧ 4 ≤ i.g.flushes.length) noRoom (xT 0 0 0 7 (.s 2) (.v 0) (.v 0) (.v 0)) ∧
    ExtMay (setup id wOne { gOne with nTl := 0 }) redflushSpec (fun i => (flushFails i).isSome = true) (xT 0 0 0 7 (.s 2) (.v 0) (.v 0) (.v 0)) ∧
    ExtMeets (setup id { wOne with s := [(4, 4503599627370492)] } gOne) amoSpec (fun i => elects i ∧ amoFails i = none ∧ i.k.copyQ.length < 64) (numbered amoPosted (nextSeq amoTl)) (xT 0 0 0 7 (.s 2) (.s 4) (.imm 1) (.v 0)) ∧
    ExtMeets (setup (fun k => { k with copyQ := List.replicate 64 { cid := 0, gid := 0, asid := 1, tl := 0, seq := 1, pc := 0, poster := 0, eng := 0, wide := false, what := .slate [], src := none, dst := none, dstTaskRead := false } }) { wOne with s := [(4, 4503599627370492)] } gOne) amoSpec (fun i => elects i ∧ amoFails i = none ∧ 64 ≤ i.k.copyQ.length) noRoom (xT 0 0 0 7 (.s 2) (.s 4) (.imm 1) (.v 0)) ∧
    ExtMeets one amoSpec (fun i => ¬elects i) Issue.res (xT 0 0 0 3 (.s 2) (.s 4) (.imm 1) (.v 0)) ∧
    ExtMay (setup id { wOne with s := [(4, 4503599627370496)] } gOne) amoSpec (fun i => elects i ∧ (amoFails i).isSome = true) (xT 0 0 0 7 (.s 2) (.s 4) (.imm 1) (.v 0)) ∧
    ExtMeets one cfenceSpec (fun i => cfenceFails i = none) cfenceResult (xT 2 0 0 7 (.v 0) (.v 0) (.v 0) (.v 0)) ∧
    ExtMay one cfenceSpec (fun i => (cfenceFails i).isSome = true) (xT 124 0 0 7 (.v 0) (.v 0) (.v 0) (.v 0)) ∧
    ExtMeets one cpstatSpec statLine cpstatResult (xT 0 0 0 7 (.s 2) (.v 0) (.v 0) (.v 0)) ∧
    ExtMay (setup id wOne { gOne with nTl := 0 }) cpstatSpec (fun i => ¬statLine i) (xT 0 0 0 7 (.s 2) (.v 0) (.v 0) (.v 0)) := 
  ⟨meets_of _ _ _ _ _ _ ⟨rfl, rfl, rfl⟩ rfl rfl (by decide) rfl rfl rfl,
   ⟨⟨rfl, rfl, rfl⟩, ⟨rfl, rfl⟩, (by decide)⟩,
   ⟨⟨rfl, rfl, rfl⟩, ⟨rfl, rfl⟩, (by decide)⟩,
   meets_of _ _ _ _ _ _ ⟨rfl, rfl, rfl⟩ rfl rfl (by decide) rfl rfl rfl,
   meets_of _ _ _ _ _ _ ⟨rfl, rfl, rfl⟩ rfl rfl (by decide) rfl rfl rfl,
   meets_of _ _ _ _ _ _ ⟨rfl, rfl, rfl⟩ rfl rfl (by decide) rfl rfl rfl,
   meets_of _ _ _ _ _ _ ⟨rfl, rfl, rfl⟩ rfl rfl (by decide) rfl rfl rfl,
   ⟨⟨rfl, rfl, rfl⟩, ⟨rfl, rfl⟩, (by decide)⟩,
   meets_of _ _ _ _ _ _ ⟨rfl, rfl, rfl⟩ rfl rfl (by decide) rfl rfl rfl,
   meets_of _ _ _ _ _ _ ⟨rfl, rfl, rfl⟩ rfl rfl (by decide) rfl rfl rfl,
   meets_of _ _ _ _ _ _ ⟨rfl, rfl, rfl⟩ rfl rfl (by decide) rfl rfl rfl,
   ⟨⟨rfl, rfl, rfl⟩, ⟨rfl, rfl⟩, (by decide)⟩,
   meets_of _ _ _ _ _ _ ⟨rfl, rfl, rfl⟩ rfl rfl (by decide) rfl rfl rfl,
   ⟨⟨rfl, rfl, rfl⟩, ⟨rfl, rfl⟩, (by decide)⟩,
   meets_of _ _ _ _ _ _ ⟨rfl, rfl, rfl⟩ rfl rfl (by decide) rfl rfl rfl,
   ⟨⟨rfl, rfl, rfl⟩, ⟨rfl, rfl⟩, (by decide)⟩⟩

/-- The hypotheses of GroupPostsComplete are met. -/
theorem witness_GroupPostsComplete :
    ExtMeets one tskpostSpec TaskPlain (numbered taskSent (fun _ => 1)) (xT 0 0 0 7 (.s 2) (.imm 0) (.imm 128) (.imm 3)) ∧
    ExtMeets (setupIn (fun s => s.modLq 1 2 (fun l => { l with en := true, owner := true, log2n := 4, base := 2 ^ 30, tail := 15 })) id { wOne with s := [(4, 1073741952), (6, 256)] } gOne) launchSpec (fun i => elects i ∧ calm i ∧ launchOk i ∧ ringRoom i) (numbered sheetPosted (fun _ => 1)) (xT 1 0 0 7 (.s 2) (.s 4) (.imm 2) (.s 6)) ∧
    ExtMeets (setup id wOne { gOne with castOpen := true }) itemputSpec castRoom (numbered castGrown (fun i => (castItems i).length)) (xT 0 0 0 7 (.s 2) (.imm 7) (.v 0) (.v 0)) ∧
    ExtMeets one itemputSpec (fun i => i.g.castOpen = false ∧ castItems i ≠ []) (numbered Issue.s (fun _ => 2 ^ 64 - 1)) (xT 0 0 0 7 (.s 2) (.imm 7) (.v 0) (.v 0)) ∧
    ExtMeets (setup id { wOne with s := [(4, 5764607523034234880)] } gOne) collSpec (fun i => elects i ∧ collFails i = none ∧ collRoom i) (numbered (fun i => (collPosted i).1) (fun i => (collPosted i).2)) (xT 0 0 0 7 (.s 2) (.s 4) (.v 0) (.v 0)) ∧
    ExtMeets (setupIn (fun s => s.modDie 0 (fun d => { d with coll := (List.range 64).map (fun n => (n, { core := 0, gid := 0, asid := 1, cid := 0, tl := 0, seq := 1, pc := 0, slot := 0, blk := [], key := { tag := 0, k := 0 }, members := [], wide := false, srcTile := none, dstTile := none, dstTaskRead := false, phase := 0, src := none, status := 0, addr := 0, space := 0, told := [], fseq := none, grants := 0, asked := false, reads := [], wrote := [], paid := [] })) })) id { wOne with s := [(4, 5764607523034234880)] } gOne) collSpec (fun i => elects i ∧ collFails i = none ∧ ¬collRoom i) (numbered quiet (fun _ => 0)) (xT 0 0 0 7 (.s 2) (.s 4) (.v 0) (.v 0)) ∧
    ExtMay (setup id { wOne with s := [(4, 6917529027641081856)] } gOne) collSpec (fun i => elects i ∧ (collFails i).isSome = true) (xT 0 0 0 7 (.s 2) (.s 4) (.v 0) (.v 0)) ∧
    ExtMeets one collSpec (fun i => ¬elects i) Issue.res (xT 0 0 0 3 (.s 2) (.s 4) (.v 0) (.v 0)) ∧
    ExtMeets one tskpostSpec (fun i => elects i ∧ taskFails i = none) (numbered (fun i => (taskOk i).1) (fun i => (taskOk i).2)) (xT 0 0 0 7 (.s 2) (.imm 0) (.imm 128) (.imm 3)) ∧
    ExtMay (setup id { wOne with s := [(4, 192)] } gOne) tskpostSpec (fun i => elects i ∧ (taskFails i).isSome = true) (xT 0 0 0 7 (.s 2) (.imm 0) (.imm 128) (.s 4)) ∧
    ExtMeets one tskpostSpec (fun i => ¬elects i) Issue.res (xT 0 0 0 3 (.s 2) (.imm 0) (.imm 128) (.imm 3)) ∧
    ExtMeets (setupIn (fun s => s.modLq 1 2 (fun l => { l with en := true, owner := true, log2n := 4, base := 2 ^ 30, tail := 15 })) id { wOne with s := [(4, 1073741952), (6, 256)] } gOne) launchSpec (fun i => elects i ∧ launchOk i ∧ ¬launchFull i) (numbered launchPosted (fun _ => 1)) (xT 1 0 0 7 (.s 2) (.s 4) (.imm 2) (.s 6)) ∧
    ExtMeets (setupIn (fun s => s.modLq 1 2 (fun l => { l with en := true, owner := true, log2n := 4, base := 2 ^ 30, tail := 16 })) id { wOne with s := [(4, 1073741952), (6, 256)] } gOne) launchSpec (fun i => elects i ∧ launchOk i ∧ launchFull i) (numbered quiet (fun _ => 0)) (xT 1 0 0 7 (.s 2) (.s 4) (.imm 2) (.s 6)) ∧
    ExtMay (setupIn (fun s => s.modLq 1 2 (fun l => { l with en := true, owner := true, log2n := 4, base := 2 ^ 30, tail := 0 })) id { wOne with s := [(4, 1073741952), (6, 256)] } gOne) launchSpec (fun i => elects i ∧ ¬launchOk i) (xT 1 0 0 7 (.s 2) (.s 4) (.imm 3) (.s 6)) ∧
    ExtMeets one launchSpec (fun i => ¬elects i) Issue.res (xT 1 0 0 3 (.s 2) (.s 4) (.imm 2) (.s 6)) ∧
    ExtMeets one itemputSpec (fun _ => True) (numbered (fun i => (itemPut i).1) (fun i => (itemPut i).2)) (xT 0 0 0 7 (.s 2) (.imm 7) (.v 0) (.v 0)) := 
  ⟨meets_of _ _ _ _ _ _ ⟨rfl, rfl, rfl⟩ rfl rfl ⟨by decide, by decide, by decide, by decide, by decide, by decide, by decide, by decide, by decide, by decide⟩ rfl rfl rfl,
   meets_of _ _ _ _ _ _ ⟨rfl, rfl, rfl⟩ rfl rfl (by decide) rfl rfl rfl,
   meets_of _ _ _ _ _ _ ⟨rfl, rfl, rfl⟩ rfl rfl (by decide) rfl rfl rfl,
   meets_of _ _ _ _ _ _ ⟨rfl, rfl, rfl⟩ rfl rfl (by decide) rfl rfl rfl,
   meets_of _ _ _ _ _ _ ⟨rfl, rfl, rfl⟩ rfl rfl (by decide) rfl rfl rfl,
   meets_of _ _ _ _ _ _ ⟨rfl, rfl, rfl⟩ rfl rfl (by decide) rfl rfl rfl,
   ⟨⟨rfl, rfl, rfl⟩, ⟨rfl, rfl⟩, (by decide)⟩,
   meets_of _ _ _ _ _ _ ⟨rfl, rfl, rfl⟩ rfl rfl (by decide) rfl rfl rfl,
   meets_of _ _ _ _ _ _ ⟨rfl, rfl, rfl⟩ rfl rfl (by decide) rfl rfl rfl,
   ⟨⟨rfl, rfl, rfl⟩, ⟨rfl, rfl⟩, (by decide)⟩,
   meets_of _ _ _ _ _ _ ⟨rfl, rfl, rfl⟩ rfl rfl (by decide) rfl rfl rfl,
   meets_of _ _ _ _ _ _ ⟨rfl, rfl, rfl⟩ rfl rfl (by decide) rfl rfl rfl,
   meets_of _ _ _ _ _ _ ⟨rfl, rfl, rfl⟩ rfl rfl (by decide) rfl rfl rfl,
   ⟨⟨rfl, rfl, rfl⟩, ⟨rfl, rfl⟩, (by decide)⟩,
   meets_of _ _ _ _ _ _ ⟨rfl, rfl, rfl⟩ rfl rfl (by decide) rfl rfl rfl,
   meets_of _ _ _ _ _ _ ⟨rfl, rfl, rfl⟩ rfl rfl trivial rfl rfl rfl⟩

/-- The hypotheses of GroupPostsComplete's first clause are met. -/
theorem witness_coll_plain : ∃ n m e,
    ExtMeets (setup id { wOne with s := [(4, 5764607523034234880)] } gOne) collSpec (fun i => CollPlain i n m e)
      (numbered (fun i => (i.s.postColl i n (blockOf 4 i) e).1) (fun i => (i.s.postColl i n (blockOf 4 i) e).2)) (xT 0 0 0 7 (.s 2) (.s 4) (.v 0) (.v 0)) :=
  ⟨0, 0, { cores := [0], peers := [], tag := 0xFFFC, wide := false }, meets_of _ _ _ _ _ _ ⟨rfl, rfl, rfl⟩ rfl rfl
    ⟨by decide, by decide, rfl, by rfl, by rfl, rfl, rfl, by decide, by decide, by decide, by decide⟩ rfl rfl rfl⟩

/-- The hypotheses of StackHash's clause on eight pages are met. -/
theorem witness_StackHash : (2 ^ 36 - 8) % 8 = 0 ∧ 2 ^ 36 - 8 + 8 ≤ 2 ^ 36 ∧ stackOf ((2 ^ 36 - 8 + 7) * 2 ^ 16) ≠ stackOf ((2 ^ 36 - 8) * 2 ^ 16) := by decide

/-- The hypotheses of PcntCountsLanes are met: once by PCNT of p0, negated, and once by a PCNT under a guard. -/
theorem witness_PcntCountsLanes :
    ExtMay one pcntSpec (fun _ => True) { xOf (.s 6) (.v 0) (.v 0) (.v 0) 0 with mods3 := 8 } ∧
    (xT 0 0 0 3 (.s 6) (.v 0) (.v 0) (.v 0)).guard ≠ { neg := false, p := 7 } ∧
    (countedLanes one.w { xOf (.s 6) (.v 0) (.v 0) (.v 0) 0 with mods3 := 8 }).length = 32 :=
  ⟨⟨⟨rfl, rfl, rfl⟩, ⟨rfl, rfl⟩, trivial⟩, by decide, by decide⟩

/-- The hypotheses of ElectChoosesLane are met, with every lane eligible and with none. -/
theorem witness_ElectChoosesLane :
    ExtMay one electSpec (fun _ => True) (xOf (.s 5) (.v 0) (.v 0) (.v 0) 0) ∧
    ExtMay one electSpec (fun _ => True) (xT 0 0 0 3 (.s 5) (.v 0) (.v 0) (.v 0)) :=
  ⟨⟨⟨rfl, rfl, rfl⟩, ⟨rfl, rfl⟩, trivial⟩, ⟨⟨rfl, rfl, rfl⟩, ⟨rfl, rfl⟩, trivial⟩⟩

/-- A state whose next turn issues IADD v3, v2, 1. -/
def sIssue : State := State.reset.withFetchWord 32 0x71040C80
/-- The same, its turn taken off the agenda. -/
def sIssue0 : State := ((sIssue.begin []).pass 2).inTurn (.issue 0 0)
/-- The hypotheses of StepRunsDecoded are met. -/
theorem witness_StepRunsDecoded :
    sIssue.agenda = { dt := 2, act := .issue 0 0 } :: [] ∧ ((sIssue.begin []).pass 2).late (.issue 0 0) = false ∧ MayIssue sIssue0 0 0 0 wOne gOne ∧
    CodeHolds sIssue0 0 gOne wOne.pc.toNat [0x71040C80#32]
      (.iaddAlu { bnd := false, k := false, dst := .v 3, a := .v 2, b := .imm 0x11, lit := none }) ∧
    sIssue0.inPlace 0 wOne (.iaddAlu { bnd := false, k := false, dst := .v 3, a := .v 2, b := .imm 0x11, lit := none }) = false := by
  refine ⟨rfl, rfl, ⟨by decide, by decide, rfl, rfl, rfl, rfl, rfl, rfl, rfl, rfl, rfl⟩, ⟨⟨0x71040C80#32, rfl, by decide⟩, ?_, ?_, by decide⟩, by decide⟩
  · intro n h; obtain rfl : n = 0 := by simpa using h
    decide
  · intro n h; obtain rfl : n = 0 := by simpa using h
    decide
/-- The same warp with v2 still on its way. -/
def wStill : Warp := { wOne with due := [(.v 2, 100)] }
/-- The same state, v2 still on its way. -/
def sStill : State := sIssue.setWarp 0 0 wStill
/-- Its turn taken off the agenda. -/
def sStill0 : State := ((sStill.begin []).pass 2).inTurn (.issue 0 0)
/-- The hypotheses of StepRunsDecoded's clause on an instruction that waits in place are met. -/
theorem witness_StepRunsDecoded_inPlace :
    sStill.agenda = { dt := 2, act := .issue 0 0 } :: [] ∧ ((sStill.begin []).pass 2).late (.issue 0 0) = false ∧ MayIssue sStill0 0 0 0 wStill gOne ∧
    CodeHolds sStill0 0 gOne wStill.pc.toNat [0x71040C80#32]
      (.iaddAlu { bnd := false, k := false, dst := .v 3, a := .v 2, b := .imm 0x11, lit := none }) ∧
    sStill0.inPlace 0 wStill (.iaddAlu { bnd := false, k := false, dst := .v 3, a := .v 2, b := .imm 0x11, lit := none }) = true := by
  refine ⟨rfl, rfl, ⟨by decide, by decide, rfl, rfl, rfl, rfl, rfl, rfl, rfl, rfl, rfl⟩, ⟨⟨0x71040C80#32, rfl, by decide⟩, ?_, ?_, by decide⟩, by decide⟩
  · intro n h; obtain rfl : n = 0 := by simpa using h
    decide
  · intro n h; obtain rfl : n = 0 := by simpa using h
    decide

/-- A state whose next turn is a grip's, which runs g.evt x0. -/
def sGrip : State := State.reset.withFetchWord 32 0x0000302B
/-- The same, its turn taken off the agenda. -/
def sGrip0 : State := ((sGrip.begin []).pass 2).inTurn (.grip 0 0)
/-- The hypotheses of StepRunsGripsAndEvents are met. -/
theorem witness_StepRunsGripsAndEvents :
    (sGrip.agenda = { dt := 2, act := .grip 0 0 } :: [] ∧ ((sGrip.begin []).pass 2).late (.grip 0 0) = false ∧ sGrip0.pkg.frozen = false ∧ sGrip0.pkg.tripped = false ∧
      ((sGrip0.core 0).grip 0).run = 1 ∧ ((sGrip0.core 0).grip 0).wtag = none ∧
      ∃ i, ((sGrip0.core 0).grip 0).fetch = .ok i ∧ (∀ r ∈ gripRegs i, r = 0 ∨ r ∉ ((sGrip0.core 0).grip 0).awaits) ∧ ∃ t, exec i { sGrip0 with cur := .grip 0 0 } = .next t) ∧
    (Instr.wf .coldReset = true ∧ mayHappen State.reset .coldReset = true) :=
  ⟨⟨rfl, rfl, rfl, rfl, by decide, by decide, ⟨_, rfl, by decide, ⟨_, rfl⟩⟩⟩, by decide, by decide⟩

/-- The hypotheses of ChecksRaiseTheirTraps are met: RECAST without a predicate, a target or BND. -/
theorem witness_ChecksRaiseTheirTraps :
    let x := xOf (.v 0) (.v 0) (.v 0) (.v 0) 0
    Acts one.s 0 0 one.w one.g ∧ (checkTrap (recastSpec (xOf (.v 0) (.v 0) (.v 0) (.v 0) 0)) false (mkIssue one.s 0 0 one.w one.g (recastSpec (xOf (.v 0) (.v 0) (.v 0) (.v 0) 0)).shape x (extLen x))).isSome = true :=
  ⟨⟨rfl, rfl, rfl⟩, by decide⟩

/-- The trap of a TRAP instruction with code 5. -/
def tFive : Trap := { cause := 0x32, tval := 5 }
/-- A package whose vector of that cause is 0x10000. -/
def uVector : Setup := setupIn (fun s => s.modPkg (fun p => { p with hbm := [(8 * 0x32 + 2, 1)] })) id wOne gOne
/-- The hypotheses of TrapEntry are met. -/
theorem witness_TrapEntry :
    uVector.s.warp? 0 0 = some wOne ∧ uVector.s.group? 0 wOne.gid = some gOne ∧ wOne.handler = false ∧ wOne.storeQ = [] ∧
    wOne.tframe.toNat + 0x400 ≤ gOne.scrSize ∧ uVector.s.vector gOne tFive.cause = some 0x10000 ∧
    Memory.wf (uVector.s.core 0).scratch = true := ⟨rfl, rfl, rfl, rfl, by decide, by decide, rfl⟩

/-- The hypotheses of TrapBecomesMachine are met: in handler state, with a frame that does not fit, and with no vector. -/
theorem witness_TrapBecomesMachine :
    (let u := setup id { wOne with handler := true } gOne
     u.s.warp? 0 0 = some u.w ∧ u.s.group? 0 u.w.gid = some u.g ∧ u.w.storeQ = [] ∧ u.w.handler = true) ∧
    (let u := setup id { wOne with tframe := 0x3FC40 } gOne
     u.s.warp? 0 0 = some u.w ∧ u.s.group? 0 u.w.gid = some u.g ∧ u.w.storeQ = [] ∧ u.g.scrSize < u.w.tframe.toNat + 0x400) ∧
    (one.s.warp? 0 0 = some one.w ∧ one.s.group? 0 one.w.gid = some one.g ∧ one.w.storeQ = [] ∧ one.s.vector one.g tFive.cause = none) :=
  ⟨⟨rfl, rfl, rfl, rfl⟩, ⟨rfl, rfl, rfl, by decide⟩, ⟨rfl, rfl, rfl, by decide⟩⟩

/-- The hypotheses of FixedRegistersHold are met at the boundary of their ranges. -/
theorem witness_FixedRegistersHold : (62 : Nat) ≠ 63 ∧ (31 : Nat) < 32 ∧ (6 : Nat) ≠ 7 := by decide

/-- The hypotheses of StepsKeepMemoriesCanonical are met. -/
theorem witness_StepsKeepMemoriesCanonical : Canonical State.reset ∧ ∃ t, step State.reset = .next t :=
  ⟨⟨rfl, rfl, fun _ => rfl, fun _ => rfl, fun _ => rfl, fun _ => rfl, fun _ _ => rfl, fun _ _ => rfl, fun _ => rfl⟩, ⟨_, rfl⟩⟩

/-- The hypotheses of EncodedWordsDecode are met. -/
theorem witness_EncodedWordsDecode :
    let i := Instr.iaddExt (xOf (.v 255) (.s 63) (.imm 0x100) (.v 0) 0x3FF)
    i.wf = true ∧ encode i ≠ [] ∧ i.isGrip = false := by decide

/-- Grip 0 of core 0, in state `x`, acts for group `g`, the core changed by `f`. -/
def gripAt (f : Core → Core) (x : Grip) (g : Group) : State :=
  let s := (setup (fun k => f { k with grips := [(0, x)] }) wOne g).s
  { s with cur := .grip 0 0 }
/-- A running grip whose mtvec is 0x100, with registers `r`. -/
def xWith (r : Tab DWord) : Grip := { Grip.reset with gid := some 0, run := 1, mtvec := 0x100, x := r }
/-- The hypotheses of GripIntegerCompletes are met, with a branch taken and one not taken. -/
theorem witness_GripIntegerCompletes :
    GripActs (gripAt id (xWith []) gOne) 0 0 0 (xWith []) gOne ∧ (xWith []).mtvec ≠ 0 ∧
    rvGoes .bge ((xWith []).reg 0) ((xWith [(31, 0)]).reg 31) ∧ ¬rvGoes .bltu ((xWith []).reg 0) ((xWith []).reg 0) :=
  ⟨⟨rfl, rfl, rfl, rfl⟩, by decide, Int.le_refl _, Nat.lt_irrefl _⟩

/-- The grip's registers: 0x13FF8, the last dword of the data store, and 0x20000000, the first of the scratchpad. -/
def xMem : Grip := xWith [(1, 0x13FF8), (2, 0x20000000)]
/-- The same with a full store queue, and with a reservation. -/
def xFull : Grip := { xMem with storeQ := List.replicate 16 { seq := 0, counted := false, body := .arrive 0 1 } }
/-- The same with a reservation on that dword. -/
def xHeld : Grip := { xMem with resv := some (2 ^ 32 + 0x3FF8, 8) }
/-- The hypotheses of GripMemoryCompletes are met by each clause. -/
theorem witness_GripMemoryCompletes :
    let s := gripAt id xMem gOne
    let xWait := { xMem with storeQ := [{ seq := 0, counted := false, body := .resv false 8 3 0 0 }], sqSeq := 1 }
    GripActs s 0 0 0 xMem gOne ∧ GripActs (gripAt id xFull gOne) 0 0 0 xFull gOne ∧ GripActs (gripAt id xHeld gOne) 0 0 0 xHeld gOne ∧
    (gripEa xMem 1 0 % 2 ^ (3 : BitVec 2).toNat = 0 ∧ behindAtomic s 0 0 0 gOne (gripEa xMem 1 0) (2 ^ (3 : BitVec 2).toNat) = false ∧
      gripLoad (s.core 0) 0 0 gOne (gripEa xMem 1 0) (2 ^ (3 : BitVec 2).toNat) = some (0, false)) ∧
    behindAtomic (gripAt id xWait gOne) 0 0 0 gOne (gripEa xWait 2 0) (2 ^ (3 : BitVec 2).toNat) = true ∧
    placeOf s 0 0 gOne (gripEa xMem 1 0) (2 ^ (3 : BitVec 2).toNat) = .dstore 0x3FF8 ∧
    (placeOf s 0 0 gOne (gripEa xMem 2 0) (2 ^ (3 : BitVec 2).toNat) = .loc 0 ∧ 0 < gOne.scrSize ∧ xMem.storeQ.length < 16 ∧ 16 ≤ xFull.storeQ.length) ∧
    ((xMem.reg 1).toNat % 8 = 0 ∧ placeOf s 0 0 gOne (xMem.reg 1).toNat 8 = .dstore 0x3FF8 ∧
      (gripQuiet s 0 0 false false).poison.contains (0x3FF8 / 8) = false) ∧
    (¬reserved s 0 0 false false (resvData + 0x3FF8) 8 ∧ reserved (gripAt id xHeld gOne) 0 0 false false (resvData + 0x3FF8) 8) ∧
    csrRead 0 0 xMem 0xB03 = some 0 ∧ csrRead 0 0 xMem 0x305 = some 0x100 :=
  ⟨⟨rfl, rfl, rfl, rfl⟩, ⟨rfl, rfl, rfl, rfl⟩, ⟨rfl, rfl, rfl, rfl⟩, ⟨by decide, by decide, by decide⟩, by decide, by decide,
    ⟨by decide, by decide, by decide, by decide⟩, ⟨by decide, by decide, by decide⟩,
    ⟨(by rintro ⟨b, m, h, -⟩; revert h; change ¬((none : Option (Nat × Nat)) = some (b, m)); exact nofun), ⟨resvData + 0x3FF8, 8, rfl, by decide, by decide⟩⟩,
    by decide, by decide⟩

/-- The hypotheses of GripExceptionsAreTaken are met: a misaligned address, one past the data store, a poisoned dword, the instruction store, a CSR
that is not a grip's and one that is read-only, a timeline and a barrier beyond the group's, and a free barrier. -/
theorem witness_GripExceptionsAreTaken :
    let x := { xWith [(1, 0x13FF9), (2, 0x14000), (3, 0x13FF8), (4, 200)] with poison := [0x7FF] }
    let s := gripAt id x { gOne with nBar := 1, nTl := 1 }
    GripActs s 0 0 0 x { gOne with nBar := 1, nTl := 1 } ∧ x.mtvec ≠ 0 ∧ gripEa x 1 0 % 2 ^ (3 : BitVec 2).toNat ≠ 0 ∧
    gripLoad (s.core 0) 0 0 gOne (gripEa x 2 0) (2 ^ (3 : BitVec 2).toNat) = none ∧
    gripLoad (s.core 0) 0 0 gOne (gripEa x 3 0) (2 ^ (3 : BitVec 2).toNat) = some (0, true) ∧
    placeOf s 0 0 gOne (gripEa x 0 0) (2 ^ (3 : BitVec 2).toNat) = .istore 0 ∧ placeOf s 0 0 gOne (gripEa x 2 0) (2 ^ (3 : BitVec 2).toNat) = .none ∧
    csrRead 0 0 x 0x7FF = none ∧ csrRead 0 0 x 0xC00 = some 0 ∧ 1 ≤ (x.reg 4).toNat ∧
    ((x.reg 0).toNat < 1 ∧ (Group.bar { gOne with nBar := 1, nTl := 1 } (x.reg 0).toNat).expected = 0) :=
  ⟨⟨rfl, rfl, rfl, rfl⟩, by decide, by decide, by decide, by decide, by decide, by decide, by decide, by decide, by decide, ⟨by decide, by decide⟩⟩

/-- A group with a timeline at 5, another held below a failure, and a barrier that expects 2. -/
def gGrip : Group := { gOne with
  nTl := 2, nBar := 1, bars := [(0, { phase := 5, expected := 2, arrived := 0 })]
  tls := [(0, { value := 5, next := 6, ended := [], counts := [] }), (1, { value := 1, next := 3, ended := [(2, 3)], counts := [] })] }
/-- Its grip: a timeline number, a value below and above VALUE, a slate's address, and 0. -/
def xGrip : Grip := xWith [(1, 1), (2, 5), (3, 6), (4, 0x3F80)]
/-- Its core, the slate's extent at its place and word 0 full. -/
def kGrip (k : Core) : Core := { k with scratch := [(0x3FA8, 1)], full := [0] }
/-- The hypotheses of GripCustomCompletes are met by each clause. -/
theorem witness_GripCustomCompletes :
    let s := gripAt kGrip xGrip gGrip
    let e := gripAt id xGrip gGrip
    GripActs s 0 0 0 xGrip gGrip ∧ GripActs e 0 0 0 xGrip gGrip ∧
    64 ≤ ((gripAt (fun k => { k with copyQ := List.replicate 64 { cid := 0, gid := 0, asid := 1, tl := 0, seq := 1, pc := 0, poster := 0, eng := 0, wide := false, what := .slate [], src := none, dst := none, dstTaskRead := false } }) xGrip gGrip).core 0).copyQ.length ∧
    ((s.core 0).copyQ.length < 64 ∧ imageTrap (s.gripDrain 0 0) 0 0 0 gGrip (xGrip.reg 4).toNat 16 = none ∧
      slateCheck (s.gripDrain 0 0) 0 gGrip 0 ((localDwords ((s.gripDrain 0 0).core 0) gGrip (xGrip.reg 4).toNat 16).map (BitVec.ofNat 64)) = none) ∧
    ((xGrip.reg 1).toNat < gGrip.nTl ∧ (gGrip.tl (xGrip.reg 1).toNat).blocked = true) ∧
    ((xGrip.reg 2).toNat ≤ (gGrip.tl (xGrip.reg 0).toNat).value ∧ (gGrip.tl (xGrip.reg 0).toNat).value < (xGrip.reg 3).toNat ∧
      (gGrip.tl (xGrip.reg 0).toNat).blocked = false) ∧
    (localOk (s.core 0) 0 gGrip (xGrip.reg 0).toNat 4 false = true ∧ wordsReady ((s.gripDrain 0 0).core 0) (tagWords gGrip (xGrip.reg 0).toNat 4) true = true ∧
      someoneFirst ((s.gripDrain 0 0).core 0) (.grip 0) (tagWords gGrip (xGrip.reg 0).toNat 4) = false ∧
      localPoison ((s.gripDrain 0 0).core 0) gGrip (xGrip.reg 0).toNat = false) ∧
    wordsReady ((e.gripDrain 0 0).core 0) (tagWords gGrip (xGrip.reg 0).toNat 4) false = true ∧
    (∃ r, (s.gripDrain 0 0).postTask 0 gGrip 0 128 3 0xFF 4 = .ok r) ∧
    ((gGrip.bar (xGrip.reg 0).toNat).expected ≠ 0 ∧ xGrip.storeQ.length < 16) :=
  ⟨⟨rfl, rfl, rfl, rfl⟩, ⟨rfl, rfl, rfl, rfl⟩, by decide, ⟨by decide, rfl, rfl⟩, ⟨by decide, by decide⟩, ⟨by decide, by decide, by decide⟩,
    ⟨by decide, by decide, by decide, by decide⟩, by decide, ⟨_, rfl⟩, ⟨by decide, by decide⟩⟩

/-- The hypotheses of NothingIsRefused's clauses are met. -/
theorem witness_NothingIsRefused :
    (encode (.nopExt extZero) ≠ [] ∧ Instr.isGrip (.nopExt extZero) = false ∧ Acts one.s 0 0 one.w one.g) ∧
    (Instr.isGrip (.gEvt 0) = true ∧ GripActs (gripAt id xMem gOne) 0 0 0 xMem gOne) ∧
    (encode .coldReset = [] ∧ Instr.isGrip .coldReset = false ∧ Owned State.reset) :=
  ⟨⟨by decide, rfl, ⟨rfl, rfl, rfl⟩⟩, ⟨rfl, ⟨rfl, rfl, rfl, rfl⟩⟩, ⟨rfl, rfl, ⟨fun _ _ _ h => (by cases h), fun c g h => (by cases h)⟩⟩⟩

/-- A warp that waits in an instruction. -/
def waitsAt (i : Instr) : Waiting := { instr := i, len := 12, start := 0, tag := none, lns := [], flushes := 0 }
/-- It on core 0, changed by `f`, its group `g`. -/
def uWait (i : Instr) (f : Warp → Warp) (g : Group) : Setup := setup id { f wOne with waiting := some (waitsAt i) } g
/-- The instruction's operands: timeline or barrier 0, and 5. -/
def xWait : Ext := lastX (xT 0 0 0 7 (.s 2) (.imm 0) (.imm 5) (.v 0))
/-- A group with a timeline at 1, held there by a failure, a barrier in phase 6, and a queue with an item. -/
def gWait : Group := { gOne with
  nTl := 1, tls := [(0, { value := 1, next := 4, ended := [(2, 3)], counts := [] })], nBar := 1, bars := [(0, { phase := 6, expected := 2, arrived := 0 })]
  castOpen := true, castQ := [7], castNew := 0 }
/-- A warp waits in `i`, and `p` holds of the package, the warp and the group. -/
def WaitsWith (u : Setup) (i : Instr) (p : Prop) : Prop := WaitsIn u.s 0 0 u.w u.g (waitsAt i) i ∧ p
/-- The hypotheses of WaitsEndByTheirEvents are met by each clause. -/
theorem witness_WaitsEndByTheirEvents :
    let u := fun i => uWait i id gWait
    WaitsWith (u (.ldsfExt xWait)) (.ldsfExt xWait) True ∧ WaitsWith (u (.waitc xWait)) (.waitc xWait) (wOne.waitcDone xWait = true) ∧
    WaitsWith (u (.tlwait xWait)) (.tlwait xWait) (eventSrc (u (.tlwait xWait)).s 0 0 gWait wOne xWait cntPos64 xWait.a ≤ (gWait.tl (tlField xWait)).value) ∧
    WaitsWith (u (.tlwait xWait)) (.tlwait xWait) ((gWait.tl (tlField xWait)).blocked = true) ∧
    WaitsWith (u (.bwait xWait)) (.bwait xWait) ((gWait.bar (eventSrc (u (.bwait xWait)).s 0 0 gWait wOne xWait cntPos xWait.a)).past
      (eventSrc (u (.bwait xWait)).s 0 0 gWait wOne xWait cntPos xWait.b) ≠ 0) ∧
    WaitsWith (u (.recast xWait)) (.recast xWait) (gWait.castNew < gWait.castQ.length) ∧
    WaitsWith (uWait (.recast xWait) id { gOne with castOpen := false, castNew := 0 }) (.recast xWait) True ∧
    WaitsWith (u (.cpost xWait)) (.cpost xWait) (((u (.cpost xWait)).s.core 0).copyQ.length < 64) ∧
    WaitsWith (u (.mma2 xWait)) (.mma2 xWait) (((u (.mma2 xWait)).s.core 0).matUsed < 32) ∧
    WaitsWith (u (.fence xWait)) (.fence xWait) (wOne.storeQ = []) ∧ WaitsWith (u (.icinv xWait)) (.icinv xWait) True ∧
    WaitsWith (u (.sgwr xWait)) (.sgwr xWait) True ∧ WaitsWith (u (.tlbsync xWait)) (.tlbsync xWait) ((u (.tlbsync xWait)).s.flushesDone 0 = true) := by
  and_intros <;> first | exact ⟨rfl, rfl, ⟨rfl, rfl, rfl, rfl, rfl⟩, rfl, rfl⟩ | exact trivial | decide | rfl

/-- A tag wait of a warp whose word is not full, and whose limit of 256 cycles has passed. -/
def uTag : Setup := setup (fun k => { k with taglim := 1, cycle := 256 }) { wOne with waiting := some { waitsAt (.ldsfExt xWait) with
  tag := some (true, 4), lns := [{ lane := 0, addr := 0x40, operand := 0, cmp := 0 }, { lane := 31, addr := 0x44, operand := 0, cmp := 0 }] } } gOne
/-- A grip that waits for word 0 to become full, its instruction g.ldf x3, x1; the same limit. -/
def xTag : Grip := { xWith [(1, 0x20000000)] with wtag := some (0x20000000, true), istore := [(0, 0x8B), (1, 0xB1)] }
/-- Its package. -/
def sTag : State := gripAt (fun k => { k with taglim := 1, cycle := 256 }) xTag gOne
/-- A scheduler whose warp stands at a breakpoint, with TRAPBP as `t` says. -/
def sHit (t : Bool) : State :=
  (setup (fun k => { k with bpen := 8, bpa := [(3, wOne.pc)], trapbp := t, scheds := [(0, { k.sched 0 with cur := some 0, midRun := true })] }) wOne gOne).s
/-- Warps 0 and 15 of scheduler 0, `w` the first's, with the scheduler as `f` makes it. -/
def sPick (w : Warp) (f : Scheduler → Scheduler) : State :=
  (setup (fun k => { k with warps := [(0, w), (15, wOne)], scheds := [(0, f (k.sched 0))] }) w gOne).s
/-- The hypotheses of WarpEventsComplete are met by each clause. -/
theorem witness_WarpEventsComplete :
    (let u := setup id { wOne with pend := some tFive } gOne
     u.s.mayRun 0 0 = true ∧ u.s.warp? 0 0 = some u.w ∧ u.w.pend = some tFive) ∧
    (∃ t a, WaitsIn uTag.s 0 0 uTag.w uTag.g t (.ldsfExt xWait) ∧ t.tag.isSome = true ∧ limitReached (uTag.s.core 0) t.start ∧
      (lateLanes (uTag.s.core 0) uTag.w uTag.g t ++ waitLanes uTag.w t).head? = some a ∧ a.addr = 0x40) ∧
    (((sTag.core 0).grip 0).wtag = some (0x20000000, true) ∧ ((sTag.core 0).grip 0).run = 1 ∧
      limitReached (sTag.core 0) ((sTag.core 0).grip 0).wstart ∧ ((sTag.core 0).grip 0).mtvec ≠ 0) ∧
    (GripActs { sTag with cur := .grip 0 0 } 0 0 0 xTag gOne ∧ xTag.run = 1 ∧ xTag.wtag.isSome = true ∧ xTag.fetch = .ok (.gLdf 3 1)) ∧
    ((sHit true).hitOf 0 0 = some 3 ∧ (((sHit true).core 0).sched 0).cur = some 0 ∧ (sHit true).mayRun 0 0 = true ∧ ((sHit true).core 0).trapbp = true) ∧
    ((sHit false).hitOf 0 0 = some 3 ∧ (((sHit false).core 0).sched 0).cur = some 0 ∧ (sHit false).mayRun 0 0 = true ∧ ((sHit false).core 0).trapbp = false) ∧
    (one.s.group? 0 0).isSome = true ∧
    (let s := sPick wOne (fun k => { k with midRun := false, cur := some 0, runs := 15 })
     ((s.core 0).sched 0).midRun = false ∧ readyOf s 0 0 0 ∧ ¬(((s.core 0).sched 0).yielded = true ∨ 16 ≤ ((s.core 0).sched 0).runs)) ∧
    (let s := sPick { wOne with since := 1 } (fun k => { k with midRun := false, cur := some 0, runs := 16 })
     ((s.core 0).sched 0).midRun = false ∧ readyOf s 0 0 15 ∧ ((s.core 0).sched 0).cur ≠ some 15 ∧ 16 ≤ ((s.core 0).sched 0).runs ∧ waitedLonger s 0 15 15) ∧
    (let s := setup (fun k => { k with scheds := [(0, { k.sched 0 with midRun := false, cur := some 0, yielded := true })] }) wOne gOne
     readyOf s.s 0 0 0 ∧ ((s.s.core 0).sched 0).yielded = true ∧ ((s.s.core 0).sched 0).midRun = false) ∧
    (sbUp (one.s.modPkg (fun p => { p with links := [(1, .up)], bootState := 4 })) ∧ ¬sbUp State.reset) := by
  refine ⟨by decide, ⟨_, _, ⟨rfl, rfl, ⟨rfl, rfl, rfl, rfl, rfl⟩, rfl, rfl⟩, by decide, by decide, rfl, rfl⟩, by decide, ⟨⟨rfl, rfl, rfl, rfl⟩, by decide, by decide, rfl⟩,
    by decide, by decide, by decide, by decide, by decide, by decide, by decide, by decide⟩



/-- A store-queue entry. -/
def sqOf (b : SqBody) : SqEntry := { seq := 0, counted := true, body := b }
/-- A warp with one entry in its store queue. -/
def uStore (b : SqBody) : Setup := setup id { wOne with storeQ := [sqOf b], st := 1 } { gOne with nBar := 1, bars := [(0, { phase := 1, expected := 2, arrived := 1 })] }
/-- A grip with one. -/
def xStore (b : SqBody) (r : Option (Nat × Nat)) : Grip := { xMem with storeQ := [sqOf b], resv := r }
/-- An atomic add of 5 to the first word of scratchpad, whose old value register 3 takes. -/
def addFive : SqBody := .atomic 0 4 false [{ lane := 0, addr := 0, operand := 5, cmp := 0 }] (some 3)
/-- An outstanding LDS of two lanes, as far as they have read. -/
def loadOf (a b : Option (Nat × Bool)) : LoadOp :=
  { id := 0, kind := .lds, helpers := 0, dst := 8, size := 4, sext := false, seq := 0, lns := [{ lane := 0, ea := 0x40, got := a }, { lane := 31, ea := 0x44, got := b }], bad := none }
/-- A warp with it. -/
def uLoad (o : LoadOp) : Setup := setup id { wOne with loads := [o], ld := 1 } gOne
/-- An outstanding load of kind `k` and width `n` whose one lane has read `v`. -/
def landOf (k : LoadKind) (n : Nat) (sx : Bool) (v : Nat) : LoadOp :=
  { id := 0, kind := k, helpers := 0, dst := 8, size := n, sext := sx, seq := 0, lns := [{ lane := 31, ea := 0x40, got := some (v, false) }], bad := none }
/-- Its clause on landing is met. -/
abbrev Lands (o : LoadOp) (v : Nat) : Prop :=
  (uLoad o).w.loads[0]? = some o ∧ o.kind.changesTags = false ∧ (∃ u, o.lns.find? (fun u => u.lane == 31) = some u ∧ u.got = some (v, false)) ∧
  (o.size = 8 → o.sext = false) ∧ o.bad = none ∧ o.lns.filter (fun x => x.lane != 31) = []
/-- An outstanding tile or accumulator access. -/
def tileOf (k : TileKind) : TileOp :=
  { id := 0, kind := k, tile := TileEntry.unbound.ref, handle := 3, row := 0, woff := 0, count := 1, dst := 8, mask := 0, helpers := 0, regs := [], ticket := 0, seen := [] }
/-- A warp with it, first in the accumulator's order. -/
def uTile (k : TileKind) : Setup := setup (fun k => { k with accOrder := [(3, [0])] }) { wOne with tiles := [tileOf k], tl := 1 } gOne
/-- A home line of ASID 1 that may be written without a translation. -/
def homeZero : HomeLine := { asid := 1, line := 0, sector := 0, w := true, tv := true, dirty := false, data := List.replicate 128 0, poison := [] }
/-- A reduction entry on it. -/
def redZero : RedEntry := { slot := 0, gid := 0, asid := 1, va := 0, op := 0, size := 4, nat := false, val := 5 }
/-- An AMO on its last dword. -/
def amoZero : AmoArgs := { op := 0, size := 8, nat := false, win := false, tc := 0, addr := 120, operand := 1, cmp := 0, slot := 0, reg := 5, scope := 0 }
/-- A command of group 0. -/
def cmdOf (w : CmdWhat) : Cmd :=
  { cid := 0, gid := 0, asid := 1, tl := 0, seq := 1, pc := 0, poster := 0, eng := 2, wide := false, what := w, src := none, dst := none, dstTaskRead := false }
/-- A package with that line, and with a contribution that has been sent and the AMO in a context. -/
def sAtom : State :=
  let x := { EngCtx.reset with phase := .running, grants := 1, cmd := some (cmdOf (.amo amoZero)) }
  let r : Contribution := { id := 1, gids := [0], entry := redZero, sent := true, last := false }
  (setupIn (fun s => s.modDie 0 (fun d => { d with home := [homeZero] })) (fun k => { k with contribs := [r], ctxs := [(15, x)] }) wOne gOne).s
/-- A guest line with one write-through to come, or with none and a flush that drops it. -/
def guestZero (d : Option Nat) : GuestLine :=
  { asid := 1, line := 0, gen := 0, data := List.replicate 128 0, poison := [], wts := [{ core := 0, gid := 0, cid := 0, unit := 0, off := 0, bytes := [1], bad := false }], sent := true, drop := d }
/-- A die that holds it. -/
def sGuest (d : Option Nat) : State := one.s.modDie 3 (fun k => { k with guest := [guestZero d] })
/-- An 8-byte LDS lands. -/
theorem lands_lds8 : Lands (landOf .lds 8 false (2 ^ 63)) (2 ^ 63) := ⟨rfl, rfl, ⟨_, rfl, rfl⟩, by decide, rfl, rfl⟩
/-- A sign-extended LDS lands. -/
theorem lands_sext : Lands (landOf .lds 1 true 0x80) 0x80 := ⟨rfl, rfl, ⟨_, rfl, rfl⟩, by decide, rfl, rfl⟩
/-- LDSP lands, its word's tag full. -/
theorem lands_ldsp : Lands (landOf (.ldsp 6) 4 false (2 ^ 32)) (2 ^ 32) := ⟨rfl, rfl, ⟨_, rfl, rfl⟩, by decide, rfl, rfl⟩
/-- LDSF lands. -/
theorem lands_ldsf : Lands (landOf .ldsf 4 false 9) 9 := ⟨rfl, rfl, ⟨_, rfl, rfl⟩, by decide, rfl, rfl⟩
/-- ATS lands. -/
theorem lands_ats : Lands (landOf .ats 8 false 9) 9 := ⟨rfl, rfl, ⟨_, rfl, rfl⟩, by decide, rfl, rfl⟩
/-- The hypotheses of MemoryEventsComplete are met by each clause. -/
theorem witness_MemoryEventsComplete :
    (let u := uStore (.store [(0, 7), (0xFFFF, 8)])
     u.s.warp? 0 0 = some u.w ∧ u.s.group? 0 u.w.gid = some u.g ∧ u.w.storeQ = sqOf (.store [(0, 7), (0xFFFF, 8)]) :: []) ∧
    (let u := uStore (.arrive 0 1)
     u.s.warp? 0 0 = some u.w ∧ u.s.group? 0 u.w.gid = some u.g ∧ u.w.storeQ = sqOf (.arrive 0 1) :: []) ∧
    (let x := xStore (.store [(0, 7)]) none
     GripActs (gripAt id x gOne) 0 0 0 x gOne ∧ x.storeQ = sqOf (.store [(0, 7)]) :: []) ∧
    (let u := setup id { wOne with storeQ := [sqOf addFive], loads := [{ landOf .ats 4 false 0 with id := 3 }], ld := 1 } gOne
     u.s.warp? 0 0 = some u.w ∧ u.s.group? 0 u.w.gid = some u.g ∧ u.w.storeQ = sqOf addFive :: [] ∧
      ∀ r ∈ (atomLanes gOne 0 4 false [{ lane := 0, addr := 0, operand := 5, cmp := 0 }] (u.s.core 0)).2, r.2.2 = false) ∧
    (let x := xStore addFive none
     GripActs (gripAt id x gOne) 0 0 0 x gOne ∧ (atomLanes gOne 0 4 false [{ lane := 0, addr := 0, operand := 5, cmp := 0 }] ((gripAt id x gOne).core 0)).2 = [(0, 0, false)]) ∧
    (let x := xStore (.resv false 4 3 0 0) none
     GripActs (gripAt id x gOne) 0 0 0 x gOne ∧ ∀ i < 4, localPoison ((gripAt id x gOne).core 0) gOne (0 + i) = false) ∧
    (let x := xStore (.resv true 4 3 0 9) (some (0, 4))
     GripActs (gripAt id x gOne) 0 0 0 x gOne ∧ x.resv = some (0, 4) ∧ 0 ≤ gOne.scrBase + 0 ∧ gOne.scrBase + 0 + 4 ≤ 0 + 4) ∧
    (let x := xStore (.resv true 4 3 0 9) (some (4, 4))
     GripActs (gripAt id x gOne) 0 0 0 x gOne ∧ x.resv = some (4, 4) ∧ gOne.scrBase + 0 < 4) ∧
    (let o := loadOf none none
     (uLoad o).s.warp? 0 0 = some (uLoad o).w ∧ (uLoad o).w.loads[0]? = some o ∧ turnOf (uLoad o).w 0 o { lane := 31, ea := 0x44, got := none } ∧
      loadValue ((uLoad o).s.core 0) gOne (uLoad o).w.storeQ o.seq 0x44 o.size = (0, false)) ∧
    (let o := loadOf (some (1, false)) (some (2, false))
     (uLoad o).w.loads[0]? = some o ∧ o.size ≠ 8 ∧ o.lns.filter (fun x => x.lane != 31) ≠ []) ∧
    (let o := { loadOf none none with lns := [{ lane := 31, ea := 0x44, got := some (2, false) }] }
     (uLoad o).w.loads[0]? = some o ∧ o.size ≠ 8 ∧ o.lns.filter (fun x => x.lane != 31) = []) ∧
    (let o := { loadOf none none with kind := .ldsp 2 }
     turnOf (uLoad o).w 0 o { lane := 31, ea := 0x44, got := none } ∧ readValue (uLoad o).s 0 gOne (uLoad o).w o { lane := 31, ea := 0x44, got := none } = (0, false)) ∧
    (Lands (landOf .lds 8 false (2 ^ 63)) (2 ^ 63) ∧ Lands (landOf .lds 1 true 0x80) 0x80 ∧ Lands (landOf (.ldsp 6) 4 false (2 ^ 32)) (2 ^ 32) ∧
      Lands (landOf .ldsf 4 false 9) 9 ∧ Lands (landOf .ats 8 false 9) 9) ∧
    ((uTile .tld).w.tiles[0]? = some (tileOf .tld) ∧ firstTile (uTile .tld).w 0 ∧ (uTile .tst).w.tiles[0]? = some (tileOf .tst) ∧ firstTile (uTile .tst).w 0 ∧
      firstAcc (uTile .ard).s 0 (tileOf .ard) ∧ firstAcc (uTile .awr).s 0 (tileOf .awr) ∧ firstAcc (uTile .aclr).s 0 (tileOf .aclr)) ∧
    (∃ x, (sAtom.core 0).contribs[0]? = some x ∧ x.sent = true ∧ ∀ gid ∈ x.gids, ∀ g, sAtom.group? 0 gid = some g → g.marks = []) ∧
    (∃ m a g s1 old, sAtom.amoOf 0 1 7 = some (m, a, g) ∧ ((sAtom.core 0).ctx 1 7).phase = .running ∧ ((sAtom.core 0).ctx 1 7).pre = 0 ∧
      ((sAtom.core 0).ctx 1 7).sent = 0 ∧ sAtom.spend 0 1 7 1 = some s1 ∧ a.win = false ∧
      (s1.atomFrom (dieOf 0) g.asid a.addr.toNat a.size (fun o => atomNew a.op (8 * a.size) a.nat o a.operand a.cmp)).2 = .old old) ∧
    (((sGuest none).die 3).guestLine 1 0 = some (guestZero none) ∧ ((sGuest (some 1)).die 3).guestLine 1 0 = some (guestZero (some 1)) ∧
      (guestZero none).wts.drop 1 = []) ∧
    ((State.reset.die (12 / 2 ^ 32)).scrubh ≠ 0 ∧ ((State.reset.modDie 0 (fun d => { d with scrubh := 0 })).die (12 / 2 ^ 32)).scrubh = 0) := by
  refine ⟨⟨rfl, rfl, rfl⟩, ⟨rfl, rfl, rfl⟩, ⟨⟨rfl, rfl, rfl, rfl⟩, rfl⟩, ⟨rfl, rfl, rfl, by decide⟩, ⟨⟨rfl, rfl, rfl, rfl⟩, rfl⟩, ⟨⟨rfl, rfl, rfl, rfl⟩, by decide⟩, ⟨⟨rfl, rfl, rfl, rfl⟩, by decide⟩,
    ⟨⟨rfl, rfl, rfl, rfl⟩, by decide⟩, ⟨rfl, rfl, by decide, rfl⟩, by decide, by decide, by decide, ⟨lands_lds8, lands_sext, lands_ldsp, lands_ldsf, lands_ats⟩, ⟨rfl, by decide, rfl, by decide, by decide, by decide, by decide⟩, ⟨_, rfl, rfl, ?_⟩, ⟨_, _, _, _, _, rfl, by rfl, by rfl, by rfl, rfl, by rfl, by rfl⟩,
    ⟨rfl, rfl, rfl⟩, by decide⟩
  intro gid h g hg
  obtain rfl : gid = 0 := by simpa using h
  obtain rfl : gOne = g := Option.some.inj hg
  rfl

/-- A slate of one element that moves VA 0 to local byte 0, with header `h`. -/
def slateH (h : DWord) : List DWord := [h, 0, 0, 0, 0, 1, 0, 0, 0, 0, 0, 0, 0, 0, 0, 0]
/-- Context 7 of engine 1 holds it, changed by `f`. -/
def sJob (h : DWord) (f : EngCtx → EngCtx) : State :=
  let x := { EngCtx.reset with phase := .running, cmd := some (cmdOf (.slate (slateH h))) }
  (setup (fun k => { k with ctxs := [(15, f x)] }) wOne gOne).s
/-- The same with the fault ring's sixteen entries but one taken. -/
def sBatch : State := (sJob 0x40 (fun x => { x with phase := .batchReady [0] })).modDie 0 (fun d => { d with fq := { d.fq with log2n := 4, tail := 15 } })
/-- A command of the copy queue. -/
def sQueued : State := (setup (fun k => { k with copyQ := [cmdOf (.slate (slateH 0x40))] }) wOne gOne).s
/-- A port whose class 7 has a request and one token, its buckets filled for period `e`. -/
def sPort (e : Nat) : State := (setup (fun k => { k with
  port := { k.port with buckets := [0, 0, 0, 0, 0, 0, 0, 1], waiting := [(7, 1, 7)], epoch := e, used := false } }) wOne gOne).s
/-- A packet of the command that has been under way since cycle 0. -/
def outZero : OutPacket :=
  { q := 0, core := 0, eng := 1, ctx := 7, cid := 0, unit := 0, count := 1, off := 0, kind := 0, flits := 1, born := 0, body := .write pktOne, stale := false }
/-- The limit of FTIMEOUT has passed for it, and no link to a companion processor has been up for 100 ms. -/
def sLate (h : DWord) : State :=
  let s := sJob h id
  { s with ucycle := 3300000, pkg := { s.pkg with ftimeout := 1000000, linksLost := 0, streams := [(1028, { s.stream 257 0 with unacked := [outZero] })] } }
/-- The hypotheses of CopyEventsComplete are met by each clause. -/
theorem witness_CopyEventsComplete :
    (∃ s1 m, ((sQueued.core 0).ctx 1 7).cmd = none ∧ sQueued.nextEntry 0 1 (sQueued.core 0).copyQ = (s1, some m)) ∧
    (let s := sJob 0x40 id
     ∃ m s1 va wr ix j, ((s.core 0).ctx 1 7).phase = .running ∧ ((s.core 0).ctx 1 7).cmd = some m ∧ s.absentPage 0 1 7 = (s1, some (va, wr, ix)) ∧ s1.job 0 1 7 = some j) ∧
    (∃ m j, holdsJob sBatch 0 1 7 m j ∧ ((sBatch.core 0).ctx 1 7).phase = .batchReady [0] ∧ (sBatch.die (dieOf 0)).fq.hasRoom = true ∧
      j.wroteAll sBatch (j.cleared sBatch) = true ∧ sBatch.cmdPending 0 1 7 m (fun o => o.kind != 1) = false) ∧
    (let s := sJob 0x40 (fun x => { x with pre := 1 })
     ∃ m j, holdsJob s 0 1 7 m j ∧ ((s.core 0).ctx 1 7).phase = .running ∧ j.wroteAll s j.f.units = true ∧ j.f.kind ≠ 4 ∧
      s.cmdPending 0 1 7 m (fun _ => true) = false ∧ ((s.core 0).ctx 1 7).poisonAt = none) ∧
    (let s := sJob 0x40 (fun x => { x with pre := 1, poisonAt := some (0, 0, 0) })
     ∃ m j, holdsJob s 0 1 7 m j ∧ ((s.core 0).ctx 1 7).phase = .running ∧ j.wroteAll s j.f.units = true ∧ j.f.kind ≠ 4 ∧
      s.cmdPending 0 1 7 m (fun _ => true) = false ∧ ((s.core 0).ctx 1 7).poisonAt = some (0, 0, 0)) ∧
    (let s := sJob 0x40 (fun x => { x with phase := .failed 0x10 0 0 0 })
     ∃ m j, holdsJob s 0 1 7 m j ∧ ((s.core 0).ctx 1 7).phase = .failed 0x10 0 0 0 ∧ j.wroteAll s 0 = true ∧
      s.cmdPending 0 1 7 m (fun o => decide (o.unit < 0) || (0x10 != 0x16 && !(s.overdue o))) = false) ∧
    (let s := sAtom.modCtx 0 1 7 (fun x => { x with pre := 1 })
     ∃ m a g, s.amoOf 0 1 7 = some (m, a, g) ∧ s.job 0 1 7 = none ∧ ((s.core 0).ctx 1 7).phase = .running ∧ a.win = false ∧ 1 ≤ ((s.core 0).ctx 1 7).pre ∧
      s.cmdPending 0 1 7 m (fun _ => true) = false ∧ ((s.core 0).ctx 1 7).poisonAt = none) ∧
    (((sPort 0).core 0).cycle.toNat % 1024 = 0 ∧ ((sPort 0).core 0).port.epoch ≠ ((sPort 0).core 0).cycle.toNat / 1024 + 1) ∧
    (((sPort 1).core 0).port.pick ((sPort 1).core 0).cycle.toNat = some 7 ∧ ((sPort 1).core 0).port.waiting.find? (fun r => r.1 == 7) = some (7, 1, 7)) ∧
    ((sLate 0x60).cidOf 0 1 7 = some 0 ∧ ((sLate 0x60).packetsOf 0 1 7 0).any (sLate 0x60).overdue = true ∧
      lowestPacket ((sLate 0x60).packetsOf 0 1 7 0) = some outZero) ∧
    (∃ j, (sLate 0x440).job 0 1 7 = some j ∧ (j.ctx (sLate 0x440)).phase = .running ∧ (sLate 0x440).pkg.linksLost + 3300000 ≤ (sLate 0x440).ucycle.toNat ∧
      j.f.ss = 4 ∧ j.f.ds ≠ 4 ∧ j.servable (sLate 0x440) false = false ∧ j.cleared (sLate 0x440) < j.f.units) ∧
    (∃ j, (sLate 0x80).job 0 1 7 = some j ∧ j.f.ds = 4 ∧ j.servable (sLate 0x80) true = false ∧ (j.ctx (sLate 0x80)).pre < j.f.units) := by
  refine ⟨⟨_, _, rfl, by rfl⟩, ⟨_, _, _, _, _, _, rfl, by rfl, by rfl, by rfl⟩, ⟨_, _, ⟨rfl, by rfl, rfl⟩, rfl, rfl, by rfl, by rfl⟩,
    ⟨_, _, ⟨rfl, by rfl, rfl⟩, rfl, by rfl, by decide, by rfl, rfl⟩, ⟨_, _, ⟨rfl, by rfl, rfl⟩, rfl, by rfl, by decide, by rfl, rfl⟩,
    ⟨_, _, ⟨rfl, by rfl, rfl⟩, rfl, by rfl, by rfl⟩, ⟨_, _, _, rfl, rfl, rfl, by rfl, by decide, by rfl, rfl⟩, by decide, by decide, ⟨rfl, by decide, by rfl⟩,
    ⟨_, rfl, by rfl, by decide, by rfl, by decide, by rfl, by decide⟩, ⟨_, rfl, by rfl, by rfl, by decide⟩⟩

/-- An MMA of accumulator 3, a WBLD of 64 bytes, and a WBINV, posted in cycle 0. -/
def matOf (w : MatWhat) : MatCmd := { gid := 0, tl := 0, seq := 1, pc := 0, slot := 0, posted := 0, what := w }
/-- The MMA. -/
def mmaZero : MatWhat := .mma 2 false [] 0 0 TileEntry.unbound.ref [(3, 0)]
/-- The WBLD. -/
def wbldZero : MatWhat := .wbld false 0 none 0 64
/-- A SCAN of two steps of one element, in chunks of `l`. -/
def scanZero (l : Nat) (deny : Bool) : ScanCmd :=
  { gid := 0, tl := 0, seq := 1, pc := 0, slot := 0, posted := 0, deny := deny, what := .scan [0, 0x200000000, 0] 1 1 l (List.replicate 6 TileEntry.unbound.ref) }
/-- A SCANST of two tiles. -/
def scanstZero : ScanCmd :=
  { gid := 0, tl := 0, seq := 1, pc := 0, slot := 0, posted := 0, deny := false, what := .scanst TileEntry.unbound.ref TileEntry.unbound.ref }
/-- A core in cycle 24, changed by `f`. -/
def kMat (f : Core → Core) : Core := (setup (fun k => f { k with cycle := 24 }) wOne gOne).s.core 0
/-- A command that has done `t` steps, the last in cycle 12. -/
def scanAt (t : Nat) : ScanRun := { scanBegun 0 t 0 0 [] [] with last := 12 }
/-- The hypotheses of MatrixEventsComplete are met by each clause. -/
theorem witness_MatrixEventsComplete :
    MmaStarts (kMat (fun k => { k with matQ := [matOf mmaZero], accOrder := [(3, [0])] })) (matOf mmaZero) [] [(3, 0)] ∧
    (let k := kMat (fun k => { k with scanQ := [scanZero 16 false], scanRun := some (scanAt 0) })
     k.chunkWaits = true ∧ k.mmaWaits = false ∧ k.arrayBusy = false ∧ k.scanRun = some (scanAt 0) ∧ k.scanQ = scanZero 16 false :: []) ∧
    (let b : MatBack := { cmd := matOf mmaZero, last := 12, writes := [], status := 0 }
     (kMat (fun k => { k with matBack := [b] })).matBack = b :: [] ∧ b.last + 12 ≤ (kMat id).cycle.toNat) ∧
    (kMat (fun k => { k with cycle := 128 })).gafWin ≠ (kMat (fun k => { k with cycle := 128 })).cycle.toNat / 128 ∧
    (let k := kMat (fun k => { k with matQ := [matOf wbldZero] })
     k.matQ = matOf wbldZero :: [] ∧ k.matRun = none ∧ 0 + 24 ≤ k.cycle.toNat) ∧
    (let k := kMat (fun k => { k with matQ := [matOf wbldZero], matRun := some { begun 0 with last := 12 } })
     k.matRun = some { begun 0 with last := 12 } ∧ 12 + 12 ≤ k.cycle.toNat) ∧
    (let u := setup (fun k => { k with matQ := [matOf (.wbinv 0 64)] }) wOne gOne
     (u.s.core 0).matQ = matOf (.wbinv 0 64) :: [] ∧ (u.s.core 0).matRun = none ∧ u.s.group? 0 0 = some gOne) ∧
    (let k := kMat (fun k => { k with scanQ := [scanZero 0 false] })
     let v := scanView [0, 0x200000000, 0] 1 1 (List.replicate 6 TileEntry.unbound.ref)
     k.scanRun = none ∧ k.scanQ = scanZero 0 false :: [] ∧ (∀ e ∈ v.elems, (scanWord k (v.tile 0) e.1 e.2).2 = false) ∧ v.elems = [(0, 0)]) ∧
    (kMat (fun k => { k with scanQ := [scanZero 0 true] })).scanQ = scanZero 0 true :: [] ∧
    (kMat (fun k => { k with scanQ := [scanstZero] })).scanQ = scanstZero :: [] ∧
    (let u := setup (fun k => { k with cycle := 24, scanQ := [scanZero 16 false], scanRun := some (scanAt 2) }) wOne gOne
     let v := scanView [0, 0x200000000, 0] 1 1 (List.replicate 6 TileEntry.unbound.ref)
     (u.s.core 0).scanRun = some (scanAt 2) ∧ u.s.group? 0 0 = some gOne ∧ v.a.t ≤ (scanAt 2).t ∧ (scanAt 2).outs = [] ∧ (scanAt 2).lanes = 0 ∧
      (scanAt 2).last + 12 ≤ (u.s.core 0).cycle.toNat ∧ v.a.rcd = false) ∧
    (let k := kMat (fun k => { k with scanQ := [scanstZero], scanRun := some (scanAt 0) })
     k.scanRun = some (scanAt 0) ∧ (scanAt 0).moves = [] ∧ (scanAt 0).lanes = 0 ∧ (scanAt 0).last + 12 ≤ k.cycle.toNat) := by
  refine ⟨⟨rfl, ⟨rfl, rfl, nofun⟩, by decide, by decide⟩, by decide, by decide, by decide, by decide, by decide, ⟨rfl, rfl, rfl⟩, ⟨rfl, rfl, by decide, by decide⟩, rfl, rfl,
    ⟨rfl, rfl, by decide, rfl, rfl, by decide, rfl⟩, by decide⟩

/-- A grid of one group of the tests' kernel on die 0, from entry 0 of queue 0. -/
def gridOne : Grid :=
  { src := .ring 1 0 0, recVa := 0, doneVa := 0, asid := 1, kid := 0, kernel := probeKernel, nWarps := 1, nGroups := 1, nClusters := 1, dies := [0], deadchk := false
    cast := false, args := [], prio := 1, state := 1, reason := 0, placed := 0, resident := 0, halted := 0, nfg := 0, gids := [], told := false }
/-- Its cluster, waiting. -/
def pendOne : Pending := { gridId := 5, die := 0, next := 0, waited := 2 ^ 20, age := 0, restore := none }
/-- A package in which it waits, group `g` of ASID 1 on core 0. -/
def sPend (g : Group) (p : Pending) : State :=
  (setup id wOne g).s.modPkg (fun k => { k with grids := [(5, gridOne)], pending := [p] })
/-- The same with every other core of the die held. -/
def sFull (g : Group) : State :=
  let s := sPend g pendOne
  { s with cores := (List.range 48).map (fun c => (c, if c = 0 then s.core 0 else { Core.reset with held := true })) }
/-- A group whose slice has ended. -/
def gSlice : Group := { gOne with tslice := 1, slice := 65536 }
/-- A halted group that RESTORE has asked for, and its place. -/
def haltOne : Halted := { gridId := 5, asid := 1, idgrid := 3, idgroup := 0, idclus := 3, cast := false, asked := true }
/-- The cluster that restores it in slot 0 of a core of die 0. -/
def pendBack : Pending := { pendOne with restore := some (0, 3, [(0, 0)], 0, [0]) }
/-- A package in which it waits. -/
def sBack : State := (sPend gOne pendBack).modPkg (fun k => { k with halted := [haltOne] })
/-- Queue 0 of ASID 1 with one entry to take. -/
def lqOne : LaunchQueue := { LaunchQueue.reset with en := true, log2n := 4, tail := 1 }
/-- A package with that queue, its line at home, a word of it poisoned as `b` says. -/
def sTake (l : LaunchQueue) (b : List Nat) : State :=
  (setupIn (fun s => s.modDie 0 (fun d => { d with home := [{ homeZero with poison := b }] })) id wOne gOne).s.modPkg (fun k => { k with lqs := [(8, l)] })
/-- A grid that has nothing left, its last STATUS written as `t` says. -/
def gridDone (t : Bool) (src : GridSrc) : Grid := { gridOne with told := t, src := src }
/-- Its package, with STATUS on its way home as `w` says. -/
def sEnd (g : Grid) (w : Bool) : State :=
  let t : WThrough := { core := 0x1FD, gid := 0, cid := 0, unit := 0, off := 0, bytes := [1], bad := false }
  (setupIn (fun s => s.modDie 0 (fun d => { d with guest := if w then [{ guestZero none with wts := [t], sent := false }] else [] })) id wOne gOne).s.modPkg
    (fun k => { k with grids := [(5, g)] })
/-- Two task messages of scheduler 0, from cores 0 and 1. -/
def msgOf (c : Nat) : TaskMsg := { rcd := [], asid := 1, poster := c, rank := c }
/-- A package with both on their way to core 7. -/
def sMsgs : State := one.s.modPkg (fun k => { k with arriving := [(7, msgOf 0), (7, msgOf 1)] })
/-- A task that waits for its place alone. -/
def taskOne : Task :=
  { num := 9, entry := 63, state := 1, rcd := [], asid := 1, poster := 0, reads := [], writes := [], waits := [], kernel := probeKernel, gid := 0, prio := 0, waited := 0 }
/-- A package with it on core 1. -/
def sTask : State := one.s.modCore 1 (fun k => { k with tasks := [taskOne] })
/-- The hypotheses of GroupEventsComplete are met by each clause. -/
theorem witness_GroupEventsComplete :
    ((sPend gOne pendOne).pkg.pending[0]? = some pendOne ∧ 2 ^ 20 ≤ pendOne.waited) ∧
    ((sFull gSlice).group? 0 0 = some gSlice ∧ gSlice.tslice ≠ 0 ∧ gSlice.tslice * 2 ^ 16 ≤ gSlice.slice ∧ gSlice.eligible = true ∧
      Waiter.cluster 0 ∈ (sFull gSlice).waiters ∧ neededBy (sFull gSlice) 0 0 (.cluster 0)) ∧
    ((setup id wOne gSlice).s.group? 0 0 = some gSlice ∧ ∀ w ∈ (setup id wOne gSlice).s.waiters, ¬neededBy (setup id wOne gSlice).s 0 0 w) ∧
    (∃ cs, (sPend gOne pendOne).gridOfPending 0 = some (pendOne, gridOne) ∧ (sPend gOne pendOne).clusterCores 0 gridOne [] = some cs ∧ pendOne.restore = none ∧
      (sPend gOne pendOne).mayPlace (.cluster 0) = true ∧ (sPend gOne pendOne).quietDie 0 = true) ∧
    ((sPend { gOne with saving := true } pendOne).group? 0 0 = some { gOne with saving := true } ∧
      (sFull gOne).group? 0 0 = some gOne ∧ gOne.saving = false ∧ (sFull gOne).outranked 0 0 gOne (.cluster 0) = true) ∧
    (let u := setup id { wOne with halted := true } gOne
     u.s.group? 0 0 = some gOne ∧ gOne.stopped = false ∧ (∀ p ∈ (u.s.core 0).warps, p.2.gid = 0 → p.2.halted = true) ∧ u.s.commandsDone 0 0 = true ∧ gOne.taskIdx = none) ∧
    (∃ a, sBack.gridOfPending 0 = some (pendBack, gridOne) ∧ sBack.pkg.halted.find? (fun h => h.gridId == 5 && h.idgrid == 3 && h.asked) = some haltOne ∧
      (sBack.core 47).fitSlots gOne.kernel [(0, 0)] = some a ∧ dieOf 47 ∈ [0] ∧ sBack.mayPlace (.cluster 0) = true) ∧
    (let u := setup id { wOne with active := 0, exited := BitVec.allOnes 32 } gOne
     u.s.group? 0 0 = some gOne ∧ mayRetire u.s 0 0 gOne ∧ gOne.err = false ∧ gOne.fatal = false) ∧
    (let g := { gOne with err := true }
     let u := setup id { wOne with active := 0, exited := BitVec.allOnes 32 } g
     u.s.group? 0 0 = some g ∧ mayRetire u.s 0 0 g) ∧
    (∃ t dw, mayTake (sTake lqOne []) 1 0 ∧ (sTake lqOne []).readRecord (homeOf 0) 1 0 = (t, .ok dw)) ∧
    (∃ t f, mayTake (sTake lqOne [15]) 1 0 ∧ (sTake lqOne [15]).readRecord (homeOf 0) 1 0 = (t, .error f)) ∧
    (let l := { lqOne with taken := 1, sheet := some { node := [], idx := 0, va := 0, prio := 0 } }
     (sTake l []).pkg.bootState = 4 ∧ ((sTake l []).lq 1 0).sheet = some { node := [], idx := 0, va := 0, prio := 0 }) ∧
    (let s := sEnd (gridDone false (.ring 1 0 0)) false
     Tab.get? s.pkg.grids 5 = some (gridDone false (.ring 1 0 0)) ∧ s.gridQuiet 5 (gridDone false (.ring 1 0 0)) = true) ∧
    (let g := gridDone true (.ring 1 0 0)
     (sEnd g true).gridQuiet 5 g = true ∧ (sEnd g true).statusPending 0 0 = true ∧ (sEnd g false).gridQuiet 5 g = true ∧ (sEnd g false).statusPending 0 0 = false) ∧
    (let g := gridDone true (.sheet 2 7)
     (sEnd g false).gridQuiet 5 g = true ∧ (sEnd g false).statusPending ((sEnd g false).gridHome g).2 g.recVa = false) ∧
    ((sentTo sMsgs 7)[1]? = some (7, msgOf 1) ∧ (∀ p ∈ (sentTo sMsgs 7).take 1, p.2.rank % 256 ≠ (msgOf 1).rank % 256) ∧ (sMsgs.core 7).tskRank ≤ (msgOf 1).rank ∧
      (sMsgs.core 7).freeEntries ≠ []) ∧
    (∃ a, sTask.task? 1 9 = some taskOne ∧ (sTask.core 1).fit taskOne.kernel (recWarps taskOne.rcd) = some a ∧ taskOne.ready = true ∧
      sTask.mayPlace (.task 1 9) = true ∧ sTask.quietDie (dieOf 1) = true) := by
  refine ⟨⟨rfl, by decide⟩, ⟨rfl, by decide, by decide, by decide, by decide, by decide⟩, ⟨rfl, by decide⟩, ⟨_, rfl, by rfl, rfl, by decide, by decide⟩, ⟨rfl, rfl, rfl, by decide⟩,
    ⟨rfl, rfl, by decide, by decide, rfl⟩, ⟨_, rfl, rfl, by rfl, by decide, by decide⟩, ⟨rfl, by decide, rfl, rfl⟩, ⟨rfl, by decide⟩, ⟨_, _, by decide, by rfl⟩,
    ⟨_, _, by decide, by rfl⟩, by decide, ⟨rfl, by decide⟩, by decide, by decide, ⟨rfl, by decide, by decide, by decide⟩, ⟨_, rfl, by rfl, by decide, by decide, by decide⟩⟩

/-- A package whose stream from device 0x101 is as `f` makes it, and whose inbound buffer of port 0, class 0 is at level `n`. -/
def sStream (n : Nat) (f : Target → Target) : State :=
  one.s.modPkg (fun p => { p with targets := [(1028, f Target.reset)], inbuf := [(0, n)] })
/-- A packet of a collective of the same stream. -/
def collPkt : CollPacket :=
  { port := 0, src := 0x101, tc := 0, q := 0, core := 0, cores := [0], key := { tag := 1, k := 0 }, header := 0, count := 0, root := 0, nmem := 2, off := 0, data := [], failed := false }
/-- A context of core 0 on die 0, with block `b` among members `ms`, in phase `ph`. -/
def collOne (b : List DWord) (ms : List Nat) (ph : Nat) : CollCtx :=
  { core := 0, gid := 0, asid := 1, cid := 0, tl := 0, seq := 1, pc := 0, slot := 0, blk := b, key := { tag := 1, k := 0 }, members := ms.map (fun c => (one.s.pkg.devid.toNat, c)), wide := false
    srcTile := none, dstTile := none, dstTaskRead := false, phase := ph, src := some { bytes := [1, 0, 0, 0], bad := [] }, status := 0, addr := 0, space := 0, told := []
    fseq := none, grants := 0, asked := false, reads := [], wrote := [], paid := [] }
/-- A package in which context 0 of die 0 is `x`. -/
def sColl (x : CollCtx) : State := one.s.modDie 0 (fun d => { d with coll := [(0, x)] })
/-- A barrier's block. -/
def blkBar : List DWord := [0x5000000000000000, 0, 0, 0]
/-- The block of a fold. -/
def blkFold : List DWord := [0x2000000006000000, 0, 0, 1]
/-- A package whose stream to device 0x101, class 0, and whose route there are as `f` and `r` say. -/
def sRoute (f : Stream → Stream) (r : Route) : State :=
  let s := one.s
  { s with ucycle := 100000, pkg := { s.pkg with streams := [(1028, f Stream.reset)], routes := [(257, r)] } }
/-- A route over ports 0 and 1. -/
def routeOne : Route := { Route.reset with primary := 0, second := 1 }
/-- A package with link 0 up and a line of ASID 1 at home, a word of it poisoned as `b` says. -/
def sComp (b : List Nat) : State :=
  (one.s.modDie 0 (fun d => { d with home := [{ homeZero with poison := b }] })).modPkg (fun p => { p with links := [(0, .up)] })
/-- An access of 4 bytes there. -/
def accOne (d : Option (List Byte)) : CompanionAccess := { link := 0, asid := 1, va := 0, len := 4, data := d }
/-- The hypotheses of FabricEventsComplete are met by each clause. -/
theorem witness_FabricEventsComplete :
    (let s := sStream 1 id
     comes s (.writePacket pktOne) (.write pktOne) ∧ aheadBy (arrived s (.write pktOne)) (.write pktOne) = 0 ∧ (arrived s (.write pktOne)).mustWait (.write pktOne) = false ∧
      (streamAt ((arrived s (.write pktOne)).performNext (.write pktOne)) (.write pktOne)).held = []) ∧
    (let r := Request.write { pktOne with q := 1023 }
     let s := sStream 0 id
     comes s (.writePacket { pktOne with q := 1023 }) r ∧ 1 ≤ aheadBy (arrived s r) r ∧ aheadBy (arrived s r) r ≤ 1023 ∧ ∀ x ∈ (streamAt (arrived s r) r).held, (streamOf x).2.2 ≠ (streamOf r).2.2) ∧
    (let r := Request.flag pktOne
     let s := { sStream 0 id with dies := [(0, { Die.reset with guest := [{ guestZero none with wts := [{ core := (streamWriter 257 0).core, gid := 0, cid := 0, unit := 0, off := 0, bytes := [1], bad := false }] }] })] }
     comes s (.flagPacket pktOne) r ∧ (arrived s r).mustWait r = true ∧ aheadBy (arrived s r) r ≤ 1023 ∧ ∀ x ∈ (streamAt (arrived s r) r).held, (streamOf x).2.2 ≠ (streamOf r).2.2) ∧
    (let r := Request.read { pktOne with q := 1024 }
     comes (sStream 0 id) (.readPacket { pktOne with q := 1024 }) r ∧ 1023 < aheadBy (arrived (sStream 0 id) r) r ∧ aheadBy (arrived (sStream 0 id) r) r < 2 ^ 31) ∧
    (let r := Request.flag { pktOne with q := -1024 }
     comes (sStream 0 id) (.flagPacket { pktOne with q := -1024 }) r ∧ 2 ^ 32 - 1024 ≤ aheadBy (arrived (sStream 0 id) r) r) ∧
    (let r := Request.atomic { pktOne with q := 2 ^ 31 }
     comes (sStream 0 id) (.atomicPacket { pktOne with q := 2 ^ 31 }) r ∧ 2 ^ 31 ≤ aheadBy (arrived (sStream 0 id) r) r ∧ aheadBy (arrived (sStream 0 id) r) r < 2 ^ 32 - 1024) ∧
    (isPacket (.writePacket pktOne) (.write pktOne) ∧ 2 ≤ (sStream 2 id).inLevel (portOf (.write pktOne)) (streamOf (.write pktOne)).2.1) ∧
    (let s := sStream 1 id
     s.inLevel collPkt.port collPkt.tc.toNat < 2 ∧ (s.target collPkt.src.toNat collPkt.tc.toNat).fresh = false ∧ (s.target collPkt.src.toNat collPkt.tc.toNat).next = collPkt.q ∧
      (s.target collPkt.src.toNat collPkt.tc.toNat).held = []) ∧
    (let x := collOne blkBar [0] 3
     Tab.get? ((sColl x).die 0).coll 0 = some x ∧ x.status = 0 ∧ x.phase = 3 ∧ (sColl x).collReady x 0 = true) ∧
    (let x := collOne blkBar [0] 4
     Tab.get? ((sColl x).die 0).coll 0 = some x ∧ x.status = 0 ∧ x.phase = 4 ∧ (sColl x).collOver 0 0 x = true) ∧
    (let x := { collOne blkBar [0] 1 with status := 0x19 }
     Tab.get? ((sColl x).die 0).coll 0 = some x ∧ x.status ≠ 0 ∧ (sColl x).collOver 0 0 x = true) ∧
    (let x := collOne blkFold [0, 191] 3
     let y := collOne blkBar [0] 3
     let s := one.s.modDie 0 (fun d => { d with coll := [(0, y), (1, x)] })
     (s.die 0).coll = [(0, y)] ++ (1, x) :: [] ∧ GatewayReady s { tag := 1, k := 0 } 0 3 x ∧ ∀ p ∈ [(0, y)], ¬GatewayReady s { tag := 1, k := 0 } 0 3 p.2) ∧
    ((one.s.die 3).mcast.filter (fun m => m.src == 0 && m.buffered)).length < 64 ∧
    (let s := sRoute (fun t => { t with hint := true, hintAt := 34464 }) routeOne
     (s.stream 257 0).hint = true ∧ (s.stream 257 0).hintAt + 65536 ≤ s.ucycle.toNat ∧ usesPort routeOne 1 ∧ ¬usesPort routeOne 2 ∧ Tab.get? s.pkg.routes 257 = some routeOne) ∧
    (let s := sRoute (fun t => { t with unacked := [outZero], ackAt := 34000 }) routeOne
     (s.stream 257 0).unacked ≠ [] ∧ (s.stream 257 0).ackAt + 66000 ≤ s.ucycle.toNat ∧ (s.route 257).allFailed = false) ∧
    (let s := sRoute id { routeOne with pf := true, sf := true, tried := 0 }
     (s.route 257).allFailed = true ∧ (s.route 257).tried + (s.route 257).interval ≤ s.ucycle.toNat) ∧
    (let s := (sComp []).modPkg (fun p => { p with asids := [(2, { AsidEntry.reset with state := 2 })] })
     (s.asid 2).state = 2 ∧ ∀ p ∈ (s.tlbFlush 2).dies, ∀ h ∈ p.2.guest, h.asid ≠ 2) ∧
    (Tab.getD one.s.pkg.links 0 LinkState.down ≠ .up ∧ Tab.getD (sComp []).pkg.links (accOne none).link LinkState.down = .up ∧ (accOne none).data = none) ∧
    (∃ t bs, (sComp []).readGood 1 5 0 4 = (t, some bs)) ∧ (∃ t, (sComp [0]).readGood 1 5 0 4 = (t, none)) ∧
    (∃ t, (sComp []).mayWriteSpan 1 2 0 4 = (t, none)) ∧ (∃ t e, (sComp []).mayWriteSpan 7 2 0 4 = (t, some e)) := by
  refine ⟨⟨⟨rfl, by decide⟩, by decide, by decide, by decide⟩, ⟨⟨rfl, by decide⟩, by decide, by decide, by decide⟩, ⟨⟨rfl, by decide⟩, by decide, by decide, by decide⟩,
    ⟨⟨rfl, by decide⟩, by decide, by decide⟩, ⟨⟨rfl, by decide⟩, by decide⟩, ⟨⟨rfl, by decide⟩, by decide, by decide⟩, ⟨rfl, by decide⟩, by decide, ?_, ?_, ?_, ?_, by decide,
    ?_, ?_, ?_, ?_, by decide, ⟨_, _, rfl⟩, ⟨_, rfl⟩, ⟨_, rfl⟩, ⟨_, _, rfl⟩⟩
  · exact ⟨rfl, rfl, rfl, by decide⟩
  · exact ⟨rfl, rfl, rfl, rfl⟩
  · exact ⟨rfl, by decide, rfl⟩
  · exact ⟨rfl, ⟨rfl, by decide, rfl, by decide, rfl, by decide⟩, fun p h g => by
      obtain rfl := List.mem_singleton.mp h
      exact absurd g.folds (by decide)⟩
  · decide
  · decide
  · decide
  · decide

/-- A package with link 0 in state `l` and boot in state `n`. -/
def sPlat (l : LinkState) (n : Nat) : State := one.s.modPkg (fun p => { p with links := [(0, l)], bootState := n })
/-- The same with readings of sensors `n`, of its island and of its stack. -/
def sWarm (n : Nat) (t : BitVec 16) : State :=
  let st : Stack := { Stack.reset with halfBw := true }
  let il : Island := { Island.reset with limit := 2 }
  (sPlat .up 4).modPkg (fun p => { p with sensors := [(n, t)], islands := [(n, il)], hstacks := [(n - 0x34, st)] })
/-- The same, below its threshold for 10 ms. -/
def sCool (n : Nat) : State := { (sWarm n 0).modPkg (fun p => { p with cool := [(n, 0)] }) with ucycle := 33000000 }
/-- The hypotheses of PlatformEventsComplete are met by each clause. -/
theorem witness_PlatformEventsComplete :
    sbUp (sPlat .mgmt 4) ∧ ¬sbUp (sPlat .train 4) ∧ ¬sbUp (sPlat .up 6) ∧
    ((sPlat .mgmt 1).linkOpen 0 = true ∧ (sPlat .mgmt 1).pkg.bootState = 1 ∧ (sPlat .up 4).linkOpen 0 = true ∧ (sPlat .up 4).pkg.bootState ≠ 1) ∧
    (linkMoves (Tab.getD (sPlat .down 4).pkg.links 0 .down) .up = false ∧ linkMoves (Tab.getD (sPlat .mgmt 3).pkg.links 0 .down) .up = true ∧ (sPlat .mgmt 3).pkg.bootState ≠ 4) ∧
    (linkMoves (Tab.getD (sPlat .down 4).pkg.links 0 .down) .train = true ∧ linkMoves (Tab.getD (sPlat .mgmt 4).pkg.links 0 .down) .up = true ∧ (sPlat .mgmt 4).pkg.bootState = 4) ∧
    ((sPlat .down 4).linkOpen 0 = false ∧ ((sPlat .up 4).linkOpen 0 = true ∧ (sPlat .up 4).pkg.bootState ∉ [2, 5, 6])) ∧
    ((∀ x ∈ ((sPlat .up 4).modPkg (fun p => { p with asids := [] })).pkg.asids, x.2.state = 0) ∧ (bwWeights (0x2020202020202020#64).toNat).sum ≤ 256 ∧
      256 < (bwWeights (0x2120202020202020#64).toNat).sum) ∧
    (crosses (readingOf (sWarm 0x33 1839) 0x33) 1840 115 ∧ crosses (readingOf (sWarm 0x2F 1679) 0x2F) 1680 105 ∧ crosses (readingOf (sWarm 0x34 1359) 0x34) 1360 85) ∧
    (((sWarm 0x2F 0).island 0x2F).limit = 2 ∧ ((sWarm 0x34 0).stack (0x34 - 0x34)).halfBw = true ∧ ((sCool 0x2F).sensed 0x2F 1600).cooled 0x2F = true ∧ ((sCool 0x34).sensed 0x34 1440).cooled 0x34 = true ∧
      ((sCool 0x2F).island 0x2F).limit = 2 ∧ ((sCool 0x34).stack 0).halfBw = true) ∧
    (((sPlat .down 4).modPkg (fun p => { p with coldHeld := true })).pkg.coldHeld = true ∧ ((sPlat .up 4).modPkg (fun p => { p with coldHeld := false })).pkg.coldHeld = false) := by
  and_intros <;> decide

/-- A package whose link 0 is up and whose command registers there hold `as`, changed by `f`. -/
def sSide (as : List DWord) (f : State → State) : State :=
  f ((sPlat .up 4).modPkg (fun p => { p with sb := [(0, { Sideband.reset with args := as ++ List.replicate (8 - as.length) 0 })] }))
/-- A group of ASID 1 that is held for release. -/
def gHeld : Group := { gOne with idgrid := 3, stopped := true }
/-- A core that holds it, and that GROUP-RELEASE keeps. -/
def sHeld (s : State) : State := s.modCore 0 (fun k => { k with groups := [(0, gHeld)], held := true })
/-- A command suspended with batch 7, in context 2 of engine 1. -/
def sAwait (s : State) : State := s.modCtx 0 1 2 (fun k => { k with phase := .awaiting, batch := 7 })
/-- The same, of a slate that moves one element. -/
def sAwaitJob (s : State) : State :=
  (sAwait s).modCtx 0 1 2 (fun k => { k with cmd := some (cmdOf (.slate (slateH 0x40))) })
/-- The image of a scope of core 0 alone, at byte 0x1000 of stack 0. -/
def sImage (s : State) : State := s.modPkg (fun p => { p with hbm := Memory.writeN p.hbm 0x1000 (toBytes 1 8) })
/-- A task of core 0 that reads name 9. -/
def sTouch (s : State) : State := s.modCore 0 (fun k => { k with tasks := [{ taskOne with state := 0, reads := [(9, 0)] }] })
/-- ASID 1 is live, and nothing of it is left. -/
def sAlone (s : State) : State := { s with cores := [], pkg := { s.pkg with asids := [(1, { AsidEntry.reset with state := 1 })], lqs := [] } }
/-- Link 0 runs a command, of code `c`. -/
def sBusy (c : Nat) (ws : List (Nat × Nat)) : State :=
  (sPlat .up 4).modPkg (fun p => { p with sb := [(0, { Sideband.reset with busy := true, code := c, waits := ws })] })
/-- TASK-NAME of name 9, of a tile of one row. -/
def sBind : State := sSide [0, 9, 0x0000000000200001] id
/-- New storage is found where a free run is long enough. -/
theorem newTile_some (s : State) (c gid : Nat) (lvl : Bool) (fmt rows cols : Nat)
    (h : freeEnds s c lvl ((rows * roundUp (rowBytes fmt cols) 128 + granBytes lvl - 1) / granBytes lvl) ≠ []) :
    (newTile s c gid lvl fmt rows cols).2.isSome = true := by
  simp only [newTile]
  split
  · contradiction
  · rfl
set_option maxRecDepth 20000 in
/-- The name is bound. -/
theorem sBind_binds : (sBind.bindName 0 9 0x0000000000200001).isSome = true := by
  have h : tallocHuge false (bitsOf 0x0000000000200001 47 44) (bitsOf 0x0000000000200001 15 0) (bitsOf 0x0000000000200001 31 16) = false := by decide
  unfold State.bindName
  simp only [h, Bool.false_eq_true, if_false, Option.isSome_map]
  apply newTile_some
  decide
/-- The hypotheses of SidebandCommandsComplete are met by each clause. -/
theorem witness_SidebandCommandsComplete :
    ((sPlat .down 4).linkOpen 0 = false ∧ (sPlat .up 2).pkg.bootState ∈ [2, 5, 6] ∧ ((sBusy 1 []).sbOf 0).busy = true) ∧
    (let s := sSide [0x10000] id
     s.linkOpen 0 = true ∧ s.pkg.bootState ∉ [2, 5, 6] ∧ (s.sbOf 0).busy = false ∧ argsOk [argAsid] ((s.sbOf 0).args.map BitVec.toNat) = false) ∧
    (CommandRuns (sSide [2, 0x2000, 0x10000, 1] id) 0 [argAsid, argAddr, argAddr, argBelow 2] ∧ ((sSide [2, 0x2000, 0x10000, 1] id).asid 2).state = 0 ∧
      CommandRuns (sSide [1, 0, 0, 0] id) 0 [argAsid, argAddr, argAddr, argBelow 2] ∧ ((sSide [1, 0, 0, 0] id).asid 1).state ≠ 0) ∧
    (CommandRuns (sSide [1, 0, 0x10000, 1] id) 0 [argAsid, argBelow 1, argAddr, argBelow 2] ∧ ((sSide [1, 0, 0x10000, 1] id).asid 1).state = 1 ∧
      CommandRuns (sSide [2, 0, 0, 0] id) 0 [argAsid, argBelow 1, argAddr, argBelow 2] ∧ ((sSide [2, 0, 0, 0] id).asid 2).state ≠ 1) ∧
    (CommandRuns (sSide [1] sAlone) 0 [argAsid] ∧ ((sSide [1] sAlone).asid 1).state = 1 ∧ (sSide [1] sAlone).asidInUse 1 = false ∧
      CommandRuns (sSide [2] id) 0 [argAsid] ∧ ((sSide [2] id).asid 2).state ≠ 1 ∧ CommandRuns (sSide [1] id) 0 [argAsid] ∧ (sSide [1] id).asidInUse 1 = true) ∧
    (CommandRuns (sSide [0, 1, 2, 7, 0] sAwait) 0 [argCore, argBelow 2, argBelow 8, argAny, argBelow 3] ∧ (((sSide [0, 1, 2, 7, 0] sAwait).core 0).ctx 1 2).phase = .awaiting ∧
      (((sSide [0, 1, 2, 7, 0] sAwait).core 0).ctx 1 2).batch % 2 ^ 64 = 7 ∧ CommandRuns (sSide [0, 1, 2, 7, 2] sAwaitJob) 0 [argCore, argBelow 2, argBelow 8, argAny, argBelow 3] ∧
      ((sSide [0, 1, 2, 7, 2] sAwaitJob).job 0 1 2).isSome = true ∧ CommandRuns (sSide [0, 1, 2, 6, 0] sAwait) 0 [argCore, argBelow 2, argBelow 8, argAny, argBelow 3] ∧
      (((sSide [0, 1, 2, 6, 0] sAwait).core 0).ctx 1 2).batch % 2 ^ 64 ≠ 6) ∧
    (let names := fun (p : Nat × Group) => p.2.asid == 1 && p.2.idgrid == 3 && p.2.heldFor
     CommandRuns (sSide [1, 0, 3] sHeld) 0 [argAsid, argCore, argBelow (2 ^ 32)] ∧ (((sSide [1, 0, 3] sHeld).core 0).groups.find? names).isSome = true ∧
      CommandRuns (sSide [1, 0, 3] id) 0 [argAsid, argCore, argBelow (2 ^ 32)] ∧ ((sSide [1, 0, 3] id).core 0).groups.find? names = none) ∧
    CommandRuns (sSide [1, 0, 3, 15, 0x1000] id) 0 restoreArgs ∧ CommandRuns (sSide [1, 0xFFFF, 0xFFFFFFFF] id) 0 preemptArgs ∧ CommandRuns (sSide [0x101, 3] id) 0 [argBelow 4096, argBelow 4] ∧
    (let s := sSide [1, 31, 0x1000] id
     CommandRuns s 0 [argAsid, argAny, argAddr] ∧ s.physPoison 0x1000 64 = false ∧ (s.asid 1).state = 1) ∧
    (let s := sSide [0, 9, 0] id
     CommandRuns s 0 taskArgs ∧ ((s.core 0).liveTasks.any (fun u => u.touches 9)) = false) ∧
    (let s := sSide [0, 9, 0] sTouch
     CommandRuns s 0 taskArgs ∧ ((s.core 0).liveTasks.any (fun u => u.touches 9)) = true) ∧
    CommandRuns (sSide [1, 2, 3, 4, 0x1000] id) 0 [argAny, argAny, argAny, argAny, argAddr] ∧
    (CommandRuns (sSide [0] sHeld) 0 [argCore] ∧ ((sSide [0] sHeld).core 0).held = true ∧ CommandRuns (sSide [0] id) 0 [argCore] ∧ ((sSide [0] id).core 0).held = false) ∧
    ((sBusy 0x0A []).commandOver 0 ((sBusy 0x0A []).sbOf 0) = true ∧ (sBusy 0x08 [(0, 0)]).commandOver 0 ((sBusy 0x08 [(0, 0)]).sbOf 0) = false) := by
  and_intros <;> first | exact ⟨rfl, by decide, rfl, rfl⟩ | rfl | decide
/-- The hypotheses of its clauses on TASK-NAME's binding are met. -/
theorem witness_SidebandCommandsComplete_name :
    (CommandRuns sBind 0 taskArgs ∧ ((sBind.core 0).liveTasks.any (fun u => u.touches 9)) = false ∧ (sBind.bindName 0 9 0x0000000000200001).isSome = true) ∧
    (let s := sSide [0, 9, 0x00000000FFE0FFFF] id
     CommandRuns s 0 taskArgs ∧ (s.bindName 0 9 0x00000000FFE0FFFF).isNone = true) :=
  ⟨⟨⟨rfl, by decide, rfl, rfl⟩, by decide, sBind_binds⟩, ⟨⟨rfl, by decide, rfl, rfl⟩, by unfold State.bindName; rw [if_pos (by decide)]; rfl⟩⟩



/-! ## The interlock -/

/-- 05 Table 2: D of iadd on v1 and v9 and on v1 twice; imad; ffma on bank 3; with c2 hit; dfma on two banks, and on six. -/
theorem test_bank_delay :
    [[1, 9], [1, 1], [0, 8, 16], [3, 11, 19], [11, 19], [27, 11, 19], [2, 3, 10, 11, 18, 19], [2, 3, 12, 13, 22, 23], [19]].map bankDelay =
      [1, 0, 2, 2, 1, 2, 2, 0, 0] := by decide
/-- A warp after instruction `i` has issued in cycle `now`. -/
def wAfter (w : Warp) (i : Instr) (now : Nat) : Warp := match useOf i with | some u => { w with due := w.after u now false, issueFrom := now + 1 } | none => w
/-- The first cycle in which a warp's instruction may issue. -/
def wFirst (w : Warp) (i : Instr) : Nat := match useOf i with | some u => u.earliest w | none => 0
/-- 05 Table 3: ffma v9:c1, v3, v11, v19; fmul v10, c1, v17; fadd la, v9~, v25; fadd v12, la, lb issue in cycles 2, 6, 8 and 12. -/
theorem test_run_of_table :
    let i0 := Instr.ffma { xOf (.v 9) (.v 3) (.v 11) (.v 19) 0 with cfen := true, cfslot := 1 }
    let i1 := Instr.fmulExt (xOf (.v 10) (.c 1) (.v 17) (.v 0) 0)
    let i2 := Instr.faddExt { xOf .la (.v 9) (.v 25) (.v 0) 0 with a := { op := .v 9, dead := true } }
    let i3 := Instr.faddExt (xOf (.v 12) .la .lb (.v 0) 0)
    let w0 := { wOne with issueFrom := 0 }
    let w1 := { wAfter w0 i0 2 with cache := [(1, { tag := 9, tagSet := true, valid := true, data := [] })] }
    let w2 := wAfter w1 i1 6
    let w3 := wAfter w2 i2 8
    [wFirst w0 i0, wFirst w1 i1, wFirst w2 i2, wFirst w3 i3] = [2, 6, 8, 12] := by decide

end Sys2Proof.Tests
end

/-! PROOFS. Laws of the state that the proofs of the execution model add to Sys2Proof/Laws/State.lean. -/

namespace Sys2Proof.Machine

/-! ## Tables, fields of a dword -/

/-- A key whose entry a table lists is among its keys. -/
theorem mem_keys_of_get? {α : Type} {t : Tab α} {k : Nat} {a : α} (h : Tab.get? t k = some a) : k ∈ t.map Prod.fst := by
  induction t with
  | nil => cases h
  | cons p t ih =>
    obtain ⟨j, b⟩ := p
    simp only [Tab.get?] at h
    split at h
    · next e => simp [e]
    · exact List.mem_cons_of_mem _ (ih h)

/-- A mapped table's entry, or the default where it lists none, for a map that keeps the default. -/
theorem getD_mapVal {α : Type} (t : Tab α) (f : Nat → α → α) (k : Nat) (d : α) (h : f k d = d) :
    Tab.getD (Tab.mapVal t f) k d = f k (Tab.getD t k d) := by
  simp only [Tab.getD, Tab.get?_mapVal]
  cases Tab.get? t k with
  | none => exact h.symm
  | some a => rfl

theorem decide_bitsOf_eq_one (v : DWord) (n : Nat) : decide (bitsOf v.toNat n n = 1) = v.getLsbD n := by
  rw [← BitVec.testBit_toNat, Nat.testBit_eq_decide_div_mod_eq, bitsOf, show n + 1 - n = 1 by omega, pow_one]

theorem ofNat_bitsOf (v : DWord) (hi lo n : Nat) (h : hi + 1 - lo = n) : BitVec.ofNat n (bitsOf v.toNat hi lo) = v.extractLsb' lo n := by
  apply BitVec.eq_of_toNat_eq
  simp only [bitsOf, h, BitVec.toNat_ofNat, Nat.mod_mod, BitVec.extractLsb'_toNat, Nat.shiftRight_eq_div_pow]

/-- A pc with bit 0 clear. -/
theorem ofNat_half_twice (x : DWord) : BitVec.ofNat 64 (x.toNat / 2 * 2) = x &&& ~~~1#64 := by
  have hs : BitVec.ofNat 64 (x.toNat / 2 * 2) = (x >>> 1) <<< 1 := by
    apply BitVec.eq_of_toNat_eq
    simp [Nat.shiftRight_eq_div_pow, Nat.shiftLeft_eq]
  rw [hs]
  ext i hi
  by_cases h0 : i = 0
  · simp [h0]
  · rw [BitVec.getElem_and, BitVec.getElem_not, BitVec.getElem_one]
    simp [BitVec.getElem_shiftLeft, h0, show 1 + (i - 1) = i by omega, BitVec.getLsbD_eq_getElem hi]

/-! ## Reading a warp, a grip or a group back -/

@[simp] theorem State.warp?_modWarp_same (s : State) (c w : Nat) (f : Warp → Warp) : (s.modWarp c w f).warp? c w = (s.warp? c w).map f := by
  cases h : s.warp? c w with
  | none => simp only [State.modWarp, h, Option.map_none]
  | some x => rw [State.modWarp_eq _ _ h, State.warp?_setWarp_same]; rfl

theorem State.warp?_modWarp_ne (s : State) (c : Nat) {w v : Nat} (f : Warp → Warp) (h : v ≠ w) : (s.modWarp c w f).warp? c v = s.warp? c v := by
  unfold State.modWarp; split
  · rfl
  · exact State.warp?_setWarp_ne _ _ _ h

@[simp] theorem State.grip_modGrip_same (s : State) (c g : Nat) (f : Grip → Grip) :
    ((s.modGrip c g f).core c).grip g = f ((s.core c).grip g) := by
  simp [State.modGrip, Core.grip]

theorem State.grip_modGrip_ne (s : State) (c : Nat) {g n : Nat} (f : Grip → Grip) (h : n ≠ g) :
    ((s.modGrip c g f).core c).grip n = (s.core c).grip n := by
  simp [State.modGrip, Core.grip, Tab.getD_set_ne _ _ _ h]

theorem Core.groups_foldl {α : Type} (f : Core → α → Core) (h : ∀ k a, (f k a).groups = k.groups) (l : List α) (k : Core) :
    (l.foldl f k).groups = k.groups := by
  induction l generalizing k with
  | nil => rfl
  | cons a t ih => rw [List.foldl_cons, ih, h]

/-- A local write changes no group. -/
@[simp] theorem localWrite_groups (k : Core) (g : Group) (bs : List (Nat × Byte)) : (localWrite k g bs).groups = k.groups := by
  unfold localWrite
  dsimp only
  rw [Core.groups_foldl, Core.groups_foldl, Core.groups_foldl]
  · intro k p; unfold localPut; split
    · rfl
    · split <;> rfl
    · rfl
  · intro k a; unfold localUnpoison; split
    · rfl
    · split <;> rfl
    · rfl
  · intro k a; split <;> rfl

theorem State.group?_setCore (s : State) (c : Nat) (k : Core) (h : k.groups = (s.core c).groups) (d n : Nat) :
    (s.setCore c k).group? d n = s.group? d n := by
  by_cases e : d = c
  · subst e; simp only [State.group?, State.core_setCore_same, h]
  · simp only [State.group?, State.core_setCore_ne s k e]

theorem State.group?_modCore (s : State) (c : Nat) (f : Core → Core) (h : ∀ k, (f k).groups = k.groups) (d n : Nat) :
    (s.modCore c f).group? d n = s.group? d n := State.group?_setCore s c _ (h _) d n

@[simp] theorem State.group?_modWarp (s : State) (c w : Nat) (f : Warp → Warp) (d n : Nat) :
    (s.modWarp c w f).group? d n = s.group? d n := by
  unfold State.modWarp; split
  · rfl
  · exact State.group?_setWarp s c w _ d n

@[simp] theorem State.group?_writeFrame (s : State) (c slot cause : Nat) (v : DWord) (b : Bool) (d n : Nat) :
    (s.writeFrame c slot cause v b).group? d n = s.group? d n := by
  unfold State.writeFrame; split
  · rfl
  · split
    · rfl
    · rw [State.group?_modWarp, State.group?_setCore _ _ _ (localWrite_groups _ _ _)]

@[simp] theorem State.group?_machineWarp (s : State) (c slot : Nat) (v : DWord) (d n : Nat) :
    (s.machineWarp c slot v).group? d n = s.group? d n := by
  unfold State.machineWarp; split
  · rfl
  · split
    · rfl
    · dsimp only
      rw [State.group?_modCore _ _ (fun k => k.unwait (.warp slot)) (fun _ => rfl), State.leaveSched, State.group?_modSched, State.group?_modWarp]
      split
      · exact State.group?_writeFrame _ _ _ _ _ _ _ _
      · rfl

theorem State.group?_foldl {α : Type} (f : State → α → State) (d n : Nat) (h : ∀ t a, (f t a).group? d n = t.group? d n) (l : List α) (s : State) :
    (l.foldl f s).group? d n = s.group? d n := by
  induction l generalizing s with
  | nil => rfl
  | cons a t ih => rw [List.foldl_cons, ih, h]

/-- An event record changes no core. -/
@[simp] theorem State.core_event (s : State) (d src k a cid idg d0 d1 c : Nat) : (s.event d src k a cid idg d0 d1).core c = s.core c := by
  unfold State.event
  dsimp only
  split
  · rw [State.core_modDie, State.writePhys, State.core_modPkg, State.core_modPkg]
  · rw [State.countDie, State.core_modDie, State.core_modPkg]

@[simp] theorem State.group?_event (s : State) (d src k a cid idg d0 d1 c n : Nat) : (s.event d src k a cid idg d0 d1).group? c n = s.group? c n := by
  simp only [State.group?, State.core_event]

/-- Only the warps of core `c` change. -/
structure WarpsOnly (s t : State) (c : Nat) : Prop where
  core : t.core c = { s.core c with warps := (t.core c).warps }
  others : ∀ n, n ≠ c → t.core n = s.core n
  state : t = { s with cores := t.cores }

theorem WarpsOnly.refl (s : State) (c : Nat) : WarpsOnly s s c := ⟨rfl, fun _ _ => rfl, rfl⟩

theorem warpsOnly_modWarp (s : State) (c w : Nat) (f : Warp → Warp) : WarpsOnly s (s.modWarp c w f) c := by
  unfold State.modWarp; split
  · exact WarpsOnly.refl _ _
  · exact ⟨by rw [State.core_setWarp], fun n hn => State.core_setWarp_ne _ _ _ hn, rfl⟩

end Sys2Proof.Machine

/-! PROOFS. Targets, branches and the split stack (02 R36 to R41; 06 R156 to R162): O12 and O13. -/

namespace Sys2Proof.Machine

/-! ## The forms that leave one state, from the body of their meaning -/

theorem aluLeaves_of_body (mk : BAlu → Instr) (sp : Ext → Spec) (ok : Issue → Prop) (st : Issue → State)
    (he : ∀ b s, exec (mk b) s = runAlu sp b s)
    (hb : ∀ x i, i.x = x → ok i → settle (sp x) i ((sp x).body i) = st i) : AluLeaves mk sp ok st := by
  intro b s c slot w g ha sh x i hr ho
  rw [he, runAlu, runSpec_settles _ _ _ _ _ _ _ _ _ ha hr]
  exact congrArg Host.Outcome.next (hb x i rfl ho)

theorem brLeaves_of_body (mk : BBr → Instr) (sp : Spec) (dst : Opnd) (ok : Issue → Prop) (st : Issue → State)
    (he : ∀ b s, exec (mk b) s = runSpec sp false (bbrExt b dst) 4 s)
    (hb : ∀ i, ok i → settle sp i (sp.body i) = st i) : BrLeaves mk sp dst ok st := by
  intro b s c slot w g ha i hr ho
  rw [he, runSpec_settles _ _ _ _ _ _ _ _ _ ha hr, hb i ho]

/-- A meaning that is a trap leaves the state in which the trap is taken. -/
theorem settle_of_trap {sp : Spec} {i : Issue} {t : Trap} (h : sp.body i = .trap t) :
    settle sp i (sp.body i) = i.s.takeTrap i.c i.slot t false := by
  rw [h]; rfl

/-! The same of a meaning that is a trap. -/

section
variable {ok : Issue → Prop} {t : Issue → Trap}

theorem extLeaves_of_trap {mk : Ext → Instr} {sp : Ext → Spec} (he : ∀ x s, exec (mk x) s = runExt sp x s)
    (hb : ∀ x i, ok i → (sp x).body i = .trap (t i)) : ExtLeaves mk sp ok (fun i => i.s.takeTrap i.c i.slot (t i) false) :=
  extLeaves_of_body mk sp ok _ he (fun x i _ h => settle_of_trap (hb x i h))

theorem aluLeaves_of_trap {mk : BAlu → Instr} {sp : Ext → Spec} (he : ∀ b s, exec (mk b) s = runAlu sp b s)
    (hb : ∀ x i, ok i → (sp x).body i = .trap (t i)) : AluLeaves mk sp ok (fun i => i.s.takeTrap i.c i.slot (t i) false) :=
  aluLeaves_of_body mk sp ok _ he (fun x i _ h => settle_of_trap (hb x i h))

theorem brLeaves_of_trap {mk : BBr → Instr} {sp : Spec} {dst : Opnd}
    (he : ∀ b s, exec (mk b) s = runSpec sp false (bbrExt b dst) 4 s) (hb : ∀ i, ok i → sp.body i = .trap (t i)) :
    BrLeaves mk sp dst ok (fun i => i.s.takeTrap i.c i.slot (t i) false) :=
  brLeaves_of_body mk sp dst ok _ he (fun i h => settle_of_trap (hb i h))

end

/-! ## Targets (06 R157) -/

theorem withTarget_of_legal {i : Issue} (h : targetLegal i) (f : VAddr → Eff) : withTarget i f = f (targetPc i) := by
  have ht : directTrap (directTarget i.w.pc (i.b 0)) = none := if_pos h
  simp only [withTarget, ht]; rfl

theorem withTarget_of_illegal {i : Issue} (h : ¬targetLegal i) (f : VAddr → Eff) :
    withTarget i f = .trap (targetTrap (targetOf i)) := by
  have ht : directTrap (directTarget i.w.pc (i.b 0)) = some (targetTrap (targetOf i)) := if_neg h
  simp only [withTarget, ht]

theorem braSpec_illegal {i : Issue} (h : ¬targetLegal i) : braSpec.body i = .trap (targetTrap (targetOf i)) := by
  simp only [braSpec, Spec.plain, withTarget_of_illegal h]

theorem brpSpec_illegal (x : Ext) {i : Issue} (h : ¬targetLegal i) : (brpSpec x).body i = .trap (targetTrap (targetOf i)) := by
  simp only [brpSpec, Spec.plain, withTarget_of_illegal h]

theorem callSpec_illegal {i : Issue} (h : ¬targetLegal i) : callSpec.body i = .trap (targetTrap (targetOf i)) := by
  simp only [callSpec, Spec.plain, withTarget_of_illegal h]

theorem recastSpec_illegal (x : Ext) {i : Issue} (h : ¬targetLegal i) :
    (recastSpec x).body i = .trap (targetTrap (targetOf i)) := by
  simp only [recastSpec, Spec.blocks, withTarget_of_illegal h]

theorem indirectSpec_traps (ext link : Bool) (x : Ext) {i : Issue} (h : ¬indirectLegal i) :
    (indirectSpec ext link x).body i = .trap { cause := 0x01, tval := BitVec.ofNat 64 (i.a 0) } := by
  have ht : indirectTrap (i.a 0) = some { cause := 0x01, tval := BitVec.ofNat 64 (i.a 0) } := if_neg h
  simp only [indirectSpec, Spec.plain, ht]

/-! ## What BRX, JOIN, EXIT and RECAST do in each case (02 R36 to R41) -/

theorem brxSpec_full {i : Issue} (h : 16 ≤ i.w.split.length) : brxSpec.body i = .trap { cause := 0x18, tval := 0 } :=
  if_pos h

theorem brxSpec_illegal {i : Issue} (h : i.w.split.length < 16) (ht : ¬targetLegal i) :
    brxSpec.body i = .trap (targetTrap (targetOf i)) :=
  (if_neg (Nat.not_le.2 h)).trans (withTarget_of_illegal ht _)

theorem brxSpec_done {i : Issue} (h : brxOk i) : brxSpec.body i = .done (brxResult i) :=
  (if_neg (Nat.not_le.2 h.1)).trans (withTarget_of_legal h.2 _)

theorem joinSpec_traps (x : Ext) {i : Issue} (h : ¬joinOk i) : (joinSpec x).body i = .trap { cause := 0x18, tval := 1 } := by
  obtain ⟨he, hc⟩ := Classical.not_imp.1 h
  simp only [joinSpec, Spec.plain, he]
  exact if_pos hc

theorem joinSpec_done (x : Ext) {i : Issue} (h : joinOk i) : (joinSpec x).body i = .done (joinResult i) := by
  simp only [joinSpec, joinResult, Spec.plain]
  cases hs : i.w.split with
  | nil => exact if_neg (not_not.2 (h hs))
  | cons t rest =>
    by_cases hw : t.w = true
    · simp only [hw, if_true]; rfl
    · by_cases hm : t.mask = 0
      · simp only [hw, hm, if_true, if_false, Bool.false_eq_true]; rfl
      · simp only [hw, hm, if_false, Bool.false_eq_true]

theorem exitSpec_traps (x : Ext) {i : Issue} (h : ¬exitOk i) : (exitSpec x).body i = .trap { cause := 0x18, tval := 1 } :=
  if_pos (not_not.1 h)

/-- The lanes of EXIT's guard exit by the warp's resumption rules. -/
theorem exitLanes_eq (i : Issue) : exitLanes i (i.w.active &&& i.grd) = ((exitResult i).s, (exitResult i).next) := by
  by_cases hl : (warpWithout i).active ≠ 0
  · refine (if_pos hl).trans ?_
    simp only [exitResult, if_pos hl]
    rfl
  · have hd : (splitWithout i).dropWhile (fun e => e.mask == 0) =
      dropEmpty (i.w.split.map (fun e => { e with mask := e.mask &&& ~~~(i.w.active &&& i.grd) })) := rfl
    refine (if_neg hl).trans ?_
    simp only [exitResult, if_neg hl, hd]
    cases dropEmpty (i.w.split.map (fun e => { e with mask := e.mask &&& ~~~(i.w.active &&& i.grd) })) with
    | nil => rfl
    | cons t rest => by_cases hw : t.w = true <;> simp only [hw, if_true, if_false, Bool.false_eq_true] <;> rfl

/-- EXIT's result changes the state and the next PC only. -/
theorem exitResult_frame (i : Issue) : exitResult i = { i.res with s := (exitResult i).s, next := (exitResult i).next } := by
  unfold exitResult
  dsimp only
  split_ifs
  · rfl
  · cases (splitWithout i).dropWhile (fun e => e.mask == 0) with
    | nil => rfl
    | cons t rest => dsimp only; split_ifs <;> rfl

theorem exitSpec_done (x : Ext) {i : Issue} (h : exitOk i) : (exitSpec x).body i = .done (exitResult i) := by
  refine (if_neg h).trans (congrArg Eff.done ?_)
  rw [exitLanes_eq]
  exact (exitResult_frame i).symm

/-- RECAST's own test for a block, once a lane asks for an item, is that of `recastBlocks`. -/
theorem recastSpec_blocks {x : Ext} {i : Issue} (h : recastBlocks i) (ht : targetLegal i) :
    (recastSpec x).body i = .block (i.wait (.recast x)) i.s := by
  simp only [recastSpec, Spec.blocks, withTarget_of_legal ht]
  exact (if_neg h.1).trans (if_pos h.2)

theorem recastSpec_done {x : Ext} {i : Issue} (hx : i.x = x) (h : recastOk i) :
    (recastSpec x).body i = .done (recastResult i) := by
  obtain ⟨hb, ht⟩ := h
  subst hx
  simp only [recastSpec, Spec.blocks, withTarget_of_legal ht]
  by_cases hc : recastLanes i = 0
  · simp only [recastResult, if_pos hc]
    exact if_pos hc
  · refine (if_neg hc).trans ((if_neg (fun hd => hb ⟨hc, hd⟩)).trans ?_)
    simp only [recastResult, if_neg hc]
    by_cases ha : (refill i.w (vecNum i.x.dst) (recastLanes i) (recastDeal i)).active ≠ 0
    · rw [if_pos ha]; exact if_pos ha
    · rw [if_neg ha]; exact if_neg ha

/-! ## They keep the issuing warp in its slot -/

theorem isSome_warp?_setWarp (s : State) (c slot : Nat) (w : Warp) : ((s.setWarp c slot w).warp? c slot).isSome := by
  rw [State.warp?_setWarp_same]; rfl

theorem brxResult_keepsWarp : KeepsWarp brxOk brxResult := keepsWarp_of_keeps (fun _ _ => keeps_modWarp _ _ _ _ _)

theorem joinResult_keepsWarp : KeepsWarp joinOk joinResult := by
  refine keepsWarp_of_keeps (fun i _ => ?_)
  unfold joinResult
  cases i.w.split with
  | nil => exact Keeps.refl _ _
  | cons t rest =>
    dsimp only
    split_ifs
    · exact keeps_modWarp _ _ _ _ _
    · exact keeps_modWarp _ _ _ _ _
    · exact keeps_modWarp _ _ _ _ _

theorem exitResult_keepsWarp : KeepsWarp exitOk exitResult := by
  intro i _ _
  unfold exitResult
  dsimp only
  split_ifs
  · exact isSome_warp?_setWarp _ _ _ _
  · cases (splitWithout i).dropWhile (fun e => e.mask == 0) with
    | nil => exact keeps_warpExited _ _ _ _ _ (isSome_warp?_setWarp _ _ _ _)
    | cons t rest =>
      dsimp only
      split_ifs
      · exact isSome_warp?_setWarp _ _ _ _
      · exact isSome_warp?_setWarp _ _ _ _

theorem recastResult_keepsWarp : KeepsWarp recastOk recastResult := by
  intro i hi _
  unfold recastResult
  dsimp only
  split_ifs
  · exact hi
  · exact isSome_warp?_setWarp _ _ _ _
  · exact isSome_warp?_setWarp _ _ _ _

/-! ## What the control instructions do, in every form -/

/-- Settles O12: in each case the meaning is the trap itself, and a trap is taken from the state as it was. -/
theorem badTargetsAndSplitsTrap : Obligations.BadTargetsAndSplitsTrap := by
  refine ⟨?bra, ?braExt, ?brp, ?call, ?callExt, ?brx, ?recast, ?calli, ?calliExt, ?ret, ?retExt, ?jmpi, ?jmpiExt, ?full, ?join,
    ?joinExt, ?exit, ?exitExt⟩
  case bra => exact brLeaves_of_trap (fun _ _ => rfl) (fun _ h => braSpec_illegal h)
  case braExt => exact extLeaves_of_trap (fun _ _ => rfl) (fun _ _ h => braSpec_illegal h)
  case brp => exact extLeaves_of_trap (fun _ _ => rfl) (fun _ _ h => brpSpec_illegal _ h)
  case call => exact brLeaves_of_trap (fun _ _ => rfl) (fun _ h => callSpec_illegal h)
  case callExt => exact extLeaves_of_trap (fun _ _ => rfl) (fun _ _ h => callSpec_illegal h)
  case brx => exact extLeaves_of_trap (fun _ _ => rfl) (fun _ _ h => brxSpec_illegal h.1 h.2)
  case recast => exact extLeaves_of_trap (fun _ _ => rfl) (fun _ _ h => recastSpec_illegal _ h)
  case calli => exact aluLeaves_of_trap (fun _ _ => rfl) (fun _ _ h => indirectSpec_traps _ _ _ h)
  case calliExt => exact extLeaves_of_trap (fun _ _ => rfl) (fun _ _ h => indirectSpec_traps _ _ _ h)
  case ret => exact aluLeaves_of_trap (fun _ _ => rfl) (fun _ _ h => indirectSpec_traps _ _ _ h)
  case retExt => exact extLeaves_of_trap (fun _ _ => rfl) (fun _ _ h => indirectSpec_traps _ _ _ h)
  case jmpi => exact aluLeaves_of_trap (fun _ _ => rfl) (fun _ _ h => indirectSpec_traps _ _ _ h)
  case jmpiExt => exact extLeaves_of_trap (fun _ _ => rfl) (fun _ _ h => indirectSpec_traps _ _ _ h)
  case full => exact extLeaves_of_trap (fun _ _ => rfl) (fun _ _ h => brxSpec_full h)
  case join => exact aluLeaves_of_trap (fun _ _ => rfl) (fun _ _ h => joinSpec_traps _ h)
  case joinExt => exact extLeaves_of_trap (fun _ _ => rfl) (fun _ _ h => joinSpec_traps _ h)
  case exit => exact aluLeaves_of_trap (fun _ _ => rfl) (fun _ _ h => exitSpec_traps _ h)
  case exitExt => exact extLeaves_of_trap (fun _ _ => rfl) (fun _ _ h => exitSpec_traps _ h)

/-- Settles O13: each meaning is done with its result, which leaves the warp in its slot; a RECAST that blocks is issued and waits. -/
theorem divergenceCompletes : Obligations.DivergenceCompletes := by
  refine ⟨?brx, ?join, ?joinExt, ?exit, ?exitExt, ?recast, ?blocks⟩
  case brx => exact extFormWhen_of_body _ _ _ _ (fun _ _ => rfl) (fun _ _ _ h => brxSpec_done h) brxResult_keepsWarp
  case join => exact aluFormWhen_of_body _ _ _ _ (fun _ _ => rfl) (fun _ _ _ h => joinSpec_done _ h) joinResult_keepsWarp
  case joinExt => exact extFormWhen_of_body _ _ _ _ (fun _ _ => rfl) (fun _ _ _ h => joinSpec_done _ h) joinResult_keepsWarp
  case exit => exact aluFormWhen_of_body _ _ _ _ (fun _ _ => rfl) (fun _ _ _ h => exitSpec_done _ h) exitResult_keepsWarp
  case exitExt => exact extFormWhen_of_body _ _ _ _ (fun _ _ => rfl) (fun _ _ _ h => exitSpec_done _ h) exitResult_keepsWarp
  case recast => exact extFormWhen_of_body _ _ _ _ (fun _ _ => rfl) (fun _ _ hx h => recastSpec_done hx h) recastResult_keepsWarp
  case blocks =>
    intro x s c slot w g ha i hr hb ht
    refine (runSpec_settles _ _ _ _ _ _ _ _ _ ha hr).trans ?_
    rw [recastSpec_blocks hb ht]
    rfl

end Sys2Proof.Machine

/-! PROOFS. A scheduler's issue: the fetch of words that the instruction cache holds, and the turn that runs them (02 R32; 03 R69 to R73): O42. -/

namespace Sys2Proof.Machine

/-! ## Fetch from the instruction cache (03 R69 to R73) -/

/-- A word that the instruction cache holds needs no line to be read. -/
theorem State.fetchLine_of_cached {s : State} {c asid a : Nat} {w : Word} (h : (s.core c).codeWord asid a = some w) :
    s.fetchLine c asid a = s := by
  unfold Core.codeWord at h
  unfold State.fetchLine
  cases hf : (s.core c).icache.find? (fun l => l.asid == asid && l.line == a / 128) with
  | none => simp [hf] at h
  | some l => rfl

/-- Registered words that the instruction cache holds are fetched as they stand, and the state stays as it is. -/
theorem fetchWords_of_cached (s : State) (c : Nat) (g : Group) (ws : List Word) (a : Nat)
    (hcode : ∀ n < ws.length, g.isCode (a + 4 * n) = true)
    (hcached : ∀ n < ws.length, (s.core c).codeWord g.asid (a + 4 * n) = ws[n]?) :
    fetchWords s c g ws.length a = (s, ws, none) := by
  induction ws generalizing a with
  | nil => rfl
  | cons w ws ih =>
    have hc : g.isCode a = true := hcode 0 (by simp)
    have hw : (s.core c).codeWord g.asid a = some w := hcached 0 (by simp)
    have hrest : fetchWords s c g ws.length (a + 4) = (s, ws, none) := by
      refine ih (a + 4) (fun n hn => ?_) (fun n hn => ?_)
      · have := hcode (n + 1) (by simpa using hn)
        rwa [show a + 4 * (n + 1) = a + 4 + 4 * n by omega] at this
      · have := hcached (n + 1) (by simpa using hn)
        rwa [show a + 4 * (n + 1) = a + 4 + 4 * n by omega] at this
    simp only [List.length_cons, fetchWords, hc, State.fetchLine_of_cached hw, hw, hrest, Bool.not_true, Bool.false_eq_true, if_false]

/-- The fetch of an instruction whose words stand in the cache gives it, and changes nothing. -/
theorem fetchInstr_of_codeHolds {s : State} {c : Nat} {g : Group} {a : Nat} {ws : List Word} {i : Instr}
    (h : CodeHolds s c g a ws i) : fetchInstr s c g a = (s, .instr i) := by
  obtain ⟨⟨w0, hw0, hlen⟩, hcode, hcached, hdec⟩ := h
  obtain ⟨rest, rfl⟩ : ∃ rest, ws = w0 :: rest := by
    cases ws with
    | nil => cases hw0
    | cons w rest => exact ⟨rest, by simpa using hw0⟩
  have hfirst : fetchWords s c g 1 a = (s, [w0], none) :=
    fetchWords_of_cached s c g [w0] a (fun n hn => hcode n (by simp at hn ⊢; omega))
      (fun n hn => by
        obtain rfl : n = 0 := by simpa using hn
        exact hcached 0 (by simp))
  have hall : fetchWords s c g (lenOf w0 / 4) a = (s, w0 :: rest, none) := by
    rw [← hlen, Nat.mul_div_cancel_left _ (by decide : 0 < 4)]
    exact fetchWords_of_cached s c g _ a hcode hcached
  simp only [fetchInstr, hfirst, hall, hdec]

/-! ## A scheduler's turn (02 R32) -/

/-- A turn whose act names units of the part and does not come too late is that act's. -/
theorem step_of_agenda {s : State} {dt : Nat} {act : Act} {rest : List Turn} (ha : s.agenda = { dt := dt, act := act } :: rest)
    (hr : act.inRange = true) (hl : ((s.begin rest).pass dt).late act = false) :
    step s = takeAct (((s.begin rest).pass dt).inTurn act) act := by
  simp only [step, turnStep, ha, runAct, hr, hl, Bool.not_true, Bool.false_eq_true, if_false]

/-- A warp that may issue fetches its next instruction. -/
theorem takeAct_issue {s : State} {c q slot : Nat} {w : Warp} {g : Group} (h : MayIssue s c q slot w g) :
    takeAct s (.issue c q) = issueNext s c slot w g := by
  obtain ⟨_, ⟨hfrozen, htripped⟩, hcur, hmid, hwarp, hgroup, hruns, hwaiting, hpend, hpre, hhit⟩ := h
  simp [takeAct, issueTurn, hfrozen, htripped, hcur, hmid, hwarp, hgroup, hruns, hwaiting, hpend, hpre, hhit]

/-- An instruction in the cache waits in place, or is issued. -/
theorem issueNext_of_codeHolds {s : State} {c slot : Nat} {w : Warp} {g : Group} {ws : List Word} {i : Instr}
    (h : CodeHolds s c g w.pc.toNat ws i) :
    issueNext s c slot w g =
      if s.inPlace c w i then .next s else afterIssue s c slot (some i) (exec i { s with cur := .warp c slot }) := by
  simp only [issueNext, fetchInstr_of_codeHolds h]

/-- Settles O42: the turn is the scheduler's, its warp may issue, and the fetch reads the cached words without changing the state. -/
theorem stepRunsDecoded : Obligations.StepRunsDecoded := by
  intro s dt rest c q slot w g ws i ha p s0 hl hm hc
  have hr : (Act.issue c q).inRange = true := by simp [Act.inRange, hm.unit]
  have hs : step s = if s0.inPlace c w i then .next s0 else afterIssue s0 c slot (some i) (exec i { s0 with cur := .warp c slot }) :=
    (step_of_agenda ha hr hl).trans ((takeAct_issue hm).trans (issueNext_of_codeHolds hc))
  exact ⟨fun hp => by rw [hs, hp]; rfl, fun hp => by rw [hs, hp]; rfl⟩

end Sys2Proof.Machine

/-! PROOFS. The events of warps (02 R33, R34; 09 R227, R240 to R243; 10 R261, R262): O53. -/

namespace Sys2Proof.Machine

/-! ## Tag waits (10 R261, R262) -/

/-- A warp that waits, with nothing that keeps it from going on, has its wait seen. -/
theorem WaitsIn.waitOf {s : State} {c slot : Nat} {w : Warp} {g : Group} {t : Waiting} {i : Instr} (h : WaitsIn s c slot w g t i) :
    s.waitOf c slot = some t := by
  obtain ⟨hstop, hhalt, hpend, hpre, hfrozen⟩ := h.runs
  simp only [State.waitOf, h.warp, h.group, hstop, hhalt, hpend, hpre, hfrozen, Option.isSome_none, Bool.or_self, Bool.false_eq_true,
    if_false, h.waits]

theorem Core.tagExpired_of_limitReached {k : Core} {start : Nat} (h : limitReached k start) : k.tagExpired start = true := by
  simp only [Core.tagExpired, h.1, h.2, ne_eq, not_false_eq_true, decide_true, Bool.and_self]

/-- The address that TVAL names is that of the first lane of `lateLanes`, or where there is none of `waitLanes`. -/
theorem tagwaitAddr_eq {k : Core} {w : Warp} {g : Group} {t : Waiting} {a : AtomLane}
    (h : (lateLanes k w g t ++ waitLanes w t).head? = some a) : tagwaitAddr k w g t = a.addr :=
  congrArg (fun o => (Option.map AtomLane.addr o).getD 0) h

theorem tagwait_warp {s : State} {c slot : Nat} {w : Warp} {g : Group} {t : Waiting} {i : Instr} {a : AtomLane}
    (h : WaitsIn s c slot w g t i) (htag : t.tag.isSome = true) (hl : limitReached (s.core c) t.start)
    (ha : (lateLanes (s.core c) w g t ++ waitLanes w t).head? = some a) :
    exec (.tagwait c (.warp slot)) s =
      .next ((s.countCore c 0x23 1).takeTrap c slot { cause := 0x0C, tval := BitVec.ofNat 64 a.addr } false) := by
  show execTagwait c (.warp slot) s = _
  simp only [execTagwait, h.waitOf, h.warp, h.group, htag, Core.tagExpired_of_limitReached hl, tagwaitAddr_eq ha, Bool.and_self, if_true]

/-! ## A grip's exception (14 R356) -/

/-- A grip with a handler takes an exception there. -/
theorem gripExcept_excepted (s : State) (c g cause tval : Nat) (h : ((s.core c).grip g).mtvec ≠ 0) :
    GripExcepted s c g cause (BitVec.ofNat 64 tval) (s.gripExcept c g cause tval) := by
  have he : s.gripExcept c g cause tval =
      ((s.modGrip c g (fun x => { x with mcause := BitVec.ofNat 64 cause, mtval := BitVec.ofNat 64 tval, mepc := BitVec.ofNat 64 (x.pc.toNat / 2 * 2) })).modGrip
        c g (fun x => { x with pc := x.mtvec, mstatus := trapStatus x.mstatus, wtag := none, resv := x.resv })).modCore c
        (fun k => k.unwait (.grip g)) := if_neg h
  have hg : ∀ (t : State) n, ((t.modCore c (fun k => k.unwait (.grip g))).core c).grip n = (t.core c).grip n := by
    intro t n; rw [State.core_modCore_same]; rfl
  rw [he]
  constructor
  · rw [hg, State.grip_modGrip_same, State.grip_modGrip_same, ← ofNat_half_twice]; rfl
  · intro n hn
    rw [hg, State.grip_modGrip_ne _ _ _ hn, State.grip_modGrip_ne _ _ _ hn]
  · simp only [State.core_modCore_same, State.modGrip, Core.unwait]
  · intro n hn
    simp only [State.core_modCore_ne _ _ hn, State.modGrip]
  · rfl

theorem tagwait_grip {s : State} {c g a : Nat} {f : Bool} (hw : ((s.core c).grip g).wtag = some (a, f)) (hr : ((s.core c).grip g).run = 1)
    (hl : limitReached (s.core c) ((s.core c).grip g).wstart) (hm : ((s.core c).grip g).mtvec ≠ 0) :
    GripTraps (s.countCore c 0x23 1) c g 26 (BitVec.ofNat 64 a) (exec (.tagwait c (.grip g)) s) := by
  have hgrip : ((s.countCore c 0x23 1).core c).grip g = (s.core c).grip g := by
    rw [State.countCore, State.core_modCore_same]; rfl
  refine ⟨(s.countCore c 0x23 1).gripExcept c g 26 a, ?_, gripExcept_excepted _ c g 26 a (by rw [hgrip]; exact hm)⟩
  show execTagwait c (.grip g) s = _
  simp only [execTagwait, hw, hr, Core.tagExpired_of_limitReached hl, decide_true, Bool.and_self, if_true]

/-- A grip that acts for its group answers a next state. -/
theorem runGrip_of_gripActs {s : State} {c g gid : Nat} {x : Grip} {gr : Group} (h : GripActs s c g gid x gr) (f : Nat → Nat → Nat → Group → State) :
    runGrip f s = .next (f c g gid gr) := by
  have hgid : ((s.core c).grip g).gid = some gid := by rw [h.grip]; exact h.owner
  simp only [runGrip, h.cur, hgid, h.group]

/-- A grip's tag wait ends: its access runs again with the grip acting (10 R261). -/
theorem tagWaitSatisfied_grip {s : State} {c g gid : Nat} {x : Grip} {gr : Group} {i : Instr}
    (h : GripActs { s with cur := .grip c g } c g gid x gr) (hr : x.run = 1) (hw : x.wtag.isSome = true) (hf : x.fetch = .ok i)
    (hi : (∃ rd rs1, i = .gLdf rd rs1) ∨ (∃ rs1 rs2, i = .gSte rs1 rs2)) :
    ∃ t, exec i { s with cur := .grip c g } = .next t ∧ exec (.tagWaitSatisfied c (.grip g)) s = .next { t with cur := s.cur } := by
  have hx : (s.core c).grip g = x := h.grip
  rcases hi with ⟨rd, rs1, rfl⟩ | ⟨rs1, rs2, rfl⟩
  · obtain ⟨t, ht⟩ : ∃ t, execGLdf rd rs1 { s with cur := .grip c g } = .next t := ⟨_, runGrip_of_gripActs h _⟩
    refine ⟨t, ht, ?_⟩
    show execTagWaitSatisfied c (.grip g) s = _
    simp only [execTagWaitSatisfied, hx, hr, hw, hf, and_self, if_true, ht]
  · obtain ⟨t, ht⟩ : ∃ t, execGSte rs1 rs2 { s with cur := .grip c g } = .next t := ⟨_, runGrip_of_gripActs h _⟩
    refine ⟨t, ht, ?_⟩
    show execTagWaitSatisfied c (.grip g) s = _
    simp only [execTagWaitSatisfied, hx, hr, hw, hf, and_self, if_true, ht]

/-! ## MACHINE errors (09 R242, R243) -/

/-- The group that a MACHINE error stops. -/
def Group.machine (g : Group) : Group := { g with fatal := true, stopped := true }

/-- A MACHINE error of a group makes it fatal and stops it, and changes no other group. -/
theorem State.group?_machineGroup (s : State) (c gid scope unit addr n : Nat) :
    (s.machineGroup c gid scope unit addr).group? c n = if n = gid then (s.group? c n).map Group.machine else s.group? c n := by
  unfold State.machineGroup
  cases h : s.group? c gid with
  | none => by_cases e : n = gid <;> simp [e, h]
  | some g =>
    dsimp only
    rw [State.group?_event, State.group?_modCore _ _ (fun k => { k with mchk := true }) (fun _ => rfl), group?_modGroup,
      State.group?_foldl _ _ _ (fun t i => State.group?_machineWarp t c i _ c gid),
      State.group?_foldl _ _ _ (fun t i => State.group?_machineWarp t c i _ c n)]
    by_cases e : n = gid
    · subst e; rw [if_pos rfl, if_pos rfl]; rfl
    · rw [if_neg e, if_neg e]

theorem State.machineGroup_mchk {s : State} {c gid : Nat} (scope unit addr : Nat) (h : (s.group? c gid).isSome = true) :
    ((s.machineGroup c gid scope unit addr).core c).mchk = true := by
  obtain ⟨g, hg⟩ := Option.isSome_iff_exists.1 h
  simp only [State.machineGroup, hg, State.core_event, State.core_modCore_same]

/-- A MACHINE error of each group of a list stops the groups that it names. -/
theorem State.group?_foldl_machineGroup (gs : List Nat) (s : State) (c scope unit addr n : Nat) (g : Group)
    (h : (gs.foldl (fun s i => s.machineGroup c i scope unit addr) s).group? c n = some g)
    (hn : n ∈ gs ∨ ∀ x, s.group? c n = some x → x.fatal = true ∧ x.stopped = true) : g.fatal = true ∧ g.stopped = true := by
  induction gs generalizing s with
  | nil =>
    rcases hn with hn | hn
    · cases hn
    · exact hn g h
  | cons a t ih =>
    refine ih _ h ?_
    by_cases e : n = a
    · right
      intro x hx
      rw [State.group?_machineGroup, if_pos e] at hx
      obtain ⟨y, _, rfl⟩ := Option.map_eq_some_iff.1 hx
      exact ⟨rfl, rfl⟩
    · rcases hn with hn | hn
      · exact Or.inl ((List.mem_cons.1 hn).resolve_left e)
      · right
        intro x hx
        rw [State.group?_machineGroup, if_neg e] at hx
        exact hn x hx

theorem State.group?_countUnit (s : State) (c u d n : Nat) : (s.countUnit c u).group? d n = s.group? d n := by
  unfold State.countUnit; split
  · rfl
  · exact State.group?_modCore _ _ (fun k => k.uncorrectable u) (fun _ => rfl) _ _

theorem machine_group {s : State} {m : MachineError} (hm : m.scope = 0) (hg : (s.group? m.core m.gid).isSome = true) :
    ∃ t g, exec (.machine m) s = .next t ∧ t.group? m.core m.gid = some g ∧ g.fatal = true ∧ g.stopped = true ∧ (t.core m.core).mchk = true := by
  obtain ⟨x, hx⟩ := Option.isSome_iff_exists.1 hg
  have hx' : (s.countUnit m.core m.unit.toNat).group? m.core m.gid = some x := by rw [State.group?_countUnit, hx]
  refine ⟨(s.countUnit m.core m.unit.toNat).machineGroup m.core m.gid 0 m.unit.toNat m.addr.toNat, x.machine, ?_, ?_, rfl, rfl, ?_⟩
  · show execMachine m s = _
    simp only [execMachine, hm, hg, if_true]
  · rw [State.group?_machineGroup, if_pos rfl, hx']; rfl
  · exact State.machineGroup_mchk _ _ _ (by rw [hx']; rfl)

theorem machine_core {s : State} {m : MachineError} (hm : m.scope = 1) :
    ∃ t, exec (.machine m) s = .next t ∧ (t.core m.core).held = true ∧ (t.core m.core).mchk = true ∧
      (∀ n g, t.group? m.core n = some g → g.fatal = true ∧ g.stopped = true) := by
  refine ⟨(s.countUnit m.core m.unit.toNat).machineCore m.core m.unit.toNat m.addr.toNat, ?_, ?_, ?_, ?_⟩
  · show execMachine m s = _
    simp only [execMachine, hm]
  · simp only [State.machineCore, State.core_modCore_same]
  · simp only [State.machineCore, State.core_modCore_same]
  · intro n g h
    rw [State.machineCore, State.group?_modCore _ _ (fun k => { k with held := true, mchk := true }) (fun _ => rfl)] at h
    refine State.group?_foldl_machineGroup _ _ _ _ _ _ n g h ?_
    cases hn : (s.countUnit m.core m.unit.toNat).group? m.core n with
    | none => exact Or.inr (fun x hx => by cases hx)
    | some x => exact Or.inl (mem_keys_of_get? hn)

theorem machine_package {s : State} {m : MachineError} (hm : 2 ≤ m.scope) :
    ∃ t, exec (.machine m) s = .next t ∧ t.pkg.frozen = true := by
  refine ⟨s.machinePackage m.core m.unit.toNat m.addr.toNat, ?_, rfl⟩
  show execMachine m s = _
  unfold execMachine
  split
  · omega
  · omega
  · rfl

/-! ## Waiting traps and breakpoints (09 R227, R240) -/

theorem trapEntry_pend {s : State} {c slot : Nat} {w : Warp} {t : Trap} (hm : s.mayRun c slot = true) (hw : s.warp? c slot = some w)
    (hp : w.pend = some t) :
    exec (.trapEntry c slot) s = .next ((s.setWarp c slot { w with pend := none }).takeTrap c slot t w.bpSkip) := by
  show execTrapEntry c slot s = _
  simp only [execTrapEntry, hm, if_true, hw, hp]

/-- The schedulers of a list, all different, frozen by a hit of scheduler `q`. -/
theorem sched_foldl_freeze (l : List Nat) (hl : l.Nodup) (k : Core) (q n : Nat) :
    (l.foldl (fun k i => k.setSched i { k.sched i with frozen := true, hit := (k.sched i).hit || i == q }) k).sched n =
      if n ∈ l then { k.sched n with frozen := true, hit := (k.sched n).hit || n == q } else k.sched n := by
  induction l generalizing k with
  | nil => rfl
  | cons i l ih =>
    obtain ⟨hi, hl⟩ := List.nodup_cons.1 hl
    rw [List.foldl_cons, ih hl]
    by_cases e : n = i
    · subst e
      rw [if_neg hi, if_pos List.mem_cons_self, Core.sched_setSched_same]
    · simp only [Core.sched_setSched_ne _ _ e, List.mem_cons, e, false_or]

theorem Core.freeze_sched (k : Core) (q n : Nat) :
    (k.freeze q).sched n = if n < 4 ∧ (k.alls = true ∨ n = q) then { k.sched n with frozen := true, hit := (k.sched n).hit || n == q } else k.sched n := by
  rw [Core.freeze, sched_foldl_freeze _ (List.nodup_range.filter _)]
  simp only [List.mem_filter, List.mem_range, Bool.or_eq_true, beq_iff_eq]

/-- A freeze changes schedulers only. -/
theorem Core.freeze_frame (k : Core) (q : Nat) : k.freeze q = { k with scheds := (k.freeze q).scheds } := by
  unfold Core.freeze
  generalize (List.range 4).filter (fun i => k.alls || i == q) = l
  induction l generalizing k with
  | nil => rfl
  | cons i l ih => rw [List.foldl_cons, ih]; rfl

theorem frozen_modCore_freeze (s : State) (c q : Nat) : Frozen s c q (s.modCore c (fun k => k.freeze q)) := by
  constructor
  · intro n
    rw [State.core_modCore_same, Core.freeze_sched]
  · rw [State.core_modCore_same]; exact Core.freeze_frame _ _
  · exact fun m hm => State.core_modCore_ne s _ hm
  · rfl

theorem breakpointHit_trap {s : State} {c q n slot : Nat} (hh : s.hitOf c q = some n) (hc : ((s.core c).sched q).cur = some slot)
    (hm : s.mayRun c slot = true) (ht : (s.core c).trapbp = true) :
    exec (.breakpointHit c q n) s = .next (s.takeTrap c slot { cause := 0x21, tval := BitVec.ofNat 64 (0x100 + n) } true) := by
  show execBreakpointHit c q n s = _
  simp only [execBreakpointHit, hh, hc, hm, ht, and_self, if_true]

theorem breakpointHit_freeze {s : State} {c q n slot : Nat} (hh : s.hitOf c q = some n) (hc : ((s.core c).sched q).cur = some slot)
    (hm : s.mayRun c slot = true) (ht : (s.core c).trapbp = false) :
    exec (.breakpointHit c q n) s = .next (s.modCore c (fun k => k.freeze q)) := by
  show execBreakpointHit c q n s = _
  simp only [execBreakpointHit, hh, hc, hm, ht, and_self, if_true, Bool.false_eq_true, if_false]

/-! ## DBGCTL (09 R241, Table 10) -/

theorem transact_of_sbUp {s : State} (h : sbUp s) (f : State → State × Bool) : s.transact f = s.told (f s) := by
  obtain ⟨ho, hb⟩ := h
  have hopen : s.anyOpen = true := by rcases ho with h | h <;> simp [State.anyOpen, h]
  have hboot : s.bootFailed = false := by
    simp only [List.mem_cons, List.not_mem_nil, or_false, not_or] at hb
    simp [State.bootFailed, hb]
  simp only [State.transact, hopen, hboot, Bool.not_false, Bool.and_self, if_true]

theorem transact_of_not_sbUp {s : State} (h : ¬sbUp s) (f : State → State × Bool) : s.transact f = s.refuse := by
  refine if_neg (fun hc => h ?_)
  simp only [State.anyOpen, State.bootFailed, Bool.and_eq_true, Bool.or_eq_true, Bool.not_eq_true', Bool.or_eq_false_iff, beq_eq_false_iff_ne] at hc
  obtain ⟨ho, ⟨h2, h5⟩, h6⟩ := hc
  exact ⟨ho, by simp [h2, h5, h6]⟩

/-- A core with the fields of a DBGCTL value. -/
def Core.dbgFields (k : Core) (v : DWord) : Core :=
  { k with
    dbgAsid := v.extractLsb' 16 16, dbgAsiden := v.getLsbD 12, bpen := v.extractLsb' 4 4, alls := v.getLsbD 3, trapbp := v.getLsbD 2
    stepBit := v.getLsbD 1 }

/-- A write of DBGCTL takes its fields, and with RESUME lets schedulers and waits go on. -/
theorem Core.writeDbgctl_eq (k : Core) (v : DWord) :
    k.writeDbgctl v.toNat = if v.getLsbD 0 then
      { (k.dbgFields v).restartWaits with
        scheds := Tab.mapVal k.scheds (fun _ q => q.resume (v.getLsbD 1))
        warps := Tab.mapVal (k.dbgFields v).restartWaits.warps (fun n w => w.resumed (k.sched (schedOf n)) n) }
    else k.dbgFields v := by
  have hf : ({ k with dbgAsid := BitVec.ofNat 16 (bitsOf v.toNat 31 16), dbgAsiden := decide (bitsOf v.toNat 12 12 = 1)
                      bpen := BitVec.ofNat 4 (bitsOf v.toNat 7 4), alls := decide (bitsOf v.toNat 3 3 = 1)
                      trapbp := decide (bitsOf v.toNat 2 2 = 1), stepBit := decide (bitsOf v.toNat 1 1 = 1) } : Core) = k.dbgFields v := by
    simp only [decide_bitsOf_eq_one, ofNat_bitsOf v 31 16 16 rfl, ofNat_bitsOf v 7 4 4 rfl, Core.dbgFields]
  have h0 : (v.toNat % 2 = 1) = (v.getLsbD 0 = true) := by
    rw [← BitVec.testBit_toNat, Nat.testBit_zero, decide_eq_true_eq]
  simp only [Core.writeDbgctl, hf, h0]
  rw [decide_bitsOf_eq_one v 1]
  rfl

theorem Core.writeDbgctl_sched (k : Core) (v : DWord) (q : Nat) :
    (k.writeDbgctl v.toNat).sched q =
      if v.getLsbD 0 && (k.sched q).frozen then { k.sched q with frozen := false, hit := false, stepOne := v.getLsbD 1 } else k.sched q := by
  rw [Core.writeDbgctl_eq]
  cases v.getLsbD 0 with
  | false => rfl
  | true =>
    exact (getD_mapVal k.scheds (fun _ q => q.resume (v.getLsbD 1)) q Scheduler.reset rfl).trans rfl

/-- A warp whose tag wait begins again in cycle `now`. -/
def Warp.waitsFrom (w : Warp) (now : Nat) : Warp := { w with waiting := w.waiting.map (fun t => { t with start := now }) }

/-- A warp of a frozen scheduler as that resumes: its wait begins again, and what hit is not compared again (09 R241; 10 R262). -/
theorem Warp.resumed_waitsFrom (w : Warp) (q : Scheduler) (n now : Nat) (h : q.frozen = true) :
    (w.waitsFrom now).resumed q n = { w.waitsFrom now with bpSkip := w.bpSkip || (q.hit && q.cur == some n) } := by
  unfold Warp.resumed
  rw [h, Bool.true_and]
  cases q.hit && q.cur == some n with
  | false => simp only [Bool.or_false]; rfl
  | true => simp only [Bool.or_true]; rfl

theorem Core.writeDbgctl_warp {k : Core} {n : Nat} {w : Warp} (v : DWord) (h : Tab.get? k.warps n = some w) :
    Tab.get? (k.writeDbgctl v.toNat).warps n = some (if v.getLsbD 0 && (k.sched (n / 16)).frozen then
      { w with
        waiting := w.waiting.map (fun p => { p with start := k.cycle.toNat })
        bpSkip := w.bpSkip || ((k.sched (n / 16)).hit && (k.sched (n / 16)).cur == some n) } else w) := by
  rw [Core.writeDbgctl_eq]
  cases v.getLsbD 0 with
  | false => exact h
  | true =>
    have hr : Tab.get? (k.dbgFields v).restartWaits.warps n =
        some (if (k.sched (n / 16)).frozen then w.waitsFrom k.cycle.toNat else w) := by
      simp only [Core.restartWaits, Tab.get?_mapVal, show (k.dbgFields v).warps = k.warps from rfl, h]
      rfl
    simp only [if_true, Tab.get?_mapVal, hr, Option.map_some, schedOf, Bool.true_and]
    cases hf : (k.sched (n / 16)).frozen with
    | false => simp [Warp.resumed, hf]
    | true => exact congrArg some (Warp.resumed_waitsFrom w _ n _ hf)

/-- A write of DBGCTL changes its fields, schedulers and warps only. -/
theorem Core.writeDbgctl_frame (k : Core) (v : DWord) :
    k.writeDbgctl v.toNat = { k.dbgFields v with scheds := (k.writeDbgctl v.toNat).scheds, warps := (k.writeDbgctl v.toNat).warps } := by
  rw [Core.writeDbgctl_eq]
  split <;> rfl

theorem dbgWritten_modCore (s : State) (c : Nat) (v : DWord) : DbgWritten s c v (s.modCore c (fun k => k.writeDbgctl v.toNat)) := by
  constructor
  · rw [State.core_modCore_same]; exact Core.writeDbgctl_frame _ v
  · intro q; rw [State.core_modCore_same]; exact Core.writeDbgctl_sched _ v q
  · intro n w hw
    rw [State.warp?, State.core_modCore_same]
    exact Core.writeDbgctl_warp v hw
  · exact fun m hm => State.core_modCore_ne s _ hm
  · rfl

theorem dbgctlResume_up {s : State} (c : Nat) (v : DWord) (h : sbUp s) :
    ∃ t, exec (.dbgctlResume c v) s = .next { t with out := Out.reset } ∧ DbgWritten s c v t :=
  ⟨_, congrArg Host.Outcome.next (transact_of_sbUp h _), dbgWritten_modCore s c v⟩

theorem dbgctlResume_refused {s : State} (c : Nat) (v : DWord) (h : ¬sbUp s) : exec (.dbgctlResume c v) s = .next s.refuse :=
  congrArg Host.Outcome.next (transact_of_not_sbUp h _)

/-! ## SCHEDULER_SELECT (02 R33 to R35) -/

/-- The cycle since which the warp in a slot of a core has waited. -/
def Core.sinceOf (k : Core) (i : Nat) : Nat := match Tab.get? k.warps i with | some w => w.since | none => 0

/-- The older of a slot, if there is one, and slot `i`: what `oldest` does with each slot. -/
def Core.older (k : Core) (b : Option Nat) (i : Nat) : Option Nat :=
  match b with
  | none => some i
  | some j => if k.sinceOf i < k.sinceOf j then some i else some j

theorem oldest_eq_foldl (k : Core) (slots : List Nat) : oldest k slots = slots.foldl k.older none := rfl

/-- Whether slot `i` comes before slot `j` in the order of waiting: `waitedLonger` on a core. -/
def Core.waitsBefore (k : Core) (i j : Nat) : Prop := k.sinceOf i < k.sinceOf j ∨ (k.sinceOf i = k.sinceOf j ∧ i ≤ j)

/-- The fold of `oldest` from slot `j` on, over the slots after it, ends in the one that comes first. -/
theorem foldl_oldest (k : Core) (l : List Nat) (i j : Nat) (hs : (j :: l).Pairwise (· < ·)) (hi : i ∈ j :: l)
    (hl : ∀ x ∈ j :: l, k.waitsBefore i x) :
    l.foldl k.older (some j) = some i := by
  induction l generalizing j with
  | nil => rw [List.mem_singleton.1 hi]; rfl
  | cons a l ih =>
    have hja : j < a := (List.pairwise_cons.1 hs).1 a List.mem_cons_self
    have hj := hl j List.mem_cons_self
    have ha := hl a (List.mem_cons_of_mem _ List.mem_cons_self)
    rw [List.foldl_cons]
    by_cases ht : k.sinceOf a < k.sinceOf j
    · rw [show k.older (some j) a = some a from if_pos ht]
      have hij : i ≠ j := by rintro rfl; unfold Core.waitsBefore at ha; omega
      exact ih a (List.pairwise_cons.1 hs).2 ((List.mem_cons.1 hi).resolve_left hij) (fun x hx => hl x (List.mem_cons_of_mem _ hx))
    · rw [show k.older (some j) a = some j from if_neg ht]
      have hia : i ≠ a := by rintro rfl; unfold Core.waitsBefore at hj; omega
      refine ih j (hs.sublist ((List.sublist_cons_self a l).cons_cons j)) ?_ (fun x hx => hl x ?_)
      · rcases List.mem_cons.1 hi with h | h
        · exact h ▸ List.mem_cons_self
        · exact List.mem_cons_of_mem _ ((List.mem_cons.1 h).resolve_left hia)
      · rcases List.mem_cons.1 hx with h | h
        · exact h ▸ List.mem_cons_self
        · exact List.mem_cons_of_mem _ (List.mem_cons_of_mem _ h)

/-- The oldest of some slots in rising order is the one that comes first in the order of waiting. -/
theorem oldest_eq_of_least {k : Core} {slots : List Nat} {i : Nat} (hs : slots.Pairwise (· < ·)) (hi : i ∈ slots)
    (hl : ∀ j ∈ slots, k.waitsBefore i j) : oldest k slots = some i := by
  rw [oldest_eq_foldl]
  cases slots with
  | nil => cases hi
  | cons j l => exact foldl_oldest k l i j hs hi hl

theorem waitsBefore_of_waitedLonger {s : State} {c i j : Nat} (h : waitedLonger s c i j) : (s.core c).waitsBefore i j := by
  have hsince : ∀ n, ((s.warp? c n).map Warp.since).getD 0 = (s.core c).sinceOf n := by
    intro n
    unfold Core.sinceOf State.warp?
    cases Tab.get? (s.core c).warps n <;> rfl
  simp only [waitedLonger, hsince] at h
  exact h

/-- The ready warps of a scheduler, in rising order of their slots. -/
def State.readySlots (s : State) (c q : Nat) : List Nat := ((List.range 16).map (fun i => 16 * q + i)).filter (fun i => s.ready c i)

theorem State.mem_readySlots (s : State) (c q i : Nat) : i ∈ s.readySlots c q ↔ readyOf s c q i := by
  simp only [State.readySlots, List.mem_filter, List.mem_map, List.mem_range, readyOf]
  constructor
  · rintro ⟨⟨n, hn, rfl⟩, hr⟩
    exact ⟨by omega, hr⟩
  · rintro ⟨hq, hr⟩
    exact ⟨⟨i % 16, by omega, by omega⟩, hr⟩

theorem State.readySlots_sorted (s : State) (c q : Nat) : (s.readySlots c q).Pairwise (· < ·) := by
  refine List.Pairwise.filter _ (List.pairwise_map.2 ?_)
  exact List.pairwise_lt_range.imp (fun h => by omega)

/-- Whether a scheduler's runs in a row are spent: its warp yielded, or had its 16th run (02 R34). -/
def Scheduler.spent (k : Scheduler) : Bool := k.yielded || decide (16 ≤ k.runs)

theorem Scheduler.spent_iff (k : Scheduler) : k.spent = true ↔ k.yielded = true ∨ 16 ≤ k.runs := by
  simp only [Scheduler.spent, Bool.or_eq_true, decide_eq_true_eq]

theorem State.pick_of_cur_none {s : State} {c q : Nat} (h : ((s.core c).sched q).cur = none) :
    s.pick c q = (oldest (s.core c) (s.readySlots c q)).map (fun i => (i, false)) := by
  simp only [State.pick, h, State.readySlots]

theorem State.pick_of_cur_some {s : State} {c q p : Nat} (h : ((s.core c).sched q).cur = some p) :
    s.pick c q = if (s.readySlots c q).contains p && !((s.core c).sched q).spent then some (p, true)
      else ((oldest (s.core c) ((s.readySlots c q).filter (fun i => !(i == p && ((s.core c).sched q).spent)))).map (fun i => (i, false))).or
        (if (s.readySlots c q).contains p then some (p, false) else none) := by
  simp only [State.pick, h, State.readySlots, Scheduler.spent]
  refine ite_congr rfl (fun _ => rfl) (fun _ => ?_)
  cases oldest (s.core c) _ <;> rfl

/-- A scheduler whose warp is ready, and whose runs are not spent, goes on with it. -/
theorem State.pick_continues {s : State} {c q p : Nat} (hc : ((s.core c).sched q).cur = some p) (hr : readyOf s c q p)
    (hs : ((s.core c).sched q).spent = false) : s.pick c q = some (p, true) := by
  rw [State.pick_of_cur_some hc, List.contains_iff_mem.2 ((s.mem_readySlots c q p).2 hr), hs]
  rfl

/-- Else it takes the ready warp that has waited longest. -/
theorem State.pick_oldest {s : State} {c q i : Nat} (hi : readyOf s c q i) (hc : ((s.core c).sched q).cur ≠ some i)
    (hp : ∀ p, ((s.core c).sched q).cur = some p → ((s.core c).sched q).spent = true ∨ ¬readyOf s c q p)
    (hl : ∀ j, readyOf s c q j → ((s.core c).sched q).cur ≠ some j → waitedLonger s c i j) : s.pick c q = some (i, false) := by
  have hmem := (s.mem_readySlots c q i).2 hi
  cases hk : ((s.core c).sched q).cur with
  | none =>
    have hleast : ∀ j ∈ s.readySlots c q, (s.core c).waitsBefore i j := fun j hj =>
      waitsBefore_of_waitedLonger (hl j ((s.mem_readySlots c q j).1 hj) (by rw [hk]; exact fun h => nomatch h))
    rw [State.pick_of_cur_none hk, oldest_eq_of_least (s.readySlots_sorted c q) hmem hleast]
    rfl
  | some p =>
    have hip : i ≠ p := by rintro rfl; exact hc hk
    have hleast : ∀ j ∈ (s.readySlots c q).filter (fun i => !(i == p && ((s.core c).sched q).spent)), (s.core c).waitsBefore i j := by
      intro j hj
      obtain ⟨hj, hne⟩ := List.mem_filter.1 hj
      have hjr := (s.mem_readySlots c q j).1 hj
      refine waitsBefore_of_waitedLonger (hl j hjr (fun hcj => ?_))
      obtain rfl : p = j := Option.some.inj (hk.symm.trans hcj)
      rcases hp p hk with hs | hs
      · simp [hs] at hne
      · exact hs hjr
    have hno : ((s.readySlots c q).contains p && !((s.core c).sched q).spent) = false := by
      rcases hp p hk with hs | hs
      · simp [hs]
      · have : p ∉ s.readySlots c q := fun h => hs ((s.mem_readySlots c q p).1 h)
        simp [this]
    rw [State.pick_of_cur_some hk, hno,
      oldest_eq_of_least ((s.readySlots_sorted c q).filter _) (List.mem_filter.2 ⟨hmem, by simp [hip]⟩) hleast]
    rfl

/-- With its runs spent and no other warp ready, it begins its warp again. -/
theorem State.pick_begins_again {s : State} {c q p : Nat} (hc : ((s.core c).sched q).cur = some p) (hr : readyOf s c q p)
    (hs : ((s.core c).sched q).spent = true) (hj : ∀ j, j ≠ p → ¬readyOf s c q j) : s.pick c q = some (p, false) := by
  have hnil : (s.readySlots c q).filter (fun i => !(i == p && ((s.core c).sched q).spent)) = [] := by
    refine List.filter_eq_nil_iff.2 (fun j hjm => ?_)
    have : j = p := by_contra (fun h => hj j h ((s.mem_readySlots c q j).1 hjm))
    simp [this, hs]
  rw [State.pick_of_cur_some hc, hnil, List.contains_iff_mem.2 ((s.mem_readySlots c q p).2 hr), hs]
  rfl

/-! What a selection leaves. -/

/-- The state in which the operand cache of the warp whose run it was is cleared, where another warp is selected (05 R120). -/
def State.dropPrior (s : State) (c q i : Nat) : State :=
  match ((s.core c).sched q).cur with
  | some p => if p = i then s else s.modWarp c p Warp.clearCache
  | none => s

theorem warpsOnly_dropPrior (s : State) (c q i : Nat) : WarpsOnly s (s.dropPrior c q i) c := by
  unfold State.dropPrior; split
  · split
    · exact WarpsOnly.refl _ _
    · exact warpsOnly_modWarp _ _ _ _
  · exact WarpsOnly.refl _ _

theorem State.warp?_dropPrior_ne (s : State) (c q i : Nat) {m : Nat} (h : ((s.core c).sched q).cur ≠ some m ∨ m = i) :
    (s.dropPrior c q i).warp? c m = s.warp? c m := by
  unfold State.dropPrior
  cases hk : ((s.core c).sched q).cur with
  | none => rfl
  | some p =>
    dsimp only
    split
    · rfl
    · next hp =>
      refine State.warp?_modWarp_ne _ _ _ (fun e => ?_)
      rcases h with h | h
      · exact h (by rw [hk, e])
      · exact hp (e ▸ h)

theorem State.warp?_dropPrior_prior {s : State} {c q i p : Nat} {w : Warp} (hc : ((s.core c).sched q).cur = some p) (hp : p ≠ i)
    (hw : s.warp? c p = some w) : (s.dropPrior c q i).warp? c p = some w.clearCache := by
  simp only [State.dropPrior, hc, if_neg hp, State.warp?_modWarp_same, hw, Option.map_some]

/-- The state after the choice of warp `i`, which goes on with its run of runs if `go`. -/
def State.selected (s : State) (c q i : Nat) (go : Bool) : State :=
  ((s.dropPrior c q i).modSched c q (fun k => k.take i go ((s.warp? c i).bind Warp.relatch))).modWarp c i
    (fun w => { w with relatch := none, issueFrom := (s.core c).cycle.toNat + 1 })

theorem schedulerSelect_of_pick {s : State} {c q i : Nat} {go : Bool} (hm : ((s.core c).sched q).midRun = false)
    (hf : ((s.core c).sched q).frozen = false) (hp : s.pick c q = some (i, go)) :
    exec (.schedulerSelect c q) s = .next (s.selected c q i go) := by
  show execSchedulerSelect c q s = _
  simp only [execSchedulerSelect, hm, hf, hp, Bool.or_self, Bool.false_eq_true, if_false]
  rw [State.selected, ← s.warp?_dropPrior_ne c q i (Or.inr rfl)]
  rfl

theorem selected_selected (s : State) (c q i : Nat) (go : Bool) :
    Selected s c q i (if go then ((s.core c).sched q).runs + 1 else 1) (s.selected c q i go) := by
  have hd := warpsOnly_dropPrior s c q i
  have hw := warpsOnly_modWarp ((s.dropPrior c q i).modSched c q (fun k => k.take i go ((s.warp? c i).bind Warp.relatch))) c i
    (fun w => { w with relatch := none, issueFrom := (s.core c).cycle.toNat + 1 })
  have hs : ∀ m, ((s.dropPrior c q i).core c).sched m = (s.core c).sched m := by intro m; rw [hd.core]; rfl
  constructor
  · rw [State.selected, hw.core]
    show (((s.dropPrior c q i).modSched c q _).core c).sched q = _
    rw [State.core_modSched, Core.sched_setSched_same, hs]
    rfl
  · rw [State.selected, State.warp?_modWarp_same, State.warp?_modSched, s.warp?_dropPrior_ne c q i (Or.inr rfl)]
  · intro p w hc hp hpw
    rw [State.selected, State.warp?_modWarp_ne _ _ _ hp, State.warp?_modSched]
    exact State.warp?_dropPrior_prior hc hp hpw
  · intro m hm hc
    rw [State.selected, State.warp?_modWarp_ne _ _ _ hm, State.warp?_modSched, s.warp?_dropPrior_ne c q i (Or.inl hc)]
  · intro m hm
    rw [State.selected, hw.core]
    show (((s.dropPrior c q i).modSched c q _).core c).sched m = _
    rw [State.core_modSched, Core.sched_setSched_ne _ _ hm, hs]
  · rw [State.selected, hw.core, State.core_modSched, hd.core]
    rfl
  · intro m hm
    rw [State.selected, hw.others m hm, State.core_modSched_ne _ _ _ hm, hd.others m hm]
  · rw [State.selected, hw.state]
    show ({ (s.dropPrior c q i) with cores := _ } : State) = _
    rw [hd.state]

theorem schedulerSelect_selected {s : State} {c q i n : Nat} {go : Bool} (hm : ((s.core c).sched q).midRun = false)
    (hf : ((s.core c).sched q).frozen = false) (hp : s.pick c q = some (i, go)) (hn : n = if go then ((s.core c).sched q).runs + 1 else 1) :
    ∃ t, exec (.schedulerSelect c q) s = .next t ∧ Selected s c q i n t :=
  ⟨_, schedulerSelect_of_pick hm hf hp, hn ▸ selected_selected s c q i go⟩

/-- Settles O53, clause by clause from the lemma of each event. -/
theorem warpEventsComplete : Obligations.WarpEventsComplete := by
  refine ⟨?trapEntry, ?tagWait, ?gripTagWait, ?gripGoesOn, ?hit, ?machine, ?core, ?package, ?select, ?dbgctl, ?refused⟩
  case trapEntry => exact fun _ _ _ _ _ hm hw hp => trapEntry_pend hm hw hp
  case tagWait => exact fun _ _ _ _ _ _ _ _ h htag hl ha => tagwait_warp h htag hl ha
  case gripTagWait => exact fun _ _ _ _ _ hw hr hl hm => tagwait_grip hw hr hl hm
  case gripGoesOn => exact fun _ _ _ _ _ _ _ h hr hw hf hi => tagWaitSatisfied_grip h hr hw hf hi
  case hit =>
    exact fun s c q _ _ hh hc hm => ⟨breakpointHit_trap hh hc hm,
      fun ht => ⟨_, breakpointHit_freeze hh hc hm ht, frozen_modCore_freeze s c q⟩⟩
  case machine => exact fun _ _ hm hg => machine_group hm hg
  case core => exact fun _ _ hm => machine_core hm
  case package => exact fun _ _ hm => machine_package hm
  case select =>
    intro s c q k spent hm hf
    refine ⟨fun p hc hr hs => ?_, fun i hi hc hp hl => ?_, fun p hc hr hs hj => ?_⟩
    · have hs' : ((s.core c).sched q).spent = false := Bool.eq_false_iff.2 (fun h => hs ((Scheduler.spent_iff _).1 h))
      exact schedulerSelect_selected hm hf (State.pick_continues hc hr hs') rfl
    · have hp' : ∀ p, ((s.core c).sched q).cur = some p → ((s.core c).sched q).spent = true ∨ ¬readyOf s c q p :=
        fun p h => (hp p h).imp_left (Scheduler.spent_iff _).2
      exact schedulerSelect_selected hm hf (State.pick_oldest hi hc hp' hl) rfl
    · exact schedulerSelect_selected hm hf (State.pick_begins_again hc hr ((Scheduler.spent_iff _).2 hs) hj) rfl
  case dbgctl => exact fun _ c v h => dbgctlResume_up c v h
  case refused => exact fun _ c v h => dbgctlResume_refused c v h

end Sys2Proof.Machine

/-! PROOFS. The events of groups, grids and tasks (02 R44 to R53; 09 R236 to R239; 14 R337 to R347): O57. -/

namespace Sys2Proof.Machine

/-! ## Pre-emption (02 R46 to R49; 09 R236) -/

theorem priorityAging_preempts {s : State} {idx : Nat} {p : Pending} (hp : s.pkg.pending[idx]? = some p) (hw : 2 ^ 20 ≤ p.waited) :
    exec (.priorityAging idx) s = .next (preemptFor (.cluster idx) (s.groupsOn (s.waiterDies (.cluster idx))) s) := by
  show execPriorityAging idx s = _
  simp only [execPriorityAging, hp, if_neg (Nat.not_lt.2 hw)]
  rfl

section
variable {s : State} {c gid : Nat} {g : Group} (hg : s.group? c gid = some g)
include hg

theorem timeSliceEnd_ended (ht : g.tslice ≠ 0) (hs : g.tslice * 2 ^ 16 ≤ g.slice) :
    exec (.timeSliceEnd c gid) s = .next (if g.eligible && s.waiters.any (fun w =>
        s.holdsUp w c gid (fun c n h => decide (s.groupPrio c n h ≤ (s.rank w).1))) then s.startPreempt c gid
      else s.setGroup c gid { g with slice := 0 }) := by
  have h : ¬(g.tslice = 0 ∨ g.slice < g.tslice * 2 ^ 16) := not_or.2 ⟨ht, Nat.not_lt.2 hs⟩
  show execTimeSliceEnd c gid s = _
  simp only [execTimeSliceEnd, hg, if_neg h]
  exact (apply_ite Host.Outcome.next _ _ _).symm

theorem timeSliceEnd_preempts (ht : g.tslice ≠ 0) (hs : g.tslice * 2 ^ 16 ≤ g.slice) (he : g.eligible = true)
    (hw : ∃ w ∈ s.waiters, neededBy s c gid w) : exec (.timeSliceEnd c gid) s = .next (s.startPreempt c gid) := by
  rw [timeSliceEnd_ended hg ht hs, he, List.any_eq_true.2 hw]
  rfl

theorem timeSliceEnd_again (ht : g.tslice ≠ 0) (hs : g.tslice * 2 ^ 16 ≤ g.slice)
    (h : g.eligible = false ∨ ∀ w ∈ s.waiters, ¬neededBy s c gid w) :
    exec (.timeSliceEnd c gid) s = .next (s.setGroup c gid { g with slice := 0 }) := by
  rw [timeSliceEnd_ended hg ht hs]
  rcases h with h | h
  · rw [h]; rfl
  · rw [List.any_eq_false.2 h, Bool.and_false]; rfl

theorem preemption_saving (h : g.saving = true) : exec (.preemption c gid) s = .next (s.takePreempts c gid) := by
  show execPreemption c gid s = _
  simp only [execPreemption, hg, h, if_true]

theorem preemption_outranked (h : g.saving = false) (hw : ∃ w ∈ s.waiters, s.outranked c gid g w = true) :
    exec (.preemption c gid) s = .next (s.startPreempt c gid) := by
  show execPreemption c gid s = _
  simp only [execPreemption, hg, h, List.any_eq_true.2 hw, Bool.false_eq_true, if_false, if_true]

/-! ## Halting and retirement (02 R52, R53; 09 R237) -/

theorem groupHaltRelease_released (h : hasHalted s c gid g) :
    exec (.groupHaltRelease c gid) s = .next (
      let t := (s.groupGone c gid .halted).event (dieOf c) c 0x03 g.asid c g.idgrid 0 0
      if g.taskIdx.isSome then t else t.modPkg (fun p => { p with halted := p.halted ++
        [{ gridId := g.gridId, asid := g.asid, idgrid := g.idgrid, idgroup := g.idgroup, idclus := g.idclus, cast := g.castOpen, asked := false }] })) := by
  obtain ⟨hstop, hhalt, hdone⟩ := h
  have hall : (s.core c).warps.all (fun p => p.2.gid != gid || p.2.halted) = true := by
    refine List.all_eq_true.2 (fun p hp => ?_)
    by_cases e : p.2.gid = gid
    · simp [hhalt p hp e]
    · simp [e]
  show execGroupHaltRelease c gid s = _
  simp only [execGroupHaltRelease, hg, hstop, hall, hdone, Bool.not_true, Bool.or_self, Bool.false_eq_true, if_false]

theorem groupRetirement_retires (h : mayRetire s c gid g) :
    exec (.groupRetirement c gid) s = .next (if g.err || g.fatal then
        (s.setGroup c gid { g with reported := true }).event (dieOf c) c 0x01 g.asid c g.idgrid g.stat 0
      else s.groupGone c gid .retired) := by
  obtain ⟨hstop, hsave, hrep, hexit, hdone, hquiet, hthrough⟩ := h
  have ht : (g.taskIdx.isSome && s.throughsOf [gid]) = false := by
    cases hi : g.taskIdx.isSome with
    | false => rfl
    | true => exact hthrough hi
  show execGroupRetirement c gid s = _
  simp only [execGroupRetirement, hg, hstop, hsave, hrep, hexit, hdone, hquiet, ht, Bool.not_true, Bool.or_self, Bool.false_eq_true, if_false]
  exact (apply_ite Host.Outcome.next _ _ _).symm

end

/-! ## Placement (02 R44; 09 R239; 14 R347) -/

theorem clusterPlacement_places {s : State} {idx : Nat} {p : Pending} {g : Grid} {cs : List Nat} (hg : s.gridOfPending idx = some (p, g))
    (hc : s.clusterCores p.die g [] = some cs) (hr : p.restore = none) (hm : s.mayPlace (.cluster idx) = true)
    (hq : g.dies.length ≤ p.next ∨ s.quietDie p.die = true) :
    exec (.clusterPlacement idx) s = .next (s.placeCluster idx p g cs) := by
  have hq' : (decide (g.dies.length ≤ p.next) || s.quietDie p.die) = true := by simpa using hq
  show execClusterPlacement idx s = _
  simp only [execClusterPlacement, hg, hc, hr, hm, hq', Option.isNone_none, Bool.and_self, if_true]

theorem restorePlacement_places {s : State} {idx c : Nat} {p : Pending} {g : Grid} {r : Nat × Nat × List (Nat × Nat) × Nat × List Nat}
    {h : Halted} {a : Alloc} (hg : s.gridOfPending idx = some (p, g)) (hr : p.restore = some r)
    (hh : s.pkg.halted.find? (fun h => h.gridId == p.gridId && h.idgrid == r.2.1 && h.asked) = some h)
    (ha : (s.core c).fitSlots g.kernel r.2.2.1 = some a) (hd : dieOf c ∈ r.2.2.2.2) (hm : s.mayPlace (.cluster idx) = true) :
    exec (.restorePlacement idx c) s = .next (s.placeRestored idx c h g a) := by
  show execRestorePlacement idx c s = _
  simp only [execRestorePlacement, hg, hr, hh, ha, List.contains_iff_mem.2 hd, hm, Bool.and_self, if_true]

theorem taskPlacement_places {s : State} {c n : Nat} {t : Task} {a : Alloc} (ht : s.task? c n = some t)
    (ha : (s.core c).fit t.kernel (recWarps t.rcd) = some a) (hr : t.ready = true) (hm : s.mayPlace (.task c n) = true)
    (hq : s.quietDie (dieOf c) = true) :
    ∃ u, exec (.taskPlacement c n) s = .next u ∧ (u.core c).tasks =
      (((s.raiseG (dieOf c)).placeNew c (t.birth (s.tsliceOf t.asid)) a).core c).tasks.map
        (fun x => if x.num = n then { x with state := 2, gid := s.pkg.nextGid } else x) := by
  have he : exec (.taskPlacement c n) s = execTaskPlacement c n s := rfl
  simp only [execTaskPlacement, ht, ha, hr, hm, hq, Bool.and_self, if_true] at he
  refine ⟨_, he, ?_⟩
  rw [State.core_modCore_same]
  dsimp only
  split <;> rfl

theorem taskArrival_accepted {s : State} {c idx : Nat} {m : Nat × TaskMsg} (hm : (sentTo s c)[idx]? = some m)
    (hf : ∀ p ∈ (sentTo s c).take idx, p.2.rank % 256 ≠ m.2.rank % 256) (hr : (s.core c).tskRank ≤ m.2.rank)
    (he : (s.core c).freeEntries ≠ []) :
    exec (.taskArrival c idx) s = .next (((s.modPkg (fun p => { p with arriving := p.arriving.erase m })).modCore c
      (fun k => { k with tskRank := m.2.rank })).acceptTask c m.2) := by
  have hfirst : ((sentTo s c).take idx).any (fun p => p.2.rank % 256 == m.2.rank % 256) = false :=
    List.any_eq_false.2 (fun p hp => by simpa using hf p hp)
  show execTaskArrival c idx s = _
  simp only [execTaskArrival, hm, hfirst, decide_eq_false (Nat.not_lt.2 hr), List.isEmpty_eq_false_iff.2 he, Bool.or_self, Bool.false_eq_true, if_false]

/-! ## Launch entries and the end of a grid (14 R337 to R341) -/

/-- The VA of the entry that a launch queue takes next. -/
abbrev State.nextEntryVa (s : State) (asid q : Nat) : Nat := (s.lq asid q).entryVa (s.lq asid q).taken.toNat

/-- Where the launch unit may take an entry, nothing that keeps it from reading one holds. -/
theorem mayTake_guard {s : State} {asid q : Nat} (h : mayTake s asid q) :
    (s.pkg.bootState != 4) = false ∧ (s.lq asid q).sheet = none ∧
    (!(s.lq asid q).en || (s.asid asid).state != 1 || (s.lq asid q).blocked || (s.lq asid q).taken == (s.lq asid q).tail ||
      !(s.queueFree asid q)) = false := by
  obtain ⟨hboot, hen, hsheet, hblocked, htail, hasid, hfree⟩ := h
  refine ⟨by rw [hboot]; rfl, hsheet, ?_⟩
  simp only [hen, hblocked, hasid, hfree, beq_eq_false_iff_ne.2 htail, bne_self_eq_false, Bool.not_true, Bool.or_self]

section
variable {s t : State} {asid q : Nat} (h : mayTake s asid q)
include h

theorem launchEntryTake_taken {dw : List DWord}
    (hr : s.readRecord (homeOf (s.nextEntryVa asid q)) asid (s.nextEntryVa asid q) = (t, .ok dw)) :
    exec (.launchEntryTake asid q) s = .next (t.takeEntry asid q dw) := by
  obtain ⟨hboot, hsheet, hguard⟩ := mayTake_guard h
  show execLaunchEntryTake asid q s = _
  simp only [execLaunchEntryTake, hboot, hsheet, hguard, hr, Bool.false_eq_true, if_false]

theorem launchEntryTake_fault {f : Nat}
    (hr : s.readRecord (homeOf (s.nextEntryVa asid q)) asid (s.nextEntryVa asid q) = (t, .error f)) :
    exec (.launchEntryTake asid q) s =
      .next ((t.launchFault 0 asid f 0 q (s.nextEntryVa asid q)).modLq asid q (fun l => { l with blocked := true })) := by
  obtain ⟨hboot, hsheet, hguard⟩ := mayTake_guard h
  show execLaunchEntryTake asid q s = _
  simp only [execLaunchEntryTake, hboot, hsheet, hguard, hr, Bool.false_eq_true, if_false]

end

theorem launchEntryTake_sheet {s : State} {asid q : Nat} {t : TakenSheet} (hb : s.pkg.bootState = 4) (ht : (s.lq asid q).sheet = some t) :
    exec (.launchEntryTake asid q) s = .next (if s.sheetsOf ((diesOf (ghd t.node 61 58)).headD 0) < 16 then
      (s.modLq asid q (fun l => { l with sheet := none })).startSheet asid q t
    else s) := by
  have hboot : (s.pkg.bootState != 4) = false := by rw [hb]; rfl
  show execLaunchEntryTake asid q s = _
  simp only [execLaunchEntryTake, hboot, ht, State.takeSheet, State.sheetRoom, decide_eq_true_eq, Bool.false_eq_true, if_false]

section
variable {s : State} {id : Nat} {g : Grid} (hg : Tab.get? s.pkg.grids id = some g) (hq : s.gridQuiet id g = true)
include hg hq

theorem gridEnd_status (h : g.told = false) :
    exec (.gridEnd id) s = .next ((s.putStatus (s.gridHome g).2 g.asid (s.gridHome g).1 g.recVa g.outcome.1 g.outcome.2 g.nfg).modGrid id
      (fun g => { g with told := true })) := by
  show execGridEnd id s = _
  simp only [execGridEnd, hg, hq, h, Bool.not_true, Bool.not_false, Bool.false_eq_true, if_false, if_true]

theorem gridEnd_waits (h : g.told = true) (hp : s.statusPending (s.gridHome g).2 g.recVa = true) : exec (.gridEnd id) s = .next s := by
  show execGridEnd id s = _
  simp only [execGridEnd, hg, hq, h, hp, Bool.not_true, Bool.false_eq_true, if_false, if_true]

theorem gridEnd_ring (h : g.told = true) (hp : s.statusPending (s.gridHome g).2 g.recVa = false) {a q n : Nat} (hs : g.src = .ring a q n) :
    exec (.gridEnd id) s = .next ((gridEnded s id g).advanceHead a q) := by
  show execGridEnd id s = _
  simp only [execGridEnd, hg, hq, h, hp, hs, Bool.not_true, Bool.false_eq_true, if_false]
  rfl

theorem gridEnd_sheet (h : g.told = true) (hp : s.statusPending (s.gridHome g).2 g.recVa = false) {i n : Nat} (hs : g.src = .sheet i n) :
    exec (.gridEnd id) s = .next ((gridEnded s id g).nodeEnded i n g.outcome.1) := by
  show execGridEnd id s = _
  simp only [execGridEnd, hg, hq, h, hp, hs, Bool.not_true, Bool.false_eq_true, if_false]
  rfl

end

/-- Settles O57, clause by clause from the lemma of each event. -/
theorem groupEventsComplete : Obligations.GroupEventsComplete := by
  refine ⟨?aging, ?slice, ?cluster, ?preempt, ?halt, ?restore, ?retire, ?entry, ?sheet, ?gridEnd, ?arrival, ?task⟩
  case aging => exact fun _ _ _ hp hw => priorityAging_preempts hp hw
  case slice => exact fun _ _ _ _ hg ht hs => ⟨timeSliceEnd_preempts hg ht hs, timeSliceEnd_again hg ht hs⟩
  case cluster => exact fun _ _ _ _ _ hg hc hr hm hq => clusterPlacement_places hg hc hr hm hq
  case preempt => exact fun _ _ _ _ hg => ⟨preemption_saving hg, preemption_outranked hg⟩
  case halt =>
    intro s c gid g hg hh t
    have he := groupHaltRelease_released hg hh
    exact ⟨fun hi => by rw [he, hi]; rfl, fun hi => by rw [he, hi]; rfl⟩
  case restore => exact fun _ _ _ _ _ _ _ _ hg hr hh ha hd hm => restorePlacement_places hg hr hh ha hd hm
  case retire =>
    intro s c gid g hg hm
    have he := groupRetirement_retires hg hm
    refine ⟨fun h => ?_, fun herr hfatal => by rw [he, herr, hfatal]; rfl⟩
    rw [he, if_pos (by simpa using h)]
  case entry => exact fun _ _ _ h => ⟨fun _ _ hr => launchEntryTake_taken h hr, fun _ _ hr => launchEntryTake_fault h hr⟩
  case sheet => exact fun _ _ _ _ hb ht => launchEntryTake_sheet hb ht
  case gridEnd =>
    exact fun _ _ _ hg hq => ⟨gridEnd_status hg hq, gridEnd_waits hg hq,
      fun h hp => ⟨fun _ _ _ hs => gridEnd_ring hg hq h hp hs, fun _ _ hs => gridEnd_sheet hg hq h hp hs⟩⟩
  case arrival => exact fun _ _ _ _ hm hf hr he => taskArrival_accepted hm hf hr he
  case task => exact fun _ _ _ _ _ ht ha hr hm hq => taskPlacement_places ht ha hr hm hq

end Sys2Proof.Machine

/-! PROOFS. The words of a warp's instructions (03 R55 to R60 and Tables 3 to 6): O51 and O41. -/

namespace Sys2Proof.Laws.RoundTrip

/-- The case split over the rows of the opcode table, one law for each, in the order of the constructors of `Instr`. -/
theorem statement_of_instr (i : Instr) : Statement i :=
  Instr.casesOn (motive := Statement) i
    braBr braExt brp brx joinAlu joinExt callBr callExt calliAlu calliExt retAlu retExt jmpiAlu jmpiExt exitAlu exitExt recast yieldAlu
    yieldExt nopAlu nopExt bkptImm bkptExt trapImm trapExt svcImm svcExt iaddAlu iaddImm iaddExt isubAlu isubImm isubExt iaddc imulAlu
    imulImm imulExt imulhAlu imulhImm imulhExt imad imadw ishlAlu ishlImm ishlExt ishrAlu ishrImm ishrExt isarAlu isarImm isarExt
    irotAlu irotImm irotExt andAlu andImm andExt orAlu orImm orExt xorAlu xorImm xorExt andnAlu andnImm andnExt lmix bfx bfi iminAlu
    iminImm iminExt imaxAlu imaxImm imaxExt iabsAlu iabsExt isel idot4 lea iadd64Alu iadd64Imm iadd64Ext ldiAlu ldiExt clz ctz popc brev
    iset pset pmov pcnt vtos stov elect faddAlu faddImm faddExt fsubAlu fsubImm fsubExt fmulAlu fmulImm fmulExt ffma fminAlu fminImm
    fminExt fmaxAlu fmaxImm fmaxExt fset fclass frcp frsq fsqrt fexp2 flog2 fsin fcos ftanh daddAlu daddExt dmulAlu dmulExt dfma
    pkaddAlu pkaddExt pkmulAlu pkmulExt pkfma cvt cvtq bqdot bqscl qswz qbc qdx qdy lxch qrm peer wfold prefixFold isect mma2 mma3 mma4
    mma5 mma6 mma7 mma8 mmaw wbld wbinv aclr ard awr scan scanst mfs mts sscmdSpill sscmdFill sscmdPop sscmdPush eret halt clrerr
    tlbflush tlbsync asidret sgwr ttrd bwset ldsMem ldsExt stsMem stsExt ldsfMem ldsfExt stseMem stseExt ldsp tags tagc ats atsn talloc
    tfree tld tst fence icinv cpost red amo redflush cfence cpstat coll cgrp fxwin tskpost launch itemput waitc tlwait tlrd balloc bfree
    barv barvw bwait ecrd ecsel gPost gTlwait gTlrd gLdf gSte gItem gItemClose gTask gBarv gEvt gEvtEnd gEvtFail gripStandardInstruction
    trapEntry tagwait machine breakpointHit dbgctlResume schedulerSelect storeQueuePerform gripStorePerform loadLand tileAccessLand
    tagWaitSatisfied waitcReturn tlwaitReturn bwaitReturn recastWake cpostAccept mmaAccept fenceDrained icinvDone sgwrDone tlbsyncDone
    atomicElementPerform writeThroughAck scrubPass copyDispatch copyFaultSuspend faultBatchPost copyComplete matrixUnitStart
    matrixCommandComplete gafferWindow wbldRun wbldComplete wbinvEffect scanStart scanComplete scanstComplete tokenRefill portSend
    priorityAging timeSliceEnd clusterPlacement preemption groupHaltRelease restorePlacement groupRetirement launchEntryTake gridEnd
    taskArrival taskPlacement collectiveMatched collMemberComplete gatewayCombine multicastPacketArrival writePacket readPacket
    atomicPacket flagPacket collPacket ackReceived stallHintExpiry linkDown ackTimeout routeRetry fabricTimeout asidFreed coldReset
    warmReset resetctlWarm bootctlStart bootbufWrite bootctlGo linkStateChange sidebandRegisterWrite errstatRead lqd0Write lqd1TailWrite
    diememWrite bwtabWrite fqctlHeadWrite eqctlHeadWrite islopWrite asidBind asidReroot tlbFlush asidRetire faultVerdict groupRelease
    restore preempt streamReset windowSync scopeWrite taskName attest coreRelease sidebandCommandFinish thermalThreshold thermalUndo
    jtagExtest jtagIdcode jtagSamplePreload jtagBypass companionDeviceMemoryAccess linkAbsenceTimeout

end Sys2Proof.Laws.RoundTrip

namespace Sys2Proof.Machine

/-- Settles O51: the round trip of each row, whatever words follow. -/
theorem encodedWordsDecode : Obligations.EncodedWordsDecode :=
  fun i rest hwf hwords hwarp => Laws.RoundTrip.statement_of_instr i hwf hwords hwarp rest

/-- Settles O41: each word is decoded, and the operands that the specification names are read off its fields. -/
theorem writtenWordsDecode : Obligations.WrittenWordsDecode := by
  refine ⟨?iadd, ?join, ?mma8, ?mfs, ?cpost, ?bwset, ?balloc⟩
  case iadd => rfl
  case join => rfl
  case mma8 => exact ⟨_, rfl, rfl, rfl, rfl⟩
  case mfs => exact ⟨_, rfl, rfl, rfl⟩
  case cpost => exact ⟨_, rfl, rfl, rfl, rfl⟩
  case bwset => exact ⟨_, rfl, rfl, rfl, rfl, rfl⟩
  case balloc => exact ⟨_, rfl, rfl, rfl, rfl, rfl⟩

end Sys2Proof.Machine

/-! PROOFS. Floating-point and packed arithmetic (07 R168 to R170, R174, R175; 04 R87): O7 and O8. -/

namespace Sys2Proof.Machine

/-! ## The two shapes of a rounded operation, each half of a packed one by itself -/

/-- An effect that writes a value and flags by lane is done with the result that names both (04 R89). -/
theorem Issue.outFp_eq_wroteFp (i : Issue) (f : Nat → Nat × Nat) : i.outFp f = .done (wroteFp i f) := rfl

/-- An IEEE instruction, whose operation takes the rounding mode of its own MODS, is done with the operation on the sources as FTZ, ABS
and NEG leave them (07 R168). -/
theorem fpOp_done {f : Fmt} {m : BitVec 10} {nsrc : Nat} (op : RMode → Nat → Nat → Nat → Nat × Nat) {x : Ext} {i : Issue} (hx : i.x = x) :
    (fpOp f m nsrc (op (rmOf x)) x).body i = .done (fpResult f op i) := by
  subst hx
  exact i.outFp_eq_wroteFp _

/-- A packed instruction is done with the operation on each half, in the format that its MODS name (07 R175). -/
theorem packOp_done {m : BitVec 10} {nsrc : Nat} (op : Fmt → RMode → Nat → Nat → Nat → Nat × Nat) {x : Ext} {i : Issue} (hx : i.x = x) :
    (packOp m nsrc (fun f => op f (rmOf x)) x).body i = .done (packResult op i) := by
  subst hx
  exact i.outFp_eq_wroteFp _

/-! ## What each instruction is done with -/

section
variable (x : Ext) (i : Issue) (hx : i.x = x)
include hx

theorem faddSpec_done : (faddSpec x).body i = .done (fpResult .f32 (fpAdd .f32) i) := fpOp_done (fpAdd .f32) hx

theorem fsubSpec_done : (fsubSpec x).body i = .done (fpResult .f32 (fpSub .f32) i) := fpOp_done (fpSub .f32) hx

theorem fmulSpec_done : (fmulSpec x).body i = .done (fpResult .f32 (fpMul .f32) i) := fpOp_done (fpMul .f32) hx

theorem ffmaSpec_done : (ffmaSpec x).body i = .done (fpResult .f32 (fpFma .f32) i) := fpOp_done (fpFma .f32) hx

theorem daddSpec_done : (daddSpec x).body i = .done (fpResult .f64 (fpAdd .f64) i) := fpOp_done (fpAdd .f64) hx

theorem dmulSpec_done : (dmulSpec x).body i = .done (fpResult .f64 (fpMul .f64) i) := fpOp_done (fpMul .f64) hx

theorem dfmaSpec_done : (dfmaSpec x).body i = .done (fpResult .f64 (fpFma .f64) i) := fpOp_done (fpFma .f64) hx

theorem pkaddSpec_done : (pkaddSpec x).body i = .done (packResult fpAdd i) := packOp_done fpAdd hx

theorem pkmulSpec_done : (pkmulSpec x).body i = .done (packResult fpMul i) := packOp_done fpMul hx

theorem pkfmaSpec_done : (pkfmaSpec x).body i = .done (packResult fpFma i) := packOp_done fpFma hx

end

/-- The minimum and the maximum are exact, so no rounding mode enters (07 R170). -/
theorem fminmaxSpec_done (big : Bool) (x : Ext) (i : Issue) (hx : i.x = x) :
    (fminmaxSpec big x).body i = .done (fpResult .f32 (fun _ a b _ => Fmt.f32.minMax big a b) i) :=
  fpOp_done (fun _ a b _ => Fmt.f32.minMax big a b) hx

/-! ## Every form of them completes -/

/-- Settles O7: in each form the meaning is done with the rounded operation and its flags, which itself changes no state. -/
theorem singleArithmeticCompletes : Obligations.SingleArithmeticCompletes := by
  refine ⟨?fadd, ?faddImm, ?faddExt, ?fsub, ?fsubImm, ?fsubExt, ?fmul, ?fmulImm, ?fmulExt, ?ffma, ?fmin, ?fminImm, ?fminExt,
    ?fmax, ?fmaxImm, ?fmaxExt⟩
  case fadd => exact aluForm_of_body _ _ _ (fun _ _ => rfl) faddSpec_done (fun _ => rfl)
  case faddImm => exact immForm_of_body _ _ _ (fun _ _ => rfl) faddSpec_done (fun _ => rfl)
  case faddExt => exact extForm_of_body _ _ _ (fun _ _ => rfl) faddSpec_done (fun _ => rfl)
  case fsub => exact aluForm_of_body _ _ _ (fun _ _ => rfl) fsubSpec_done (fun _ => rfl)
  case fsubImm => exact immForm_of_body _ _ _ (fun _ _ => rfl) fsubSpec_done (fun _ => rfl)
  case fsubExt => exact extForm_of_body _ _ _ (fun _ _ => rfl) fsubSpec_done (fun _ => rfl)
  case fmul => exact aluForm_of_body _ _ _ (fun _ _ => rfl) fmulSpec_done (fun _ => rfl)
  case fmulImm => exact immForm_of_body _ _ _ (fun _ _ => rfl) fmulSpec_done (fun _ => rfl)
  case fmulExt => exact extForm_of_body _ _ _ (fun _ _ => rfl) fmulSpec_done (fun _ => rfl)
  case ffma => exact extForm_of_body _ _ _ (fun _ _ => rfl) ffmaSpec_done (fun _ => rfl)
  case fmin => exact aluForm_of_body _ _ _ (fun _ _ => rfl) (fminmaxSpec_done false) (fun _ => rfl)
  case fminImm => exact immForm_of_body _ _ _ (fun _ _ => rfl) (fminmaxSpec_done false) (fun _ => rfl)
  case fminExt => exact extForm_of_body _ _ _ (fun _ _ => rfl) (fminmaxSpec_done false) (fun _ => rfl)
  case fmax => exact aluForm_of_body _ _ _ (fun _ _ => rfl) (fminmaxSpec_done true) (fun _ => rfl)
  case fmaxImm => exact immForm_of_body _ _ _ (fun _ _ => rfl) (fminmaxSpec_done true) (fun _ => rfl)
  case fmaxExt => exact extForm_of_body _ _ _ (fun _ _ => rfl) (fminmaxSpec_done true) (fun _ => rfl)

/-- Settles O8, in the same way: the packed instructions from the rounded operation on each half. -/
theorem doubleAndPackedComplete : Obligations.DoubleAndPackedComplete := by
  refine ⟨?dadd, ?daddExt, ?dmul, ?dmulExt, ?dfma, ?pkadd, ?pkaddExt, ?pkmul, ?pkmulExt, ?pkfma⟩
  case dadd => exact aluForm_of_body _ _ _ (fun _ _ => rfl) daddSpec_done (fun _ => rfl)
  case daddExt => exact extForm_of_body _ _ _ (fun _ _ => rfl) daddSpec_done (fun _ => rfl)
  case dmul => exact aluForm_of_body _ _ _ (fun _ _ => rfl) dmulSpec_done (fun _ => rfl)
  case dmulExt => exact extForm_of_body _ _ _ (fun _ _ => rfl) dmulSpec_done (fun _ => rfl)
  case dfma => exact extForm_of_body _ _ _ (fun _ _ => rfl) dfmaSpec_done (fun _ => rfl)
  case pkadd => exact aluForm_of_body _ _ _ (fun _ _ => rfl) pkaddSpec_done (fun _ => rfl)
  case pkaddExt => exact extForm_of_body _ _ _ (fun _ _ => rfl) pkaddSpec_done (fun _ => rfl)
  case pkmul => exact aluForm_of_body _ _ _ (fun _ _ => rfl) pkmulSpec_done (fun _ => rfl)
  case pkmulExt => exact extForm_of_body _ _ _ (fun _ _ => rfl) pkmulSpec_done (fun _ => rfl)
  case pkfma => exact extForm_of_body _ _ _ (fun _ _ => rfl) pkfmaSpec_done (fun _ => rfl)

end Sys2Proof.Machine

/-! PROOFS. The fixed registers, and what a write of a register leaves of the others (05 R108, R109): O48. -/

namespace Sys2Proof.Machine

@[simp] theorem Warp.sreg_63 (w : Warp) : w.sreg 63 = 0 := rfl

@[simp] theorem Warp.putS_63 (w : Warp) (v : DWord) : w.putS 63 v = w := rfl

@[simp] theorem Warp.pred_7 (w : Warp) (l : Nat) : w.pred 7 l = true := rfl

@[simp] theorem Warp.putPred_7 (w : Warp) (ls bits : Mask) : w.putPred 7 ls bits = w := rfl

/-- A write of a uniform register that is not fixed is read back, and leaves every other register, s63 with them. -/
theorem Warp.sreg_putS (w : Warp) {n : Nat} (m : Nat) (v : DWord) (h : n ≠ 63) :
    (w.putS n v).sreg m = if m = n then v else w.sreg m := by
  by_cases hm : m = n
  · subst hm
    simp only [Warp.putS, Warp.sreg, if_neg h, Tab.getD_set_same, if_true]
  · simp only [Warp.putS, Warp.sreg, if_neg h, if_neg hm, Tab.getD_set_ne _ _ _ hm]

/-- In a write of a predicate that is not p7, the written lanes of it take their bits, and every other bit stays. -/
theorem Warp.pred_putPred_of_ne_7 (w : Warp) {n : Nat} (ls bits : Mask) (m : Nat) {l : Nat} (hl : l < 32) (h : n ≠ 7) :
    (w.putPred n ls bits).pred m l = if m = n ∧ ls.has l = true then bits.has l else w.pred m l := by
  have written : (n = m ∧ m ≠ 7 ∧ ls.has l = true) ↔ (m = n ∧ ls.has l = true) :=
    ⟨fun ⟨e, _, hb⟩ => ⟨e.symm, hb⟩, fun ⟨e, hb⟩ => ⟨e.symm, e ▸ h, hb⟩⟩
  rw [Warp.pred_putPred w n ls bits m l hl]
  exact if_congr written rfl rfl

/-- Settles O48: s63 and p7 hold by their definitions; the other registers by what a table's entries are after one is set. -/
theorem fixedRegistersHold : Obligations.FixedRegistersHold :=
  ⟨Warp.sreg_63, Warp.putS_63, Warp.pred_7, Warp.putPred_7, fun w _ m v h => w.sreg_putS m v h,
    fun w _ ls bits m _ hl h => w.pred_putPred_of_ne_7 ls bits m hl h⟩

end Sys2Proof.Machine

/-! PROOFS. Integer arithmetic, shifts, logic, bit fields and moves (06 R138 to R148): O1 to O4. -/

namespace Sys2Proof.Machine

/-! ## An instruction with a B-ALU, a B-IMM and an extended form (03 R58) -/

/-- Each of the three forms completes with result `res`. -/
structure AllForms (alu : BAlu → Instr) (imm : BImm → Instr) (ext : Ext → Instr) (sp : Ext → Spec) (res : Issue → Res) : Prop where
  alu : AluForm alu sp res
  imm : ImmForm imm sp res
  ext : ExtForm ext sp res

theorem allForms_of_body {alu : BAlu → Instr} {imm : BImm → Instr} {ext : Ext → Instr} {sp : Ext → Spec} {res : Issue → Res}
    (hb : ∀ x i, i.x = x → (sp x).body i = .done (res i)) (hs : ∀ i, (res i).s = i.s)
    (ha : ∀ b s, exec (alu b) s = runAlu sp b s := by intros; rfl) (hi : ∀ b s, exec (imm b) s = runImm sp b s := by intros; rfl)
    (he : ∀ x s, exec (ext x) s = runExt sp x s := by intros; rfl) : AllForms alu imm ext sp res :=
  ⟨aluForm_of_body _ _ _ ha hb hs, immForm_of_body _ _ _ hi hb hs, extForm_of_body _ _ _ he hb hs⟩

/-! ## What each instruction is done with

The width and the modifiers of a meaning are those of its fields `x`, which are the issue's own. -/

section
variable (x : Ext) (i : Issue) (hx : i.x = x)
include hx

/-! ### Arithmetic (06 Table 2) -/

theorem arith2_done (m : BitVec 10) (f : Int → Int → Int) : (arith2 m (intWidth x) f x).body i = .done (intResult f i) := by
  subst hx; rfl

theorem iaddSpec_done : (iaddSpec x).body i = .done (intResult (· + ·) i) := arith2_done x i hx _ _

theorem isubSpec_done : (isubSpec x).body i = .done (intResult (· - ·) i) := arith2_done x i hx _ _

theorem imulSpec_done : (imulSpec x).body i = .done (intResult (· * ·) i) := arith2_done x i hx _ _

theorem iminSpec_done : (iminmaxSpec false x).body i = .done (intResult min i) := arith2_done x i hx _ _

theorem imaxSpec_done : (iminmaxSpec true x).body i = .done (intResult max i) := arith2_done x i hx _ _

theorem imulhSpec_done : (imulhSpec x).body i = .done (imulhResult i) := by subst hx; rfl

theorem iabsSpec_done : (iabsSpec x).body i = .done (iabsResult i) := by subst hx; rfl

theorem iadd64Spec_done : (iadd64Spec x).body i = .done (int64Result i) := by subst hx; rfl

/-! ### Carry, multiply-add, dot product and address (06 R143, Table 2, R147) -/

theorem iaddcSpec_done : (iaddcSpec x).body i = .done (iaddcResult i) := by subst hx; rfl

theorem imadSpec_done : (imadSpec x).body i = .done (imadResult i) := by subst hx; rfl

theorem imadwSpec_done : (imadwSpec x).body i = .done (imadwResult i) := by subst hx; rfl

theorem idot4Spec_done : (idot4Spec x).body i = .done (idot4Result i) := by subst hx; rfl

theorem leaSpec_done : (leaSpec x).body i = .done (leaResult i) := by subst hx; rfl

/-! ### Shifts, logic and bit groups (06 Table 3) -/

theorem shiftOp_done (m : BitVec 10) (f : Nat → Nat → Nat → Nat) :
    (shiftOp m f x).body i = .done (wrote i (fun l => f (i.a l) (wide64 i) (i.b l))) := by
  subst hx; rfl

theorem irotSpec_done : (irotSpec x).body i = .done (irotResult i) := by
  subst hx; exact shiftOp_done _ i rfl _ _

theorem logicOp_done (f : Nat → Nat → Nat → Nat) : (logicOp f x).body i = .done (wrote i (fun l => f (wide64 i) (i.a l) (i.b l))) := by
  subst hx; rfl

theorem lmixSpec_done : (lmixSpec x).body i = .done (lmixResult i) := by subst hx; rfl

theorem bitOp_done (wide : Bool) (f : Nat → Nat → Nat) : (bitOp wide f x).body i = .done (wrote i (fun l => f (wide64 i) (i.a l))) := by
  subst hx; rfl

/-! ### Bit fields, selection and moves (06 R145, R146, R148) -/

theorem bfxSpec_done : (bfxSpec x).body i = .done (bfxResult i) := by subst hx; rfl

theorem bfiSpec_done : (bfiSpec x).body i = .done (bfiResult i) := by subst hx; rfl

theorem iselSpec_done : (iselSpec x).body i = .done (iselResult i) := by subst hx; rfl

theorem ldiSpec_done : (ldiSpec x).body i = .done (ldiResult i) := by subst hx; rfl

end

/-! ## Every form of them completes -/

/-- Settles O1: in each form the meaning is done with fin of the exact result, which itself changes no state. -/
theorem integerArithmeticCompletes : Obligations.IntegerArithmeticCompletes := by
  have iadd := allForms_of_body (alu := .iaddAlu) (imm := .iaddImm) (ext := .iaddExt) iaddSpec_done (fun _ => rfl)
  have isub := allForms_of_body (alu := .isubAlu) (imm := .isubImm) (ext := .isubExt) isubSpec_done (fun _ => rfl)
  have imul := allForms_of_body (alu := .imulAlu) (imm := .imulImm) (ext := .imulExt) imulSpec_done (fun _ => rfl)
  have imulh := allForms_of_body (alu := .imulhAlu) (imm := .imulhImm) (ext := .imulhExt) imulhSpec_done (fun _ => rfl)
  have imin := allForms_of_body (alu := .iminAlu) (imm := .iminImm) (ext := .iminExt) iminSpec_done (fun _ => rfl)
  have imax := allForms_of_body (alu := .imaxAlu) (imm := .imaxImm) (ext := .imaxExt) imaxSpec_done (fun _ => rfl)
  have iabsAlu := aluForm_of_body .iabsAlu _ _ (fun _ _ => rfl) iabsSpec_done (fun _ => rfl)
  have iabsExt := extForm_of_body .iabsExt _ _ (fun _ _ => rfl) iabsSpec_done (fun _ => rfl)
  have iadd64 := allForms_of_body (alu := .iadd64Alu) (imm := .iadd64Imm) (ext := .iadd64Ext) iadd64Spec_done (fun _ => rfl)
  exact ⟨iadd.alu, iadd.imm, iadd.ext, isub.alu, isub.imm, isub.ext, imul.alu, imul.imm, imul.ext, imulh.alu, imulh.imm, imulh.ext,
    imin.alu, imin.imm, imin.ext, imax.alu, imax.imm, imax.ext, iabsAlu, iabsExt, iadd64.alu, iadd64.imm, iadd64.ext⟩

/-- Settles O2: each meaning is done with what its rule gives, IADDC's with the carry-out as a predicate. -/
theorem wideIntegerCompletes : Obligations.WideIntegerCompletes := by
  refine ⟨?iaddc, ?imad, ?imadw, ?idot4, ?lea⟩
  case iaddc => exact extForm_of_body _ _ _ (fun _ _ => rfl) iaddcSpec_done (fun _ => rfl)
  case imad => exact extForm_of_body _ _ _ (fun _ _ => rfl) imadSpec_done (fun _ => rfl)
  case imadw => exact extForm_of_body _ _ _ (fun _ _ => rfl) imadwSpec_done (fun _ => rfl)
  case idot4 => exact extForm_of_body _ _ _ (fun _ _ => rfl) idot4Spec_done (fun _ => rfl)
  case lea => exact extForm_of_body _ _ _ (fun _ _ => rfl) leaSpec_done (fun _ => rfl)

/-- Settles O3: a shift and a logic instruction are done with their function of the sources at the width that W64 names. -/
theorem shiftsAndLogicComplete : Obligations.ShiftsAndLogicComplete := by
  have ishl : AllForms .ishlAlu .ishlImm .ishlExt _ ishlResult := allForms_of_body (fun x i hx => shiftOp_done x i hx 1#10 shlVal) (fun _ => rfl)
  have ishr : AllForms .ishrAlu .ishrImm .ishrExt _ ishrResult := allForms_of_body (fun x i hx => shiftOp_done x i hx 1#10 shrVal) (fun _ => rfl)
  have isar : AllForms .isarAlu .isarImm .isarExt _ isarResult := allForms_of_body (fun x i hx => shiftOp_done x i hx 1#10 sarVal) (fun _ => rfl)
  have irot : AllForms .irotAlu .irotImm .irotExt _ irotResult := allForms_of_body irotSpec_done (fun _ => rfl)
  have and : AllForms .andAlu .andImm .andExt _ (bitResult (· &&& ·)) := allForms_of_body (fun x i hx => logicOp_done x i hx andVal) (fun _ => rfl)
  have or : AllForms .orAlu .orImm .orExt _ (bitResult (· ||| ·)) := allForms_of_body (fun x i hx => logicOp_done x i hx orVal) (fun _ => rfl)
  have xor : AllForms .xorAlu .xorImm .xorExt _ (bitResult (· ^^^ ·)) := allForms_of_body (fun x i hx => logicOp_done x i hx xorVal) (fun _ => rfl)
  have andn : AllForms .andnAlu .andnImm .andnExt _ andnResult := allForms_of_body (fun x i hx => logicOp_done x i hx andnVal) (fun _ => rfl)
  have lmix := extForm_of_body .lmix _ _ (fun _ _ => rfl) lmixSpec_done (fun _ => rfl)
  exact ⟨ishl.alu, ishl.imm, ishl.ext, ishr.alu, ishr.imm, ishr.ext, isar.alu, isar.imm, isar.ext, irot.alu, irot.imm, irot.ext,
    and.alu, and.imm, and.ext, or.alu, or.imm, or.ext, xor.alu, xor.imm, xor.ext, andn.alu, andn.imm, andn.ext, lmix⟩

/-- Settles O4, in the same way: the four bit groups from their function of the source and of the width. -/
theorem bitFieldsAndMovesComplete : Obligations.BitFieldsAndMovesComplete := by
  refine ⟨?clz, ?ctz, ?popc, ?brev, ?bfx, ?bfi, ?isel, ?ldi, ?ldiExt⟩
  case clz => exact extForm_of_body _ _ _ (fun _ _ => rfl) (fun x i hx => bitOp_done x i hx false clzVal) (fun _ => rfl)
  case ctz => exact extForm_of_body _ _ _ (fun _ _ => rfl) (fun x i hx => bitOp_done x i hx false ctzVal) (fun _ => rfl)
  case popc => exact extForm_of_body _ _ _ (fun _ _ => rfl) (fun x i hx => bitOp_done x i hx false popcVal) (fun _ => rfl)
  case brev => exact extForm_of_body _ _ _ (fun _ _ => rfl) (fun x i hx => bitOp_done x i hx true brevVal) (fun _ => rfl)
  case bfx => exact extForm_of_body _ _ _ (fun _ _ => rfl) bfxSpec_done (fun _ => rfl)
  case bfi => exact extForm_of_body _ _ _ (fun _ _ => rfl) bfiSpec_done (fun _ => rfl)
  case isel => exact extForm_of_body _ _ _ (fun _ _ => rfl) iselSpec_done (fun _ => rfl)
  case ldi => exact aluForm_of_body _ _ _ (fun _ _ => rfl) ldiSpec_done (fun _ => rfl)
  case ldiExt => exact extForm_of_body _ _ _ (fun _ _ => rfl) ldiSpec_done (fun _ => rfl)

end Sys2Proof.Machine

/-! PROOFS. Predicates, and the moves between lanes and the warp (06 R149 to R155): O5, O6, O38 and O39. -/

namespace Sys2Proof.Machine

/-! ## An instruction that changes its warp completes too -/

/-- `extForm_of_body` for a meaning that changes the state, and keeps the issuing warp in its slot. -/
theorem extForm_of_keeps (mk : Ext → Instr) (sp : Ext → Spec) (res : Issue → Res) (he : ∀ x s, exec (mk x) s = runExt sp x s)
    (hb : ∀ x i, i.x = x → (sp x).body i = .done (res i)) (hk : ∀ i, Keeps i.c i.s (res i).s) : ExtForm mk sp res :=
  fun x s c slot w g ha hr =>
    extFormWhen_of_body mk sp (fun _ => True) res he (fun x i hx _ => hb x i hx) (keepsWarp_of_keeps (fun i _ => hk i))
      x s c slot w g ha hr trivial

/-! ## Predicates and edge masks, and the moves between lanes and the warp (06 R149 to R155) -/

section
variable (x : Ext) (i : Issue) (hx : i.x = x)
include hx

theorem isetSpec_done : (isetSpec x).body i = .done (isetResult i) := by subst hx; rfl

theorem psetSpec_done : (psetSpec x).body i = .done (psetResult i) := by subst hx; rfl

theorem pmovSpec_done : (pmovSpec x).body i = .done (pmovResult i) := by
  subst hx
  have hf : modField i.x 2 0 = bitsOf i.x.mods.toNat 2 0 := rfl
  simp only [pmovSpec, pmovResult, Spec.plain, hf]
  match bitsOf i.x.mods.toNat 2 0 with
  | 0 | 1 | 2 | 3 | 4 => rfl
  | _ + 5 => rfl

theorem pcntSpec_done : (pcntSpec x).body i = .done (pcntResult i) := by subst hx; rfl

theorem vtosSpec_done : (vtosSpec x).body i = .done (vtosResult i) := by subst hx; rfl

theorem stovSpec_done : (stovSpec x).body i = .done (stovResult i) := by subst hx; rfl

theorem electSpec_done : (electSpec x).body i = .done (electResult i) := by subst hx; rfl

end

/-- PMOV's form 4 writes an edge mask of the issuing warp; every other form leaves the state to the instruction's end. -/
theorem pmovResult_keeps (i : Issue) : Keeps i.c i.s (pmovResult i).s := by
  unfold pmovResult
  match bitsOf i.x.mods.toNat 2 0 with
  | 0 | 1 | 2 | 3 => exact Keeps.refl _ _
  | 4 => exact keeps_modWarp _ _ _ _ _
  | _ + 5 => exact Keeps.refl _ _

/-- Settles O5: each meaning is done with its predicate, register or edge mask, which leaves the warp in its slot. -/
theorem predicatesComplete : Obligations.PredicatesComplete := by
  refine ⟨?iset, ?pset, ?pmov, ?pcnt⟩
  case iset => exact extForm_of_body _ _ _ (fun _ _ => rfl) isetSpec_done (fun _ => rfl)
  case pset => exact extForm_of_body _ _ _ (fun _ _ => rfl) psetSpec_done (fun _ => rfl)
  case pmov => exact extForm_of_keeps _ _ _ (fun _ _ => rfl) pmovSpec_done pmovResult_keeps
  case pcnt => exact extForm_of_body _ _ _ (fun _ _ => rfl) pcntSpec_done (fun _ => rfl)

/-- Settles O6: each meaning is done with its result, which itself changes no state. -/
theorem laneToWarpMovesComplete : Obligations.LaneToWarpMovesComplete := by
  refine ⟨?vtos, ?stov, ?elect⟩
  case vtos => exact extForm_of_body _ _ _ (fun _ _ => rfl) vtosSpec_done (fun _ => rfl)
  case stov => exact extForm_of_body _ _ _ (fun _ _ => rfl) stovSpec_done (fun _ => rfl)
  case elect => exact extForm_of_body _ _ _ (fun _ _ => rfl) electSpec_done (fun _ => rfl)

/-! ## What the checks of 03 Table 7 leave to PCNT and ELECT -/

/-- An instruction that may execute has its operands allowed (03 Table 7, order 5). -/
theorem Ready.opndTrap_eq_none {sp : Spec} {kBad : Bool} {i : Issue} (h : Ready sp kBad i) : opndTrap i.w sp.shape i.x = none := by
  have hc := h.checks
  simp only [checkTrap, Option.orElse_eq_none] at hc
  obtain ⟨-, -, hopnd, -⟩ := hc
  exact hopnd

/-- A destination for which no trap is raised is allowed (03 R63, R64). -/
theorem dstBad_of_opndTrap_eq_none {w : Warp} {sh : Shape} {x : Ext} {d : Dst} (hd : sh.dst = some d) (h : opndTrap w sh x = none) :
    dstBad w sh x d = false := by
  simp only [opndTrap, hd, Option.orElse_eq_none] at h
  obtain ⟨hdst, -⟩ := h
  by_contra hb
  simp [hb] at hdst

/-- The operands of the class of uniform registers are s0 to s63 (03 R61). -/
theorem Opnd.exists_s_of_cls {o : Opnd} (h : o.cls = some .uni) : ∃ n, o = .s n := by
  cases o with
  | s n => exact ⟨n, rfl⟩
  | id k => cases k <;> cases h
  | _ => cases h

/-- Where DST is a uniform register for the warp, an instruction that may execute names one. -/
theorem Ready.dst_uniform {sp : Spec} {kBad : Bool} {i : Issue} (h : Ready sp kBad i) (hd : sp.shape.dst = some Dst.uni) :
    ∃ n, i.x.dst = .s n := by
  have hb := dstBad_of_opndTrap_eq_none hd h.opndTrap_eq_none
  apply Opnd.exists_s_of_cls
  cases hk : i.x.dst.cls with
  | none => simp [dstBad, hk] at hb
  | some k => cases k <;> simp [dstBad, hk, Dst.uni] at hb ⊢

/-- IL-RSV is raised before the checks of orders 5 to 8, where no check of the instruction's own comes first (03 Table 7, order 4). -/
theorem checkTrap_of_rsvBad {sp : Spec} {i : Issue} (hp : sp.pre i = none) (hr : rsvBad sp.shape i.x = true) :
    checkTrap sp false i = some { cause := 0x02, tval := 0 } := by
  simp [checkTrap, hp, hr, raise]

/-- Where no guard is allowed, one other than 0b0111 is IL-RSV's (03 R65). -/
theorem rsvBad_of_guard {sh : Shape} {x : Ext} (ha : sh.anyGuard = false) (hg : x.guard ≠ Guard.always) : rsvBad sh x = true := by
  simp [rsvBad, ha, bne_iff_ne.2 hg]

/-- No trap follows a result without poison, flags and a trap of its own (09 R231). -/
theorem afterTrap_of_plain {g : Group} {r : Res} (hp : r.poison = none) (hf : r.flags = 0) (ha : r.after = none) :
    afterTrap g r = none := by
  simp [afterTrap, hp, hf, ha]

/-! ## PCNT (06 R152) -/

theorem countedLanes_eq (w : Warp) (x : Ext) :
    w.active.list.filter (fun l => w.pred (bitsOf x.mods3.toNat 2 0) l != x.mods3.getLsbD 3) = countedLanes w x := by
  rw [countedLanes, Mask.list, lanes_eq_range, List.filter_filter]
  exact List.filter_congr (fun l _ => Bool.and_comm _ _)

theorem countedLanes_length_le (w : Warp) (x : Ext) : (countedLanes w x).length ≤ 32 :=
  (List.length_filter_le _ _).trans (List.length_range).le

/-- Settles O38: DST's class is checked before PCNT executes, as is its guard; its meaning is done with the number of counted lanes. -/
theorem pcntCountsLanes : Obligations.PcntCountsLanes := by
  refine ⟨fun _ => rfl, fun x s c slot w g ha => ?_⟩
  intro i
  refine ⟨fun hr => ⟨hr.dst_uniform rfl, countedLanes_length_le w x, ?_⟩, fun hg => ?_⟩
  · obtain ⟨-, -, -, hpcnt⟩ := predicatesComplete
    have hres : pcntResult i = wrote i (fun _ => (countedLanes w x).length) := by rw [← countedLanes_eq]; rfl
    exact hres ▸ hpcnt x s c slot w g ha hr (afterTrap_of_plain rfl rfl rfl)
  · exact runSpec_traps _ _ _ _ _ _ _ _ _ _ ha (checkTrap_of_rsvBad rfl (rsvBad_of_guard rfl hg))

/-! ## ELECT (06 R155) -/

/-- The first lane that satisfies `p` is the lowest one, or 32 stands for none. -/
theorem headD_filter_lanes (p : Nat → Bool) :
    ((lanes.filter p).headD 32 < 32 ∧ p ((lanes.filter p).headD 32) = true ∧ ∀ l < 32, p l = true → (lanes.filter p).headD 32 ≤ l) ∨
      ((lanes.filter p).headD 32 = 32 ∧ ∀ l < 32, p l = false) := by
  have hmem : ∀ l, l ∈ lanes.filter p ↔ l < 32 ∧ p l = true := fun l => by rw [List.mem_filter, mem_lanes]
  have hsort : (lanes.filter p).Pairwise (· ≤ ·) := List.Pairwise.filter p (by decide)
  cases h : lanes.filter p with
  | nil =>
    refine Or.inr ⟨rfl, fun l hl => ?_⟩
    have hn := (hmem l).not.1 (by simp [h])
    simpa [hl] using hn
  | cons a t =>
    rw [h] at hmem hsort
    obtain ⟨ha, hpa⟩ := (hmem a).1 List.mem_cons_self
    refine Or.inl ⟨ha, hpa, fun l hl hp => ?_⟩
    rcases List.mem_cons.1 ((hmem l).2 ⟨hl, hp⟩) with rfl | hlt
    · exact Nat.le_refl l
    · exact List.rel_of_pairwise_cons hsort hlt

/-- The lanes among which ELECT looks are the eligible ones. -/
theorem eligible_iff (s : State) (c slot : Nat) (w : Warp) (g : Group) (sh : Shape) (x : Ext) (len l : Nat) :
    eligible w x l ↔ l < 32 ∧ (w.active.has l && (mkIssue s c slot w g sh x len).grd.has l) = true := by
  refine and_congr_right (fun hl => ?_)
  have hg : (mkIssue s c slot w g sh x len).grd.has l = w.guard x.guard l := maskOf_has _ l hl
  rw [hg, Bool.and_eq_true]

/-- ELECT chooses the lowest eligible lane, or 32. -/
theorem electLane_lowest (s : State) (c slot : Nat) (w : Warp) (g : Group) (sh : Shape) (x : Ext) (len : Nat) :
    let n := electLane (mkIssue s c slot w g sh x len)
    (eligible w x n ∧ ∀ l, eligible w x l → n ≤ l) ∨ (n = 32 ∧ ∀ l, ¬eligible w x l) := by
  simp only [eligible_iff s c slot w g sh x len]
  refine (headD_filter_lanes _).imp (fun ⟨hn, hp, hle⟩ => ⟨⟨hn, hp⟩, fun l ⟨hl, hpl⟩ => hle l hl hpl⟩)
    (fun ⟨hn, hno⟩ => ⟨hn, fun l ⟨hl, hpl⟩ => ?_⟩)
  exact Bool.false_ne_true ((hno l hl).symm.trans hpl)

/-- Settles O39: DST's class is checked before ELECT executes; its meaning is done with the lowest eligible lane. -/
theorem electChoosesLane : Obligations.ElectChoosesLane := by
  refine ⟨fun _ => rfl, fun x s c slot w g ha => ?_⟩
  intro i hr
  refine ⟨electLane i, hr.dst_uniform rfl, electLane_lowest _ _ _ _ _ _ _ _, ?_⟩
  obtain ⟨-, -, helect⟩ := laneToWarpMovesComplete
  exact helect x s c slot w g ha hr (afterTrap_of_plain rfl rfl rfl)

end Sys2Proof.Machine

/-! PROOFS. Branches, YIELD, NOP and the deliberate traps (06 R156 to R158, R163 to R165): O11 and O14. -/

namespace Sys2Proof.Machine

/-! ## What a branch with a legal target is done with (06 R157, R158) -/

theorem braSpec_done {i : Issue} (h : targetLegal i) : braSpec.body i = .done (branchResult i) :=
  withTarget_of_legal h _

theorem callSpec_done {i : Issue} (h : targetLegal i) : callSpec.body i = .done (callResult i) :=
  withTarget_of_legal h (fun pc => .done { i.res with out := fun _ => i.nextPc.toNat, next := some pc })

/-- BRP goes to its target where its test holds, and on where it does not. -/
theorem brpSpec_done (x : Ext) (i : Issue) (hx : i.x = x) (h : targetLegal i) : (brpSpec x).body i = .done (brpResult i) := by
  subst hx
  have hres : brpResult i =
      { i.res with next := ite (brpTaken (modField i.x 1 0) i.w.active i.grd = true) (some (targetPc i)) none } := rfl
  refine (withTarget_of_legal h (fun pc => if brpTaken (modField i.x 1 0) i.w.active i.grd then i.jump pc else i.to i.s)).trans ?_
  rw [hres]
  split <;> rfl

theorem indirectSpec_done (ext link : Bool) (x : Ext) {i : Issue} (h : indirectLegal i) :
    (indirectSpec ext link x).body i = .done (indirectResult i) := by
  have ht : indirectTrap (i.a 0) = none := if_pos h
  simp only [indirectSpec, Spec.plain, ht]
  rfl

/-- CALLI, RET and JMPI in both forms, whether or not they write a link. -/
theorem indirect_completes (link : Bool) {alu : BAlu → Instr} {ext : Ext → Instr}
    (ha : ∀ b s, exec (alu b) s = runAlu (indirectSpec false link) b s := by intros; rfl)
    (he : ∀ x s, exec (ext x) s = runExt (indirectSpec true link) x s := by intros; rfl) :
    AluFormWhen alu (indirectSpec false link) indirectLegal indirectResult ∧
      ExtFormWhen ext (indirectSpec true link) indirectLegal indirectResult :=
  have hk : KeepsWarp indirectLegal indirectResult := keepsWarp_of_state (fun _ => rfl)
  ⟨aluFormWhen_of_body _ _ _ _ ha (fun x _ _ => indirectSpec_done _ _ x) hk,
    extFormWhen_of_body _ _ _ _ he (fun x _ _ => indirectSpec_done _ _ x) hk⟩

/-- Settles O11: with a legal target each meaning is done with its PC and its link, and itself changes no state. -/
theorem branchesComplete : Obligations.BranchesComplete := by
  obtain ⟨calli, calliExt⟩ := indirect_completes true (alu := .calliAlu) (ext := .calliExt)
  obtain ⟨ret, retExt⟩ := indirect_completes false (alu := .retAlu) (ext := .retExt)
  obtain ⟨jmpi, jmpiExt⟩ := indirect_completes false (alu := .jmpiAlu) (ext := .jmpiExt)
  have hbra : KeepsWarp targetLegal branchResult := keepsWarp_of_state (fun _ => rfl)
  have hcall : KeepsWarp targetLegal callResult := keepsWarp_of_state (fun _ => rfl)
  refine ⟨?bra, ?braExt, ?brp, ?call, ?callExt, calli, calliExt, ret, retExt, jmpi, jmpiExt⟩
  case bra => exact brForm_of_body _ _ _ _ _ (fun _ _ => rfl) (fun _ => braSpec_done) hbra
  case braExt => exact extFormWhen_of_body _ _ _ _ (fun _ _ => rfl) (fun _ _ _ => braSpec_done) hbra
  case brp => exact extFormWhen_of_body _ _ _ _ (fun _ _ => rfl) brpSpec_done (keepsWarp_of_state (fun _ => rfl))
  case call => exact brForm_of_body _ _ _ _ _ (fun _ _ => rfl) (fun _ => callSpec_done) hcall
  case callExt => exact extFormWhen_of_body _ _ _ _ (fun _ _ => rfl) (fun _ _ _ => callSpec_done) hcall

/-! ## YIELD and NOP (06 R163, R164) -/

theorem yieldSpec_done (x : Ext) (i : Issue) : (yieldSpec x).body i = .done (yieldResult i) := rfl

theorem yieldResult_keepsWarp (ok : Issue → Prop) : KeepsWarp ok yieldResult := keepsWarp_of_keeps (fun _ _ => keeps_modSched _ _ _ _ _)

theorem nopSpec_done (x : Ext) (i : Issue) : (nopSpec x).body i = .done (nopResult i) := rfl

/-! ## BKPT, TRAP and SVC (06 R165; 09 R231) -/

/-- A deliberate trap is taken after its instruction, with the code as TVAL: no poison and no flag comes before it. -/
theorem afterTrap_codeResult (g : Group) (cause : Nat) (i : Issue) : afterTrap g (codeResult cause i) = some (codeTrap cause i) := by
  simp [afterTrap, codeResult, codeTrap, Issue.res]

/-- SVC traps whatever its guard. -/
theorem codeTrapSpec_done_always (cause : Nat) (x : Ext) (i : Issue) : (codeTrapSpec cause true x).body i = .done (codeResult cause i) := rfl

/-- BKPT and TRAP do where some active lane has its guard, and elsewhere change the PC only. -/
theorem codeTrapSpec_done (cause : Nat) (x : Ext) (i : Issue) :
    (codeTrapSpec cause false x).body i = .done (if i.w.active &&& i.grd = 0 then i.res else codeResult cause i) := by
  by_cases h : i.w.active &&& i.grd = 0
  · simp only [codeTrapSpec, Spec.plain, h]; rfl
  · simp only [codeTrapSpec, Spec.plain, if_neg h, bne_iff_ne.2 h]; rfl

theorem codeTrapSpec_done_someGuard (cause : Nat) (x : Ext) {i : Issue} (h : someGuard i) :
    (codeTrapSpec cause false x).body i = .done (codeResult cause i) := by
  rw [codeTrapSpec_done, if_neg h]

/-- A deliberate trap whose meaning is done with its code is taken once the instruction has completed, in both forms. -/
theorem codeTrap_taken {cause : Nat} {always : Bool} {ok : Issue → Prop} {imm : BImm → Instr} {ext : Ext → Instr}
    (hb : ∀ x i, ok i → (codeTrapSpec cause always x).body i = .done (codeResult cause i))
    (hi : ∀ b s, exec (imm b) s = runImm (codeTrapSpec cause always) b s := by intros; rfl)
    (he : ∀ x s, exec (ext x) s = runExt (codeTrapSpec cause always) x s := by intros; rfl) :
    ImmTraps imm (codeTrapSpec cause always) ok (codeResult cause) (codeTrap cause) ∧
      ExtTraps ext (codeTrapSpec cause always) ok (codeResult cause) (codeTrap cause) :=
  have hk : KeepsWarp ok (codeResult cause) := keepsWarp_of_state (fun _ => rfl)
  ⟨immTraps_of_body _ _ _ _ _ hi (fun x i _ => hb x i) (fun i _ => afterTrap_codeResult i.g cause i) hk,
    extTraps_of_body _ _ _ _ _ he (fun x i _ => hb x i) (fun i _ => afterTrap_codeResult i.g cause i) hk⟩

/-- Settles O14: YIELD changes its scheduler and NOP nothing; a deliberate trap follows its instruction's end. -/
theorem yieldNopAndTrapsComplete : Obligations.YieldNopAndTrapsComplete := by
  obtain ⟨bkpt, bkptExt⟩ := codeTrap_taken (imm := .bkptImm) (ext := .bkptExt) (fun x _ => codeTrapSpec_done_someGuard 0x21 x)
  obtain ⟨trap, trapExt⟩ := codeTrap_taken (imm := .trapImm) (ext := .trapExt) (fun x _ => codeTrapSpec_done_someGuard 0x22 x)
  obtain ⟨svc, svcExt⟩ := codeTrap_taken (imm := .svcImm) (ext := .svcExt) (ok := fun _ => True)
    (fun x i _ => codeTrapSpec_done_always 0x20 x i)
  refine ⟨?yield, ?yieldExt, ?nop, ?nopExt, bkpt, bkptExt, trap, trapExt, svc, svcExt, ?bkptAll, ?trapAll⟩
  case yield => exact aluFormWhen_of_body _ _ _ _ (fun _ _ => rfl) (fun x i _ _ => yieldSpec_done x i) (yieldResult_keepsWarp _)
  case yieldExt => exact extFormWhen_of_body _ _ _ _ (fun _ _ => rfl) (fun x i _ _ => yieldSpec_done x i) (yieldResult_keepsWarp _)
  case nop => exact aluForm_of_body _ _ _ (fun _ _ => rfl) (fun x i _ => nopSpec_done x i) (fun _ => rfl)
  case nopExt => exact extForm_of_body _ _ _ (fun _ _ => rfl) (fun x i _ => nopSpec_done x i) (fun _ => rfl)
  case bkptAll => exact extForm_of_body _ _ _ (fun _ _ => rfl) (fun x i _ => codeTrapSpec_done _ x i) (fun i => by split <;> rfl)
  case trapAll => exact extForm_of_body _ _ _ (fun _ _ => rfl) (fun x i _ => codeTrapSpec_done _ x i) (fun i => by split <;> rfl)

end Sys2Proof.Machine

/-! PROOFS. Transcendentals, comparisons, classes, conversions and block formats (07 R171 to R173, R176 to R181): O9. -/

namespace Sys2Proof.Machine

/-- An extended form completes, given what its meaning at the issue's own fields is done with, if that changes no state. -/
theorem extForm_of_ownBody {mk : Ext → Instr} {sp : Ext → Spec} {res : Issue → Res}
    (hb : ∀ i, (sp i.x).body i = .done (res i)) (hs : ∀ i, (res i).s = i.s)
    (he : ∀ x s, exec (mk x) s = runExt sp x s := by intros; rfl) : ExtForm mk sp res :=
  extForm_of_body mk sp res he (fun _ i hx => hx ▸ hb i) hs

/-! ## What each instruction is done with -/

theorem transSpec_done (fn : Nat) (i : Issue) :
    (transSpec fn i.x).body i = .done (fpResult .f32 (fun m a _ _ => Fmt.f32.transcendental fn m a) i) :=
  fpOp_done (fun m a _ _ => Fmt.f32.transcendental fn m a) rfl

/-- A transcendental's result changes no state beside its destination and its flags, whichever function its MINOR names. -/
theorem trans_completes {mk : Ext → Instr} (fn : Nat) (he : ∀ x s, exec (mk x) s = runExt (transSpec fn) x s := by intros; rfl) :
    ExtForm mk (transSpec fn) (fpResult .f32 (fun m a _ _ => Fmt.f32.transcendental fn m a)) :=
  extForm_of_ownBody (transSpec_done fn) (fun _ => rfl) he

theorem fsetSpec_done (i : Issue) : (fsetSpec i.x).body i = .done (fsetResult i) := rfl

theorem fclassSpec_done (i : Issue) : (fclassSpec i.x).body i = .done (fclassResult i) := rfl

/-- CVT converts between the types of its codes; with a reserved one (which IL-RSV stops) its meaning is empty. -/
theorem cvtSpec_done (i : Issue) : (cvtSpec i.x).body i = .done (cvtResult i) := by
  unfold cvtSpec cvtResult
  cases CvtType.ofCode (bitsOf i.x.mods3.toNat 3 0) with
  | none => rfl
  | some src =>
    cases CvtType.ofCode (bitsOf i.x.mods2.toNat 3 0) with
    | none => rfl
    | some dst => rfl

theorem cvtResult_state (i : Issue) : (cvtResult i).s = i.s := by
  unfold cvtResult
  split <;> rfl

/-- CVTQ's MODS bit 3 says whether it unpacks (07 R180). -/
theorem cvtqSpec_done (i : Issue) : (cvtqSpec i.x).body i = .done (cvtqResult i) := by
  unfold cvtqSpec cvtqResult
  cases modBit i.x 3 with
  | true => rfl
  | false => rfl

theorem cvtqResult_state (i : Issue) : (cvtqResult i).s = i.s := by
  unfold cvtqResult
  cases modBit i.x 3 with
  | true => rfl
  | false => rfl

theorem bqdotSpec_done (i : Issue) : (bqdotSpec i.x).body i = .done (bqdotResult i) := rfl

theorem bqsclSpec_done (i : Issue) : (bqsclSpec i.x).body i = .done (bqsclResult i) := rfl

/-- Settles O9: each meaning is done with its value, its flags and the poison that it met, and itself changes no state. -/
theorem floatFunctionsComplete : Obligations.FloatFunctionsComplete := by
  refine ⟨trans_completes 0, trans_completes 1, trans_completes 2, trans_completes 3, trans_completes 4, trans_completes 5,
    trans_completes 6, trans_completes 7, ?fset, ?fclass, ?cvt, ?cvtq, ?bqdot, ?bqscl⟩
  case fset => exact extForm_of_ownBody fsetSpec_done (fun _ => rfl)
  case fclass => exact extForm_of_ownBody fclassSpec_done (fun _ => rfl)
  case cvt => exact extForm_of_ownBody cvtSpec_done cvtResult_state
  case cvtq => exact extForm_of_ownBody cvtqSpec_done cvtqResult_state
  case bqdot => exact extForm_of_ownBody bqdotSpec_done (fun _ => rfl)
  case bqscl => exact extForm_of_ownBody bqsclSpec_done (fun _ => rfl)

end Sys2Proof.Machine

/-! PROOFS. Quad operations, lane exchange, votes, folds and intersection (07 R182, R184 to R189): O10. -/

namespace Sys2Proof.Machine

/-! ## What each instruction is done with -/

/-- A quad move is done with the value of the lane that its choice, made from the issue's own fields, names (07 R182). -/
theorem quadMove_done (m : BitVec 10) (pick : Ext → Nat → Nat) (i : Issue) :
    (quadMove m (pick i.x) i.x).body i = .done (quadResult (fun i => pick i.x) i) := rfl

/-- A quad difference is done with the rounded difference of the two lanes that its choice names (07 R182). -/
theorem quadDiff_done (pick : Ext → Nat → Nat × Nat) (i : Issue) :
    (quadDiff (pick i.x) i.x).body i = .done (quadDiffResult (fun i => pick i.x) i) := rfl

/-- LXCH's source lane is that of its mode within the segment that its MODS give (07 R185). -/
theorem lxchLane_eq_lxchSource (i : Issue) (l : Nat) :
    lxchLane (modField i.x 1 0) (32 / 2 ^ modField i.x 4 2) l (i.b l) = lxchSource i l := rfl

theorem lxchSpec_done (i : Issue) : (lxchSpec i.x).body i = .done (lxchResult i) := by
  simp only [lxchSpec, Spec.plain, lxchLane_eq_lxchSource]
  rfl

/-- QRM's mode 3 writes the mask and its count, every other mode the vote (07 R186). -/
theorem qrmSpec_done (i : Issue) : (qrmSpec i.x).body i = .done (qrmResult i) := by
  by_cases h : bitsOf i.x.mods.toNat 1 0 = 3
  · exact (if_pos h).trans (congrArg Eff.done (if_pos h).symm)
  · exact (if_neg h).trans (congrArg Eff.done (if_neg h).symm)

theorem qrmResult_state (i : Issue) : (qrmResult i).s = i.s := by
  unfold qrmResult
  dsimp only
  split <;> rfl

/-- PEER's MODS bit 0 asks whether all participants have one value; without it each lane gets its peers (07 R187). -/
theorem peerSpec_done (i : Issue) : (peerSpec i.x).body i = .done (peerResult i) := by
  by_cases h : modBit i.x 0 = true
  · exact (if_pos h).trans (congrArg Eff.done (if_pos h).symm)
  · exact (if_neg h).trans (congrArg Eff.done (if_neg h).symm)

theorem peerResult_state (i : Issue) : (peerResult i).s = i.s := by
  unfold peerResult
  dsimp only
  split <;> rfl

theorem wfoldSpec_done (i : Issue) : (wfoldSpec i.x).body i = .done (wfoldResult i) := rfl

theorem prefixSpec_done (i : Issue) : (prefixSpec i.x).body i = .done (prefixResult i) := rfl

theorem isectSpec_done (i : Issue) : (isectSpec i.x).body i = .done (isectResult i) := rfl

/-- Settles O10: each meaning is done with its value and its predicate, and itself changes no state. -/
theorem laneExchangeCompletes : Obligations.LaneExchangeCompletes := by
  refine ⟨?qswz, ?qbc, ?qdx, ?qdy, ?lxch, ?qrm, ?peer, ?wfold, ?prefixFold, ?isect⟩
  case qswz => exact extForm_of_ownBody (quadMove_done _ (fun x p => modField x 7 0 / 4 ^ p % 4)) (fun _ => rfl)
  case qbc => exact extForm_of_ownBody (quadMove_done _ (fun x _ => modField x 1 0)) (fun _ => rfl)
  case qdx => exact extForm_of_ownBody (quadDiff_done (fun x p => if modBit x 0 ∨ p < 2 then (1, 0) else (3, 2))) (fun _ => rfl)
  case qdy => exact extForm_of_ownBody (quadDiff_done (fun x p => if modBit x 0 ∨ p % 2 = 0 then (2, 0) else (3, 1))) (fun _ => rfl)
  case lxch => exact extForm_of_ownBody lxchSpec_done (fun _ => rfl)
  case qrm => exact extForm_of_ownBody qrmSpec_done qrmResult_state
  case peer => exact extForm_of_ownBody peerSpec_done peerResult_state
  case wfold => exact extForm_of_ownBody wfoldSpec_done (fun _ => rfl)
  case prefixFold => exact extForm_of_ownBody prefixSpec_done (fun _ => rfl)
  case isect => exact extForm_of_ownBody isectSpec_done (fun _ => rfl)

end Sys2Proof.Machine

/-! PROOFS. The posts of the matrix and scan queues (08 R190 to R195, R204, R205, R208, R213; 13 R306): O29 and O30. -/

namespace Sys2Proof.Machine

/-! ## A posted command leaves its warp in its slot -/

theorem keeps_takeSeq (s : State) (c d gid tl : Nat) : Keeps c s (s.takeSeq d gid tl).1 := by
  unfold State.takeSeq; split
  · exact Keeps.refl _ _
  · exact keeps_modCore _ _ _ _ (fun _ => rfl)

theorem takeTickets_warps (k : Core) (l : List Nat) : (takeTickets k l).1.warps = k.warps := by
  induction l generalizing k with
  | nil => rfl
  | cons p t ih => exact ih _

theorem keepsWarp_numbered {ok : Issue → Prop} {s : Issue → State} (n : Issue → Nat) (h : ∀ i, Keeps i.c i.s (s i)) :
    KeepsWarp ok (numbered s n) :=
  keepsWarp_of_keeps (fun i _ => (h i).trans (keeps_modWarp _ _ _ _ _))

theorem keeps_mmaPosted (nb : Nat) (i : Issue) : Keeps i.c i.s (mmaPosted nb i) :=
  (keeps_takeSeq _ _ _ _ _).trans (keeps_setCore _ _ _ _ (Core.keeps_of_warps (takeTickets_warps _ _)))

theorem keeps_wbFrom (i : Issue) : Keeps i.c i.s (wbFrom i) := by
  unfold wbFrom; split
  · exact Keeps.refl _ _
  · exact keeps_drain _ _ _ _

theorem keeps_pushMat (m : Issue → MatCmd) {s : Issue → State} {i : Issue} (h : Keeps i.c i.s (s i)) : Keeps i.c i.s (pushMat m s i) :=
  h.trans (keeps_modCore _ _ _ _ (fun _ => rfl))

theorem keeps_pushScan (tl : Issue → Nat) (m : Issue → ScanCmd) (i : Issue) : Keeps i.c i.s (pushScan tl m i) :=
  (keeps_takeSeq _ _ _ _ _).trans (keeps_modCore _ _ _ _ (fun _ => rfl))

/-! ## The forms of an instruction that posts a command, from what its meaning is -/

/-- A meaning that traps as its check `f` says leaves the state of that trap. -/
theorem extLeaves_trapsAs {mk : Ext → Instr} {sp : Ext → Spec} {ok : Issue → Prop} {f : Issue → Option Trap}
    (hf : ∀ i, ok i → (f i).isSome = true) (hb : ∀ i t, ok i → f i = some t → (sp i.x).body i = .trap t)
    (he : ∀ x s, exec (mk x) s = runExt sp x s := by intros; rfl) : ExtLeaves mk sp ok (trapsAs f) :=
  extLeaves_of_body mk sp ok _ he (fun x i hx ho => by
    subst hx
    obtain ⟨t, ht⟩ := Option.isSome_iff_exists.1 (hf i ho)
    rw [settle_of_trap (hb i t ho ht), trapsAs, ht])

/-- `extFormWhen_of_body` for a meaning that is given at the issue's own fields, and posts a command. -/
theorem extFormWhen_numbered {mk : Ext → Instr} {sp : Ext → Spec} {ok : Issue → Prop} {s : Issue → State} {n : Issue → Nat}
    (hb : ∀ i, ok i → (sp i.x).body i = .done (numbered s n i)) (hs : ∀ i, Keeps i.c i.s (s i))
    (he : ∀ x s, exec (mk x) s = runExt sp x s := by intros; rfl) : ExtFormWhen mk sp ok (numbered s n) :=
  extFormWhen_of_body mk sp ok _ he (fun _ i hx ho => hx ▸ hb i ho) (keepsWarp_numbered n hs)

/-- With the elected lane's guard 0 an instruction leaves everything as it is. -/
theorem extFormWhen_off {mk : Ext → Instr} {sp : Ext → Spec} (hb : ∀ i, ¬elects i → (sp i.x).body i = .done i.res)
    (he : ∀ x s, exec (mk x) s = runExt sp x s := by intros; rfl) : ExtFormWhen mk sp (fun i => ¬elects i) Issue.res :=
  extFormWhen_of_body mk sp _ _ he (fun _ i hx ho => hx ▸ hb i ho) (keepsWarp_of_state (fun _ => rfl))

/-! ## MMA2 to MMA8 and MMAW (08 R190 to R195) -/

theorem mmaSpec_body (nb : Nat) (ins : Instr) (i : Issue) : (mmaSpec nb ins i.x).body i =
    if !(i.grd.has i.elected) then .done i.res
    else if 32 ≤ i.k.matUsed then .block (i.wait ins) i.s
    else match mmaFails nb i with
      | some t => .trap t
      | none => .done (numbered (mmaPosted nb) (nextSeq (fun i => (mmaOf nb i).tl)) i) := rfl

theorem mmaPosts (mk : Ext → Instr) (nb : Nat)
    (he : ∀ x s, exec (mk x) s = runExt (fun x => mmaSpec nb (mk x) x) x s := by intros; rfl) : MmaPosts mk nb where
  off := extFormWhen_off (fun i h => by simp [mmaSpec_body, h]) he
  full := extLeaves_of_body _ _ _ _ he (fun x i hx ⟨hg, hf⟩ => by
    subst hx
    rw [mmaSpec_body]
    simp [hg, hf, settle, blocked])
  bad := extLeaves_trapsAs (fun _ ⟨_, _, hs⟩ => hs) (fun i t ⟨hg, hf, _⟩ ht => by simp [mmaSpec_body, hg, Nat.not_le.2 hf, ht]) he
  posted := extFormWhen_numbered (fun i ⟨hg, hf, ht⟩ => by simp [mmaSpec_body, hg, Nat.not_le.2 hf, ht]) (keeps_mmaPosted nb) he

/-- Settles O29: each of the eight is `mmaSpec` of its width, which does what `MmaPosts` says. -/
theorem matrixPostsComplete : Obligations.MatrixPostsComplete :=
  ⟨mmaPosts .mma2 2, mmaPosts .mma3 3, mmaPosts .mma4 4, mmaPosts .mma5 5, mmaPosts .mma6 6, mmaPosts .mma7 7, mmaPosts .mma8 8, mmaPosts .mmaw 16⟩

/-! ## WBLD, WBINV, SCAN and SCANST (08 R204, R205, R208, R213) -/

theorem wbldSpec_body (i : Issue) : (wbldSpec i.x).body i =
    match wbldFails i with
    | some t => .trap t
    | none =>
      if 32 ≤ i.k.matUsed then .done (noRoom i)
      else .done (numbered (pushMat wbldCmd (fun i => ((wbFrom i).takeSeq i.c i.w.gid (wbTl i)).1))
        (fun i => ((wbFrom i).takeSeq i.c i.w.gid (wbTl i)).2) i) := rfl

theorem wbinvSpec_posted {i : Issue} (h : wbinvOk i) : (wbinvSpec i.x).body i = .done { i.res with s := pushMat wbinvCmd Issue.s i } := by
  obtain ⟨ha, hb, hs⟩ := h
  have h1 : ¬(i.a 0 % 64 ≠ 0 ∨ i.g.wsize < i.a 0) := by omega
  have h2 : ¬(i.b 0 % 64 ≠ 0 ∨ i.g.wsize < i.a 0 + i.b 0) := by omega
  exact (if_neg h1).trans (if_neg h2)

theorem wbinvSpec_unaligned {i : Issue} (x : Ext) (h : i.a 0 % 64 ≠ 0) :
    (wbinvSpec x).body i = .trap { cause := 0x0A, tval := BitVec.ofNat 64 (i.a 0) } := if_pos (Or.inl h)

theorem scanSpec_body (i : Issue) : (scanSpec i.x).body i =
    if !(i.grd.has i.elected) then .done i.res
    else match scanFails i with
      | some t => .trap t
      | none =>
        if 16 ≤ i.k.scanQ.length then .done (noRoom i)
        else .done (numbered (pushScan (fun i => (scanOf i).tl) scanCmd) (nextSeq (fun i => (scanOf i).tl)) i) := rfl

theorem scanstSpec_body (i : Issue) : (scanstSpec i.x).body i =
    match scanstFails i with
    | some t => .trap t
    | none => if 16 ≤ i.k.scanQ.length then .done (noRoom i) else .done (numbered (pushScan ssTl scanstCmd) (nextSeq ssTl) i) := rfl

/-- Settles O30: by what each meaning is with its check failed, its queue full, and its queue with room. -/
theorem weightsAndScansPost : Obligations.WeightsAndScansPost := by
  refine ⟨?wbld, ?wbldFull, ?wbldBad, ?wbinv, ?wbinvBad, ?scan, ?scanFull, ?scanOff, ?scanBad, ?scanst, ?scanstFull, ?scanstBad⟩
  case wbld =>
    exact extFormWhen_numbered (fun i ⟨ht, hf⟩ => by simp [wbldSpec_body, ht, Nat.not_le.2 hf])
      (fun i => keeps_pushMat wbldCmd ((keeps_wbFrom i).trans (keeps_takeSeq _ _ _ _ _)))
  case wbldFull => exact extFormWhen_numbered (fun i ⟨ht, hf⟩ => by simp [wbldSpec_body, ht, hf, noRoom]) (fun _ => Keeps.refl _ _)
  case wbldBad => exact extLeaves_trapsAs (fun _ h => h) (fun i t _ ht => by simp [wbldSpec_body, ht])
  case wbinv =>
    exact extFormWhen_of_body _ _ _ _ (fun _ _ => rfl) (fun _ _ hx h => hx ▸ wbinvSpec_posted h)
      (keepsWarp_of_keeps (fun i _ => keeps_pushMat wbinvCmd (Keeps.refl _ _)))
  case wbinvBad => exact extLeaves_of_trap (fun _ _ => rfl) (fun x _ h => wbinvSpec_unaligned x h)
  case scan =>
    exact extFormWhen_numbered (fun i ⟨hg, ht, hf⟩ => by simp [scanSpec_body, hg, ht, Nat.not_le.2 hf]) (keeps_pushScan _ scanCmd)
  case scanFull => exact extFormWhen_numbered (fun i ⟨hg, ht, hf⟩ => by simp [scanSpec_body, hg, ht, hf, noRoom]) (fun _ => Keeps.refl _ _)
  case scanOff => exact extFormWhen_off (fun i h => by simp [scanSpec_body, h])
  case scanBad => exact extLeaves_trapsAs (fun _ ⟨_, hs⟩ => hs) (fun i t ⟨hg, _⟩ ht => by simp [scanSpec_body, hg, ht])
  case scanst => exact extFormWhen_numbered (fun i ⟨ht, hf⟩ => by simp [scanstSpec_body, ht, Nat.not_le.2 hf]) (keeps_pushScan ssTl scanstCmd)
  case scanstFull => exact extFormWhen_numbered (fun i ⟨ht, hf⟩ => by simp [scanstSpec_body, ht, hf, noRoom]) (fun _ => Keeps.refl _ _)
  case scanstBad => exact extLeaves_trapsAs (fun _ h => h) (fun i t _ ht => by simp [scanstSpec_body, ht])

end Sys2Proof.Machine

/-! PROOFS. The events of the matrix array, the weight buffer and the scan unit (08 R190, R197, R199, R204 to R213): O56. -/

namespace Sys2Proof.Machine

section
variable {s : State} {c : Nat}

/-! ## The array (08 R190, R199, R207) -/

theorem Core.mmaHead_of_mma {k : Core} {m : MatCmd} {rest : List MatCmd} {nb : Nat} {aw : Bool} {r : List DWord} {rm cm : BitVec 128} {t : TileRef}
    {tk : List (Nat × Nat)} (hq : k.matQ = m :: rest) (hm : m.what = .mma nb aw r rm cm t tk) : k.mmaHead = some m := by
  simp only [Core.mmaHead, hq, hm]

/-- The array is idle while nothing runs on it. -/
theorem Core.arrayBusy_of_idle {k : Core} (hm : k.matRun = none) (hr : ∀ r, k.scanRun = some r → r.onArray = false) : k.arrayBusy = false := by
  unfold Core.arrayBusy
  cases h : k.scanRun with
  | none => simp [hm]
  | some r => simp [hm, hr r h]

theorem MmaStarts.mmaWaits {k : Core} {m : MatCmd} {rest : List MatCmd} {nb : Nat} {aw : Bool} {r : List DWord} {rm cm : BitVec 128} {t : TileRef}
    {tk : List (Nat × Nat)} (h : MmaStarts k m rest tk) (hm : m.what = .mma nb aw r rm cm t tk) : k.mmaWaits = true := by
  have ho := h.order
  simp only [Core.mmaWaits, Core.mmaHead_of_mma h.queue hm, hm, h.idle.1, h.time]
  simpa using fun a b hab => ho (a, b) hab

theorem matrixUnitStart_mma {m : MatCmd} {rest : List MatCmd} {nb : Nat} {aw : Bool} {r : List DWord} {rm cm : BitVec 128} {t : TileRef}
    {tk : List (Nat × Nat)} (h : MmaStarts (s.core c) m rest tk) (hm : m.what = .mma nb aw r rm cm t tk) :
    exec (.matrixUnitStart c) s = .next (s.setCore c { s.core c with
      lastArray := false, arrayIdle := false
      matRun := some (begun (if nb = 16 then 128 * (mmaArgs nb aw r).kb else 8 * nb * (mmaArgs nb aw r).kb)) }) := by
  obtain ⟨hr, hc, hs⟩ := h.idle
  have hw := h.mmaWaits hm
  have hp : (s.core c).picksMatrix = true := by simp [Core.picksMatrix, hw, hc]
  show execMatrixUnitStart c s = _
  simp only [execMatrixUnitStart, Core.arrayBusy_of_idle hr hs, hw, hp, Core.mmaHead_of_mma h.queue hm, hm]
  rfl

theorem matrixUnitStart_chunk {q : ScanCmd} {rest : List ScanCmd} {r : ScanRun} {b : List DWord} {rm cm : BitVec 128} {l : Nat} {ts : List TileRef}
    (hc : (s.core c).chunkWaits = true) (hm : (s.core c).mmaWaits = false) (hb : (s.core c).arrayBusy = false) (hr : (s.core c).scanRun = some r)
    (hq : (s.core c).scanQ = q :: rest) (hw : q.what = .scan b rm cm l ts) :
    exec (.matrixUnitStart c) s = .next (s.setCore c { s.core c with lastArray := true, arrayIdle := false, scanRun := some { r with
      onArray := true
      steps := chunkSteps (min l (bitsOf (b.getD 1 0).toNat 47 32 - r.t)) (bitsOf (b.getD 1 0).toNat 31 25 + 1) (bitsOf (b.getD 1 0).toNat 24 18 + 1) } }) := by
  show execMatrixUnitStart c s = _
  simp only [execMatrixUnitStart, Core.picksMatrix, hb, hc, hm, hr, hq, hw]
  rfl

theorem matrixCommandComplete_mma {b : MatBack} {rest : List MatBack} {nb : Nat} {aw : Bool} {r : List DWord} {rm cm : BitVec 128} {t : TileRef}
    {tk : List (Nat × Nat)} (hq : (s.core c).matBack = b :: rest) (hm : b.cmd.what = .mma nb aw r rm cm t tk) (ht : b.last + 12 ≤ (s.core c).cycle.toNat) :
    exec (.matrixCommandComplete c) s = .next ((s.setCore c (tk.foldl (fun (k : Core) p => k.dropTicket p.1 p.2)
      { (s.core c).setAccStore ((s.core c).accStore.put b.writes) with matBack := rest })).endUnit c b.cmd.gid b.cmd.tl b.cmd.seq b.cmd.pc
        b.cmd.slot b.status none) := by
  show execMatrixCommandComplete c s = _
  simp only [execMatrixCommandComplete, hq, hm, Nat.not_lt.2 ht, if_false]

theorem gafferWindow_begins (h : (s.core c).gafWin ≠ (s.core c).cycle.toNat / 128) : exec (.gafferWindow c) s =
    .next (s.setCore c { s.core c with gafWin := (s.core c).cycle.toNat / 128, gafUsed := 0, budget := (s.core c).budgetNext }) := by
  show execGafferWindow c s = _
  simp only [execGafferWindow, Core.newWindow, h, if_false]

/-! ## WBLD and WBINV (08 R204, R205) -/

section
variable {m : MatCmd} {rest : List MatCmd} (hq : (s.core c).matQ = m :: rest)
include hq

theorem wbldRun_starts {sp : Bool} {src dst len : Nat} {t : Option TileRef} (hr : (s.core c).matRun = none) (hm : m.what = .wbld sp src t dst len)
    (ht : m.posted + 24 ≤ (s.core c).cycle.toNat) :
    exec (.wbldRun c) s = .next (s.setCore c { s.core c with matRun := some (begun (len / 64)) }) := by
  show execWbldRun c s = _
  simp only [execWbldRun, hq, hr, hm, Nat.not_lt.2 ht, if_false]
  rfl

theorem wbldComplete_loads {sp : Bool} {src dst len : Nat} {t : Option TileRef} {r : MatRun} (hm : m.what = .wbld sp src t dst len)
    (hr : (s.core c).matRun = some r) (h0 : r.steps = 0) (ht : r.last + 12 ≤ (s.core c).cycle.toNat) :
    exec (.wbldComplete c) s = .next ((s.setCore c { s.core c with
      weight := r.weights.foldl (fun w p => Memory.write w p.1 p.2) (s.core c).weight
      weightPoison := r.bad.foldl insertNat ((s.core c).weightPoison.filter (fun u => !((r.weights.map (fun p => p.1 / 8)).contains u)))
      loaded := (r.weights.map (fun p => p.1 / 64)).foldl insertNat (s.core c).loaded, matQ := rest, matRun := none }).endUnit c m.gid m.tl m.seq m.pc m.slot r.status r.fail) := by
  have hn : ¬(r.steps ≠ 0 ∨ (s.core c).cycle.toNat < r.last + 12) := by omega
  show execWbldComplete c s = _
  simp only [execWbldComplete, hq, hr, hm, hn, if_false]

theorem wbinvEffect_empties {off len : Nat} {g : Group} (hr : (s.core c).matRun = none) (hm : m.what = .wbinv off len) (hg : s.group? c m.gid = some g) :
    exec (.wbinvEffect c) s = .next (s.setCore c { s.core c with matQ := rest, loaded := (s.core c).loaded.filter (fun u =>
      !(((List.range (len / 64)).map (fun i => g.wphys (off + 64 * i) / 64)).contains u)) }) := by
  show execWbinvEffect c s = _
  simp only [execWbinvEffect, hq, hr, hm, hg]

end

/-! ## The scan unit (08 R208 to R213) -/

section
variable {q : ScanCmd} {rest : List ScanCmd} (hq : (s.core c).scanQ = q :: rest)
include hq

/-- What a SCAN begins as, no word of its state met with an error: denied, it is past its last step already (14 R346). -/
theorem scanStart_scan {b : List DWord} {rm cm : BitVec 128} {l : Nat} {ts : List TileRef} (hr : (s.core c).scanRun = none) (hw : q.what = .scan b rm cm l ts)
    (hok : ∀ e ∈ (scanView b rm cm ts).elems, (scanWord (s.core c) ((scanView b rm cm ts).tile 0) e.1 e.2).2 = false) :
    let v := scanView b rm cm ts
    let h := v.elems.map (fun e => (128 * e.1 + e.2, BitVec.ofNat 32 (scanWord (s.core c) (v.tile 0) e.1 e.2).1))
    exec (.scanStart c) s = .next (s.setCore c { s.core c with scanRun := some (
      if q.deny then scanBegun (s.core c).cycle.toNat v.a.t 0x13 0 h []
      else scanBegun (s.core c).cycle.toNat 0 0 (if l = 0 then 2 * ((v.a.p * v.a.n + 63) / 64) else 0) h []) }) := by
  intro v h
  have hbad : ((scanView b rm cm ts).elems.map (fun e => (e, scanWord (s.core c) ((scanView b rm cm ts).tile 0) e.1 e.2))).any (fun p => p.2.2) = false := by
    simpa using fun a b hab => hok (a, b) hab
  show execScanStart c s = _
  simp only [execScanStart, hr, hq, hw, hbad, List.map_map, Bool.false_eq_true, if_false]
  rfl

theorem scanStart_scanst {a b : TileRef} (hr : (s.core c).scanRun = none) (hw : q.what = .scanst a b) (hd : q.deny = false) :
    exec (.scanStart c) s = .next (s.setCore c { s.core c with scanRun := some (scanBegun (s.core c).cycle.toNat 0 0 ((a.rows * a.cols + 63) / 64) []
      ((tileCellsAll a).map (fun p => (f32Addr a p.1 p.2, f32Addr b p.1 p.2)))) }) := by
  show execScanStart c s = _
  simp only [execScanStart, hr, hq, hw, hd]
  rfl

variable {r : ScanRun} (hr : (s.core c).scanRun = some r)
include hr

theorem scanComplete_ends {b : List DWord} {rm cm : BitVec 128} {l : Nat} {ts : List TileRef} {g : Group} (hw : q.what = .scan b rm cm l ts)
    (hg : s.group? c q.gid = some g) (ht : (scanView b rm cm ts).a.t ≤ r.t) (ho : r.outs = []) (hl : r.lanes = 0)
    (hd : l = 0 ∨ q.deny = true ∨ r.last + 12 ≤ (s.core c).cycle.toNat)
    (hu : (scanView b rm cm ts).a.rcd = true → (s.core c).untagged (wordsCovered g (scanView b rm cm ts).a.recAddr 8) = true) :
    exec (.scanComplete c) s = .next ((s.setCore c { writeScanRecord (s.core c) g (scanView b rm cm ts).a r.status l with
      scanQ := rest, scanRun := none }).endUnit c q.gid q.tl q.seq q.pc q.slot r.status none) := by
  have hd' : (l != 0 && !q.deny && decide ((s.core c).cycle.toNat < r.last + 12)) = false := by
    rcases hd with h | h | h <;> simp [h]
  have hu' : ((scanView b rm cm ts).a.rcd && !((s.core c).untagged (wordsCovered g (scanView b rm cm ts).a.recAddr 8))) = false := by
    cases h : (scanView b rm cm ts).a.rcd with
    | false => rfl
    | true => simp [hu h]
  show execScanComplete c s = _
  simp only [execScanComplete, hr, hq, hw, hg, ho, hl, hd', hu', decide_eq_false (Nat.not_lt.2 ht)]
  rfl

theorem scanstComplete_ends {a b : TileRef} (hw : q.what = .scanst a b) (hm : r.moves = []) (hl : r.lanes = 0)
    (ht : r.last + 12 ≤ (s.core c).cycle.toNat) :
    exec (.scanstComplete c) s = .next ((s.setCore c { s.core c with scanQ := rest, scanRun := none }).endUnit c q.gid q.tl q.seq q.pc q.slot
      r.status none) := by
  show execScanstComplete c s = _
  simp only [execScanstComplete, hr, hq, hw, hm, hl, decide_eq_false (Nat.not_lt.2 ht)]
  rfl

end

end

/-- Settles O56: clause by clause, what each event does once nothing holds it back. -/
theorem matrixEventsComplete : Obligations.MatrixEventsComplete := by
  refine ⟨?mmaStart, ?chunkStart, ?mmaEnd, ?window, ?wbldRun, ?wbldEnd, ?wbinv, ?scanStart, ?scanstStart, ?scanEnd, ?scanstEnd⟩
  case mmaStart => exact fun _ _ _ _ _ _ _ _ _ _ _ h hm => matrixUnitStart_mma h hm
  case chunkStart => exact fun _ _ _ _ _ _ _ _ _ _ hc hm hb hr hq hw => matrixUnitStart_chunk hc hm hb hr hq hw
  case mmaEnd => exact fun _ _ _ _ _ _ _ _ _ _ _ hq hm ht => matrixCommandComplete_mma hq hm ht
  case window => exact fun _ _ => gafferWindow_begins
  case wbldRun => exact fun _ _ _ _ _ _ _ _ _ hq hr hm ht => wbldRun_starts hq hr hm ht
  case wbldEnd => exact fun _ _ _ _ _ _ _ _ _ _ hq hm hr h0 ht => wbldComplete_loads hq hm hr h0 ht
  case wbinv => exact fun _ _ _ _ _ _ _ hq hr hm hg => wbinvEffect_empties hq hr hm hg
  case scanStart =>
    intro s c q rest b rm cm l ts hr hq hw v h now hok
    have hs := scanStart_scan hq hr hw hok
    exact ⟨fun hd => by rw [hs, hd]; rfl, fun hd => by rw [hs, hd]; rfl⟩
  case scanstStart => exact fun _ _ _ _ _ _ hr hq hw hd => scanStart_scanst hq hr hw hd
  case scanEnd => exact fun _ _ _ _ _ _ _ _ _ _ _ hr hq hw hg ht ho hl hd hu => scanComplete_ends hq hr hw hg ht ho hl hd hu
  case scanstEnd => exact fun _ _ _ _ _ _ _ hr hq hw hm hl ht => scanstComplete_ends hq hr hw hm hl ht

end Sys2Proof.Machine

/-! PROOFS. The bytes that an AMO writes are counted (13 R333; 17 R428, source 0x0D): O54. -/

namespace Sys2Proof.Machine

/-- The access of memory by which AMO `a` of core `c` is performed at its coherence point: the state after it, and what it returns. -/
def State.amoAtom (s : State) (c asid : Nat) (a : AmoArgs) : State × AtomRes :=
  s.atomFrom (dieOf c) asid a.addr.toNat a.size (fun o => atomNew a.op (8 * a.size) a.nat o a.operand a.cmp)

/-- An AMO performed at its coherence point: its context holds the old value, and its bytes are counted as written by its engine. -/
theorem atomicElementPerform_amo {s s1 : State} {c e x u old : Nat} {m : Cmd} {a : AmoArgs} {g : Group} (hm : s.amoOf c e x = some (m, a, g))
    (hr : ((s.core c).ctx e x).phase = .running) (hp : ((s.core c).ctx e x).pre = 0) (hs : ((s.core c).ctx e x).sent = 0)
    (h1 : s.spend c e x 1 = some s1) (hw : a.win = false) (ho : (s1.amoAtom c g.asid a).2 = .old old) :
    exec (.atomicElementPerform (.element c e x u)) s =
      .next (((s1.amoAtom c g.asid a).1.countWritten c a.size).modCtx c e x (fun k => { k with pre := 1, result := some old })) := by
  unfold State.amoAtom at ho
  show execAtomicElementPerform (.element c e x u) s = _
  simp [execAtomicElementPerform, State.performAmo, State.amoAtom, hm, hr, hp, hs, h1, hw, ho]

theorem State.evctrs_modCtx (s : State) (c e x : Nat) (f : EngCtx → EngCtx) : ((s.modCtx c e x f).core c).evctrs = (s.core c).evctrs := by
  simp [State.modCtx]

theorem State.evctrs_countWritten (s : State) (c n : Nat) :
    ((s.countWritten c n).core c).evctrs = Tab.mapVal (s.core c).evctrs (fun _ x => x.bump 0x0D n) := by
  simp [State.countWritten, State.countCore, Core.count]

/-- The bytes that an engine writes change the state of a core with a counter of them. -/
theorem State.countWritten_modCtx_ne {t : State} {c n j : Nat} {k : EvCtr} (hk : Tab.get? (t.core c).evctrs j = some k) (hc : k.counting = 0x0D)
    (hn : 0 < n) (e x : Nat) (f : EngCtx → EngCtx) : (t.countWritten c n).modCtx c e x f ≠ t.modCtx c e x f := by
  intro h
  have hctrs : Tab.mapVal (t.core c).evctrs (fun _ y => y.bump 0x0D n) = (t.core c).evctrs := by
    rw [← State.evctrs_countWritten, ← State.evctrs_modCtx (t.countWritten c n) c e x f, h, State.evctrs_modCtx]
  have hbump := congrArg (Tab.get? · j) hctrs
  simp only [Tab.get?_mapVal, hk, Option.map_some] at hbump
  have hnow : n = 0 := by simpa [EvCtr.bump, hc] using congrArg EvCtr.now (Option.some.inj hbump)
  omega

/-- An 8-byte AMO that adds 1 at VA 120. -/
def addOneAmo : AmoArgs :=
  { op := 0, size := 8, nat := false, win := false, tc := 0, addr := 120, operand := 1, cmp := 0, slot := 0, reg := 5, scope := 0 }

/-- Its command, of group 0. -/
def addOneAmoCmd : Cmd :=
  { cid := 0, gid := 0, asid := probeAsid, tl := 0, seq := 1, pc := 0, poster := 0, eng := 2, wide := false, what := .amo addOneAmo, src := none, dst := none
    dstTaskRead := false }

/-- The line of VA 0 to 127, at home and writable. -/
def lowLine : HomeLine :=
  { asid := probeAsid, line := 0, sector := 0, w := true, tv := true, dirty := false, data := List.replicate 128 0, poison := [] }

/-- A counter of the bytes that CE0 and CE1 write. -/
def writtenCtr : EvCtr := { value := 0, source := 0x0D, counting := 0x0D, now := 0 }

/-- Context 7 of engine 1 of core 0 holds the AMO and a granted request, and counter 0 of the core counts the bytes written. -/
def countedAmo : State :=
  ((State.reset.withFetchWord 32 0x60).modDie 0 (fun d => { d with home := [lowLine] })).modCore 0 (fun k => { k with
    ctxs := [(15, { EngCtx.reset with phase := .running, grants := 1, cmd := some addOneAmoCmd })], evctrs := [(0, writtenCtr)] })

/-- The same, the request spent. -/
def countedAmoSpent : State := countedAmo.modCtx 0 1 7 (fun k => { k with grants := k.grants - 1 })

/-- The group of the placed instruction, whose AMO it is. -/
abbrev probeGroup : Group := freshGroup probeBirth probeAlloc

theorem countedAmo_old : (countedAmoSpent.amoAtom 0 probeGroup.asid addOneAmo).2 = .old 0 := by rfl

theorem countedAmo_counts : Tab.get? ((countedAmoSpent.amoAtom 0 probeGroup.asid addOneAmo).1.core 0).evctrs 0 = some writtenCtr := by rfl

/-- Refutes O54: its clause on an AMO leaves out that the bytes written are counted. In `countedAmo` counter 0 counts them (17 R428, source
0x0D), and the event adds 8 to it, where the clause has it unchanged. -/
theorem not_memoryEventsComplete : ¬ Obligations.MemoryEventsComplete := by
  intro h
  obtain ⟨-, -, -, -, -, -, -, -, -, hamo, -⟩ := h
  have hm : countedAmo.amoOf 0 1 7 = some (addOneAmoCmd, addOneAmo, probeGroup) := rfl
  have hs : countedAmo.spend 0 1 7 1 = some countedAmoSpent := rfl
  have hclause := hamo countedAmo 0 1 7 0 _ _ _ _ hm rfl rfl rfl hs rfl 0 countedAmo_old
  have hexec := atomicElementPerform_amo (u := 0) hm rfl rfl rfl hs rfl countedAmo_old
  exact State.countWritten_modCtx_ne countedAmo_counts rfl (by decide) _ _ _ (Host.Outcome.next.inj (hexec.symm.trans hclause))

end Sys2Proof.Machine

/-! PROOFS. Taking a trap (09 R227, R231, R232): O44, O46 and O47. -/

namespace Sys2Proof.Machine

/-! ## What a trap's parts leave of the state -/

/-- A vector is read from the package alone. -/
theorem State.vector_of_pkg {s t : State} (h : t.pkg = s.pkg) (g : Group) (cause : Nat) : t.vector g cause = s.vector g cause := by
  cases s; cases t; cases h; rfl

@[simp] theorem State.writeFrame_pkg (s : State) (c slot cause : Nat) (v : DWord) (b : Bool) : (s.writeFrame c slot cause v b).pkg = s.pkg := by
  unfold State.writeFrame; split
  · rfl
  · split
    · rfl
    · exact State.modWarp_pkg _ _ _ _

theorem frameFits_iff (g : Group) (w : Warp) : frameFits g w = true ↔ w.tframe.toNat + 0x400 ≤ g.scrSize := decide_eq_true_iff

theorem schedsOnly_leaveSched (s : State) (c slot : Nat) : SchedsOnly s (s.leaveSched c slot) c := schedsOnly_modSched _ _ _ _

theorem State.modWarp_setWarp (s : State) (c slot : Nat) (w : Warp) (f : Warp → Warp) :
    (s.setWarp c slot w).modWarp c slot f = (s.setWarp c slot w).setWarp c slot (f w) :=
  State.modWarp_eq _ _ (State.warp?_setWarp_same _ _ _ _)

/-- A frame holds no event counter and no waiter: that the trap is counted and ends a wait before it is written leaves its bytes. -/
theorem frameBytes_trapping (s : State) (c slot : Nat) (w : Warp) (t : Trap) (b : Bool) :
    frameBytes ((s.trapping c slot).core c) slot w t.cause t.tval b = frameOf s c slot w t b := by
  obtain ⟨e, q, h⟩ := s.core_trapping c slot
  rw [h]; rfl

/-! ## A trap that enters its handler (09 R227) -/

/-- A warp with the registers that a trap saves in it. -/
def Warp.saves (w : Warp) (t : Trap) : Warp :=
  { w with tcause := BitVec.ofNat 8 t.cause, tpc := w.pc.setWidth 64, tval := t.tval, trunpc := w.runStart.setWidth 64 }

/-- A warp in the handler of a trap, whose last run ended in cycle `since`, and which waits for `due`. -/
def Warp.trapped (w : Warp) (t : Trap) (pc : VAddr) (since : Nat) (due : List (RegName × Nat)) : Warp :=
  { (w.saves t).enterHandler pc with since := since, due := due }

theorem Warp.entered_trapped (w : Warp) (t : Trap) (pc : VAddr) (since : Nat) (due : List (RegName × Nat)) :
    Entered w (w.trapped t pc since due) t pc where
  handler := rfl
  pc := ⟨rfl, rfl, rfl⟩
  lns := ⟨rfl, rfl, rfl⟩
  saved := ⟨rfl, rfl, rfl, rfl⟩
  regs := ⟨rfl, rfl, rfl, rfl, rfl⟩
  stack := ⟨rfl, rfl⟩
  counters := ⟨rfl, rfl, rfl, rfl⟩
  cache n x h := enterHandler_cache w n x pc h
  waiting := rfl

/-- State `s'` after a trap of warp `slot` of core `c`: scratchpad `bytes`, warp `u` in its slot, and every other part that 09 R227 does not
name as in `s`. -/
structure TrapFrame (s s' : State) (c slot : Nat) (bytes : Memory) (u : Warp) : Prop where
  warp : s'.warp? c slot = some u
  scratch : (s'.core c).scratch = bytes
  otherWarps : ∀ n, n ≠ slot → s'.warp? c n = s.warp? c n
  groups : ∀ n, s'.group? c n = s.group? c n
  otherCores : ∀ d, d ≠ c → s'.core d = s.core d
  pkg : s'.pkg = s.pkg
  dies : s'.dies = s.dies

/-- A state that differs in one core's frame, then in one warp of it, then in its schedulers. -/
theorem trapFrame_of_schedsOnly {s s' : State} {c slot : Nat} {m : Core} {bytes : Memory} {w u : Warp} (hm : ((s.trapping c slot).core c).ScratchOnly m bytes)
    (h : SchedsOnly ((((s.trapping c slot).setCore c m).setWarp c slot w).setWarp c slot u) s' c) : TrapFrame s s' c slot bytes u := by
  obtain ⟨e, q, ht⟩ := s.core_trapping c slot
  obtain ⟨p, gr, hm⟩ := hm.eq
  rw [ht] at hm
  subst hm
  refine ⟨?_, ?_, fun n hn => ?_, fun n => ?_, fun d hd => ?_, ?_, ?_⟩
  · rw [h.warp?, State.warp?_setWarp_same]
  · rw [h.core, State.core_setWarp, State.core_setWarp, State.core_setCore_same]
  · rw [h.warp?, State.warp?_setWarp_ne _ _ _ hn, State.warp?_setWarp_ne _ _ _ hn, State.warp?, State.core_setCore_same]; rfl
  · rw [h.group?, State.group?_setWarp, State.group?_setWarp, State.group?, State.core_setCore_same]; rfl
  · rw [h.others d hd, State.core_setWarp_ne _ _ _ hd, State.core_setWarp_ne _ _ _ hd, State.core_setCore_ne _ _ hd, State.core_trapping_ne _ _ hd]
  · rw [h.state]; rfl
  · rw [h.state]; rfl

section
variable {s : State} {c slot : Nat} {w : Warp} {g : Group} (hw : s.warp? c slot = some w) (hg : s.group? c w.gid = some g)
  (hq : w.storeQ = [])
include hw hg hq

theorem takeTrap_enters {pc : VAddr} (t : Trap) (b : Bool) (hh : w.handler = false) (hf : w.tframe.toNat + 0x400 ≤ g.scrSize)
    (hv : s.vector g t.cause = some pc) :
    ∃ since due, TrapFrame s (s.takeTrap c slot t b) c slot
      (Memory.writeN (s.core c).scratch (g.scrBase + w.tframe.toNat) (frameOf s c slot w t b)) (w.trapped t pc since due) := by
  obtain ⟨m, hm, hwf⟩ := writeFrame_eq (s.trapping c slot) c slot t.cause t.tval b w g ((s.warp?_trapping c slot slot).trans hw)
    ((s.group?_trapping c slot w.gid).trans hg) hf
  have hvec : ((s.trapping c slot).writeFrame c slot t.cause t.tval b).vector g t.cause = some pc :=
    (State.vector_of_pkg (State.writeFrame_pkg _ _ _ _ _ _) g t.cause).trans hv
  have hscr : ((s.trapping c slot).core c).scratch = (s.core c).scratch := by
    obtain ⟨e, q, h⟩ := s.core_trapping c slot
    rw [h]
  rw [frameBytes_trapping, hscr] at hm
  rw [takeTrap_eq s c slot w g t b hw hg hq, if_neg (by simp [hh]), if_neg (by simp [(frameFits_iff g w).2 hf])]
  simp only [hvec]
  generalize (s.trapping c slot).writeFrame c slot t.cause t.tval b = s2 at hwf
  change s2 = ((s.trapping c slot).setCore c m).setWarp c slot (w.saves t) at hwf
  subst hwf
  rw [State.modWarp_setWarp]
  exact ⟨_, _, trapFrame_of_schedsOnly hm ((schedsOnly_modSched _ _ _ _).trans (schedsOnly_leaveSched _ _ _))⟩

/-! ## A trap that becomes MACHINE (09 R232) -/

/-- Where a trap may not be taken, it is a program condition of its group: a MACHINE error in a state with the group as it was. -/
theorem takeTrap_machine (t : Trap) (b : Bool)
    (h : w.handler = true ∨ g.scrSize < w.tframe.toNat + 0x400 ∨ s.vector g t.cause = none) :
    ∃ (s1 : State) (addr : Nat), s1.group? c w.gid = some g ∧ s.takeTrap c slot t b = s1.machineGroup c w.gid 0 0 addr := by
  have hg1 : (s.trapping c slot).group? c w.gid = some g := (s.group?_trapping c slot w.gid).trans hg
  rw [takeTrap_eq s c slot w g t b hw hg hq]
  by_cases hh : w.handler = true
  · exact ⟨_, _, hg1, if_pos hh⟩
  rw [if_neg hh]
  by_cases hf : w.tframe.toNat + 0x400 ≤ g.scrSize
  · have hv : s.vector g t.cause = none := (h.resolve_left hh).resolve_left (Nat.not_lt.2 hf)
    have hvec : ((s.trapping c slot).writeFrame c slot t.cause t.tval b).vector g t.cause = none :=
      (State.vector_of_pkg (State.writeFrame_pkg _ _ _ _ _ _) g t.cause).trans hv
    rw [if_neg (by simp [(frameFits_iff g w).2 hf])]
    simp only [hvec]
    exact ⟨_, _, (State.group?_writeFrame _ _ _ _ _ _ _ _).trans hg1, rfl⟩
  · rw [if_pos (by simp [mt (frameFits_iff g w).1 hf])]
    exact ⟨_, _, hg1, rfl⟩

end

/-- Settles O44: `runSpec` looks at the checks first, and takes their trap from the state as it was. -/
theorem checksRaiseTheirTraps : Obligations.ChecksRaiseTheirTraps :=
  fun sp kBad x len s c slot w g t ha ht => runSpec_traps sp kBad x len s c slot w g t ha ht

/-- Settles O46: the state after the trap differs in the frame's bytes and in the warp, which has entered its handler. -/
theorem trapEntry : Obligations.TrapEntry := by
  intro s c slot w g t b pc hw hg hh hq hf hv hwf s' base
  obtain ⟨since, due, h⟩ := takeTrap_enters hw hg hq t b hh hf hv
  have hlen : (frameOf s c slot w t b).length = 0x400 := frameBytes_length _ _ _ _ _ _
  refine ⟨⟨_, h.warp, w.entered_trapped t pc since due⟩, hlen, fun a => ?_, h.otherWarps, h.groups, h.otherCores, h.pkg, h.dies⟩
  rw [h.scratch, Memory.read_writeN _ _ _ _ hwf, hlen]

/-- Settles O47: in each case the trap is a MACHINE error of the group, which the group's law and the core's flag describe. -/
theorem trapBecomesMachine : Obligations.TrapBecomesMachine := by
  intro s c slot w g t b hw hg hq h s'
  obtain ⟨s1, addr, hg1, heq⟩ := takeTrap_machine hw hg hq t b h
  have hs' : s' = s1.machineGroup c w.gid 0 0 addr := heq
  rw [hs']
  refine ⟨⟨g.machine, ?_, rfl, rfl⟩, State.machineGroup_mchk _ _ _ (by rw [hg1]; rfl)⟩
  rw [State.group?_machineGroup, if_pos rfl, hg1]
  rfl

end Sys2Proof.Machine

/-! PROOFS. System registers, the split-stack command and the return from a trap (09 R215 to R225, R233, R235, R237): O15 to O17. -/

namespace Sys2Proof.Machine

/-! ## An issue by the acting warp -/

/-- The warp, the group and the core of an issue are those of its state. -/
structure Issue.Stands (i : Issue) : Prop where
  warp : i.s.warp? i.c i.slot = some i.w
  group : i.s.group? i.c i.w.gid = some i.g
  core : i.k = i.s.core i.c

theorem stands_mkIssue {s : State} {c slot : Nat} {w : Warp} {g : Group} (ha : Acts s c slot w g) (sh : Shape) (x : Ext) (len : Nat) :
    (mkIssue s c slot w g sh x len).Stands := ⟨ha.warp, ha.group, rfl⟩

theorem extFormWhen_of_stands {mk : Ext → Instr} {sp : Ext → Spec} {ok : Issue → Prop} {res : Issue → Res}
    (hb : ∀ i, i.Stands → ok i → (sp i.x).body i = .done (res i)) (hk : ∀ i, i.Stands → ok i → Keeps i.c i.s (res i).s)
    (he : ∀ x s, exec (mk x) s = runExt sp x s := by intros; rfl) : ExtFormWhen mk sp ok res := by
  intro x s c slot w g ha i hr ho ht
  have hi : i.Stands := stands_mkIssue ha _ _ _
  rw [he]
  exact runSpec_completes _ _ _ _ _ _ _ _ _ _ ha hr (hb i hi ho) ht (hk i hi ho slot (Option.isSome_iff_exists.2 ⟨w, ha.warp⟩))

theorem extLeaves_of_stands {mk : Ext → Instr} {sp : Ext → Spec} {ok : Issue → Prop} {st : Issue → State}
    (hb : ∀ i, i.Stands → ok i → settle (sp i.x) i ((sp i.x).body i) = st i)
    (he : ∀ x s, exec (mk x) s = runExt sp x s := by intros; rfl) : ExtLeaves mk sp ok st := by
  intro x s c slot w g ha i hr ho
  rw [he, runExt, runSpec_settles _ _ _ _ _ _ _ _ _ ha hr]
  exact congrArg Host.Outcome.next (hb i (stands_mkIssue ha _ _ _) ho)

theorem extForm_of_when {mk : Ext → Instr} {sp : Ext → Spec} {res : Issue → Res} (h : ExtFormWhen mk sp (fun _ => True) res) :
    ExtForm mk sp res :=
  fun x s c slot w g ha hr ht => h x s c slot w g ha hr trivial ht

/-! ## MFS, MTS, CLRERR and HALT (09 R216 to R222, R235, R237) -/

theorem mfsResult_keeps (i : Issue) : Keeps i.c i.s (mfsResult i).s := by
  unfold mfsResult
  dsimp only
  split
  · exact keeps_modCore _ _ _ _ (fun _ => rfl)
  · exact Keeps.refl _ _

/-- Each register that MTS writes belongs to its warp, its group or its core. -/
theorem mtsBody_done {i : Issue} (h : mtsPlain i) : mtsBody (sysNum i.x) i = .done (mtsResult i) := by
  unfold mtsResult sysNum
  simp only [mtsPlain, List.mem_cons, List.not_mem_nil, or_false] at h
  rcases h with h | h | h | h | h | h | h | h <;> rw [h] <;> rfl

theorem mtsResult_keeps (i : Issue) : Keeps i.c i.s (mtsResult i).s := by
  unfold mtsResult
  dsimp only
  split
  case h_1 | h_2 | h_3 | h_4 => exact keeps_modWarp _ _ _ _ _
  case h_5 | h_6 | h_7 => exact keeps_modGroup _ _ _ _ _
  case h_8 => exact keeps_modCore _ _ _ _ (fun _ => rfl)

theorem haltSpec_done {i : Issue} (h : inHandler i) : (haltSpec i.x).body i = .done (haltResult i) := if_pos h

/-- Settles O15: each meaning is done with its result, which leaves every warp in its slot. -/
theorem systemRegistersComplete : Obligations.SystemRegistersComplete := by
  refine ⟨?mfs, ?mts, ?clrerr, ?halt⟩
  case mfs => exact extForm_of_when (extFormWhen_of_stands (fun _ _ _ => rfl) (fun i _ _ => mfsResult_keeps i))
  case mts => exact extFormWhen_of_stands (fun _ _ h => mtsBody_done h) (fun i _ _ => mtsResult_keeps i)
  case clrerr => exact extForm_of_when (extFormWhen_of_stands (fun _ _ _ => rfl) (fun _ _ _ => keeps_modGroup _ _ _ _ _))
  case halt => exact extFormWhen_of_stands (fun _ _ h => haltSpec_done h) (fun _ _ _ => keeps_modWarp _ _ _ _ _)

/-! ## SSCMD once the warp's store queue has drained (09 R225, Table 9) -/

/-- Spilled entries up to `hi` that end inside the scratchpad lie in it. -/
theorem spillTrap_of_fits {g : Group} {w : Warp} {hi : Nat} (lo : Nat) (h : w.spillAddr hi ≤ g.scrSize) : spillTrap g w lo hi = none := by
  have hn : ((List.range (hi - lo)).map (fun n => w.spillAddr (lo + n))).find? (fun a => decide (g.scrSize < a + 16)) = none := by
    simp only [List.find?_eq_none, List.mem_map, List.mem_range, decide_eq_true_eq, not_lt]
    rintro a ⟨n, hn, rfl⟩
    simp only [Warp.spillAddr] at h ⊢
    omega
  rw [spillTrap, hn]; rfl

section
variable {i : Issue} (hi : i.Stands)
include hi

theorem Issue.Stands.quietWarp : (quiet i).warp? i.c i.slot = some (quietWarp i) := by
  have hk : ((quiet i).warp? i.c i.slot).isSome := keeps_drain _ _ _ _ _ (Option.isSome_iff_exists.2 ⟨_, hi.warp⟩)
  obtain ⟨w, hw⟩ := Option.isSome_iff_exists.1 hk
  rw [Machine.quietWarp, hw]; rfl

theorem doSpill_done (h : spillOk i) : doSpill i = .done (spillResult i) := by
  have hw : (i.s.drain i.c i.slot).warp? i.c i.slot = some (quietWarp i) := hi.quietWarp
  obtain ⟨hk, ht⟩ := h
  simp only [spillK] at hk ht
  simp only [doSpill, hw, ht, if_neg (Nat.pos_iff_ne_zero.1 hk)]
  rfl

theorem doSpill_refused (h : spillK i = 0) : doSpill i = sscmdTrap := by
  have hw : (i.s.drain i.c i.slot).warp? i.c i.slot = some (quietWarp i) := hi.quietWarp
  simp only [doSpill, hw]
  exact if_pos h

theorem doFill_done (h : fillOk i) : doFill i = .done (fillResult i) := by
  have hw : (i.s.drain i.c i.slot).warp? i.c i.slot = some (quietWarp i) := hi.quietWarp
  obtain ⟨hk, ht, hp⟩ := h
  have hp' : (List.range (16 * fillK i)).find? (fun j => localPoison ((i.s.drain i.c i.slot).core i.c) i.g
      ((quietWarp i).spillAddr ((quietWarp i).splCount.toNat - fillK i) + j)) = none :=
    List.find?_eq_none.2 (fun j hj => Bool.eq_false_iff.1 (hp j hj))
  simp only [fillK] at hk ht hp'
  simp only [doFill, hw, ht, hp', if_neg (Nat.pos_iff_ne_zero.1 hk)]
  rfl

theorem doFill_refused (h : fillK i = 0) : doFill i = sscmdTrap := by
  have hw : (i.s.drain i.c i.slot).warp? i.c i.slot = some (quietWarp i) := hi.quietWarp
  simp only [doFill, hw]
  exact if_pos h

/-! With an empty store queue there is nothing to drain. -/

variable (hc : calm i)
include hc

theorem quiet_of_calm : quiet i = i.s := drain_empty i.s hi.warp hc

theorem quietWarp_of_calm : quietWarp i = i.w := by rw [quietWarp, quiet_of_calm hi hc, hi.warp]; rfl

theorem onWarp_of_calm (f : Warp → Warp) : onWarp i f = { i.res with s := (quiet i).setWarp i.c i.slot (f (quietWarp i)) } := by
  rw [quietWarp_of_calm hi hc, quiet_of_calm hi hc, onWarp, State.modWarp_eq _ _ hi.warp]

end

theorem doPop_done {i : Issue} (h : i.w.split ≠ []) : doPop i = .done (popResult i) := by
  obtain ⟨e, rest, hs⟩ := List.exists_cons_of_ne_nil h
  simp only [doPop, popResult, hs]
  rfl

theorem doPop_refused {i : Issue} (h : i.w.split = []) : doPop i = sscmdTrap := by simp only [doPop, h]

theorem doPush_done {i : Issue} (h : i.w.split.length < 16) : doPush i = .done (pushResult i) := if_neg (Nat.not_le.2 h)

theorem doPush_refused {i : Issue} (h : 16 ≤ i.w.split.length) : doPush i = sscmdTrap := if_pos h

/-! What they leave keeps every warp in its slot. -/

theorem quiet_keeps (i : Issue) : Keeps i.c i.s (quiet i) := keeps_drain _ _ _ _

theorem spillResult_keeps (i : Issue) : Keeps i.c i.s (spillResult i).s := (quiet_keeps i).trans (keeps_setWarp _ _ _ _ _)

theorem fillResult_keeps (i : Issue) : Keeps i.c i.s (fillResult i).s := (quiet_keeps i).trans (keeps_setWarp _ _ _ _ _)

theorem popResult_keeps (i : Issue) : Keeps i.c i.s (popResult i).s := by
  unfold popResult
  cases i.w.split with
  | nil => exact Keeps.refl _ _
  | cons e rest => exact (quiet_keeps i).trans (keeps_modWarp _ _ _ _ _)

theorem pushResult_keeps (i : Issue) : Keeps i.c i.s (pushResult i).s := (quiet_keeps i).trans (keeps_modWarp _ _ _ _ _)

/-! ## Each operation by its immediate and by an MTS of its value -/

/-- An operation of SSCMD, the value that names it in an MTS of a register, what it leaves where it may act, and where it has nothing to move. -/
structure SscmdOp (op : Issue → Eff) (v : Nat) (ok : Issue → Prop) (res : Issue → Res) (no : Issue → Prop) : Prop where
  named : ∀ i, sscmdOp i v = op i
  done : ∀ i, i.Stands → ok i → op i = .done (res i)
  keeps : ∀ i, Keeps i.c i.s (res i).s
  refused : ∀ i, i.Stands → no i → op i = sscmdTrap

theorem spill_sscmdOp : SscmdOp doSpill 1 spillOk spillResult (fun i => spillK i = 0) :=
  ⟨fun _ => rfl, fun _ => doSpill_done, spillResult_keeps, fun _ => doSpill_refused⟩

theorem fill_sscmdOp : SscmdOp doFill 2 fillOk fillResult (fun i => fillK i = 0) :=
  ⟨fun _ => rfl, fun _ => doFill_done, fillResult_keeps, fun _ => doFill_refused⟩

theorem pop_sscmdOp : SscmdOp doPop 3 (fun i => i.w.split ≠ []) popResult (fun i => i.w.split = []) :=
  ⟨fun _ => rfl, fun _ _ => doPop_done, popResult_keeps, fun _ _ => doPop_refused⟩

theorem push_sscmdOp : SscmdOp doPush 4 (fun i => i.w.split.length < 16) pushResult (fun i => 16 ≤ i.w.split.length) :=
  ⟨fun _ => rfl, fun _ _ => doPush_done, pushResult_keeps, fun _ _ => doPush_refused⟩

/-- An MTS of SSCMD does what its value names. -/
theorem mtsSpec_sscmd {i : Issue} (h : i.x.mods.toNat = 8) : (mtsSpec i.x).body i = sscmdOp i (i.a 0) := if_pos h

/-- The state in which a value of SSCMD with nothing to move is refused. -/
def sscmdRefused (i : Issue) : State := i.s.takeTrap i.c i.slot { cause := 0x05, tval := 8 } false

section
variable {op : Issue → Eff} {v : Nat} {ok : Issue → Prop} {res : Issue → Res} {no : Issue → Prop} (h : SscmdOp op v ok res no)
include h

theorem SscmdOp.completes {mk : Ext → Instr} (he : ∀ x s, exec (mk x) s = runExt (sscmdSpec op) x s := by intros; rfl) :
    ExtFormWhen mk (sscmdSpec op) ok res :=
  extFormWhen_of_stands h.done (fun i _ _ => h.keeps i) he

theorem SscmdOp.mtsCompletes : ExtFormWhen .mts mtsSpec (fun i => i.x.mods.toNat = 8 ∧ i.a 0 = v ∧ ok i) res := by
  refine extFormWhen_of_stands (fun i hi ⟨hn, hv, ho⟩ => ?_) (fun i _ _ => h.keeps i)
  rw [mtsSpec_sscmd hn, hv, h.named, h.done i hi ho]

theorem SscmdOp.traps {mk : Ext → Instr} (he : ∀ x s, exec (mk x) s = runExt (sscmdSpec op) x s := by intros; rfl) :
    ExtLeaves mk (sscmdSpec op) no sscmdRefused :=
  extLeaves_of_stands (fun i hi ho => settle_of_trap (h.refused i hi ho)) he

theorem SscmdOp.mtsTraps : ExtLeaves .mts mtsSpec (fun i => i.x.mods.toNat = 8 ∧ i.a 0 = v ∧ no i) sscmdRefused :=
  extLeaves_of_stands (fun i hi ⟨hn, hv, ho⟩ => settle_of_trap (by rw [mtsSpec_sscmd hn, hv, h.named, h.refused i hi ho]; rfl))

end

/-- A value that names no operation is refused. -/
theorem sscmdOp_unnamed {i : Issue} {v : Nat} (h : v = 0 ∨ 4 < v) : sscmdOp i v = sscmdTrap := by
  unfold sscmdOp
  split
  case h_5 => rfl
  all_goals omega

/-- Settles O16: each operation from its law; with an empty store queue its conditions are those of the warp's registers and of scratchpad. -/
theorem splitStackCommandsComplete : Obligations.SplitStackCommandsComplete := by
  refine ⟨?spill, ?fill, ?pop, ?push, spill_sscmdOp.completes, fill_sscmdOp.completes, pop_sscmdOp.completes, push_sscmdOp.completes,
    spill_sscmdOp.mtsCompletes, fill_sscmdOp.mtsCompletes, pop_sscmdOp.mtsCompletes, push_sscmdOp.mtsCompletes,
    spill_sscmdOp.traps, fill_sscmdOp.traps, spill_sscmdOp.mtsTraps, fill_sscmdOp.mtsTraps, pop_sscmdOp.mtsTraps, push_sscmdOp.mtsTraps,
    pop_sscmdOp.traps, push_sscmdOp.traps, ?unnamed⟩
  case spill =>
    refine extFormWhen_of_stands (fun i hi ⟨hc, hk, hf⟩ => ?_) (fun i _ _ => keeps_modWarp _ _ _ _ _)
    have hw := quietWarp_of_calm hi hc
    have hn : spillK i = spillN i := by rw [spillK, hw]
    have ho : spillOk i := by rw [spillOk, hn, hw]; exact ⟨hk, spillTrap_of_fits _ hf⟩
    rw [onWarp_of_calm hi hc, ← hn]
    exact doSpill_done hi ho
  case fill =>
    refine extFormWhen_of_stands (fun i hi ⟨hc, hk, hf, hp⟩ => ?_) (fun i _ _ => keeps_modWarp _ _ _ _ _)
    have hw := quietWarp_of_calm hi hc
    have hq := quiet_of_calm hi hc
    have hn : fillK i = fillN i := by rw [fillK, hw]
    have ho : fillOk i := by
      simp only [fillOk, hn, hw, hq, ← hi.core]
      exact ⟨hk, spillTrap_of_fits _ hf, fun j hj => hp j (List.mem_range.1 hj)⟩
    rw [onWarp_of_calm hi hc, ← hn, hi.core]
    refine (doFill_done hi ho).trans ?_
    rw [fillResult, hq]
  case pop =>
    intro e rest
    refine extFormWhen_of_stands (fun i hi ⟨hc, hs⟩ => ?_) (fun i _ _ => keeps_modWarp _ _ _ _ _)
    refine (doPop_done (by rw [hs]; exact List.cons_ne_nil _ _)).trans ?_
    simp only [popResult, hs, quiet_of_calm hi hc]
    rfl
  case push =>
    refine extFormWhen_of_stands (fun i hi ⟨hc, hl⟩ => ?_) (fun i _ _ => keeps_modWarp _ _ _ _ _)
    refine (doPush_done hl).trans ?_
    rw [pushResult, quiet_of_calm hi hc]
    rfl
  case unnamed =>
    exact extLeaves_of_stands (fun i _ ⟨hn, hv⟩ => settle_of_trap ((mtsSpec_sscmd hn).trans (sscmdOp_unnamed hv)))

/-! ## ERET (09 R233) -/

theorem framePoisoned_eq_false {k : Core} {g : Group} {w : Warp} (h : ∀ n, n < 256 → localPoison k g (w.tframe.toNat + 4 * n) = false) :
    framePoisoned k g w = false :=
  List.any_eq_false.2 (fun n hn => Bool.eq_false_iff.1 (h n (List.mem_range.1 hn)))

/-- A good frame, nothing to drain: the warp as the frame restores it, out of its scheduler's run. -/
theorem returnFromTrap_restores {i : Issue} (hi : i.Stands) (h : returnPlain i) :
    i.s.returnFromTrap i.c i.slot =
      (i.s.setWarp i.c i.slot { i.w.restore i.k i.g with since := i.k.cycle.toNat, due := [(.pc, i.k.cycle.toNat + 24)] }).leaveSched i.c i.slot := by
  obtain ⟨-, hc, -, hf, hp, hg⟩ := h
  have hfits : frameFits i.g i.w = true := decide_eq_true hf
  have hclean := framePoisoned_eq_false hp
  rw [hi.core] at hclean hg ⊢
  simp only [State.returnFromTrap, drain_empty i.s hi.warp hc, hi.warp, hi.group, hfits, hclean, hg, Bool.not_true, Bool.false_eq_true, if_false]
  rfl

/-- A group that is not being restored stays as it is. -/
theorem afterEret_of_not_restoring {s : State} {c gid : Nat} {g : Group} (hg : s.group? c gid = some g) (hr : g.restoring = false) :
    s.afterEret c gid = s := by
  simp only [State.afterEret, hg, hr, Bool.false_eq_true, if_false]

theorem eretSpec_final {i : Issue} (h : inHandler i) :
    (eretSpec i.x).body i = .final ((countIssue Shape.bare i (i.s.returnFromTrap i.c i.slot)).afterEret i.c i.w.gid) := if_pos h

theorem eretSpec_traps {i : Issue} (h : i.w.handler = false) : (eretSpec i.x).body i = .trap { cause := 0x01, tval := 0 } :=
  if_neg (Bool.eq_false_iff.1 h)

theorem haltSpec_traps {i : Issue} (h : i.w.handler = false) : (haltSpec i.x).body i = .trap { cause := 0x01, tval := 0 } :=
  if_neg (Bool.eq_false_iff.1 h)

/-- Settles O17: in handler state ERET's meaning is the return itself, which a good frame makes that of its warp; elsewhere it is a trap. -/
theorem eretReturns : Obligations.EretReturns := by
  have heret : ∀ i : Issue, inHandler i → settle (eretSpec i.x) i ((eretSpec i.x).body i) =
      (countIssue Shape.bare i (i.s.returnFromTrap i.c i.slot)).afterEret i.c i.w.gid := fun i h => by rw [eretSpec_final h]; rfl
  refine ⟨?good, extLeaves_of_stands (fun i _ h => heret i h), extLeaves_of_stands (fun i _ h => settle_of_trap (eretSpec_traps h)),
    extLeaves_of_stands (fun i _ h => settle_of_trap (haltSpec_traps h))⟩
  case good =>
    refine extLeaves_of_stands (fun i hi h => ?_)
    have hg : (returned i).group? i.c i.w.gid = some i.g := by
      rw [returned, countIssue_group?, State.leaveSched, State.group?_modSched, State.group?_setWarp, hi.group]
    obtain ⟨hh, -, hr, -⟩ := id h
    rw [heret i hh, returnFromTrap_restores hi h]
    exact afterEret_of_not_restoring hg hr

end Sys2Proof.Machine

/-! PROOFS. The commands of the management sideband (18 R445, R446): O60. -/

namespace Sys2Proof.Machine

/-! ## How a command is refused and starts (18 R445) -/

theorem bootFailed_iff (s : State) : s.bootFailed = true ↔ s.pkg.bootState ∈ [2, 5, 6] := by
  simp [State.bootFailed, or_assoc]

theorem runCommand_of_open {s : State} {link : Nat} (ho : s.linkOpen link = true) (hb : s.pkg.bootState ∉ [2, 5, 6]) (f : State → State × Bool) :
    s.runCommand link f = s.told (f s) := by
  have hf : s.bootFailed = false := Bool.eq_false_iff.2 (mt (bootFailed_iff s).1 hb)
  simp only [State.runCommand, ho, hf, Bool.not_false, Bool.and_self, if_true]

theorem runCommand_refused {s : State} {link : Nat} (h : s.linkOpen link = false ∨ s.pkg.bootState ∈ [2, 5, 6]) (f : State → State × Bool) :
    s.runCommand link f = s.refuse := by
  refine if_neg (fun hc => ?_)
  obtain ⟨ho, hf⟩ := Bool.and_eq_true_iff.1 hc
  rcases h with h | h
  · exact Bool.false_ne_true (h.symm.trans ho)
  · rw [(bootFailed_iff s).2 h] at hf
    exact Bool.false_ne_true hf

/-- A command's named arguments, as its link's registers hold them. -/
abbrev State.sbArgs (s : State) (link : Nat) : List Nat := (s.sbOf link).args.map BitVec.toNat

/-- Row `e` is the command of code `code` of a link: with arguments in the ranges `named`, it has effect `f`. -/
def IsCommand (e : Instr) (link code : Nat) (named : List (Nat → Bool)) (f : List Nat → State → CmdEffect) : Prop :=
  ∀ s, exec e s = .next (s.runCommand link (fun s => s.command link code named f))

section
variable {e : Instr} {s : State} {link code : Nat} {named : List (Nat → Bool)} {f : List Nat → State → CmdEffect}
  (he : IsCommand e link code named f)
include he

theorem IsCommand.refused (h : s.linkOpen link = false ∨ s.pkg.bootState ∈ [2, 5, 6] ∨ (s.sbOf link).busy = true) :
    exec e s = .next s.refuse := by
  rw [he]
  by_cases hc : s.linkOpen link = false ∨ s.pkg.bootState ∈ [2, 5, 6]
  · rw [runCommand_refused hc]
  · obtain ⟨ho, hb⟩ := not_or.1 hc
    have hbusy : (s.sbOf link).busy = true := (h.resolve_left ho).resolve_left hb
    have hf : s.command link code named f = (s, false) := if_pos hbusy
    rw [runCommand_of_open (Bool.not_eq_false _ ▸ ho) hb, hf]
    rfl

theorem IsCommand.started_of_idle (ho : s.linkOpen link = true) (hb : s.pkg.bootState ∉ [2, 5, 6]) (hi : (s.sbOf link).busy = false)
    {t : State} {st : Nat} {ws : List (Nat × Nat)} (hf : (if argsOk named (s.sbArgs link) then f (s.sbArgs link) s else (s, 0xFFFFFFFF, [])) = (t, st, ws)) :
    exec e s = started t link code st ws := by
  rw [he, runCommand_of_open ho hb, State.command, if_neg (Bool.eq_false_iff.1 hi)]
  dsimp only
  rw [hf]
  rfl

theorem IsCommand.bad_args (ho : s.linkOpen link = true) (hb : s.pkg.bootState ∉ [2, 5, 6]) (hi : (s.sbOf link).busy = false)
    (ha : argsOk named (s.sbArgs link) = false) : exec e s = started s link code 0xFFFFFFFF [] :=
  he.started_of_idle ho hb hi (if_neg (Bool.eq_false_iff.1 ha))

theorem IsCommand.starts (h : CommandRuns s link named) {t : State} {st : Nat} {ws : List (Nat × Nat)} (hf : f (s.sbArgs link) s = (t, st, ws)) :
    exec e s = started t link code st ws :=
  he.started_of_idle h.isOpen h.boot h.idle ((if_pos h.args).trans hf)

end

/-! ## What single commands look at -/

theorem retireStatus_ok {s : State} {a : Nat} (h : (s.asid a).state = 1) (hu : s.asidInUse a = false) : s.retireStatus none a = 0 := by
  simp [State.retireStatus, h, hu]

theorem retireStatus_not_live {s : State} {a : Nat} (h : (s.asid a).state ≠ 1) : s.retireStatus none a = 1 := if_pos h

theorem retireStatus_in_use {s : State} {a : Nat} (h : (s.asid a).state = 1) (hu : s.asidInUse a = true) : s.retireStatus none a = 2 := by
  simp [State.retireStatus, h, hu]

section
variable {s : State} {c e x n : Nat}

section
variable (hp : ((s.core c).ctx e x).phase = .awaiting) (hn : ((s.core c).ctx e x).batch % 2 ^ 64 = n)
include hp hn

theorem verdict_batch : (((s.core c).ctx e x).phase != .awaiting || ((s.core c).ctx e x).batch % 2 ^ 64 != n) = false := by
  simp only [hp, hn, bne_self_eq_false, Bool.or_self]

theorem verdict_resumes : s.verdict c e x n none = (s.modCtx c e x (fun k => { k with phase := .running }), true) :=
  if_neg (Bool.eq_false_iff.1 (verdict_batch hp hn))

theorem verdict_fails {j : Job} (st : Nat) (hj : s.job c e x = some j) :
    s.verdict c e x n (some st) =
      (s.modCtx c e x (fun k => { k with phase := .failed st (j.cleared s) (BitVec.ofNat 64 k.stop) 0 }), true) := by
  refine (if_neg (Bool.eq_false_iff.1 (verdict_batch hp hn))).trans ?_
  simp only [hj]

end

theorem verdict_no_batch {f : Option Nat} (h : ((s.core c).ctx e x).phase ≠ .awaiting ∨ ((s.core c).ctx e x).batch % 2 ^ 64 ≠ n) :
    s.verdict c e x n f = (s, false) := by
  refine if_pos ?_
  simpa using h

end

/-- Settles O60: each row is a command of its link; its clauses give what its effect is in each case. -/
theorem sidebandCommandsComplete : Obligations.SidebandCommandsComplete := by
  refine ⟨?all, ?bind, ?reroot, ?one, ?verdict, ?release, ?restore, ?preempt, ?stream, ?scope, ?name, ?attest, ?core, ?finish, ?goesOn⟩
  case all =>
    intro s link k e code named hm
    have he : ∃ f, IsCommand e link code named f := by
      simp only [List.mem_cons, Prod.mk.injEq, List.not_mem_nil, or_false] at hm
      rcases hm with ⟨rfl, rfl, rfl⟩ | ⟨rfl, rfl, rfl⟩ | ⟨rfl, rfl, rfl⟩ | ⟨rfl, rfl, rfl⟩ | ⟨rfl, rfl, rfl⟩ | ⟨rfl, rfl, rfl⟩ | ⟨rfl, rfl, rfl⟩ |
        ⟨rfl, rfl, rfl⟩ | ⟨rfl, rfl, rfl⟩ | ⟨rfl, rfl, rfl⟩ | ⟨rfl, rfl, rfl⟩ | ⟨rfl, rfl, rfl⟩ | ⟨rfl, rfl, rfl⟩ | ⟨rfl, rfl, rfl⟩ <;>
        exact ⟨_, fun _ => rfl⟩
    obtain ⟨f, he⟩ := he
    exact ⟨he.refused, he.bad_args⟩
  case bind =>
    exact fun s link hc => ⟨fun h => IsCommand.starts (fun _ => rfl) hc (if_pos h), fun h => IsCommand.starts (fun _ => rfl) hc (if_neg h)⟩
  case reroot =>
    exact fun s link hc => ⟨fun h => IsCommand.starts (fun _ => rfl) hc (if_pos h), fun h => IsCommand.starts (fun _ => rfl) hc (if_neg h)⟩
  case one =>
    intro s link hc n
    have hretire : ∀ st, s.retireStatus none n = st → exec (.asidRetire link) s = started (if st = 0 then s.beginRetire n else s) link 0x04 st [] :=
      fun st hst => IsCommand.starts (fun _ => rfl) hc (by rw [← hst])
    exact ⟨IsCommand.starts (fun _ => rfl) hc rfl, fun h hu => hretire 0 (retireStatus_ok h hu), fun h => hretire 1 (retireStatus_not_live h),
      fun h hu => hretire 2 (retireStatus_in_use h hu), IsCommand.starts (fun _ => rfl) hc rfl⟩
  case verdict =>
    intro s link hc c e x k
    have hv : ∀ t b, s.verdict c e x (sbArg s link 3) (if sbArg s link 4 = 0 then none else some (if sbArg s link 4 = 1 then 0x10 else 0x11)) = (t, b) →
        exec (.faultVerdict link) s = started t link 0x05 (if b then 0 else 1) [] :=
      fun t b hr => IsCommand.starts (fun _ => rfl) hc (congrArg (fun r : State × Bool => (r.1, if r.2 then 0 else 1, [])) hr)
    refine ⟨fun hp hn h0 => hv _ true ?_, fun j hp hn h0 hj => hv _ true ?_, fun h => hv _ false (verdict_no_batch h)⟩
    · rw [if_pos h0]
      exact verdict_resumes hp hn
    · rw [if_neg h0]
      exact verdict_fails hp hn _ hj
  case release =>
    intro s link hc c names
    refine ⟨fun p hp => IsCommand.starts (fun _ => rfl) hc ?_, fun hp => IsCommand.starts (fun _ => rfl) hc ?_⟩
    · simp only [c, names] at hp
      simp only [hp, c]
    · simp only [c, names] at hp
      simp only [hp]
  case restore => exact fun s link hc => IsCommand.starts (fun _ => rfl) hc rfl
  case preempt => exact fun s link hc => IsCommand.starts (fun _ => rfl) hc rfl
  case stream => exact fun s link hc => IsCommand.starts (fun _ => rfl) hc rfl
  case scope =>
    intro s link hc bs dws hlo hhi hp hl hi
    refine IsCommand.starts (fun _ => rfl) hc (if_neg ?_)
    rintro (h | h | h | h | ⟨h, hn⟩)
    · exact Nat.not_lt.2 hlo h
    · exact Nat.not_lt.2 hhi h
    · exact h hl
    · exact Bool.false_ne_true (hp.symm.trans h)
    · rw [hi h] at hn
      exact Bool.false_ne_true hn
  case name =>
    intro s link hc c n
    refine ⟨fun h => IsCommand.starts (fun _ => rfl) hc (if_pos h), fun h h0 => ?_, fun h h0 => ⟨fun t ht => ?_, fun ht => ?_⟩⟩
    · exact IsCommand.starts (fun _ => rfl) hc ((if_neg (Bool.eq_false_iff.1 h)).trans (if_pos h0))
    · refine IsCommand.starts (fun _ => rfl) hc ((if_neg (Bool.eq_false_iff.1 h)).trans ((if_neg h0).trans ?_))
      simp only [c, n] at ht
      simp only [ht]
    · refine IsCommand.starts (fun _ => rfl) hc ((if_neg (Bool.eq_false_iff.1 h)).trans ((if_neg h0).trans ?_))
      simp only [c, n] at ht
      simp only [ht]
  case attest => exact fun s link k hc => IsCommand.starts (fun _ => rfl) hc rfl
  case core =>
    exact fun s link hc => ⟨fun h => IsCommand.starts (fun _ => rfl) hc (if_pos h),
      fun h => IsCommand.starts (fun _ => rfl) hc (if_neg (Bool.eq_false_iff.1 h))⟩
  case finish =>
    intro s link hb ho
    show execSidebandCommandFinish link s = _
    simp only [execSidebandCommandFinish, hb, ho, Bool.and_self, if_true]
  case goesOn =>
    intro s link hb ho
    show execSidebandCommandFinish link s = _
    simp only [execSidebandCommandFinish, hb, ho, Bool.and_false, Bool.false_eq_true, if_false]

end Sys2Proof.Machine

/-! PROOFS. The sideband's registers (18 R443, R444; 10 R253; 14 R339; 16 R404, R405), for O59. -/

namespace Sys2Proof.Machine

/-! ## Transactions and their addresses (18 R443) -/

theorem told_true (s t : State) : s.told (t, true) = { t with out := Out.reset } := rfl

theorem told_false (s t : State) : s.told (t, false) = s.refuse := rfl

theorem sbAddr_toNat {block i o : Nat} (hb : block < 256) (hi : i < 256) (ho : o < 2 ^ 32) :
    (sbAddr block i o).toNat = block * 2 ^ 40 + i * 2 ^ 32 + o := by
  rw [BitVec.toNat_ofNat]
  omega

/-- The fields of an address name the block, the unit and the offset. -/
theorem sbAddr_fields {block i o : Nat} (hb : block < 256) (hi : i < 256) (ho : o < 2 ^ 32) :
    let a := (sbAddr block i o).toNat
    a % 2 ^ 32 = o ∧ bitsOf a 39 32 = i ∧ bitsOf a 47 40 = block ∧ ¬(2 ^ 48 ≤ a) := by
  simp only [sbAddr_toNat hb hi ho, bitsOf]
  refine ⟨?_, ?_, ?_, ?_⟩ <;> omega

/-- A register other than those of boot and reset, at offset `o` of unit `i` of a block. -/
structure IsRegister (block i o : Nat) : Prop where
  block_lt : block < 256
  unit_lt : i < 256
  offset_lt : o < 2 ^ 32
  plain : ¬(block = 0 ∧ i = 0 ∧ (o = 0x18 ∨ o = 0x20 ∨ o = 0x28))

section
variable {s : State} {block i o : Nat} (hr : IsRegister block i o)
include hr

/-- A link that carries the sideband performs the writes of such a register. -/
theorem registerWrite_told {l : Nat} (ho : s.linkOpen l = true) (hb : s.pkg.bootState ∉ [2, 5, 6]) (v : DWord) :
    exec (.sidebandRegisterWrite l (sbAddr block i o) v) s = .next (s.told (s.sbWrite (sbAddr block i o).toNat v.toNat)) := by
  have hf : s.bootFailed = false := Bool.eq_false_iff.2 (mt (bootFailed_iff s).1 hb)
  have hn : ¬((sbAddr block i o).toNat = 0x18 ∨ (sbAddr block i o).toNat = 0x20 ∨ (sbAddr block i o).toNat = 0x28) := by
    obtain ⟨h1, h2, h3, h4⟩ := hr
    rw [sbAddr_toNat h1 h2 h3]
    omega
  show execSidebandRegisterWrite l (sbAddr block i o) v s = _
  simp only [execSidebandRegisterWrite, ho, hf, if_neg hn, Bool.not_true, Bool.false_eq_true, if_false]

end

/-! ### Each block of registers -/

section
variable (s : State) {i o : Nat} (h8 : o % 8 = 0) (ho : o < 2 ^ 32) (v : Nat)
include h8 ho

theorem sbWrite_package : s.sbWrite (sbAddr 0 0 o).toNat v = s.packageWrite o v := by
  obtain ⟨hm, hi, hb, hl⟩ := sbAddr_fields (block := 0) (i := 0) (by omega) (by omega) ho
  simp only [State.sbWrite, hm, hi, hb, hl, h8, ne_eq, not_true_eq_false, or_self, if_false, if_true]

theorem sbWrite_link (hi : i < 2) : s.sbWrite (sbAddr 1 i o).toNat v = s.linkWrite i o v := by
  obtain ⟨hm, hi', hb, hl⟩ := sbAddr_fields (block := 1) (i := i) (by omega) (by omega) ho
  simp only [State.sbWrite, hm, hi', hb, hl, h8, hi, ne_eq, not_true_eq_false, or_self, if_false, if_true]

theorem sbWrite_die (hi : i < 4) : s.sbWrite (sbAddr 2 i o).toNat v = s.dieWrite i o v := by
  obtain ⟨hm, hi', hb, hl⟩ := sbAddr_fields (block := 2) (i := i) (by omega) (by omega) ho
  simp only [State.sbWrite, hm, hi', hb, hl, h8, hi, ne_eq, not_true_eq_false, or_self, if_false, if_true]

theorem sbWrite_core (hi : i < 192) : s.sbWrite (sbAddr 3 i o).toNat v = s.coreWrite i o v := by
  obtain ⟨hm, hi', hb, hl⟩ := sbAddr_fields (block := 3) (i := i) (by omega) (by omega) ho
  simp only [State.sbWrite, hm, hi', hb, hl, h8, show i < Config.numCores from hi, ne_eq, not_true_eq_false, or_self, if_false, if_true]

theorem sbWrite_queue (hq : o < 2 ^ 23) : s.sbWrite (sbAddr 4 0 o).toNat v =
    (if o % 16 = 0 then s.writeLqd0 (o / 128) (o % 128 / 16) v
      else s.putQueue (o / 128) (o % 128 / 16) ((s.queueOf (o / 128) (o % 128 / 16)).write1 v), true) := by
  obtain ⟨hm, hi, hb, hl⟩ := sbAddr_fields (block := 4) (i := 0) (by omega) (by omega) ho
  simp only [State.sbWrite, hm, hi, hb, hl, h8, hq, ne_eq, not_true_eq_false, or_self, true_and, if_false, if_true]

end

theorem packageWrite_unlisted (s : State) {o : Nat} (h : 0x18000 ≤ o) (v : Nat) : s.packageWrite o v = (s, false) := by
  unfold State.packageWrite
  rw [if_neg (by omega), if_neg (by omega), if_neg (by omega), if_neg (by omega)]

/-- An address that lists no register is refused. -/
theorem sbWrite_unlisted (s : State) {block i o : Nat} (hb : block < 256) (hi : i < 256) (ho : o < 2 ^ 32)
    (h : o % 8 ≠ 0 ∨ 5 ≤ block ∨ (block = 0 ∧ 0x18000 ≤ o)) (v : Nat) : s.sbWrite (sbAddr block i o).toNat v = (s, false) := by
  obtain ⟨hm, hi', hb', hl⟩ := sbAddr_fields hb hi ho
  unfold State.sbWrite
  simp only [hm, hi', hb', hl]
  by_cases h8 : o % 8 = 0
  · rw [if_neg (by simp [h8])]
    rcases h.resolve_left (not_not.2 h8) with h5 | ⟨rfl, h0⟩
    · split
      case h_6 => rfl
      all_goals omega
    · show (if i = 0 then s.packageWrite o v else (s, false)) = (s, false)
      rw [packageWrite_unlisted s h0, ite_self]
  · exact if_pos (Or.inr h8)

/-! ## The fields that writes store -/

theorem bitsOf_toNat (v : DWord) (hi lo n : Nat) (h : hi + 1 - lo = n) : bitsOf v.toNat hi lo = (v.extractLsb' lo n).toNat := by
  simp only [bitsOf, h, BitVec.extractLsb'_toNat, Nat.shiftRight_eq_div_pow]

theorem bitsOf_eq_zero (v : DWord) (n : Nat) : (bitsOf v.toNat n n == 0) = !(v.getLsbD n) := by
  have hlt : bitsOf v.toNat n n < 2 := by
    rw [bitsOf, show n + 1 - n = 1 by omega]
    exact Nat.mod_lt _ (by decide)
  rw [← decide_bitsOf_eq_one]
  by_cases h : bitsOf v.toNat n n = 1
  · simp [h]
  · have h0 : bitsOf v.toNat n n = 0 := by omega
    simp [h0]

theorem mod_two_beq (v : DWord) : (v.toNat % 2 == 1) = v.getLsbD 0 := by
  rw [← BitVec.testBit_toNat, Nat.testBit_zero]
  rfl

theorem bitsOf_scaled (v lo : Nat) (d : Nat) (hd : 2 ^ lo = d) (h : lo ≤ 52) : bitsOf v 51 lo * d = v % 2 ^ 52 / d * d := by
  have hp : (2 : Nat) ^ 52 = 2 ^ lo * 2 ^ (52 - lo) := by rw [← pow_add, Nat.add_sub_cancel' h]
  subst hd
  rw [hp, Nat.mod_mul_right_div_self]
  rfl

theorem storedPort_eq (v : DWord) (lo : Nat) : storedPort (bitsOf v.toNat (lo + 4) lo) = portStored (v.extractLsb' lo 5) := by
  rw [bitsOf_toNat v (lo + 4) lo 5 (by omega)]
  have h18 : (18 : BitVec 5).toNat = 18 := rfl
  simp only [storedPort, portStored, BitVec.lt_def, h18]
  split_ifs <;> omega

theorem route_write_eq (v : DWord) : (fun r : Route => r.write v.toNat) = (fun r => { r with
    primary := portStored (v.extractLsb' 0 5), second := portStored (v.extractLsb' 8 5), pf := r.pf && !(v.getLsbD 15), sf := r.sf && !(v.getLsbD 14) }) := by
  funext r
  simp only [Route.write, storedPort_eq v 0, storedPort_eq v 8, bitsOf_eq_zero]

theorem ftimeout_eq (v : DWord) : BitVec.ofNat 32 (min 1000000000 (max 10000 (v.toNat % 2 ^ 32))) =
    (let n := v.setWidth 32; if n < 10000 then 10000 else if 1000000000 < n then 1000000000 else n) := by
  have hlo : (10000 : BitVec 32).toNat = 10000 := rfl
  have hhi : (1000000000 : BitVec 32).toNat = 1000000000 := rfl
  apply BitVec.eq_of_toNat_eq
  simp only [BitVec.lt_def, BitVec.toNat_setWidth, BitVec.toNat_ofNat, hlo, hhi]
  split_ifs with h1 h2
  · omega
  · omega
  · rw [BitVec.toNat_setWidth]
    omega

theorem ringSize_eq (v : DWord) {hi : Nat} (h : 4 ≤ hi) : ringSize v.toNat hi = sizeStored v hi := by
  have hn : bitsOf v.toNat 4 0 = v.toNat % 32 := by simp [bitsOf]
  simp only [ringSize, sizeStored, hn]
  split_ifs <;> omega

/-- A write of LQD0 is the queue's. -/
theorem writeLqd0_eq (s : State) (a q v : Nat) : s.writeLqd0 a q v = s.putQueue a q ((s.queueOf a q).write0 ((s.asid a).ret == 0) v) := rfl

/-! ## What each write does -/

/-- A row that names no link is performed while the sideband is up. -/
theorem exec_of_transact {s : State} {e : Instr} {f : State → State × Bool} (hup : sbUp s) (he : exec e s = .next (s.transact f)) :
    exec e s = .next (s.told (f s)) := by
  rw [he, transact_of_sbUp hup]

section
variable {s : State} {l : Nat} (ho : s.linkOpen l = true) (hb : s.pkg.bootState ∉ [2, 5, 6])
include ho hb

theorem registerWrite_done {block i o : Nat} (hr : IsRegister block i o) {v : DWord} {t : State}
    (h : s.sbWrite (sbAddr block i o).toNat v.toNat = (t, true)) : exec (.sidebandRegisterWrite l (sbAddr block i o) v) s = done t := by
  rw [registerWrite_told hr ho hb, h, told_true]

theorem registerWrite_refused {block i o : Nat} (hr : IsRegister block i o) {v : DWord} {t : State}
    (h : s.sbWrite (sbAddr block i o).toNat v.toNat = (t, false)) : exec (.sidebandRegisterWrite l (sbAddr block i o) v) s = .next s.refuse := by
  rw [registerWrite_told hr ho hb, h, told_false]

section
variable {o : Nat} {v : DWord} {t : State} (h8 : o % 8 = 0)
include h8

theorem packageWrite_done (hlt : o < 2 ^ 32) (hp : o ≠ 0x18 ∧ o ≠ 0x20 ∧ o ≠ 0x28) (h : s.packageWrite o v.toNat = (t, true)) :
    exec (.sidebandRegisterWrite l (sbAddr 0 0 o) v) s = done t :=
  registerWrite_done ho hb ⟨by decide, by decide, hlt, by omega⟩ ((sbWrite_package s h8 hlt _).trans h)

theorem dieWrite_done {d : Nat} (hd : d < 4) (hlt : o < 2 ^ 32) (h : s.dieWrite d o v.toNat = (t, true)) :
    exec (.sidebandRegisterWrite l (sbAddr 2 d o) v) s = done t :=
  registerWrite_done ho hb ⟨by decide, by omega, hlt, by omega⟩ ((sbWrite_die s h8 hlt _ hd).trans h)

theorem coreWrite_done {c : Nat} (hc : c < 192) (hlt : o < 2 ^ 32) (h : s.coreWrite c o v.toNat = (t, true)) :
    exec (.sidebandRegisterWrite l (sbAddr 3 c o) v) s = done t :=
  registerWrite_done ho hb ⟨by decide, by omega, hlt, by omega⟩ ((sbWrite_core s h8 hlt _ hc).trans h)

theorem queueWrite_done (hq : o < 2 ^ 23) (h : (if o % 16 = 0 then s.writeLqd0 (o / 128) (o % 128 / 16) v.toNat
      else s.putQueue (o / 128) (o % 128 / 16) ((s.queueOf (o / 128) (o % 128 / 16)).write1 v.toNat)) = t) :
    exec (.sidebandRegisterWrite l (sbAddr 4 0 o) v) s = done t :=
  registerWrite_done ho hb ⟨by decide, by decide, by omega, by omega⟩ ((sbWrite_queue s h8 (by omega) _ hq).trans (by rw [h]))

end

/-- A write of SBCMD is that of the command's row. -/
theorem sbcmdWrite_eq (hl : l < 2) {e : Instr} {code : Nat} (hc : code < 2 ^ 64) (he : exec e s = .next (s.told (s.writeSbcmd l code))) :
    exec (.sidebandRegisterWrite l (sbAddr 1 l 0) (BitVec.ofNat 64 code)) s = exec e s := by
  rw [registerWrite_told ⟨by decide, by omega, by decide, by omega⟩ ho hb, sbWrite_link s (by decide) (by decide) _ hl, he,
    BitVec.toNat_ofNat, Nat.mod_eq_of_lt hc]
  rfl

/-- What writes over a link that carries the sideband do to each register. -/
theorem registerWrites_of_open : RegisterWrites s l where
  devid v := packageWrite_done ho hb (by decide) (by decide) (by decide) (by rw [← BitVec.ofNat_toNat]; rfl)
  ftimeout v := packageWrite_done ho hb (by decide) (by decide) (by decide) (by rw [← ftimeout_eq]; rfl)
  islop i v hi := packageWrite_done ho hb (by omega) (by omega) (by omega) (by
    unfold State.packageWrite
    rw [if_neg (by omega), if_neg (by omega), if_pos (by omega), show (0x100 + 8 * i - 0x100) / 8 = i by omega]
    rfl)
  route n v hn := packageWrite_done ho hb (by omega) (by omega) (by omega) (by
    unfold State.packageWrite
    rw [if_neg (by omega), if_neg (by omega), if_neg (by omega), if_pos (by omega), show (0x10000 + 8 * n - 0x10000) / 8 = n by omega, route_write_eq])
  argument i n v hi hn := by
    have hr : IsRegister 1 i (8 + 8 * n) := ⟨by decide, by omega, by omega, by omega⟩
    have hw := sbWrite_link s (o := 8 + 8 * n) (by omega) (by omega) v.toNat hi
    unfold State.linkWrite at hw
    rw [if_neg (by omega), show (8 + 8 * n - 8) / 8 = n by omega, BitVec.ofNat_toNat, BitVec.setWidth_eq] at hw
    refine ⟨fun hbusy => registerWrite_done ho hb hr ?_, fun hbusy => registerWrite_refused ho hb hr (t := s) ?_⟩
    · rw [hw, if_pos ⟨by omega, by omega, by simp [hbusy]⟩]
    · rw [hw, if_neg (by simp [hbusy])]
  eventRing d v hd :=
    ⟨dieWrite_done ho hb (by decide) hd (by decide) (by rw [← bitsOf_scaled v.toNat 5 32 rfl (by decide)]; rfl),
      dieWrite_done ho hb (by decide) hd (by decide) (by rw [← BitVec.ofNat_toNat]; rfl),
      dieWrite_done ho hb (by decide) hd (by decide) (by rw [← ringSize_eq v (by decide)]; rfl)⟩
  faultRing d v hd :=
    ⟨dieWrite_done ho hb (by decide) hd (by decide) (by rw [← bitsOf_scaled v.toNat 6 64 rfl (by decide)]; rfl),
      dieWrite_done ho hb (by decide) hd (by decide) (by rw [← BitVec.ofNat_toNat]; rfl),
      dieWrite_done ho hb (by decide) hd (by decide) (by rw [← ringSize_eq v (by decide)]; rfl)⟩
  core c v hc := by
    refine ⟨coreWrite_done ho hb (by decide) hc (by decide) ?_, coreWrite_done ho hb (by decide) hc (by decide) rfl,
      fun n hn => coreWrite_done ho hb (by omega) hc (by omega) ?_⟩
    · rw [← ofNat_bitsOf v 31 16 16 rfl, ← mod_two_beq]
      rfl
    · rw [← bitsOf_scaled v.toNat 2 4 rfl (by decide)]
      unfold State.coreWrite
      dsimp only
      rw [if_neg (by omega), if_neg (by omega), if_neg (by omega), if_pos (by omega), show (0x30 + 8 * n - 0x30) / 8 = n by omega]
  queue a q v ha hq := by
    refine ⟨queueWrite_done ho hb (by omega) (by omega) ?_, queueWrite_done ho hb (by omega) (by omega) ?_⟩
    · rw [if_pos (by omega), show (128 * a + 16 * q) / 128 = a by omega, show (128 * a + 16 * q) % 128 / 16 = q by omega, writeLqd0_eq]
    · rw [if_neg (by omega), show (128 * a + 16 * q + 8) / 128 = a by omega, show (128 * a + 16 * q + 8) % 128 / 16 = q by omega]
  command hl e code hm := by
    simp only [List.mem_cons, Prod.mk.injEq, List.not_mem_nil, or_false] at hm
    rcases hm with ⟨rfl, rfl⟩ | ⟨rfl, rfl⟩ | ⟨rfl, rfl⟩ | ⟨rfl, rfl⟩ | ⟨rfl, rfl⟩ | ⟨rfl, rfl⟩ | ⟨rfl, rfl⟩ | ⟨rfl, rfl⟩ | ⟨rfl, rfl⟩ |
      ⟨rfl, rfl⟩ | ⟨rfl, rfl⟩ | ⟨rfl, rfl⟩ | ⟨rfl, rfl⟩ | ⟨rfl, rfl⟩ <;>
      exact sbcmdWrite_eq ho hb hl (by decide) (congrArg Host.Outcome.next (runCommand_of_open ho hb _))
  rows hl := by
    have hup : sbUp s := ⟨by rcases Nat.le_one_iff_eq_zero_or_eq_one.1 (Nat.le_of_lt_succ hl) with rfl | rfl <;> simp [ho], hb⟩
    refine ⟨fun c v hc => ?_, fun d v hd => ⟨?_, ?_⟩⟩
    · rw [registerWrite_told ⟨by decide, by omega, by decide, by omega⟩ ho hb, sbWrite_core s (by decide) (by decide) _ hc, exec_of_transact hup rfl]
      rfl
    · rw [registerWrite_told ⟨by decide, by omega, by decide, by omega⟩ ho hb, sbWrite_die s (by decide) (by decide) _ hd, exec_of_transact hup rfl]
      rfl
    · rw [registerWrite_told ⟨by decide, by omega, by decide, by omega⟩ ho hb, sbWrite_die s (by decide) (by decide) _ hd, exec_of_transact hup rfl]
      rfl
  unlisted block i o v hblock hi ho' h :=
    registerWrite_refused ho hb ⟨hblock, hi, ho', by omega⟩ (sbWrite_unlisted s hblock hi ho' h _)

end

end Sys2Proof.Machine

/-! PROOFS. Resets, boot, links, thermal actions and the test port (18 R433, R434, R439 to R442): O59. -/

namespace Sys2Proof.Machine

/-! ## Rows that name no link (18 R439, log 22) -/

theorem anyOpen_of_linkOpen {s : State} (h : s.linkOpen 0 = true ∨ s.linkOpen 1 = true) : s.anyOpen = true := by
  rcases h with h | h <;> simp [State.anyOpen, h]

theorem carries_iff_sbUp (s : State) : (s.anyOpen && !s.bootFailed) = true ↔ sbUp s := by
  have hb := bootFailed_iff s
  rw [Bool.and_eq_true, Bool.not_eq_true', ← Bool.not_eq_true, hb, State.anyOpen, Bool.or_eq_true]

theorem exec_done {s t : State} {e : Instr} {f : State → State × Bool} (hup : sbUp s) (he : exec e s = .next (s.transact f)) (hf : f s = (t, true)) :
    exec e s = done t := by
  rw [exec_of_transact hup he, hf, told_true]

theorem noAsid_of_all {s : State} (h : ∀ x ∈ s.pkg.asids, x.2.state = 0) : s.noAsid = true :=
  List.all_eq_true.2 (fun x hx => beq_iff_eq.2 (h x hx))

theorem writeDiemem_eq {s : State} (h : s.noAsid = true) (d : Nat) (v : DWord) : s.writeDiemem d v.toNat = s.modDie d (fun k => { k with
    scrubh := v.extractLsb' 32 8, stagew := min 4 (v.extractLsb' 8 3).toNat, guestw := min 8 (v.extractLsb' 4 4).toNat }) := by
  rw [State.writeDiemem, if_pos h, ofNat_bitsOf v 39 32 8 rfl, bitsOf_toNat v 10 8 3 rfl, bitsOf_toNat v 7 4 4 rfl]

theorem writeBwtab_performed (s : State) (d : Nat) {v : Nat} (h : (bwWeights v).sum ≤ 256) :
    s.writeBwtab d v = (s.modDie d (fun k => { k with weights := bwWeights v }), true) :=
  if_pos (decide_eq_true h)

theorem writeBwtab_refused (s : State) (d : Nat) {v : Nat} (h : 256 < (bwWeights v).sum) : s.writeBwtab d v = (s, false) :=
  if_neg (by simpa [weightsOk] using h)

/-! ## Links (18 R439) -/

theorem linkStateChange_stays {s : State} {l : Nat} {d : LinkState} (h : linkMoves (Tab.getD s.pkg.links l .down) d = false ∨ (d = .up ∧ s.pkg.bootState ≠ 4)) :
    exec (.linkStateChange l d) s = .next s := by
  refine if_pos ?_
  rcases h with h | ⟨rfl, h⟩
  · simp [h]
  · simp [h]

/-- The package after a link has turned to `d`: the end of the last UP link starts an absence. -/
def Package.turned (p : Package) (l : Nat) (d : LinkState) (now : Nat) : Package :=
  let q := { p with links := Tab.set p.links l d, coldHeld := false, tap := { p.tap with driven := false } }
  if p.links.any (fun l => l.2 == .up) && !(q.links.any (fun l => l.2 == .up)) then { q with linksLost := now } else q

theorem Package.turned_fields (p : Package) (l : Nat) (d : LinkState) (now : Nat) :
    (p.turned l d now).links = Tab.set p.links l d ∧ (p.turned l d now).coldHeld = false ∧ (p.turned l d now).tap.driven = false := by
  unfold Package.turned
  dsimp only
  split
  · exact ⟨rfl, rfl, rfl⟩
  · exact ⟨rfl, rfl, rfl⟩

theorem linkStateChange_turns {s : State} {l : Nat} {d : LinkState} (hm : linkMoves (Tab.getD s.pkg.links l .down) d = true) (hd : d ≠ .up ∨ s.pkg.bootState = 4) :
    exec (.linkStateChange l d) s = .next (s.modPkg (fun p => p.turned l d s.ucycle.toNat)) := by
  refine if_neg ?_
  rcases hd with hd | hd <;> simp [hm, hd]

/-! ## Thermal actions (18 R441) -/

/-- An event record changes of the package the source's number and HBM4 only. -/
theorem State.event_pkg (s : State) (d src k a cid idg d0 d1 : Nat) :
    ∃ q b p, (s.event d src k a cid idg d0 d1).pkg = { s.pkg with seqs := q, hbm := b, hbmPoison := p } := by
  unfold State.event
  dsimp only
  split
  · exact ⟨_, _, _, rfl⟩
  · exact ⟨_, _, _, rfl⟩

/-- What thermal actions act on. -/
structure Package.ThermalEq (p q : Package) : Prop where
  islands : q.islands = p.islands
  hstacks : q.hstacks = p.hstacks
  tripped : q.tripped = p.tripped

/-- An action leaves what it does to the package, its watch and its event apart. -/
theorem State.thermalAct_thermal (s : State) (n code : Nat) (t : BitVec 16) (f : Package → Package) : (f s.pkg).ThermalEq (s.thermalAct n code t f).pkg := by
  obtain ⟨q, b, p, h⟩ := State.event_pkg (s.modPkg (fun p => (f p).watch s.ucycle.toNat true n)) (sensorDie n) (dieSource (sensorDie n) 0x20) 0x06 0 0xFF 0
    (code * 256 + n) (t.signExtend 64).toNat
  have hpkg : (s.thermalAct n code t f).pkg = _ := h
  rw [hpkg]
  exact ⟨rfl, rfl, rfl⟩

theorem crosses_degrees {old new : BitVec 16} {deg : Nat} : (old.toInt < degrees deg ∧ degrees deg ≤ new.toInt) ↔ crosses old new deg := Iff.rfl

section
variable (s : State) {old new : BitVec 16} (deg n code : Nat) (f : Package → Package)

/-- A threshold that is crossed takes its action. -/
theorem State.cross_acts (h : crosses old new deg) : (f s.pkg).ThermalEq (s.cross old new deg n code f).pkg := by
  rw [State.cross, if_pos (crosses_degrees.2 h)]
  exact State.thermalAct_thermal _ _ _ _ _

/-- A threshold, crossed or not, keeps what its action keeps. -/
theorem State.cross_keeps (P : Package → Prop) (hP : ∀ p q, p.ThermalEq q → P p → P q) (hf : P s.pkg → P (f s.pkg)) (h : P s.pkg) :
    P (s.cross old new deg n code f).pkg := by
  unfold State.cross
  split
  · exact hP _ _ (State.thermalAct_thermal _ _ _ _ _) (hf h)
  · exact h

end

/-- The limit of an island, or what a stack does, is a matter of what thermal actions act on. -/
theorem limit_of_thermalEq (n v : Nat) (p q : Package) (h : p.ThermalEq q) (hp : (Tab.getD p.islands n Island.reset).limit = v) :
    (Tab.getD q.islands n Island.reset).limit = v := by rw [h.islands, hp]

theorem refresh2_of_thermalEq (n : Nat) (p q : Package) (h : p.ThermalEq q) (hp : (Tab.getD p.hstacks n Stack.reset).refresh2 = true) :
    (Tab.getD q.hstacks n Stack.reset).refresh2 = true := by rw [h.hstacks, hp]

theorem Package.limit_limit (p : Package) (n v : Nat) : (Tab.getD (p.limit n v).islands n Island.reset).limit = v := by
  rw [Package.limit, Tab.getD_set_same]

theorem Package.onStack_stack (p : Package) (n : Nat) (f : Stack → Stack) :
    Tab.getD (p.onStack n f).hstacks n Stack.reset = f (Tab.getD p.hstacks n Stack.reset) := by
  rw [Package.onStack, Tab.getD_set_same]

theorem thermalThreshold_trips {s : State} {n : Nat} {x : BitVec 16} (hn : n < 0x34) (h : crosses (readingOf s n) x 115) :
    ∃ t, exec (.thermalThreshold n x) s = .next t ∧ t.pkg.tripped = true := by
  by_cases hi : n < 0x30
  · exact ⟨_, congrArg Host.Outcome.next (if_pos hi), (State.cross_acts _ 115 n 0x07 tripOff h).tripped⟩
  · exact ⟨_, congrArg Host.Outcome.next ((if_neg hi).trans (if_pos hn)), (State.cross_acts _ 115 n 0x07 tripOff h).tripped⟩

theorem thermalThreshold_limits {s : State} {n : Nat} {x : BitVec 16} (hn : n < 0x30) (h : crosses (readingOf s n) x 105) :
    ∃ t, exec (.thermalThreshold n x) s = .next t ∧ (t.island n).limit = 2 := by
  refine ⟨_, congrArg Host.Outcome.next (if_pos hn), ?_⟩
  refine State.cross_keeps _ 115 n 0x07 tripOff _ (limit_of_thermalEq n 2) id ?_
  exact limit_of_thermalEq n 2 _ _ (State.cross_acts _ 105 n 0x01 _ h) (Package.limit_limit _ n 2)

theorem thermalThreshold_refreshes {s : State} {n : Nat} {x : BitVec 16} (hn : 0x34 ≤ n) (h : crosses (readingOf s n) x 85) :
    ∃ t, exec (.thermalThreshold n x) s = .next t ∧ (t.stack (n - 0x34)).refresh2 = true := by
  refine ⟨_, congrArg Host.Outcome.next ((if_neg (by omega)).trans (if_neg (by omega))), ?_⟩
  refine State.cross_keeps _ 105 n 0x07 tripOff _ (refresh2_of_thermalEq (n - 0x34)) id ?_
  refine State.cross_keeps _ 95 n 0x05 _ _ (refresh2_of_thermalEq (n - 0x34)) (fun hr => ?_) ?_
  · rw [Package.onStack_stack]
    exact hr
  · refine refresh2_of_thermalEq (n - 0x34) _ _ (State.cross_acts _ 85 n 0x03 _ h) ?_
    rw [Package.onStack_stack]

theorem thermalUndo_limit {s : State} {n : Nat} {x : BitVec 16} (hn : n < 0x30) (hl : (s.island n).limit = 2) (hc : (s.sensed n x).cooled n = true) :
    ∃ t, exec (.thermalUndo n x) s = .next t ∧ (t.island n).limit = 1 := by
  have hc' : ¬((!(s.sensed n x).cooled n) = true) := by simp [hc]
  refine ⟨_, congrArg Host.Outcome.next ((if_neg hc').trans (if_pos hn)), ?_⟩
  refine limit_of_thermalEq n 1 _ _ (State.thermalAct_thermal _ _ _ _ _) ((Package.limit_limit _ n _).trans ?_)
  show (s.island n).limit - 1 = 1
  rw [hl]

theorem thermalUndo_bandwidth {s : State} {n : Nat} {x : BitVec 16} (hn : 0x34 ≤ n) (hb : (s.stack (n - 0x34)).halfBw = true)
    (hc : (s.sensed n x).cooled n = true) :
    ∃ t, exec (.thermalUndo n x) s = .next t ∧ (t.stack (n - 0x34)).halfBw = false := by
  have hc' : ¬((!(s.sensed n x).cooled n) = true) := by simp [hc]
  refine ⟨_, congrArg Host.Outcome.next ((if_neg hc').trans ((if_neg (by omega)).trans ((if_neg (by omega)).trans (if_pos hb)))), ?_⟩
  rw [State.stack, (State.thermalAct_thermal _ _ _ _ _).hstacks, Package.onStack_stack]

/-- Settles O59, clause by clause from the lemma of each event. -/
theorem platformEventsComplete : Obligations.PlatformEventsComplete := by
  refine ⟨fun _ => rfl, ?warm, ?boot, ?stays, ?turns, fun _ _ ho hb => registerWrites_of_open ho hb, ?closed, ?rows, fun _ _ _ => thermalThreshold_trips,
    fun _ _ _ => thermalThreshold_limits, fun _ _ _ => thermalThreshold_refreshes, fun _ _ _ => thermalUndo_limit, fun _ _ _ => thermalUndo_bandwidth,
    ?extest, fun _ => rfl, fun _ _ => rfl⟩
  case warm =>
    intro s t
    exact ⟨rfl, fun h => congrArg Host.Outcome.next (if_pos ((carries_iff_sbUp s).2 h)),
      fun h => congrArg Host.Outcome.next (if_neg (mt (carries_iff_sbUp s).1 h))⟩
  case boot =>
    intro s hs
    have ho := anyOpen_of_linkOpen hs
    have hgo : ∀ x, exec (.bootctlGo x) s = done (s.bootRun x) := fun x => congrArg Host.Outcome.next (if_pos ho)
    have hbuf : ∀ v, exec (.bootbufWrite v) s = .next (s.told (s.bootAppend v)) := fun v => congrArg Host.Outcome.next (if_pos ho)
    refine ⟨congrArg Host.Outcome.next (if_pos ho), fun v h => ?_, fun v h => ?_, fun x h => ?_, fun x h => ?_⟩
    · rw [hbuf, State.bootAppend, if_pos h, told_true]
    · rw [hbuf, State.bootAppend, if_neg h, told_false]
    · rw [hgo, State.bootRun, if_pos h]
    · rw [hgo, State.bootRun, if_neg h]
  case stays => exact fun _ _ _ h => linkStateChange_stays h
  case turns =>
    intro s l d hm hd
    obtain ⟨hl, hc, hdr⟩ := s.pkg.turned_fields l d s.ucycle.toNat
    refine ⟨_, linkStateChange_turns hm hd, ?_, fun n hn => ?_, hc, hdr⟩
    · rw [State.modPkg_pkg, hl, Tab.get?_set_same]
    · rw [State.modPkg_pkg, hl, Tab.get?_set_ne _ _ hn]
  case closed =>
    intro s l a v h
    exact if_pos (by simp [h])
  case rows =>
    intro s hup
    refine ⟨fun c => congrArg Host.Outcome.next (if_pos ((carries_iff_sbUp s).2 hup)), fun _ _ _ => exec_done hup rfl rfl, fun _ _ _ => exec_done hup rfl rfl,
      fun d v ha => exec_done hup rfl ?_, fun d v hw => exec_done hup rfl (writeBwtab_performed s d hw), fun d v hw => ?_,
      fun _ _ => exec_done hup rfl rfl, fun _ _ => exec_done hup rfl rfl, fun _ _ => exec_done hup rfl rfl⟩
    · rw [writeDiemem_eq (noAsid_of_all ha)]
    · rw [exec_of_transact hup rfl, writeBwtab_refused s d hw, told_false]
  case extest =>
    exact fun s ps => ⟨fun h => congrArg Host.Outcome.next (if_pos h), fun h => congrArg Host.Outcome.next (if_neg (Bool.eq_false_iff.1 h)), rfl⟩

end Sys2Proof.Machine

/-! PROOFS. The stack that owns a page (O37): its twelve fields are those of VA[51:16], and within an aligned run of eight pages only the lowest
changes. -/

namespace Sys2Proof.Machine

/-- The field of bits hi to lo of VA[51:16], counted in the address. -/
theorem bitsOf_of_within (va : Nat) {hi lo : Nat} (hl : 16 ≤ lo) (hlh : lo ≤ hi) (hh : hi ≤ 51) :
    bitsOf va hi lo = bitsOf (bitsOf va 51 16) (hi - 16) (lo - 16) := by
  have hsplit : 2 ^ (51 + 1 - 16) = 2 ^ (lo - 16) * 2 ^ (52 - lo) := by
    rw [← pow_add]
    congr 1
    omega
  have hdvd : 2 ^ (hi + 1 - lo) ∣ 2 ^ (52 - lo) := pow_dvd_pow 2 (by omega)
  have hlen : hi - 16 + 1 - (lo - 16) = hi + 1 - lo := by omega
  simp only [bitsOf]
  rw [hlen, hsplit, Nat.mod_mul_right_div_self, Nat.mod_mod_of_dvd _ hdvd, Nat.div_div_eq_div_mul, ← pow_add, show 16 + (lo - 16) = lo by omega]

theorem bitsOf_lt_eight (va lo : Nat) : bitsOf va (lo + 2) lo < 2 ^ 3 :=
  lt_of_lt_of_eq (Nat.mod_lt _ (Nat.two_pow_pos _)) (by congr 1; omega)

/-- The fields above the lowest one. -/
def upperFields (va : Nat) : Nat :=
  bitsOf va 21 19 ^^^ bitsOf va 24 22 ^^^ bitsOf va 27 25 ^^^ bitsOf va 30 28 ^^^ bitsOf va 33 31 ^^^
  bitsOf va 36 34 ^^^ bitsOf va 39 37 ^^^ bitsOf va 42 40 ^^^ bitsOf va 45 43 ^^^ bitsOf va 48 46 ^^^ bitsOf va 51 49

theorem twelveFields_eq (va : Nat) : twelveFields va = bitsOf va 18 16 ^^^ upperFields va := by
  simp only [twelveFields, upperFields, Nat.xor_assoc]

theorem stackOf_eq_twelveFields (va : Nat) : stackOf va = twelveFields va :=
  congrArg (fun x => x ^^^ bitsOf va 21 19 ^^^ bitsOf va 24 22 ^^^ bitsOf va 27 25 ^^^ bitsOf va 30 28 ^^^ bitsOf va 33 31 ^^^
    bitsOf va 36 34 ^^^ bitsOf va 39 37 ^^^ bitsOf va 42 40 ^^^ bitsOf va 45 43 ^^^ bitsOf va 48 46 ^^^ bitsOf va 51 49) (Nat.zero_xor (bitsOf va 18 16))

theorem stackOf_lt (va : Nat) : stackOf va < 8 := by
  have hx : ∀ {a b : Nat}, a < 2 ^ 3 → b < 2 ^ 3 → a ^^^ b < 2 ^ 3 := Nat.xor_lt_two_pow
  have hb := bitsOf_lt_eight va
  rw [stackOf_eq_twelveFields]
  exact hx (hx (hx (hx (hx (hx (hx (hx (hx (hx (hx (hb 16) (hb 19)) (hb 22)) (hb 25)) (hb 28)) (hb 31)) (hb 34)) (hb 37)) (hb 40)) (hb 43)) (hb 46)) (hb 49)

theorem stackOf_congr {va ub : Nat} (h : bitsOf va 51 16 = bitsOf ub 51 16) : stackOf va = stackOf ub := by
  have hf : ∀ n < 12, bitsOf va (18 + 3 * n) (16 + 3 * n) = bitsOf ub (18 + 3 * n) (16 + 3 * n) := fun n hn => by
    rw [bitsOf_of_within va (by omega) (by omega) (by omega), bitsOf_of_within ub (by omega) (by omega) (by omega), h]
  exact List.foldl_ext _ _ _ (fun t n hn => congrArg (Nat.xor t) (hf n (List.mem_range.1 hn)))

/-- The lowest field of the i-th of eight aligned pages is i. -/
theorem bitsOf_page_low {page i : Nat} (hp : page % 8 = 0) (hi : i < 8) : bitsOf ((page + i) * 2 ^ 16) 18 16 = i := by
  simp only [bitsOf]
  rw [Nat.mul_div_cancel _ (Nat.two_pow_pos 16)]
  omega

/-- A field above the lowest one is the same in all eight. -/
theorem bitsOf_page_high {page i : Nat} (hp : page % 8 = 0) (hi : i < 8) (hi' lo : Nat) :
    bitsOf ((page + i) * 2 ^ 16) hi' (19 + lo) = bitsOf (page * 2 ^ 16) hi' (19 + lo) := by
  have hrun : (page + i) / 8 = page / 8 := by omega
  have hdiv : ∀ n, n * 2 ^ 16 / 2 ^ (19 + lo) = n / 8 / 2 ^ lo := fun n => by
    rw [show 2 ^ (19 + lo) = 2 ^ 16 * (8 * 2 ^ lo) by rw [pow_add]; ring, ← Nat.div_div_eq_div_mul, Nat.mul_div_cancel _ (Nat.two_pow_pos 16),
      Nat.div_div_eq_div_mul]
  simp only [bitsOf, hdiv, hrun]

theorem upperFields_page {page i : Nat} (hp : page % 8 = 0) (hi : i < 8) : upperFields ((page + i) * 2 ^ 16) = upperFields (page * 2 ^ 16) := by
  have hf := bitsOf_page_high hp hi
  simp only [upperFields, hf 21 0, hf 24 3, hf 27 6, hf 30 9, hf 33 12, hf 36 15, hf 39 18, hf 42 21, hf 45 24, hf 48 27, hf 51 30]

theorem stackOf_page {page i : Nat} (hp : page % 8 = 0) (hi : i < 8) : stackOf ((page + i) * 2 ^ 16) = i ^^^ upperFields (page * 2 ^ 16) := by
  rw [stackOf_eq_twelveFields, twelveFields_eq, bitsOf_page_low hp hi, upperFields_page hp hi]

/-- Settles O37: the stack is a function of VA[51:16], and on eight aligned pages it is the page's place among them, exclusive OR a constant. -/
theorem stackHash : Obligations.StackHash := by
  refine ⟨stackOf_eq_twelveFields, fun va => ⟨stackOf_lt va, rfl⟩, fun va ub h => ?_, fun page hp _ i hi j hj h => ?_⟩
  · exact ⟨stackOf_congr h, congrArg (· / 2) (stackOf_congr h)⟩
  · rw [stackOf_page hp hi, stackOf_page hp hj] at h
    exact Nat.xor_left_injective h

end Sys2Proof.Machine

/-! PROOFS. Every step keeps every byte memory in canonical form (O50). `State.Canon` says, table by table, that the memories of a state are in
canonical form, and `Follows s t` that `t` has them so if `s` has, the same uncore clock, and the same responses
that wait for a credit. One lemma per function of the model says that its
result follows, in the order in which the model defines the functions, so that each proof is a chain of the lemmas of the functions called. -/

namespace Sys2Proof.Machine

-- The lemmas are many and short, and each uses the ones before it.
set_option Elab.async false

/-! ## Canonical parts of the state -/

/-- Every entry that a table lists satisfies `P`. -/
def TabAll {α : Type} (P : α → Prop) (t : Tab α) : Prop := ∀ n a, Tab.get? t n = some a → P a

/-- Both stores of a grip are in canonical form. -/
structure Grip.Canon (x : Grip) : Prop where
  istore : Memory.wf x.istore = true
  dstore : Memory.wf x.dstore = true

/-- Every memory of a core is in canonical form. -/
structure Core.Canon (k : Core) : Prop where
  scratch : Memory.wf k.scratch = true
  tileMem : Memory.wf k.tileMem = true
  weight : Memory.wf k.weight = true
  acc : Memory.wf k.acc = true
  grips : TabAll Grip.Canon k.grips

/-- A die's staging memory is in canonical form. -/
structure Die.Canon (d : Die) : Prop where
  staging : Memory.wf d.staging = true

/-- HBM4 and the companion's memory are in canonical form. -/
structure Package.Canon (p : Package) : Prop where
  hbm : Memory.wf p.hbm = true
  comp : Memory.wf p.comp = true

/-- Every memory of every unit that the state lists is in canonical form. -/
structure State.Canon (s : State) : Prop where
  pkg : s.pkg.Canon
  cores : TabAll Core.Canon s.cores
  dies : TabAll Die.Canon s.dies

/-- `t` comes from `s` by acts that keep the memories canonical, take no time, and change nothing about the responses that wait for a credit. -/
structure Follows (s t : State) : Prop where
  canon : s.Canon → t.Canon
  ucycle : t.ucycle = s.ucycle
  resp : t.pkg.dryResp = s.pkg.dryResp ∧ t.pkg.owed = s.pkg.owed

section
variable {α : Type} {P : α → Prop} {t : Tab α}

theorem TabAll.nil : TabAll P ([] : Tab α) := fun _ _ h => nomatch h

theorem TabAll.getD (h : TabAll P t) {n : Nat} {d : α} (hd : P d) : P (Tab.getD t n d) := by
  unfold Tab.getD
  cases e : Tab.get? t n with
  | none => exact hd
  | some a => exact h n a e

theorem TabAll.set (h : TabAll P t) {n : Nat} {a : α} (ha : P a) : TabAll P (Tab.set t n a) := by
  intro k b hb
  rw [Tab.get?_set] at hb
  split at hb
  · exact Option.some.inj hb ▸ ha
  · exact h k b hb

theorem TabAll.mapVal (h : TabAll P t) {f : Nat → α → α} (hf : ∀ n a, P a → P (f n a)) : TabAll P (Tab.mapVal t f) := by
  intro k b hb
  rw [Tab.get?_mapVal, Option.map_eq_some_iff] at hb
  obtain ⟨a, ha, rfl⟩ := hb
  exact hf k a (h k a ha)

end

theorem Grip.canon_reset : Grip.reset.Canon := ⟨rfl, rfl⟩
theorem Core.canon_idle (u : DWord) : (Core.idle u).Canon := ⟨rfl, rfl, rfl, rfl, TabAll.nil⟩
theorem Die.canon_reset : Die.reset.Canon := ⟨rfl⟩

theorem Core.Canon.grip {k : Core} (h : k.Canon) (g : Nat) : (k.grip g).Canon := h.grips.getD Grip.canon_reset
theorem State.Canon.core {s : State} (h : s.Canon) (c : Nat) : (s.core c).Canon := h.cores.getD (Core.canon_idle _)
theorem State.Canon.die {s : State} (h : s.Canon) (d : Nat) : (s.die d).Canon := h.dies.getD Die.canon_reset

/-- The two readings agree: a unit that no table lists holds nothing. -/
theorem State.canon_iff (s : State) : s.Canon ↔ Canonical s := by
  constructor
  · intro h
    exact ⟨h.pkg.hbm, h.pkg.comp, fun c => (h.core c).scratch, fun c => (h.core c).tileMem, fun c => (h.core c).weight, fun c => (h.core c).acc,
      fun c g => ((h.core c).grip g).istore, fun c g => ((h.core c).grip g).dstore, fun d => (h.die d).staging⟩
  · intro h
    refine ⟨⟨h.hbm, h.comp⟩, fun c k hk => ?_, fun d k hk => ?_⟩
    · have e : s.core c = k := by simp only [State.core, Tab.getD, hk, Option.getD_some]
      subst e
      refine ⟨h.scratch c, h.tileMem c, h.weight c, h.acc c, fun g x hx => ?_⟩
      have e : (s.core c).grip g = x := by simp only [Core.grip, Tab.getD, hx, Option.getD_some]
      exact e ▸ ⟨h.istore c g, h.dstore c g⟩
    · have e : s.die d = k := by simp only [State.die, Tab.getD, hk, Option.getD_some]
      exact e ▸ ⟨h.staging d⟩

/-! ## The shapes of an update -/

section
variable {s t u : State} {α : Type}

theorem Follows.refl (s : State) : Follows s s := ⟨id, rfl, rfl, rfl⟩

/-- Fields other than the memories and the clock change. -/
theorem Follows.upd (h : Follows s t) (hb : u.pkg.hbm = t.pkg.hbm := by rfl) (hm : u.pkg.comp = t.pkg.comp := by rfl)
    (hc : u.cores = t.cores := by rfl) (hd : u.dies = t.dies := by rfl) (ht : u.ucycle = t.ucycle := by rfl)
    (hr : u.pkg.dryResp = t.pkg.dryResp := by rfl) (ho : u.pkg.owed = t.pkg.owed := by rfl) : Follows s u :=
  ⟨fun hs => ⟨⟨hb ▸ (h.canon hs).pkg.hbm, hm ▸ (h.canon hs).pkg.comp⟩, hc ▸ (h.canon hs).cores, hd ▸ (h.canon hs).dies⟩, ht.trans h.ucycle,
    hr.trans h.resp.1, ho.trans h.resp.2⟩

theorem Follows.ite {c : Prop} {inst : Decidable c} (ht : Follows s t) (hu : Follows s u) : Follows s (if c then t else u) := by
  split
  · exact ht
  · exact hu

theorem Follows.foldl {f : State → α → State} {l : List α} (h : Follows s t) (hf : ∀ t a, Follows s t → Follows s (f t a)) : Follows s (l.foldl f t) :=
  List.foldlRecOn l f h (fun b hb a _ => hf b a hb)

theorem Follows.foldlFst {β : Type} {f : State × β → α → State × β} {l : List α} {b : β} (h : Follows s t)
    (hf : ∀ r a, Follows s r.1 → Follows s (f r a).1) : Follows s (l.foldl f (t, b)).1 :=
  List.foldlRecOn (motive := fun r : State × β => Follows s r.1) l f h (fun r hr a _ => hf r a hr)

theorem Follows.setCore {k : Core} {c : Nat} (h : Follows s t) (hk : s.Canon → k.Canon) : Follows s (t.setCore c k) :=
  ⟨fun hs => ⟨(h.canon hs).pkg, (h.canon hs).cores.set (hk hs), (h.canon hs).dies⟩, h.ucycle, h.resp⟩
theorem Follows.modCore {f : Core → Core} {c : Nat} (h : Follows s t)
    (hf : ∀ k, k.Canon → (f k).Canon := by exact fun _ hk => ⟨hk.scratch, hk.tileMem, hk.weight, hk.acc, hk.grips⟩) : Follows s (t.modCore c f) :=
  h.setCore (fun hs => hf _ ((h.canon hs).core c))
theorem Follows.setDie {k : Die} {d : Nat} (h : Follows s t) (hk : s.Canon → k.Canon) : Follows s (t.setDie d k) :=
  ⟨fun hs => ⟨(h.canon hs).pkg, (h.canon hs).cores, (h.canon hs).dies.set (hk hs)⟩, h.ucycle, h.resp⟩
theorem Follows.modDie {f : Die → Die} {d : Nat} (h : Follows s t) (hf : ∀ k, k.Canon → (f k).Canon := by exact fun _ hk => ⟨hk.staging⟩) :
    Follows s (t.modDie d f) :=
  h.setDie (fun hs => hf _ ((h.canon hs).die d))
theorem Follows.modPkg {f : Package → Package} (h : Follows s t) (hf : ∀ p, p.Canon → (f p).Canon := by exact fun _ hp => ⟨hp.hbm, hp.comp⟩)
    (hr : ∀ p, (f p).dryResp = p.dryResp ∧ (f p).owed = p.owed := by exact fun _ => ⟨rfl, rfl⟩) : Follows s (t.modPkg f) :=
  ⟨fun hs => ⟨hf _ (h.canon hs).pkg, (h.canon hs).cores, (h.canon hs).dies⟩, h.ucycle, (hr _).1.trans h.resp.1, (hr _).2.trans h.resp.2⟩
theorem Follows.modGrip {f : Grip → Grip} {c g : Nat} (h : Follows s t) (hf : ∀ x, x.Canon → (f x).Canon := by exact fun _ hx => ⟨hx.istore, hx.dstore⟩) :
    Follows s (t.modGrip c g f) :=
  h.modCore (fun _ hk => ⟨hk.scratch, hk.tileMem, hk.weight, hk.acc, hk.grips.set (hf _ (hk.grip g))⟩)

end

section
variable {k k' : Core}

/-- A core's memories stay as they are. -/
theorem Core.Canon.upd (h : k.Canon) (hs : k'.scratch = k.scratch := by rfl) (ht : k'.tileMem = k.tileMem := by rfl)
    (hw : k'.weight = k.weight := by rfl) (ha : k'.acc = k.acc := by rfl) (hg : k'.grips = k.grips := by rfl) : k'.Canon :=
  ⟨hs ▸ h.scratch, ht ▸ h.tileMem, hw ▸ h.weight, ha ▸ h.acc, hg ▸ h.grips⟩

end

/-- What a call answers, if a state, follows. -/
def OptFollows (s : State) : Option State → Prop
  | none => True
  | some t => Follows s t

theorem OptFollows.some {s t : State} {o : Option State} (h : OptFollows s o) (e : o = some t) : Follows s t := by subst e; exact h

theorem OptFollows.ite {s : State} {o o' : Option State} {c : Prop} {inst : Decidable c} (h : OptFollows s o) (h' : OptFollows s o') :
    OptFollows s (if c then o else o') := by
  split
  · exact h
  · exact h'

theorem OptFollows.getD {s t : State} {o : Option State} (h : OptFollows s o) (ht : Follows s t) : Follows s (o.getD t) := by
  cases o with
  | none => exact ht
  | some u => exact h

/-- The state that a meaning leaves follows. -/
def EffFollows (s : State) : Eff → Prop
  | .trap _ => True
  | .done r => Follows s r.s
  | .final t => Follows s t
  | .block _ t => Follows s t
  | .hold _ t => Follows s t
  | .stall => True

/-- The state that a step answers, if one, follows. -/
def OutFollows (s : State) : Host.Outcome State Fault Refusal → Prop
  | .next t => Follows s t
  | .fault _ => True
  | .refused _ => True

theorem OutFollows.next {s t : State} {o : Host.Outcome State Fault Refusal} (h : OutFollows s o) (e : o = .next t) : Follows s t := by subst e; exact h

/-- The words of a store are in canonical form. -/
structure UnitStore.Canon (u : UnitStore) : Prop where
  mem : Memory.wf u.mem = true

theorem Core.Canon.foldl {α : Type} {f : Core → α → Core} {l : List α} {k : Core} (h : k.Canon) (hf : ∀ k a, k.Canon → (f k a).Canon) :
    (l.foldl f k).Canon :=
  List.foldlRecOn l f h (fun k hk a _ => hf k a hk)

theorem Memory.wf_foldl {α : Type} {f : Memory → α → Memory} {l : List α} {m : Memory} (h : Memory.wf m = true)
    (hf : ∀ m a, Memory.wf m = true → Memory.wf (f m a) = true) : Memory.wf (l.foldl f m) = true :=
  List.foldlRecOn l f h (fun m hm a _ => hf m a hm)

theorem Memory.wf_nil : Memory.wf [] = true := rfl

theorem Follows.mapCores {s t : State} {f : Nat → Core → Core} (h : Follows s t) (hf : ∀ n k, k.Canon → (f n k).Canon) :
    Follows s { t with cores := Tab.mapVal t.cores f } :=
  ⟨fun hs => ⟨(h.canon hs).pkg, (h.canon hs).cores.mapVal hf, (h.canon hs).dies⟩, h.ucycle, h.resp⟩

theorem Follows.mapDies {s t : State} {f : Nat → Die → Die} (h : Follows s t)
    (hf : ∀ n d, d.Canon → (f n d).Canon := by exact fun _ _ hd => ⟨hd.staging⟩) : Follows s { t with dies := Tab.mapVal t.dies f } :=
  ⟨fun hs => ⟨(h.canon hs).pkg, (h.canon hs).cores, (h.canon hs).dies.mapVal hf⟩, h.ucycle, h.resp⟩

theorem State.Canon.upd {s t : State} (h : s.Canon) (hb : t.pkg.hbm = s.pkg.hbm := by rfl) (hm : t.pkg.comp = s.pkg.comp := by rfl)
    (hc : t.cores = s.cores := by rfl) (hd : t.dies = s.dies := by rfl) : t.Canon :=
  ⟨⟨hb ▸ h.pkg.hbm, hm ▸ h.pkg.comp⟩, hc ▸ h.cores, hd ▸ h.dies⟩

section
variable {s₀ s : State}

/-! ### Functions: operations of the state (Machine/Ops) -/

theorem Follows.setWarp {c w : Nat} {x : Warp} (h : Follows s₀ s) : Follows s₀ (s.setWarp c w x) := h.modCore

theorem Follows.modWarp {c w : Nat} {f : Warp → Warp} (h : Follows s₀ s) : Follows s₀ (s.modWarp c w f) := by
  unfold State.modWarp
  split
  · exact h
  · exact h.setWarp

theorem Follows.setGroup {c g : Nat} {x : Group} (h : Follows s₀ s) : Follows s₀ (s.setGroup c g x) := h.modCore

theorem Follows.modGroup {c g : Nat} {f : Group → Group} (h : Follows s₀ s) : Follows s₀ (s.modGroup c g f) := by
  unfold State.modGroup
  split
  · exact h
  · exact h.setGroup

theorem Core.Canon.setSched {k : Core} {i : Nat} {x : Scheduler} (h : k.Canon) : (k.setSched i x).Canon := h.upd

theorem Follows.modSched {c i : Nat} {f : Scheduler → Scheduler} (h : Follows s₀ s) : Follows s₀ (s.modSched c i f) := h.modCore

theorem Follows.modCtx {c e x : Nat} {f : EngCtx → EngCtx} (h : Follows s₀ s) : Follows s₀ (s.modCtx c e x f) := h.modCore

theorem Follows.modStack {k : Nat} {f : Stack → Stack} (h : Follows s₀ s) : Follows s₀ (s.modStack k f) := h.modPkg

theorem Core.Canon.count {k : Core} {code n : Nat} (h : k.Canon) : (k.count code n).Canon := h.upd

theorem Follows.countCore {c code n : Nat} (h : Follows s₀ s) : Follows s₀ (s.countCore c code n) := h.modCore

theorem Follows.countDie {d code n : Nat} (h : Follows s₀ s) : Follows s₀ (s.countDie d code n) := h.modDie

theorem Follows.corrected {c : Nat} (h : Follows s₀ s) : Follows s₀ (s.corrected c) := h.modCore.countCore

theorem Core.Canon.uncorrectable {k : Core} {u : Nat} (h : k.Canon) : (k.uncorrectable u).Canon := h.upd.count

theorem Follows.uncorrectable {c u : Nat} (h : Follows s₀ s) : Follows s₀ (s.uncorrectable c u) := h.modCore

theorem Follows.writePhys {pa : Nat} {bs : List Byte} (h : Follows s₀ s) : Follows s₀ (s.writePhys pa bs) :=
  h.modPkg (fun _ hx => ⟨Memory.wf_writeN _ _ _ hx.hbm, hx.comp⟩)

theorem Follows.event {die source kind asid coreId idgrid d0 d1 : Nat} (h : Follows s₀ s) :
    Follows s₀ (s.event die source kind asid coreId idgrid d0 d1) := h.modPkg.writePhys.modDie.ite h.modPkg.countDie

theorem Core.Canon.localPut {k : Core} {g : Group} {a : Nat} {b : Byte} (h : k.Canon) : (localPut k g a b).Canon := by
  unfold Machine.localPut
  split
  · exact ⟨Memory.wf_write _ _ _ h.scratch, h.tileMem, h.weight, h.acc, h.grips⟩
  · split
    · exact h
    · exact h.upd
  · exact h

theorem Core.Canon.localUnpoison {k : Core} {g : Group} {a : Nat} (h : k.Canon) : (localUnpoison k g a).Canon := by
  unfold Machine.localUnpoison
  split
  · exact h.upd
  · split
    · exact h
    · exact h.upd
  · exact h

theorem Core.Canon.dropResv {k : Core} {phys n : Nat} (h : k.Canon) : (dropResv k phys n).Canon := by
  refine ⟨h.scratch, h.tileMem, h.weight, h.acc, ?_⟩
  unfold Machine.dropResv
  dsimp only
  refine h.grips.mapVal (fun _ x hx => ?_)
  split
  · split
    · exact ⟨hx.istore, hx.dstore⟩
    · exact hx
  · exact hx

theorem Core.Canon.localWrite {k : Core} {g : Group} {bytes : List (Nat × Byte)} (h : k.Canon) : (localWrite k g bytes).Canon := by
  unfold Machine.localWrite
  extract_lets addrs k1 whole k2
  have hk1 : k1.Canon := h.foldl (fun _ _ hk => hk.localPut)
  have hk2 : k2.Canon := hk1.foldl (fun _ _ hk => hk.localUnpoison)
  refine hk2.foldl (fun _ _ hk => ?_)
  split
  · exact hk.dropResv
  · exact hk

theorem Core.Canon.setTags {k : Core} {ws : List Nat} {full : Bool} (h : k.Canon) : (setTags k ws full).Canon := h.upd

theorem Follows.arrive {c gid i w : Nat} (h : Follows s₀ s) : Follows s₀ (s.arrive c gid i w) := by
  unfold State.arrive
  split
  · exact h
  · exact h.setGroup.countCore

theorem Core.Canon.atomLane {g : Group} {op n : Nat} {nat : Bool} {k : Core} {l : AtomLane} (h : k.Canon) : (atomLane g op n nat k l).1.Canon := by
  unfold Machine.atomLane
  extract_lets old
  split
  · exact h
  · exact h.localWrite

theorem Core.Canon.atomLanes {g : Group} {op n : Nat} {nat : Bool} {ls : List AtomLane} {k : Core} (h : k.Canon) :
    (atomLanes g op n nat ls k).1.Canon := by
  induction ls generalizing k with
  | nil => exact h
  | cons l t ih => exact ih h.atomLane

theorem Follows.performBody {c gid : Nat} {b : SqBody} (h : Follows s₀ s) : Follows s₀ (s.performBody c gid b).1 := by
  unfold State.performBody
  split
  · exact h
  · split
    · exact h.setCore (fun hs => ((h.canon hs).core _).localWrite)
    · exact (h.setCore (fun hs => ((h.canon hs).core _).atomLanes)).uncorrectable.ite (h.setCore (fun hs => ((h.canon hs).core _).atomLanes))
    · exact h.arrive
    · exact h

theorem Follows.performHead {c slot : Nat} (h : Follows s₀ s) : Follows s₀ (s.performHead c slot) := by
  unfold State.performHead
  split
  · exact h
  · split
    · exact h
    · exact h.performBody.modWarp

theorem Follows.performN {c slot n : Nat} (h : Follows s₀ s) : Follows s₀ (s.performN c slot n) := by
  induction n generalizing s with
  | zero => exact h
  | succ n ih => exact ih h.performHead

theorem Follows.drain {c slot : Nat} (h : Follows s₀ s) : Follows s₀ (s.drain c slot) := by
  unfold State.drain
  split
  · exact h
  · exact h.performN

theorem Follows.leaveSched {c slot : Nat} (h : Follows s₀ s) : Follows s₀ (s.leaveSched c slot) := h.modSched

theorem Follows.faultRecord {c gid seq : Nat} {pc : DWord} {e : Nat} {addr : DWord} {word4 : Nat} (h : Follows s₀ s) :
    Follows s₀ (s.faultRecord c gid seq pc e addr word4) := by
  unfold State.faultRecord
  split
  · exact h
  · exact ((h.setCore (fun hs => ((h.canon hs).core _).localWrite)).ite h).modGroup

theorem Follows.takeSeq {c gid tl : Nat} (h : Follows s₀ s) : Follows s₀ (s.takeSeq c gid tl).1 := by
  unfold State.takeSeq
  split
  · exact h
  · exact h.setGroup

theorem Follows.endSeq {c gid tl seq status p : Nat} (h : Follows s₀ s) : Follows s₀ (s.endSeq c gid tl seq status p) := h.modGroup

theorem Follows.complete {c gid tl seq status : Nat} {pc : DWord} {e : Nat} {addr : DWord} {word4 : Nat} {bar : Option Nat} (h : Follows s₀ s) :
    Follows s₀ (s.complete c gid tl seq status pc e addr word4 bar) := by
  unfold State.complete
  extract_lets s1 s2
  have hs1 : Follows s₀ s1 := h.ite h.faultRecord.modGroup
  have hs2 : Follows s₀ s2 := by
    unfold s2
    split
    · exact hs1
    · exact hs1.arrive
  exact hs2.endSeq

theorem Follows.writeFrame {c slot cause : Nat} {tval : DWord} {bpskip : Bool} (h : Follows s₀ s) :
    Follows s₀ (s.writeFrame c slot cause tval bpskip) := by
  unfold State.writeFrame
  split
  · exact h
  · split
    · exact h
    · exact (h.setCore (fun hs => ((h.canon hs).core _).localWrite)).modWarp

theorem Core.Canon.unwait {k : Core} {who : TagWaiter} (h : k.Canon) : (k.unwait who).Canon := h.upd

theorem Follows.machineWarp {c slot : Nat} {tval : DWord} (h : Follows s₀ s) : Follows s₀ (s.machineWarp c slot tval) := by
  unfold State.machineWarp
  split
  · exact h
  · split
    · exact h
    · exact (h.writeFrame.ite h).modWarp.leaveSched.modCore

theorem Follows.machineGroup {c gid scope unit addr : Nat} (h : Follows s₀ s) : Follows s₀ (s.machineGroup c gid scope unit addr) := by
  unfold State.machineGroup
  split
  · exact h
  · exact (h.foldl (fun _ _ h1 => h1.machineWarp)).modGroup.modCore.event

theorem Follows.takeTrap {c slot : Nat} {t : Trap} {bpskip : Bool} (h : Follows s₀ s) : Follows s₀ (s.takeTrap c slot t bpskip) := by
  unfold State.takeTrap
  extract_lets s1 s2
  have hs1 : Follows s₀ s1 := h.drain.countCore.modCore
  have hs2 : Follows s₀ s2 := hs1.writeFrame
  split
  · exact hs1
  · split
    · exact hs1
    · split
      · exact hs1.machineGroup
      · split
        · exact hs1.machineGroup
        · split
          · exact hs2.machineGroup
          · exact hs2.modWarp.modSched.leaveSched

theorem Follows.returnFromTrap {c slot : Nat} (h : Follows s₀ s) : Follows s₀ (s.returnFromTrap c slot) := by
  unfold State.returnFromTrap
  extract_lets s1 k
  have hs1 : Follows s₀ s1 := h.drain
  have hk : s₀.Canon → k.Canon := fun hs => (h.drain.canon hs).core _
  split
  · exact hs1
  · split
    · exact hs1
    · exact hs1.machineGroup.ite (hs1.uncorrectable.machineGroup.ite (hs1.machineGroup.ite hs1.setWarp.leaveSched))

/-! ### Functions: reductions (Machine/Reduce) -/

theorem Follows.drainRed {c : Nat} {last : Bool} {p : Nat → RedEntry → Bool} (h : Follows s₀ s) : Follows s₀ (s.drainRed c last p) := h.modCore

theorem Follows.redFailed {c gid status : Nat} {addr : DWord} (h : Follows s₀ s) : Follows s₀ (s.redFailed c gid status addr) :=
  h.faultRecord.modGroup

theorem Follows.drainAtExit {c gid : Nat} (h : Follows s₀ s) : Follows s₀ (s.drainAtExit c gid) := by
  unfold State.drainAtExit
  extract_lets s1
  have hs1 : Follows s₀ s1 := h.drainRed
  split
  · exact hs1.redFailed.modGroup
  · exact hs1

theorem Follows.warpExited {c gid : Nat} (h : Follows s₀ s) : Follows s₀ (s.warpExited c gid) := h.drainAtExit.ite h

/-! ### Functions: the state of a grip (Machine/GripState) -/

theorem Grip.Canon.putReg {k : Grip} {r : Nat} {v : DWord} (h : k.Canon) : (k.putReg r v).Canon := by
  unfold Grip.putReg
  split
  · exact h
  · exact ⟨h.istore, h.dstore⟩

theorem Follows.gripFail {c g e : Nat} {addr : DWord} (h : Follows s₀ s) : Follows s₀ (s.gripFail c g e addr) := by
  unfold State.gripFail
  extract_lets k s1
  have hs1 : Follows s₀ s1 := h.modGrip.modCore
  split
  · exact hs1
  · exact hs1.faultRecord.modGroup

theorem Follows.gripExcept {c g cause tval : Nat} (h : Follows s₀ s) : Follows s₀ (s.gripExcept c g cause tval) :=
  h.modGrip.gripFail.ite h.modGrip.modGrip.modCore

theorem Follows.gripStruck {c g a : Nat} (h : Follows s₀ s) : Follows s₀ (s.gripStruck c g a) := h.modGrip

theorem Follows.gripTakeStruck {c g : Nat} (h : Follows s₀ s) : Follows s₀ (s.gripTakeStruck c g) := by
  unfold State.gripTakeStruck
  split
  · exact h
  · exact h.modGrip.gripExcept.ite h.modGrip

theorem Follows.gripReserve {c g : Nat} {gr : Group} {store : Bool} {n rd a v : Nat} (h : Follows s₀ s) :
    Follows s₀ (s.gripReserve c g gr store n rd a v) := by
  unfold State.gripReserve
  extract_lets k key held s1
  have hk : s₀.Canon → k.Canon := fun hs => (h.canon hs).core _
  have hs1 : Follows s₀ s1 := (h.setCore (fun hs => (hk hs).localWrite)).ite h
  split
  · exact hs1.modGrip (fun _ hx => ⟨hx.putReg.istore, hx.putReg.dstore⟩)
  · exact h.uncorrectable.gripStruck.ite (h.modGrip (fun _ hx => ⟨hx.putReg.istore, hx.putReg.dstore⟩))

theorem Follows.gripAnswer {c g n rd : Nat} {lns : List AtomLane} {olds : List (Nat × Nat × Bool)} (h : Follows s₀ s) :
    Follows s₀ (s.gripAnswer c g n rd lns olds) := by
  unfold State.gripAnswer
  split
  · exact h.gripStruck.ite (h.modGrip (fun _ hx => hx.putReg))
  · exact h

theorem Follows.gripPerformHead {c g : Nat} (h : Follows s₀ s) : Follows s₀ (s.gripPerformHead c g) := by
  unfold State.gripPerformHead
  extract_lets k
  split
  · extract_lets pop r
    have hr : Follows s₀ r.1 := h.performBody
    split
    · exact hr.modGrip.gripAnswer
    · exact h.modGrip.gripReserve
    · exact h.performBody.modGrip
  · exact h

theorem Follows.gripPerformN {c g n : Nat} (h : Follows s₀ s) : Follows s₀ (s.gripPerformN c g n) := by
  induction n generalizing s with
  | zero => exact h
  | succ n ih => exact ih h.gripPerformHead

theorem Follows.gripDrain {c g : Nat} (h : Follows s₀ s) : Follows s₀ (s.gripDrain c g) := h.gripPerformN

theorem Follows.gripSave {c g : Nat} (h : Follows s₀ s) : Follows s₀ (s.gripSave c g) := by
  unfold State.gripSave
  extract_lets s1 k
  have hs1 : Follows s₀ s1 := h.gripDrain.gripTakeStruck
  split
  · exact hs1
  · split
    · exact hs1
    · exact (hs1.modCore (fun _ hk => hk.localWrite.unwait)).modGrip

theorem Follows.gripResume {c g : Nat} (h : Follows s₀ s) : Follows s₀ (s.gripResume c g) := by
  unfold State.gripResume
  extract_lets q
  split
  · exact h
  · split
    · exact h
    · refine h.modGrip (fun _ hx => ⟨hx.istore, ?_⟩)
      dsimp only
      exact Memory.wf_writeN _ _ _ Memory.wf_nil

theorem Follows.gripsResume {c gid : Nat} (h : Follows s₀ s) : Follows s₀ (s.gripsResume c gid) := h.foldl (fun _ _ h1 => h1.gripResume)

theorem Follows.gripsSave {c gid : Nat} (h : Follows s₀ s) : Follows s₀ (s.gripsSave c gid) := h.foldl (fun _ _ h1 => h1.gripSave)

/-! ### Functions: issue (Machine/Issue) -/

theorem EffFollows.out {i : Issue} {f : Nat → Nat} (h : Follows s₀ i.s) : EffFollows s₀ (i.out f) := h

theorem EffFollows.to {i : Issue} (h : Follows s₀ s) : EffFollows s₀ (i.to s) := h

theorem Follows.trapHere {c slot : Nat} {t : Trap} (h : Follows s₀ s) : Follows s₀ (s.trapHere c slot t) := h.takeTrap

theorem Follows.trapRead {c slot : Nat} {t : Trap} (h : Follows s₀ s) : Follows s₀ (s.trapRead c slot t) := (h.uncorrectable.ite h).trapHere

theorem Follows.shiftLatches {c slot : Nat} {w : Warp} {sh : Shape} {x : Ext} {run : Mask} {f : Nat → Nat} (h : Follows s₀ s) :
    Follows s₀ (shiftLatches s c slot w sh x run f) := by
  unfold Machine.shiftLatches
  split
  · exact h
  · exact h.modSched.ite h

theorem Follows.endRun {c slot : Nat} (h : Follows s₀ s) : Follows s₀ (s.endRun c slot) := h.modSched

theorem Follows.countIssue {sh : Shape} {i : Issue} (h : Follows s₀ s) : Follows s₀ (countIssue sh i s) :=
  .ite h h.modCore

theorem Follows.finish {sp : Spec} {i : Issue} {r : Res} (h : Follows s₀ r.s) : Follows s₀ (finish sp i r) := by
  unfold Machine.finish
  split
  · exact h
  · extract_lets ends w1 w2 s1 s2 s3
    have hs1 : Follows s₀ s1 := h.setWarp.shiftLatches
    have hs3 : Follows s₀ s3 := (hs1.endRun.ite hs1).modGroup.countIssue
    split
    · exact hs3
    · exact hs3.trapHere

theorem Follows.blockIn {c slot : Nat} {t : Waiting} (h : Follows s₀ s) : Follows s₀ (s.blockIn c slot t) := by
  unfold State.blockIn
  split
  · exact h
  · exact h.setWarp.leaveSched

theorem Follows.settle {sp : Spec} {i : Issue} {e : Eff} (h : Follows s₀ i.s) (he : EffFollows s₀ e) : Follows s₀ (settle sp i e) := by
  cases e with
  | trap t => exact h.trapHere
  | done r => exact Follows.finish he
  | final s => exact he
  | block t s => exact (Follows.blockIn he).countIssue
  | hold t s => exact Follows.modWarp he
  | stall => exact h

/-- The meaning of an instruction leaves a state that follows the one it was issued in. -/
def SpecFollows (sp : Spec) : Prop := ∀ (s₀ : State) (i : Issue), Follows s₀ i.s → EffFollows s₀ (sp.body i)

theorem Follows.issueState {sp : Spec} {kBad : Bool} {i : Issue} (hsp : SpecFollows sp) (h : Follows s₀ i.s) : Follows s₀ (issueState sp kBad i) := by
  unfold Machine.issueState
  split
  · exact h.trapHere
  · split
    · exact h.uncorrectable.trapHere
    · exact h.settle (hsp _ _ h)

/-! ### Functions: integers (Machine/Integer) -/

theorem Follows.setPred {i : Issue} {p : Nat} {f : Nat → Bool} (h : Follows s₀ i.s) : EffFollows s₀ (i.setPred p f) := h

/-! ### Functions: floating point (Machine/Float) -/

theorem Follows.outFp {i : Issue} {f : Nat → Nat × Nat} (h : Follows s₀ i.s) : EffFollows s₀ (i.outFp f) := h

/-! ### Functions: device memory (Machine/DevMem) -/

theorem Follows.walk {merged : Bool} {asid va st fuel lv base : Nat} (h : Follows s₀ s) : Follows s₀ (walk merged asid va st fuel lv base s).1 := by
  induction fuel generalizing lv base s with
  | zero => exact h
  | succ fuel ih =>
    unfold Machine.walk
    extract_lets pa t e
    split
    · exact ih h
    · split
      · exact h
      · split
        · exact h
        · split
          · exact h
          · split
            · exact ih h.modStack
            · exact h

theorem Follows.translate {asid va : Nat} (h : Follows s₀ s) : Follows s₀ (s.translate asid va).1 := by
  unfold State.translate
  extract_lets st e r
  have hr : Follows s₀ r.1 := h.countDie.walk
  split
  · exact h
  · split
    · exact h
    · split
      · exact hr.countDie
      · extract_lets big n
        dsimp only
        exact hr.modStack

theorem Die.Canon.putGuest {d : Die} {h0 : GuestLine} (h : d.Canon) : (d.putGuest h0).Canon := ⟨h.staging⟩

theorem Die.Canon.guestRoom {d d' : Die} {asid line : Nat} (h : d.Canon) (e : d.guestRoom asid line = some d') : d'.Canon := by
  unfold Die.guestRoom at e
  extract_lets set at e
  split at e
  · exact Option.some.inj e ▸ h
  · obtain ⟨v, -, rfl⟩ := Option.map_eq_some_iff.1 e
    exact ⟨h.staging⟩

theorem Follows.writeHbm {pa : Nat} {bs : List Byte} {bad : Bool} (h : Follows s₀ s) : Follows s₀ (s.writeHbm pa bs bad) :=
  h.writePhys.modPkg.ite h.writePhys

theorem Follows.writeBack {h0 : HomeLine} (h : Follows s₀ s) : Follows s₀ (s.writeBack h0) := h.writePhys.modPkg.ite h

theorem Follows.fillHome {d : Nat} {h0 : HomeLine} (h : Follows s₀ s) : Follows s₀ (s.fillHome d h0) := by
  unfold State.fillHome
  split
  · exact h.modDie
  · exact h.writeBack.modDie.modDie

theorem Follows.translateFor {asid va : Nat} (h : Follows s₀ s) : Follows s₀ (s.translateFor asid va).1 := by
  unfold State.translateFor
  extract_lets r
  have hr : Follows s₀ r.1 := h.translate
  split
  · dsimp only
    exact hr.modDie
  · exact h.translate

theorem Follows.reach {asid va : Nat} {wr : Bool} (h : Follows s₀ s) : Follows s₀ (s.reach asid va wr).1 := by
  unfold State.reach
  extract_lets d line old r
  have hr : Follows s₀ r.1 := h.translateFor
  split
  · exact h.modDie.countDie
  · split
    · exact h.translateFor
    · extract_lets pa h1
      split
      · dsimp only
        exact hr.modDie
      · split
        · dsimp only
          exact hr.modDie
        · split
          · dsimp only
            exact hr.modDie
          · split
            · exact hr.modDie.countDie
            · exact hr.fillHome.countDie

theorem Follows.readHome {asid va n : Nat} (h : Follows s₀ s) : Follows s₀ (s.readHome asid va n).1 := by
  unfold State.readHome
  extract_lets r
  have hr : Follows s₀ r.1 := h.reach
  split
  · exact h.reach
  · exact h.reach
  · exact h.reach

theorem Follows.noteOld {asid va : Nat} {old new : List Byte} (h : Follows s₀ s) : Follows s₀ (s.noteOld asid va old new) := by
  unfold State.noteOld
  exact h.modPkg

theorem Follows.writeDirect {asid va pa : Nat} {bs : List Byte} {bad : Bool} (h : Follows s₀ s) : Follows s₀ (s.writeDirect asid va pa bs bad) :=
  h.noteOld.writeHbm

theorem Follows.writeLine {h0 : HomeLine} {va : Nat} {bs : List Byte} {bad : Bool} (h : Follows s₀ s) : Follows s₀ (s.writeLine h0 va bs bad) := by
  unfold State.writeLine
  exact h.noteOld.modDie

theorem Follows.writeHome {asid va : Nat} {bs : List Byte} {bad : Bool} (h : Follows s₀ s) : Follows s₀ (s.writeHome asid va bs bad).1 := by
  unfold State.writeHome
  extract_lets r
  have hr : Follows s₀ r.1 := h.reach
  split
  · exact h.reach
  · exact hr.writeDirect
  · exact hr.writeLine

theorem Follows.gateway {from_ to_ n : Nat} (h : Follows s₀ s) : Follows s₀ (s.gateway from_ to_ n) := h.ite h.countDie

theorem Follows.readDev {x asid va n : Nat} (h : Follows s₀ s) : Follows s₀ (s.readDev x asid va n).1 := by
  unfold State.readDev
  extract_lets d r room
  have hr : Follows s₀ r.1 := h.reach
  split
  · exact h.readHome
  · split
    · exact Follows.countDie (h.modDie (fun _ hd => hd.putGuest))
    · split
      · exact hr
      · exact hr.gateway
      · have hroom : ∀ k, room = some k → s₀.Canon → k.Canon := by
          intro k hk hs
          unfold room at hk
          split at hk
          · cases hk
          · exact ((hr.canon hs).die x).guestRoom hk
        clear_value room
        dsimp only
        split
        · exact hr.gateway
        · exact (Follows.countDie (hr.setDie (fun hs => (hroom _ rfl hs).putGuest))).gateway

theorem Follows.writeDev {x asid va : Nat} {bs : List Byte} {bad : Bool} {who : Writer} (h : Follows s₀ s) :
    Follows s₀ (s.writeDev x asid va bs bad who).1 := by
  unfold State.writeDev
  extract_lets d r wt
  have hr : Follows s₀ r.1 := h.reach
  split
  · exact h.writeHome
  · split
    · exact h.gateway.writeHome
    · split
      · exact hr
      · exact hr.gateway.writeDirect
      · exact hr.gateway.writeLine
      · next k _ hk =>
        extract_lets fresh g g1 s1
        have hs1 : Follows s₀ s1 := Follows.countDie (hr.setDie (fun hs => (((hr.canon hs).die x).guestRoom hk).putGuest))
        exact .ite hs1.countDie.gateway hs1

theorem Follows.atomDev {asid va n : Nat} {f : Nat → Nat} (h : Follows s₀ s) : Follows s₀ (s.atomDev asid va n f).1 := by
  unfold State.atomDev
  extract_lets r
  have hr : Follows s₀ r.1 := h.reach
  split
  · exact h.reach
  · split
    · exact h.reach
    · extract_lets o
      dsimp only
      exact hr.writeDirect
  · split
    · exact h.reach
    · exact hr.writeLine

theorem Follows.atomFrom {x asid va n : Nat} {f : Nat → Nat} (h : Follows s₀ s) : Follows s₀ (s.atomFrom x asid va n f).1 := h.atomDev.gateway.gateway

theorem Follows.fetchLine {c asid a : Nat} (h : Follows s₀ s) : Follows s₀ (s.fetchLine c asid a) := by
  unfold State.fetchLine
  split
  · exact h
  · extract_lets r u
    have hr : Follows s₀ r.1 := by
      unfold r
      split
      · exact h.readDev
      · exact h.readHome
    have hu : Follows s₀ u := by
      unfold u
      exact hr
    split
    · exact hr
    · exact hr.ite hu.upd.modCore

/-! ### Functions: control (Machine/Control) -/

theorem EffFollows.withTarget {i : Issue} {f : VAddr → Eff} (h : ∀ v, EffFollows s₀ (f v)) : EffFollows s₀ (withTarget i f) := by
  unfold Machine.withTarget
  extract_lets t
  split
  · trivial
  · exact h _

theorem Follows.jump {i : Issue} {pc : VAddr} (h : Follows s₀ i.s) : EffFollows s₀ (i.jump pc) := h

theorem Follows.nextInstr {c asid : Nat} {a : VAddr} (h : Follows s₀ s) : Follows s₀ (s.nextInstr c asid a).1 := h.fetchLine

theorem Follows.exitLanes {i : Issue} {sel : Mask} (h : Follows s₀ i.s) : Follows s₀ (exitLanes i sel).1 := by
  unfold Machine.exitLanes
  extract_lets left st u w1 s
  have hs : Follows s₀ s := h.setWarp
  split
  · exact h.setWarp
  · split
    · exact hs.warpExited
    · split
      · exact h.nextInstr.setWarp
      · exact h.setWarp

/-! ### Functions: local memory (Machine/Local) -/

theorem EffFollows.withAccess {ls : List LaneEa} {f : Unit → Eff} (h : EffFollows s₀ (f ())) : EffFollows s₀ (withAccess ls f) := by
  unfold Machine.withAccess
  split
  · trivial
  · exact h

theorem Follows.loadBody {kind : LoadKind} {n : Nat} {sext win : Bool} {i : Issue} (h : Follows s₀ i.s) :
    EffFollows s₀ (loadBody kind n sext win i) := by
  unfold Machine.loadBody
  extract_lets ls d u
  refine EffFollows.withAccess ?_
  split
  · trivial
  · exact h.modWarp

theorem Follows.stepLane {c slot idx l : Nat} (h : Follows s₀ s) : Follows s₀ (stepLane s c slot idx l) := by
  unfold Machine.stepLane
  split
  · exact h
  · split
    · split
      · exact h
      · split
        · exact h.setWarp
        · split
          · extract_lets t1 o1 s1 s2
            have hs1 : Follows s₀ s1 := h.setWarp
            have hs2 : Follows s₀ s2 := by
              unfold s2
              split
              · exact hs1.uncorrectable
              · exact hs1
            split
            · exact hs2.ite hs2.modCore
            · exact hs2.ite hs2.modCore
            · exact hs2
          · exact h
    · exact h

theorem Follows.ldsfAct {i : Issue} {n : Nat} {ls : List AtomLane} (h : Follows s₀ s) : EffFollows s₀ (ldsfAct i s n ls) := by
  unfold Machine.ldsfAct
  extract_lets k d real got o s1 s2 u
  have hk : s₀.Canon → k.Canon := fun hs => (h.canon hs).core _
  have hs1 : Follows s₀ s1 := h.setCore (fun hs => (hk hs).setTags.unwait)
  have hs2 : Follows s₀ s2 := by
    unfold s2
    split
    · exact hs1.uncorrectable
    · exact hs1
  exact hs2.modWarp

theorem Follows.stseAct {i : Issue} {n : Nat} {ls : List AtomLane} (h : Follows s₀ s) : EffFollows s₀ (stseAct i s n ls) :=
  EffFollows.to (h.setCore (fun hs => ((h.canon hs).core _).localWrite.setTags.unwait))

theorem EffFollows.tagAccess {full : Bool} {n : Nat} {ins : Instr} {act : Issue → State → Nat → List AtomLane → Eff} {i : Issue}
    (h : Follows s₀ i.s) (hact : ∀ s ls, Follows s₀ s → EffFollows s₀ (act i s n ls)) : EffFollows s₀ (tagAccess full n ins act i) := by
  unfold Machine.tagAccess
  extract_lets ls lns bad s k ws s1
  have hs : Follows s₀ s := h.drain
  clear_value bad
  split
  · trivial
  · split
    · trivial
    · split
      · exact hact _ _ hs
      · split
        · exact hs
        · exact Follows.countCore hs.modCore

/-! ### Functions: tiles (Machine/Tile) -/

theorem Follows.grantGrans {c gid : Nat} {lvl : Bool} {base n : Nat} (h : Follows s₀ s) : Follows s₀ (grantGrans s c gid lvl base n) := by
  unfold Machine.grantGrans
  extract_lets b
  refine h.foldl (fun _ _ h1 => (h1.modDie (fun _ hx => ?_)).ite (h1.modCore (fun _ hk => ?_)))
  · split
    · exact hx
    · exact ⟨Memory.wf_clear _ _ _ hx.staging⟩
  · split
    · exact hk
    · exact ⟨hk.scratch, Memory.wf_clear _ _ _ hk.tileMem, hk.weight, hk.acc, hk.grips⟩

theorem Follows.newTile {c gid : Nat} {lvl : Bool} {fmt rows cols : Nat} (h : Follows s₀ s) : Follows s₀ (newTile s c gid lvl fmt rows cols).1 := by
  unfold Machine.newTile
  extract_lets rs n
  split
  · exact h
  · exact h.upd.grantGrans

theorem Follows.setHandle {c : Nat} {g : Group} {h0 : Nat} {e : TileEntry} (h : Follows s₀ s) : Follows s₀ (s.setHandle c g h0 e) := h.modCore

theorem UnitStore.Canon.put {u : UnitStore} {ws : List (Nat × Nat)} (h : u.Canon) : (u.put ws).Canon :=
  ⟨Memory.wf_foldl h.mem (fun _ _ hm => Memory.wf_writeV _ _ _ _ hm)⟩

theorem UnitStore.Canon.tileStore {k : Core} (h : k.Canon) : k.tileStore.Canon := ⟨h.tileMem⟩

theorem Core.Canon.setTileStore {k : Core} {u : UnitStore} (h : k.Canon) (hu : u.Canon) : (k.setTileStore u).Canon :=
  ⟨h.scratch, hu.mem, h.weight, h.acc, h.grips⟩

theorem UnitStore.Canon.accStore {k : Core} (h : k.Canon) : k.accStore.Canon := ⟨h.acc⟩

theorem Core.Canon.setAccStore {k : Core} {u : UnitStore} (h : k.Canon) (hu : u.Canon) : (k.setAccStore u).Canon :=
  ⟨h.scratch, h.tileMem, h.weight, hu.mem, h.grips⟩

theorem Core.Canon.takeTicket {k : Core} {phys : Nat} (h : k.Canon) : (k.takeTicket phys).Canon := h.upd

theorem Follows.addAcc {i : Issue} {counted : Bool} {kind : TileKind} {n row count dst : Nat} {regs : List (List Word)} (h : Follows s₀ s) :
    Follows s₀ (addAcc s i counted kind n row count dst regs) := h.modCore.modWarp

theorem Follows.landTile {c slot : Nat} {o : TileOp} (h : Follows s₀ s) : Follows s₀ (landTile s c slot o) := by
  unfold Machine.landTile
  extract_lets k cells s1
  have hk : s₀.Canon → k.Canon := fun hs => (h.canon hs).core _
  have hs1 : Follows s₀ s1 := h.modWarp
  split
  · exact hs1
  · exact hs1.uncorrectable.modWarp

theorem Core.Canon.writeTile {k : Core} {o : TileOp} (h : k.Canon) : (writeTile k o).Canon := by
  unfold Machine.writeTile
  extract_lets ls v
  split
  · exact h.setTileStore ((UnitStore.Canon.tileStore h).put)
  · exact h.setAccStore ((UnitStore.Canon.accStore h).put)
  · exact ⟨h.scratch, h.tileMem, h.weight, Memory.wf_clear _ _ _ h.acc, h.grips⟩

theorem Follows.catchTileWord {core slot idx r l : Nat} (h : Follows s₀ s) : Follows s₀ (catchTileWord core slot idx r l s) := by
  unfold Machine.catchTileWord
  split
  · exact h
  · split
    · exact h
    · exact h.modWarp.ite ((h.modCore (fun _ hk => hk.setTileStore ((UnitStore.Canon.tileStore hk).put))).modWarp.ite h)

theorem Core.Canon.dropTicket {k : Core} {phys t : Nat} (h : k.Canon) : (k.dropTicket phys t).Canon := h.upd

theorem Follows.invalidateCode {c scope : Nat} (h : Follows s₀ s) : Follows s₀ (invalidateCode s c scope) := by
  unfold Machine.invalidateCode
  refine h.mapCores (fun _ _ hk => ?_)
  split
  · exact hk.upd
  · exact hk

/-! ### Functions: the matrix unit (Machine/Matrix) -/

theorem Follows.freeValue (h : Follows s₀ s) : Follows s₀ (s.freeValue).1 := h.upd

theorem Follows.endUnit {c gid tl seq : Nat} {pc : DWord} {slot status : Nat} {at_ : Option (Nat × Nat)} (h : Follows s₀ s) :
    Follows s₀ (s.endUnit c gid tl seq pc slot status at_) := by
  unfold State.endUnit
  split
  · exact h.complete
  · split
    · exact h.complete
    · exact h.freeValue.freeValue.complete

theorem Follows.posted {i : Issue} {n : Nat} (h : Follows s₀ s) : EffFollows s₀ (i.posted s n) := EffFollows.to h.modWarp

theorem Core.Canon.takeTickets {k : Core} {ps : List Nat} (h : k.Canon) : (takeTickets k ps).1.Canon := by
  induction ps generalizing k with
  | nil => exact h
  | cons p t ih => exact ih h.takeTicket

theorem UnitStore.Canon.patch {u : UnitStore} {seen : Tab (Nat × Bool)} (h : u.Canon) : (u.patch seen).Canon :=
  ⟨Memory.wf_foldl h.mem (fun _ _ hm => Memory.wf_writeV _ _ _ _ hm)⟩

theorem Core.Canon.asSeen {k : Core} {scratch : Bool} {seen : Tab (Nat × Bool)} (h : k.Canon) : (k.asSeen scratch seen).Canon := by
  unfold Core.asSeen
  split
  · exact ⟨Memory.wf_foldl h.scratch (fun _ _ hx => Memory.wf_writeV _ _ _ _ hx), h.tileMem, h.weight, h.acc, h.grips⟩
  · exact h.setTileStore ((UnitStore.Canon.tileStore h).patch)

theorem Follows.unitRead {core : Nat} {scan : Bool} {w : Nat} (h : Follows s₀ s) : Follows s₀ (unitRead core scan w s) := by
  unfold Machine.unitRead
  refine h.modCore (fun _ hk => ?_)
  split
  · exact hk.upd
  · exact hk.upd

theorem Core.Canon.unitEnds {k : Core} (h : k.Canon) : k.unitEnds.Canon := h.upd

theorem Core.Canon.countUnits {k : Core} {us : List Nat} (h : k.Canon) : (k.countUnits us).Canon := h.foldl (fun _ _ hk => hk.uncorrectable)

theorem Core.Canon.mmaLast {k : Core} {r : MatRun} (h : k.Canon) : (k.mmaLast r).Canon := by
  unfold Core.mmaLast
  split
  · exact h
  · split
    · exact h.countUnits.upd.unitEnds
    · exact h.upd.unitEnds

theorem Core.Canon.chunkLast {k : Core} {r : ScanRun} (h : k.Canon) : (k.chunkLast r).Canon := by
  unfold Core.chunkLast
  split
  · exact h
  · split
    · exact h
    · extract_lets v kv n ts hs bad h' x u
      have hkv : kv.Canon := h.asSeen
      have hu : u.Canon := by
        unfold u
        split
        · exact h.uncorrectable
        · exact h
      exact hu.upd.unitEnds

theorem Core.Canon.stepTick {k : Core} (h : k.Canon) : k.stepTick.Canon := by
  unfold Core.stepTick
  split
  · exact h
  · split
    · exact h.upd.count
    · extract_lets k1
      have hk1 : k1.Canon := h.upd.count
      split
      · split
        · exact hk1.mmaLast
        · exact hk1.upd
      · split
        · split
          · exact hk1.chunkLast
          · exact hk1.upd
        · exact hk1

theorem Core.Canon.laneTick {k : Core} (h : k.Canon) : k.laneTick.Canon := by
  unfold Core.laneTick
  split
  · exact h
  · split
    · exact h
    · exact h.upd.count

theorem Core.Canon.wbldLast {k : Core} {r : MatRun} (h : k.Canon) : (k.wbldLast r).Canon := by
  unfold Core.wbldLast
  split
  · exact h
  · split
    · extract_lets bs at_ bad first u
      have hu : u.Canon := by
        unfold u
        split
        · exact h.uncorrectable
        · exact h
      exact hu.upd
    · exact h

theorem Core.Canon.wbldTick {k : Core} (h : k.Canon) : k.wbldTick.Canon := by
  unfold Core.wbldTick
  split
  · exact h
  · split
    · exact h
    · split
      · exact h.wbldLast
      · exact h.upd

theorem Core.Canon.newWindow {k : Core} (h : k.Canon) : k.newWindow.Canon := by
  unfold Core.newWindow
  split
  · exact h
  · exact h.upd

theorem Core.Canon.unitTick {k : Core} (h : k.Canon) : k.unitTick.Canon := h.laneTick.wbldTick.stepTick

theorem Core.Canon.forget {k : Core} {gid : Nat} (h : k.Canon) : (k.forget gid).Canon := h.upd.foldl (fun _ _ hk => hk.dropTicket)

theorem Follows.scanStep {core : Nat} (h : Follows s₀ s) : Follows s₀ (scanStep core s) := by
  unfold Machine.scanStep
  extract_lets k
  have hk : s₀.Canon → k.Canon := fun hs => (h.canon hs).core _
  split
  · split
    · extract_lets v kv h' bad x u
      have hkv : s₀.Canon → kv.Canon := fun hs => (hk hs).asSeen
      have hu : s₀.Canon → u.Canon := by
        intro h1
        unfold u
        split
        · exact (hk h1).uncorrectable
        · exact hk h1
      exact h.ite (h.setCore (fun hs => (hu hs).upd))
    · exact h
  · exact h

theorem Follows.scanWrite {core : Nat} {which : Option Nat} (h : Follows s₀ s) : Follows s₀ (scanWrite core which s) := by
  unfold Machine.scanWrite
  refine h.modCore (fun _ hk => ?_)
  split
  · exact hk
  · exact (hk.setTileStore ((UnitStore.Canon.tileStore hk).put)).upd

theorem Follows.scanMove {core : Nat} {which : Option Nat} (h : Follows s₀ s) : Follows s₀ (scanMove core which s) := by
  unfold Machine.scanMove
  refine h.modCore (fun _ hk => ?_)
  split
  · exact hk
  · extract_lets c ws bad ps u
    have hu : u.Canon := by
      unfold u
      refine Core.Canon.setTileStore ?_ ((UnitStore.Canon.tileStore hk).put)
      split
      · exact hk.uncorrectable
      · exact hk
    exact hu.upd

theorem Core.Canon.writeScanRecord {k : Core} {g : Group} {a : ScanArgs} {status l : Nat} (h : k.Canon) : (writeScanRecord k g a status l).Canon := by
  unfold Machine.writeScanRecord
  split
  · exact h.localWrite.setTags
  · exact h

/-! ### Functions: system instructions (Machine/System) -/

theorem Core.Canon.readErrstat {k : Core} (h : k.Canon) : k.readErrstat.Canon := h.upd

theorem EffFollows.sscmdTrap : EffFollows s₀ sscmdTrap := trivial

theorem Follows.doSpill {i : Issue} (h : Follows s₀ i.s) : EffFollows s₀ (doSpill i) := by
  unfold Machine.doSpill
  extract_lets s
  have hs : Follows s₀ s := h.drain
  split
  · exact hs
  · extract_lets c k
    split
    · exact EffFollows.sscmdTrap
    · split
      · trivial
      · exact EffFollows.to hs.setWarp

theorem Follows.doFill {i : Issue} (h : Follows s₀ i.s) : EffFollows s₀ (doFill i) := by
  unfold Machine.doFill
  extract_lets s
  have hs : Follows s₀ s := h.drain
  split
  · exact hs
  · extract_lets c k
    split
    · exact EffFollows.sscmdTrap
    · split
      · trivial
      · split
        · exact hs.trapRead
        · exact EffFollows.to hs.setWarp

theorem Follows.doPop {i : Issue} (h : Follows s₀ i.s) : EffFollows s₀ (doPop i) := by
  unfold Machine.doPop
  extract_lets s
  have hs : Follows s₀ s := h.drain
  split
  · exact EffFollows.sscmdTrap
  · exact EffFollows.to hs.modWarp

theorem Follows.doPush {i : Issue} (h : Follows s₀ i.s) : EffFollows s₀ (doPush i) := by
  unfold Machine.doPush
  extract_lets s
  have hs : Follows s₀ s := h.drain
  split
  · exact EffFollows.sscmdTrap
  · exact EffFollows.to hs.modWarp

theorem Follows.sscmdOp {i : Issue} {v : Nat} (h : Follows s₀ i.s) : EffFollows s₀ (sscmdOp i v) := by
  unfold Machine.sscmdOp
  split
  · exact h.doSpill
  · exact h.doFill
  · exact h.doPop
  · exact h.doPush
  · exact EffFollows.sscmdTrap

theorem Follows.mtsBody {n : Nat} {i : Issue} (h : Follows s₀ i.s) : EffFollows s₀ (mtsBody n i) := by
  unfold Machine.mtsBody
  extract_lets v
  split
  · exact h.sscmdOp
  · split
    · exact EffFollows.to h.modWarp
    · split
      · exact EffFollows.to h.modCore
      · exact EffFollows.to h.modGroup

theorem Follows.afterEret {c gid : Nat} (h : Follows s₀ s) : Follows s₀ (s.afterEret c gid) := by
  unfold State.afterEret
  split
  · exact (h.gripsResume.modGroup.gripsSave.ite h.gripsResume.modGroup).ite h
  · exact h

theorem Follows.takePreempts {c gid : Nat} (h : Follows s₀ s) : Follows s₀ (s.takePreempts c gid) := by
  unfold State.takePreempts
  refine h.foldl (fun _ _ h1 => ?_)
  split
  · exact h1.setWarp.takeTrap
  · exact h1

theorem Follows.startPreempt {c gid : Nat} (h : Follows s₀ s) : Follows s₀ (s.startPreempt c gid) := by
  unfold State.startPreempt
  split
  · exact h
  · exact h.ite ((h.setGroup.ite h.setGroup.gripsSave).modCore.takePreempts)

theorem Follows.refuse (h : Follows s₀ s) : Follows s₀ (s.refuse) := h.upd

theorem Follows.told {r : State × Bool} (h : Follows s₀ s) (hr : Follows s₀ r.1) : Follows s₀ (s.told r) := by
  unfold State.told
  split
  · exact hr.upd
  · exact h.refuse

theorem Follows.transact {f : State → State × Bool} (h : Follows s₀ s) (hf : ∀ t, Follows s₀ t → Follows s₀ (f t).1) : Follows s₀ (s.transact f) :=
  (h.told (hf _ h)).ite h.refuse

theorem Core.Canon.freeze {k : Core} {sched : Nat} (h : k.Canon) : (k.freeze sched).Canon := h.foldl (fun _ _ hk => hk.setSched)

theorem Core.Canon.restartWaits {k : Core} (h : k.Canon) : k.restartWaits.Canon := h.upd

theorem Core.Canon.writeDbgctl {k : Core} {v : Nat} (h : k.Canon) : (k.writeDbgctl v).Canon := by
  unfold Core.writeDbgctl
  extract_lets k1 u
  have hk1 : k1.Canon := h.upd
  have hu : u.Canon := hk1.restartWaits
  split
  · exact hk1.restartWaits.upd
  · exact hk1

/-! ### Functions: counters (Machine/Counter) -/

theorem Follows.putBar {c gid n : Nat} {b : Barrier} (h : Follows s₀ s) : Follows s₀ (s.putBar c gid n b) := h.modGroup

theorem Follows.ballocAt {i : Issue} {n : Nat} (h : Follows s₀ i.s) : EffFollows s₀ (ballocAt i n) := h.putBar

theorem Follows.ballocSet {i : Issue} (h : Follows s₀ i.s) : EffFollows s₀ (ballocSet i) := by
  unfold Machine.ballocSet
  split
  · trivial
  · exact h.putBar

theorem Follows.arriveBody {i : Issue} {weight : Nat} (h : Follows s₀ i.s) : EffFollows s₀ (arriveBody i weight) := by
  unfold Machine.arriveBody
  split
  · trivial
  · split
    · trivial
    · exact h.modWarp

theorem Follows.granted {port : PortRef} {r : Nat × Nat × Nat} (h : Follows s₀ s) : Follows s₀ (s.granted port r) := by
  unfold State.granted
  split
  · exact h.modCore.ite h.modCtx
  · exact h.modDie

/-! ### Functions: the copy engine (Machine/Engine) -/

theorem Follows.mod {j : Job} {f : EngCtx → EngCtx} (h : Follows s₀ s) : Follows s₀ (j.mod s f) := h.modCtx

theorem Follows.useWindow {c e x asid n : Nat} (h : Follows s₀ s) : Follows s₀ (s.useWindow c e x asid n).1 := by
  unfold State.useWindow
  split
  · exact h
  · extract_lets w
    dsimp only
    exact h.modCtx

theorem Follows.modStream {dev tc : Nat} {f : Stream → Stream} (h : Follows s₀ s) : Follows s₀ (s.modStream dev tc f) := h.modPkg

theorem Follows.transmit {dev : Nat} {is : List Request} (h : Follows s₀ s) : Follows s₀ (s.transmit dev is) := h.upd

theorem Follows.sendPacket {dev tc : Nat} {replay : Option (BitVec 32)} {o : OutPacket} (h : Follows s₀ s) :
    Follows s₀ (s.sendPacket dev tc replay o).1 := h.modStream.transmit

theorem Follows.releaseStreams {who : Nat × Nat × Nat × Nat} (h : Follows s₀ s) : Follows s₀ (s.releaseStreams who) := h.modPkg

theorem Follows.send {j : Job} {dev kind u count off flits : Nat} {body : Request} (h : Follows s₀ s) :
    Follows s₀ (j.send s dev kind u count off flits body) := (h.sendPacket.ite h.sendPacket.modStream).mod

theorem Follows.askPort {c e x qos : Nat} (h : Follows s₀ s) : Follows s₀ (s.askPort c e x qos) := h.ite h.modCtx.modCore

theorem Follows.spend {c e x n : Nat} (h : Follows s₀ s) : OptFollows s₀ (s.spend c e x n) := by
  unfold State.spend
  split
  · trivial
  · exact h.modCtx

theorem Follows.readVa {x asid fuel va n : Nat} {index : Bool} (h : Follows s₀ s) : Follows s₀ (s.readVa x asid index fuel va n).1 := by
  induction fuel generalizing s va n with
  | zero => exact h
  | succ fuel ih =>
    unfold State.readVa
    split
    · exact h
    · extract_lets m r t
      have hr : Follows s₀ r.1 := h.readDev
      have ht : Follows s₀ t.1 := ih hr
      split
      · exact h.readDev
      · split
        · exact ih hr
        · exact ih hr

theorem Follows.readPiece {j : Job} {t : Option TileRef} {index : Bool} {p : Piece} (h : Follows s₀ s) : Follows s₀ (s.readPiece j t index p).1 := by
  unfold State.readPiece
  split
  · exact h
  · split
    · extract_lets k
      have hk : s₀.Canon → k.Canon := fun hs => (h.canon hs).core _
      split
      · exact h
      · exact h
    · split
      · exact h
      · split
        · exact h
        · exact h.readVa

theorem Follows.readPieces {j : Job} {t : Option TileRef} {ps : List Piece} (h : Follows s₀ s) : Follows s₀ (s.readPieces j t ps).1 := by
  induction ps generalizing s with
  | nil => exact h
  | cons p ps ih =>
    unfold State.readPieces
    extract_lets r q
    have hr : Follows s₀ r.1 := h.readPiece
    have hq : Follows s₀ q.1 := ih hr
    split
    · exact h.readPiece
    · split
      · exact ih hr
      · exact ih hr

theorem Follows.mayWrite {asid va : Nat} (h : Follows s₀ s) : Follows s₀ (s.mayWrite asid va).1 := by
  unfold State.mayWrite
  split
  · exact h
  · extract_lets r drop
    have hr : Follows s₀ r.1 := h.translateFor
    have hdrop : Follows s₀ drop := hr.modDie
    split
    · exact h.translateFor
    · split
      · dsimp only
        exact hdrop
      · split
        · exact h.translateFor
        · dsimp only
          exact hdrop

theorem Follows.mayWriteSpan {asid fuel va n : Nat} (h : Follows s₀ s) : Follows s₀ (s.mayWriteSpan asid fuel va n).1 := by
  induction fuel generalizing s va n with
  | zero => exact h
  | succ fuel ih =>
    unfold State.mayWriteSpan
    split
    · exact h
    · extract_lets r m
      have hr : Follows s₀ r.1 := h.mayWrite
      split
      · exact h.mayWrite
      · exact ih hr

theorem Follows.checkPiece {j : Job} {t : Option TileRef} {q right : Nat} {p : Piece} (h : Follows s₀ s) :
    Follows s₀ (s.checkPiece j t q right p).1 := by
  unfold State.checkPiece
  split
  · exact h
  · split
    · exact h
    · split
      · extract_lets id addr r
        have hr : Follows s₀ r.1 := h.useWindow
        split
        · exact h
        · exact h.useWindow
      · split
        · exact h
        · exact h.mayWriteSpan

theorem Follows.checkPieces {j : Job} {t : Option TileRef} {q right : Nat} {ps : List Piece} (h : Follows s₀ s) :
    Follows s₀ (s.checkPieces j t q right ps).1 := by
  induction ps generalizing s with
  | nil => exact h
  | cons p ps ih =>
    unfold State.checkPieces
    extract_lets r
    have hr : Follows s₀ r.1 := h.checkPiece
    split
    · exact h.checkPiece
    · exact ih hr

theorem Follows.indexOf {j : Job} {u : Nat} (h : Follows s₀ s) : Follows s₀ (s.indexOf j u).1 := by
  unfold State.indexOf
  split
  · exact h
  · extract_lets sp
    split
    · exact h
    · split
      · exact h
      · extract_lets r
        have hr : Follows s₀ r.1 := h.readPiece
        split
        · exact h.readPiece
        · extract_lets v
          split
          · exact h.readPiece
          · split
            · exact h.readPiece
            · exact h.readPiece

theorem Follows.placeOf {j : Job} {u : Nat} (h : Follows s₀ s) : Follows s₀ (s.placeOf j u).1 := by
  unfold State.placeOf
  split
  · exact h
  · extract_lets r
    have hr : Follows s₀ r.1 := h.indexOf
    split
    · exact h.indexOf
    · exact h.indexOf

theorem Follows.checkPlace {j : Job} {pl : Place} (h : Follows s₀ s) : Follows s₀ (s.checkPlace j pl).1 := by
  unfold State.checkPlace
  extract_lets r
  have hr : Follows s₀ r.1 := by
    unfold r
    refine h.foldlFst (fun _ _ h1 => ?_)
    split
    · exact h1
    · exact h1.checkPieces
  split
  · dsimp only
    exact hr
  · exact hr.checkPieces

theorem Follows.checkFlag {j : Job} (h : Follows s₀ s) : Follows s₀ (s.checkFlag j).1 := by
  unfold State.checkFlag
  split
  · exact h
  · exact h.useWindow

theorem Follows.clearUnit {j : Job} {u : Nat} (h : Follows s₀ s) : Follows s₀ (s.clearUnit j u).1 := by
  unfold State.clearUnit
  split
  · exact h
  · extract_lets p
    have hp : Follows s₀ p.1 := h.placeOf
    split
    · exact h.placeOf
    · extract_lets r
      have hr : Follows s₀ r.1 := hp.readPieces
      split
      · exact hp.readPieces
      · exact hr.checkPlace

theorem Follows.store {j : Job} {u : Nat} {r : Cleared} (h : Follows s₀ s) : Follows s₀ (j.store s u r) := h.mod

theorem Follows.failAt {j : Job} {u status : Nat} {addr : DWord} {space : Nat} (h : Follows s₀ s) : Follows s₀ (j.failAt s u status addr space) :=
  h.mod

theorem Follows.stuck {j : Job} {u : Nat} {e : UnitErr} (h : Follows s₀ s) : Follows s₀ (j.stuck s u e) := by
  unfold Job.stuck
  split
  · exact h.failAt.ite h
  · exact h

theorem Follows.pay {j : Job} {wr : Bool} {u i : Nat} {p : Piece} {t : Option TileRef} (h : Follows s₀ s) : OptFollows s₀ (j.pay s wr u i p t) := by
  unfold Job.pay
  split
  · exact h
  · split
    · exact h.mod
    · split
      · trivial
      · next e => exact (h.spend.some e).mod

theorem Follows.countRead {c : Nat} {t : Option TileRef} {p : Piece} {b : Marked} (h : Follows s₀ s) : Follows s₀ (s.countRead c t p b) := by
  unfold State.countRead
  split
  · exact h
  · split
    · exact h.ite h.uncorrectable
    · exact h.uncorrectable.ite h

theorem Follows.readIndex {j : Job} {u : Nat} (h : Follows s₀ s) : Follows s₀ (j.readIndex s u) := by
  unfold Job.readIndex
  split
  · exact h.askPort
  · next s1 e =>
    have hs1 : Follows s₀ s1 := (OptFollows.ite (o := some s) h h.spend).some e
    extract_lets r p
    have hr : Follows s₀ r.1 := hs1.indexOf
    split
    · exact hr.stuck
    · exact (hr.countRead.ite hr).mod

theorem Follows.clear {j : Job} {pl : Place} {u : Nat} {b : Marked} (h : Follows s₀ s) : Follows s₀ (j.clear s pl u b) := by
  unfold Job.clear
  extract_lets fl k
  have hfl : Follows s₀ fl.1 := by
    unfold fl
    split
    · exact h.checkFlag
    · exact h
  have hk : Follows s₀ k.1 := by
    unfold k
    split
    · dsimp only
      exact hfl
    · exact hfl.checkPlace
  split
  · exact hk.mod.stuck
  · exact hk.store

theorem Follows.readItem {j : Job} {pl : Place} {u i : Nat} (h : Follows s₀ s) : Follows s₀ (j.readItem s pl u i) := by
  unfold Job.readItem
  extract_lets its
  split
  · exact h.clear.ite h
  · split
    · exact h
    · split
      · exact h.askPort
      · next e =>
          extract_lets r
          have hr : Follows s₀ r.1 := (h.pay.some e).readPiece
          split
          · exact hr.stuck
          · extract_lets s2
            have hs2 : Follows s₀ s2 := hr.countRead.mod
            split
            · exact hs2.clear
            · exact hs2

theorem Follows.read {j : Job} {u i : Nat} (h : Follows s₀ s) : Follows s₀ (j.read s u i) := by
  unfold Job.read
  extract_lets x now
  split
  · exact h
  · split
    · exact h.stuck
    · split
      · exact h.readIndex
      · split
        · exact h.stuck
        · exact h.readItem

theorem Core.Canon.localPoisonAt {k : Core} {g : Group} {a : Nat} (h : k.Canon) : (localPoisonAt k g a).Canon := by
  unfold Machine.localPoisonAt
  split
  · exact h.upd
  · split
    · exact h
    · exact h.upd
  · exact h

theorem Follows.writeLocal {c : Nat} {g : Group} {a : Nat} {e : Elem} {full : Bool} (h : Follows s₀ s) : Follows s₀ (s.writeLocal c g a e full) := by
  unfold State.writeLocal
  refine h.modCore (fun _ hk => ?_)
  extract_lets k1 k2
  have hk1 : k1.Canon := hk.localWrite
  have hk2 : k2.Canon := hk1.foldl (fun _ _ hk2 => hk2.localPoisonAt)
  split
  · exact hk2.setTags
  · exact hk2

theorem Follows.writeTileBytes {c : Nat} {t : TileRef} {off : Nat} {e : Elem} (h : Follows s₀ s) : Follows s₀ (s.writeTileBytes c t off e) := by
  unfold State.writeTileBytes
  exact Follows.ite (h.modDie (fun _ hx => ⟨Memory.wf_writeN _ _ _ hx.staging⟩))
    (h.modCore (fun _ hk => ⟨hk.scratch, Memory.wf_writeN _ _ _ hk.tileMem, hk.weight, hk.acc, hk.grips⟩))

theorem Follows.writeVa {x asid fuel va : Nat} {who : Writer} {e : Elem} (h : Follows s₀ s) : Follows s₀ (s.writeVa x asid who fuel va e).1 := by
  induction fuel generalizing s va e with
  | zero => exact h
  | succ fuel ih =>
    unfold State.writeVa
    split
    · exact h
    · extract_lets m p r
      have hr : Follows s₀ r.1 := h.writeDev
      split
      · exact h.writeDev
      · exact ih hr

theorem Follows.writePiece {j : Job} {t : Option TileRef} {u : Nat} {p : Piece} {e : Elem} {full : Bool} (h : Follows s₀ s) :
    Follows s₀ (s.writePiece j t u p e full).1 := by
  unfold State.writePiece
  split
  · exact h.writeTileBytes
  · split
    · exact h.writeLocal
    · split
      · dsimp only
        exact h.modPkg (fun _ hx => ⟨hx.hbm, Memory.wf_writeN _ _ _ hx.comp⟩)
      · exact h.writeVa

theorem Follows.multicast {j : Job} {u d : Nat} {its : List Item} {e : Elem} (h : Follows s₀ s) : Follows s₀ (s.multicast j u d its e) :=
  h.modDie.countDie

theorem Follows.countWritten {c n : Nat} (h : Follows s₀ s) : Follows s₀ (s.countWritten c n) := h.countCore

theorem Follows.staleReads {j : Job} {u : Nat} (h : Follows s₀ s) : Follows s₀ (j.staleReads s u) := h.modPkg

theorem Follows.unclear {j : Job} {u : Nat} (h : Follows s₀ s) : Follows s₀ (j.unclear s u) := (h.staleReads.ite h).mod

theorem Follows.wroteItem {j : Job} {pl : Place} {u i n : Nat} (h : Follows s₀ s) : Follows s₀ (j.wroteItem s pl u i n) := h.countWritten.mod

theorem Follows.writeUnit {j : Job} {u i : Nat} (h : Follows s₀ s) : OptFollows s₀ (j.writeUnit s u i) := by
  unfold Job.writeUnit
  split
  · trivial
  · split
    · trivial
    · split
      · exact h.unclear
      · split
        · trivial
        · split
          · trivial
          · split
            · exact h.askPort
            · next e =>
                extract_lets r
                have hr : Follows s₀ r.1 := (h.pay.some e).writePiece
                split
                · exact hr.unclear
                · exact hr.wroteItem
        · split
          · exact h.askPort
          · next e => exact (h.spend.some e).multicast.wroteItem

theorem Follows.returnOld {j : Job} {u : Nat} (h : Follows s₀ s) : Follows s₀ (j.returnOld s u) := by
  unfold Job.returnOld
  split
  · split
    · exact h
    · split
      · exact h.askPort
      · next e =>
          extract_lets n r
          have hr : Follows s₀ r.1 := (h.pay.some e).writePiece
          split
          · exact hr
          · split
            · exact hr.failAt
            · exact hr
          · exact hr.countWritten.mod
  · exact h

theorem Follows.sendPiece {j : Job} {u n va off len : Nat} (h : Follows s₀ s) : Follows s₀ (j.sendPiece s u n va off len) :=
  h.foldl (fun _ _ h1 => h1.useWindow.send)

theorem Follows.sendNext {j : Job} {u n : Nat} (h : Follows s₀ s) : OptFollows s₀ (j.sendNext s u n) := by
  unfold Job.sendNext
  extract_lets x sp len reps whole
  split
  · trivial
  · split
    · trivial
    · split
      · exact h.failAt
      · split
        · trivial
        · split
          · exact h.askPort
          · next e =>
            have hs := h.spend.some e
            refine Follows.ite (Follows.releaseStreams ?_) ?_ <;>
              exact ((hs.ite hs.sendPiece).modStream.ite (hs.ite hs.sendPiece)).countWritten.mod

theorem Follows.readBlocked {j : Job} {u : Nat} (h : Follows s₀ s) : Follows s₀ (j.readBlocked s u).1 := by
  unfold Job.readBlocked
  split
  · exact h
  · extract_lets p
    have hp : Follows s₀ p.1 := h.placeOf
    split
    · exact h.placeOf
    · extract_lets a
      have ha : Follows s₀ a.1 := hp.checkPieces
      split
      · exact hp.checkPieces
      · exact ha.checkPieces

theorem Follows.readRun {j : Job} {n u : Nat} (h : Follows s₀ s) : Follows s₀ (j.readRun n s u).1 := by
  induction n generalizing s u with
  | zero => exact h
  | succ n ih =>
    unfold Job.readRun
    extract_lets b r
    have hb : Follows s₀ b.1 := h.readBlocked
    have hr : Follows s₀ r.1 := ih hb
    split
    · exact h.readBlocked
    · exact ih hb

theorem Follows.readWindow {j : Job} {u : Nat} (h : Follows s₀ s) : Follows s₀ (j.readWindow s u) := by
  unfold Job.readWindow
  extract_lets x r
  have hr : Follows s₀ r.1 := h.readRun
  split
  · exact h
  · split
    · exact hr.stuck
    · exact hr.sendNext.getD h

theorem Follows.sendFlag {j : Job} (h : Follows s₀ s) : Follows s₀ (j.sendFlag s) := by
  unfold Job.sendFlag
  extract_lets x w
  have hw : Follows s₀ w.1 := h.useWindow
  split
  · exact h
  · split
    · split
      · exact h.askPort
      · next e => exact (hw.spend.some e).send.mod.releaseStreams
    · exact h

/-! ### Functions: copies (Machine/Copy) -/

theorem Follows.pushCmd {c : Nat} {m : Cmd} (h : Follows s₀ s) : Follows s₀ (s.pushCmd c m) := h.modGroup.modCore

theorem Follows.postSlate {c gid poster : Nat} {pc : DWord} {r : List DWord} (h : Follows s₀ s) : Follows s₀ (s.postSlate c gid poster pc r).1 := by
  unfold State.postSlate
  split
  · exact h
  · exact h.takeSeq.pushCmd

theorem Follows.noteDrained {c lo : Nat} (h : Follows s₀ s) : Follows s₀ (s.noteDrained c lo) := h.modCore

theorem Follows.drainFull {c sched : Nat} (h : Follows s₀ s) : Follows s₀ (s.drainFull c sched) := h.drainRed.noteDrained

theorem Follows.placeRed {c sched : Nat} {n : RedEntry} (h : Follows s₀ s) : Follows s₀ (s.placeRed c sched n) := by
  unfold State.placeRed
  extract_lets put s1
  have hs1 : Follows s₀ s1 := h.drainFull
  split
  · exact h.modCore
  · exact hs1.modCore

theorem Follows.endFlush {c gid : Nat} {f : Flush} (h : Follows s₀ s) : Follows s₀ (s.endFlush c gid f) := by
  unfold State.endFlush
  split
  · exact h.complete
  · exact h.complete

theorem Follows.endFlushes {c gid : Nat} (h : Follows s₀ s) : Follows s₀ (s.endFlushes c gid) := by
  unfold State.endFlushes
  split
  · exact h
  · exact h.setGroup.foldl (fun _ _ h1 => h1.endFlush)

theorem Follows.raiseG {d : Nat} (h : Follows s₀ s) : Follows s₀ (s.raiseG d) := h.modDie.countDie

theorem Follows.passMarks {c gid n : Nat} (h : Follows s₀ s) : Follows s₀ (s.passMarks c gid n) := by
  induction n generalizing s with
  | zero => exact h
  | succ n ih =>
    unfold State.passMarks
    split
    · exact h
    · split
      · exact h
      · exact (ih (h.setGroup.raiseG.ite h.setGroup)).ite h

theorem Follows.unmarked {c gid n : Nat} (h : Follows s₀ s) : Follows s₀ (s.unmarked c gid n).1 := by
  unfold State.unmarked
  split
  · exact h
  · exact h.passMarks

theorem Follows.flushStep {c gid : Nat} (h : Follows s₀ s) : Follows s₀ (s.flushStep c gid) := by
  unfold State.flushStep
  split
  · exact h
  · exact h.passMarks.endFlushes

theorem Follows.flushEnd {core gid : Nat} (h : Follows s₀ s) : Follows s₀ (flushEnd core gid s) := h.flushStep

theorem Follows.startFlush {i : Issue} {tl cscope : Nat} (h : Follows s₀ i.s) : Follows s₀ (i.startFlush tl cscope).1 := by
  unfold Issue.startFlush
  extract_lets lo s1 new sq s2
  have hs1 : Follows s₀ s1 := h.drainRed.modGroup
  have hsq : Follows s₀ sq.1 := hs1.takeSeq
  have hs2 : Follows s₀ s2 := hsq.modGroup
  dsimp only
  exact hs2.modCore.flushStep

theorem Follows.nextEntry {c e : Nat} {ms : List Cmd} (h : Follows s₀ s) : Follows s₀ (s.nextEntry c e ms).1 := by
  induction ms generalizing s with
  | nil => exact h
  | cons m t ih =>
    unfold State.nextEntry
    extract_lets u
    have hu : Follows s₀ u.1 := h.unmarked
    split
    · exact h.unmarked
    · exact ih hu

theorem Follows.copyRead {core engine ctx u i : Nat} (h : Follows s₀ s) : Follows s₀ (copyRead core engine ctx u i s) := by
  unfold Machine.copyRead
  split
  · exact h
  · exact h.readWindow.ite h.read

theorem Follows.copyWrite {core engine ctx u i : Nat} (h : Follows s₀ s) : Follows s₀ (copyWrite core engine ctx u i s) := by
  unfold Machine.copyWrite
  split
  · exact h
  · exact h.returnOld.ite ((h.sendFlag.ite (h.sendNext.getD h)).ite (h.ite (h.writeUnit.getD h)))

theorem Follows.endContribution {c : Nat} {x : Contribution} {fail : Option Nat} (h : Follows s₀ s) : Follows s₀ (s.endContribution c x fail) := by
  unfold State.endContribution
  extract_lets addr s1 f
  have hs1 : Follows s₀ s1 := h.modCore
  refine hs1.foldl (fun _ _ h1 => ?_)
  split
  · exact h1
  · extract_lets owned g1 s2 s3
    have hs2 : Follows s₀ s2 := h1.setGroup
    have hs3 : Follows s₀ s3 := by
      unfold s3
      clear_value f
      split
      · exact hs2.ite (hs2.redFailed.modGroup.ite hs2)
      · exact hs2
    exact hs3.endFlushes

theorem Follows.performContribution {c idx : Nat} (h : Follows s₀ s) : Follows s₀ (s.performContribution c idx) := by
  unfold State.performContribution
  split
  · exact h
  · extract_lets u e r
    have hu : Follows s₀ u.1 := h.foldlFst (fun _ _ h1 => h1.unmarked)
    have hr : Follows s₀ r.1 := hu.atomFrom
    split
    · exact hu
    · split
      · exact hr.endContribution
      · exact hr.endContribution
      · exact hr.endContribution

theorem Follows.spoil {asid va n old : Nat} (h : Follows s₀ s) : Follows s₀ (s.spoil asid va n old) := h.writeHome

theorem Follows.atom {j : Job} {u : Nat} (h : Follows s₀ s) : Follows s₀ (j.atom s u) := by
  unfold Job.atom
  split
  · exact h
  · split
    · exact h
    · extract_lets p dirty
      have hp : Follows s₀ p.1 := h.placeOf
      split
      · exact h.unclear
      · split
        · exact hp.mod
        · split
          · exact h.askPort
          · next e =>
              extract_lets n v cmp r
              have hr : Follows s₀ r.1 := (hp.spend.some e).atomFrom
              split
              · exact hr.unclear
              · extract_lets s2 old at_
                have hs2 : Follows s₀ s2 := by
                  unfold s2
                  split
                  · exact hr.spoil.ite hr
                  · exact hr
                exact hs2.countWritten.mod

theorem Follows.performAmo {c e x : Nat} {m : Cmd} {a : AmoArgs} {g : Group} (h : Follows s₀ s) : Follows s₀ (s.performAmo c e x m a g) := by
  unfold State.performAmo
  extract_lets k fail
  split
  · exact h
  · split
    · exact h.askPort
    · next e1 =>
        split
        · exact Follows.ite (h.spend.some e1).useWindow.modCtx
            (.ite (h.spend.some e1).useWindow.modCtx (.ite h (h.spend.some e1).useWindow.sendPacket.countWritten.modCtx))
        · extract_lets r
          have hr : Follows s₀ r.1 := (h.spend.some e1).atomFrom
          split
          · exact hr
          · exact hr.modCtx
          · exact hr.modCtx
          · exact hr.countWritten.modCtx

theorem Follows.absentPage {c e x : Nat} (h : Follows s₀ s) : Follows s₀ (s.absentPage c e x).1 := by
  unfold State.absentPage
  split
  · exact h.mayWrite
  · split
    · exact h
    · extract_lets u r
      have hr : Follows s₀ r.1 := h.clearUnit
      split
      · exact h
      · exact h.clearUnit

theorem Follows.scanPages {asid fuel va n : Nat} {wr : Bool} {ps : List DWord} (h : Follows s₀ s) :
    Follows s₀ (s.scanPages asid wr fuel va n ps).1 := by
  induction fuel generalizing s va n ps with
  | zero => exact h
  | succ fuel ih =>
    unfold State.scanPages
    split
    · exact h
    · extract_lets t r m
      have ht : Follows s₀ t.1 := h.translate
      have hr : Follows s₀ r.1 := by
        unfold r
        split
        · exact h.mayWrite
        · exact h.translate
      split
      · exact ih hr
      · exact ih hr
      · dsimp only
        exact hr

theorem Follows.rehearsePiece {j : Job} {wr : Bool} {t : Option TileRef} {q : Nat} {a : Rehearsal} {p : Piece} (h : Follows s₀ a.1) :
    Follows s₀ (j.rehearsePiece wr t q a p).1 := by
  unfold Job.rehearsePiece
  split
  · exact h
  · split
    · exact h.scanPages
    · exact h.checkPiece

theorem Follows.rehearsePieces {j : Job} {wr : Bool} {t : Option TileRef} {q : Nat} {a : Rehearsal} {ps : List Piece} (h : Follows s₀ a.1) :
    Follows s₀ (ps.foldl (j.rehearsePiece wr t q) a).1 :=
  List.foldlRecOn (motive := fun r : Rehearsal => Follows s₀ r.1) ps _ h (fun _ hr _ _ => hr.rehearsePiece)

theorem Follows.rehearse {j : Job} {u : Nat} {ps : List DWord} (h : Follows s₀ s) : Follows s₀ (j.rehearse s u ps).1 := by
  unfold Job.rehearse
  extract_lets p
  have hp : Follows s₀ p.1 := h.placeOf
  split
  · exact hp
  · exact hp
  · next pl _ =>
    refine Follows.rehearsePieces ?_
    exact List.foldlRecOn (motive := fun r : Rehearsal => Follows s₀ r.1) _ _ (Follows.rehearsePieces (a := (p.1, ps, false)) hp)
      (fun _ hr _ _ => hr.rehearsePieces)

theorem Follows.rehearseStep {core engine ctx : Nat} (h : Follows s₀ s) : Follows s₀ (Machine.rehearse core engine ctx s) := by
  unfold Machine.rehearse
  extract_lets x ready
  split
  · split
    · exact h.modCtx
    · exact h.modCtx.ite (h.rehearse.modCtx.ite h.rehearse.modCtx)
  · exact h

theorem Follows.verdict {core engine ctx n : Nat} {fail : Option Nat} (h : Follows s₀ s) : Follows s₀ (s.verdict core engine ctx n fail).1 := by
  unfold State.verdict
  extract_lets x u
  split
  · exact h
  · split
    · dsimp only
      exact h.modCtx
    · dsimp only
      exact h.modCtx

theorem Follows.keepLow {c gid : Nat} {devs : List Nat} (h : Follows s₀ s) : Follows s₀ (s.keepLow c gid devs) := h.ite h.modGroup

theorem Follows.takeHint {dev : Nat} (h : Follows s₀ s) : Follows s₀ (s.takeHint dev) := h.ite (h.mapCores (fun _ _ hk => hk.upd))

theorem Follows.freeCtx {c e x : Nat} (h : Follows s₀ s) : Follows s₀ (s.freeCtx c e x) := by
  unfold State.freeCtx
  exact h.releaseStreams.modCtx.modCore

theorem Follows.endCmd {c e x : Nat} {m : Cmd} {status n : Nat} {at_ : Nat × DWord × Nat} (h : Follows s₀ s) :
    Follows s₀ (s.endCmd c e x m status n at_) := by
  unfold State.endCmd
  extract_lets k d s1 s2
  have hs1 : Follows s₀ s1 := by
    unfold s1
    split
    · split
      · exact h.modWarp
      · exact h
    · exact h.countCore
  have hs2 : Follows s₀ s2 := hs1.keepLow.freeCtx
  exact hs2.complete

theorem Follows.throughHome {die asid line : Nat} (h : Follows s₀ s) : Follows s₀ (throughHome die asid line s) := by
  unfold Machine.throughHome
  split
  · exact h
  · split
    · exact h
    · exact h.ite h.writeHome.countDie.modDie

/-! ### Functions: collectives (Machine/Coll) -/

theorem Follows.modColl {d i : Nat} {f : CollCtx → CollCtx} (h : Follows s₀ s) : Follows s₀ (s.modColl d i f) := by
  unfold State.modColl
  split
  · exact h
  · exact h.modDie

theorem Follows.postColl {i : Issue} {n : Nat} {r : List DWord} {e : Scope} (h : Follows s₀ s) : Follows s₀ (s.postColl i n r e).1 := by
  unfold State.postColl
  extract_lets b k count sq m x s1
  have hk : s₀.Canon → k.Canon := fun hs => (h.canon hs).core _
  have hsq : Follows s₀ sq.1 := h.takeSeq
  have hs1 : Follows s₀ s1 := hsq.modGroup.modCore
  dsimp only
  exact hs1.modDie

theorem Follows.collAbort {x : CollCtx} (h : Follows s₀ s) : Follows s₀ (s.collAbort x) := h.mapDies

theorem Follows.collFail {d i status : Nat} {addr : DWord} {space : Nat} (h : Follows s₀ s) : Follows s₀ (s.collFail d i status addr space) := by
  unfold State.collFail
  split
  · exact h
  · exact h.ite h.modColl.collAbort

theorem Follows.collUnmarked {c gid n : Nat} (h : Follows s₀ s) : Follows s₀ (s.collUnmarked c gid n).1 := by
  unfold State.collUnmarked
  extract_lets u
  have hu : Follows s₀ u.1 := h.unmarked
  split
  · exact hu
  · extract_lets ms
    split
    · exact hu.raiseG.ite hu
    · exact h.unmarked

theorem Follows.collBegin {d i : Nat} {x : CollCtx} (h : Follows s₀ s) : Follows s₀ (s.collBegin d i x) :=
  h.ite (h.collUnmarked.modColl.ite h.collUnmarked)

theorem Follows.mismatch {key : CollKey} (h : Follows s₀ s) : Follows s₀ (s.mismatch key) := by
  unfold State.mismatch
  extract_lets bad s1
  have hs1 : Follows s₀ s1 := h.foldl (fun _ _ h1 => h1.modColl)
  refine hs1.foldl (fun _ _ h1 => ?_)
  split
  · exact h1.collAbort
  · exact h1

theorem Follows.collCompare {x : CollCtx} (h : Follows s₀ s) : Follows s₀ (s.collCompare x) := h.mismatch.ite h

theorem Follows.collMatch {d i : Nat} {x : CollCtx} (h : Follows s₀ s) : Follows s₀ (s.collMatch d i x) := h.ite h.modColl

theorem Follows.askColl {d i : Nat} (h : Follows s₀ s) : Follows s₀ (s.askColl d i) := by
  unfold State.askColl
  split
  · exact h
  · exact h.ite h.modColl.modDie

theorem Follows.payColl {d i : Nat} {x : CollCtx} {wr : Bool} {line : Nat} (h : Follows s₀ s) : OptFollows s₀ (s.payColl d i x wr line) := by
  unfold State.payColl
  split
  · exact h
  · split
    · trivial
    · exact h.modColl

theorem Follows.collElem {x : CollCtx} {e : Nat} (h : Follows s₀ s) : Follows s₀ (s.collElem x e).1 := by
  unfold State.collElem
  extract_lets b n a k
  have hk : s₀.Canon → k.Canon := fun hs => (h.canon hs).core _
  split
  · exact h
  · split
    · extract_lets bs
      dsimp only
      exact h.countRead
    · split
      · extract_lets bs
        dsimp only
        exact h.countRead
      · split
        · exact h
        · exact h.readVa

theorem Follows.collMayWrite {x : CollCtx} (h : Follows s₀ s) : Follows s₀ (s.collMayWrite x).1 := by
  unfold State.collMayWrite
  extract_lets b n
  split
  · exact h
  · split
    · exact h
    · split
      · exact h
      · exact h.mayWriteSpan

theorem Follows.collLoaded {d i : Nat} {x : CollCtx} (h : Follows s₀ s) : Follows s₀ (s.collLoaded d i x) := by
  unfold State.collLoaded
  extract_lets n bs w s1 sp
  have hw : Follows s₀ w.1 := h.collMayWrite
  have hs1 : Follows s₀ s1 := hw.modColl
  split
  · exact h
  · split
    · exact hw.collFail
    · split
      · exact hs1
      · exact hs1.collFail

theorem Follows.collRead {die ctx e : Nat} (h : Follows s₀ s) : Follows s₀ (collRead die ctx e s) := by
  unfold Machine.collRead
  split
  · exact h
  · split
    · exact h
    · split
      · exact h.askColl
      · next e1 =>
          extract_lets r
          have hr : Follows s₀ r.1 := (h.payColl.some e1).collElem
          split
          · exact hr.collFail
          · exact hr.modColl

theorem Follows.collTell {d i dev : Nat} (h : Follows s₀ s) : Follows s₀ (s.collTell d i dev) := by
  unfold State.collTell
  split
  · exact h
  · exact h.ite (h.collFail.ite (h.ite (h.askColl.ite h.sendPacket.modStream.modColl)))

theorem Follows.collTellAll {d i : Nat} {x : CollCtx} (h : Follows s₀ s) : Follows s₀ (s.collTellAll d i x) := h.foldl (fun _ _ h1 => h1.collTell)

theorem Follows.collHear {d i : Nat} {x : CollCtx} (h : Follows s₀ s) : Follows s₀ (s.collHear d i x) := h.collFail.ite h

theorem Follows.collMove {d i : Nat} (h : Follows s₀ s) : Follows s₀ (s.collMove d i) := by
  unfold State.collMove
  extract_lets step s1 s2 s3 s4 s5
  have hs1 : Follows s₀ s1 := by
    unfold s1
    unfold step
    split
    · exact h.collBegin
    · exact h
  have hs2 : Follows s₀ s2 := by
    unfold s2
    unfold step
    split
    · exact hs1.collLoaded
    · unfold s1
      unfold step
      split
      · exact h.collBegin
      · exact h
  have hs3 : Follows s₀ s3 := by
    unfold s3
    unfold step
    split
    · exact hs2.collTellAll
    · unfold s2
      unfold step
      split
      · exact hs1.collLoaded
      · unfold s1
        unfold step
        split
        · exact h.collBegin
        · exact h
  have hs4 : Follows s₀ s4 := by
    unfold s4
    unfold step
    split
    · exact hs3.collCompare
    · unfold s3
      unfold step
      split
      · exact hs2.collTellAll
      · unfold s2
        unfold step
        split
        · exact hs1.collLoaded
        · unfold s1
          unfold step
          split
          · exact h.collBegin
          · exact h
  have hs5 : Follows s₀ s5 := by
    unfold s5
    unfold step
    split
    · exact hs4.collHear
    · unfold s4
      unfold step
      split
      · exact hs3.collCompare
      · unfold s3
        unfold step
        split
        · exact hs2.collTellAll
        · unfold s2
          unfold step
          split
          · exact hs1.collLoaded
          · unfold s1
            unfold step
            split
            · exact h.collBegin
            · exact h
  unfold step
  split
  · exact hs5.collMatch
  · unfold s5
    unfold step
    split
    · exact hs4.collHear
    · unfold s4
      unfold step
      split
      · exact hs3.collCompare
      · unfold s3
        unfold step
        split
        · exact hs2.collTellAll
        · unfold s2
          unfold step
          split
          · exact hs1.collLoaded
          · unfold s1
            unfold step
            split
            · exact h.collBegin
            · exact h

theorem Follows.collWriteAt {x : CollCtx} {e : Nat} {bs : List Byte} (h : Follows s₀ s) : Follows s₀ (s.collWriteAt x e bs).1 := by
  unfold State.collWriteAt
  extract_lets b el r
  have hr : Follows s₀ r.1 := h.writeVa
  split
  · exact h
  · exact h.writeTileBytes
  · split
    · exact h.writeLocal
    · exact h.writeVa

theorem Follows.collWrite {die ctx e : Nat} (h : Follows s₀ s) : Follows s₀ (collWrite die ctx e s) := by
  unfold Machine.collWrite
  split
  · exact h
  · split
    · exact h
    · split
      · exact h.askColl
      · next e1 =>
          extract_lets r
          have hr : Follows s₀ r.1 := (h.payColl.some e1).collWriteAt
          split
          · exact hr.collFail
          · exact hr.gateway.modColl

theorem Follows.collFailedStore {d : Nat} {x : CollCtx} (h : Follows s₀ s) : Follows s₀ (s.collFailedStore d x) :=
  h.ite (h.upd.foldl (fun _ _ h1 => h1.ite h1.collWriteAt))

theorem Follows.collTidy {x : CollCtx} (h : Follows s₀ s) : Follows s₀ (s.collTidy x) := by
  unfold State.collTidy
  extract_lets own used
  split
  · exact h
  · have h1 := h.mapDies (f := fun _ d => { d with partials := d.partials.filter (fun p => !(p.key == x.key && p.members == x.members)) })
    exact h1.upd

theorem Follows.collEnd {d i : Nat} {x : CollCtx} (h : Follows s₀ s) : Follows s₀ (s.collEnd d i x) :=
  h.releaseStreams.keepLow.modDie.countDie.collTidy.complete

theorem Follows.writeSpan {asid fuel va : Nat} {bad : Bool} {bs : List Byte} (h : Follows s₀ s) : Follows s₀ (s.writeSpan asid bad fuel va bs) := by
  induction fuel generalizing s va bs with
  | zero => exact h
  | succ fuel ih =>
    unfold State.writeSpan
    exact h.ite (ih h.writeHome)

theorem Follows.branch {src dst va : Nat} (h : Follows s₀ s) : Follows s₀ (branch src dst va s) := by
  unfold Machine.branch
  extract_lets sel
  split
  · exact h
  · split
    · exact h
    · exact h.writeSpan.modDie

/-! ### Functions: placement (Machine/Place) -/

theorem Core.Canon.clearScratch {k : Core} {base n : Nat} (h : k.Canon) : (k.clearScratch base n).Canon :=
  ⟨Memory.wf_clear _ _ _ h.scratch, h.tileMem, h.weight, h.acc, h.grips⟩

theorem Core.Canon.clearAccs {k : Core} {accs : List Nat} (h : k.Canon) : (k.clearAccs accs).Canon :=
  h.foldl (fun _ _ hk => ⟨hk.scratch, hk.tileMem, hk.weight, Memory.wf_clear _ _ _ hk.acc, hk.grips⟩)

theorem Core.Canon.clearWeights {k : Core} {ws : List Nat} (h : k.Canon) : (k.clearWeights ws).Canon :=
  h.foldl (fun _ _ hk => ⟨hk.scratch, hk.tileMem, Memory.wf_clear _ _ _ hk.weight, hk.acc, hk.grips⟩)

theorem Core.Canon.clearFor {k : Core} {g : Group} (h : k.Canon) : (k.clearFor g).Canon := h.clearScratch.clearAccs.clearWeights.upd

theorem Core.Canon.resetGrips {k : Core} {c : Grip → Prop} {inst : DecidablePred c} (h : k.Canon) :
    TabAll Grip.Canon (Tab.mapVal k.grips (fun _ x => if c x then Grip.reset else x)) := by
  refine h.grips.mapVal (fun _ x hx => ?_)
  split
  · exact Grip.canon_reset
  · exact hx

theorem Follows.release {c gid : Nat} (h : Follows s₀ s) : Follows s₀ (s.release c gid) := by
  unfold State.release
  split
  · exact h
  · refine h.modCore (fun k hk => ?_)
    refine ⟨hk.clearFor.scratch, hk.clearFor.tileMem, hk.clearFor.weight, hk.clearFor.acc, ?_⟩
    dsimp only
    exact hk.clearFor.resetGrips

theorem Follows.loadImage {c g asid : Nat} {e : KernelEntry} (h : Follows s₀ s) : Follows s₀ (s.loadImage c g asid e) := by
  unfold State.loadImage
  extract_lets im r
  have hr : Follows s₀ r.1 := h.readVa
  split
  · exact hr.modGrip (fun _ hx => ⟨Memory.wf_nil, hx.dstore⟩)
  · exact hr.modGrip (fun _ hx => ⟨Memory.wf_writeN _ _ _ Memory.wf_nil, hx.dstore⟩)

theorem Follows.attachGrip {c gid g run : Nat} {b : Birth} (h : Follows s₀ s) : Follows s₀ (s.attachGrip c gid g b run) :=
  Follows.loadImage (h.modGrip (fun _ _ => ⟨rfl, rfl⟩))

theorem Follows.placeGroup {c : Nat} {b : Birth} {a : Alloc} {warp : Nat → Nat → Nat → Warp} {grips : Nat} (h : Follows s₀ s) :
    Follows s₀ (s.placeGroup c b a warp grips) :=
  ((h.modPkg.modCore (fun _ hk => hk.clearFor.upd)).foldl (fun _ _ h1 => h1.attachGrip)).ite (h.modPkg.modCore (fun _ hk => hk.clearFor.upd))

theorem Follows.placeNew {c : Nat} {b : Birth} {a : Alloc} (h : Follows s₀ s) : Follows s₀ (s.placeNew c b a) := h.placeGroup

/-! ### Functions: tables of translation (Machine/Tables) -/

theorem Follows.cleanDie {d asid : Nat} (h : Follows s₀ s) : Follows s₀ (s.cleanDie d asid) := h.foldl (fun _ _ h1 => h1.writeBack)

theorem Die.Canon.flush {d : Die} {asid n : Nat} (h : d.Canon) : (d.flush asid n).Canon := ⟨h.staging⟩

theorem Follows.tlbFlush {asid : Nat} (h : Follows s₀ s) : Follows s₀ (s.tlbFlush asid) := by
  unfold State.tlbFlush
  split
  · exact h
  · extract_lets s1
    have hs1 : Follows s₀ s1 := h.foldl (fun _ _ ht => ht.cleanDie)
    clear_value s1
    refine ⟨fun hs => ?_, hs1.ucycle, hs1.resp⟩
    obtain ⟨hpkg, hcores, hdies⟩ := hs1.canon hs
    exact ⟨⟨hpkg.hbm, hpkg.comp⟩, hcores, hdies.mapVal (fun _ _ hd => hd.flush)⟩

theorem Follows.setAsidState {a st : Nat} (h : Follows s₀ s) : Follows s₀ (s.setAsidState a st) := h.modPkg

theorem Follows.beginRetire {a : Nat} (h : Follows s₀ s) : Follows s₀ (s.beginRetire a) := h.modPkg.tlbFlush

theorem Follows.writeScope {asid g : Nat} {bs : List Byte} (h : Follows s₀ s) : Follows s₀ (s.writeScope asid g bs) := h.writePhys

/-! ### Functions: launch (Machine/Launch) -/

theorem Follows.launchFault {d asid cause what queue va : Nat} (h : Follows s₀ s) : Follows s₀ (s.launchFault d asid cause what queue va) := h.event

theorem Follows.putStatus {d asid queue recVa state reason nfg : Nat} (h : Follows s₀ s) :
    Follows s₀ (s.putStatus d asid queue recVa state reason nfg) := by
  unfold State.putStatus
  extract_lets r
  have hr : Follows s₀ r.1 := h.writeDev
  split
  · exact hr
  · exact hr.launchFault

theorem Follows.addDone {d asid queue va n : Nat} (h : Follows s₀ s) : Follows s₀ (s.addDone d asid queue va n) := by
  unfold State.addDone
  split
  · exact h
  · extract_lets r
    have hr : Follows s₀ r.1 := h.atomFrom
    split
    · exact hr
    · exact hr.launchFault
    · exact hr.launchFault

theorem Follows.readRecord {x asid va : Nat} (h : Follows s₀ s) : Follows s₀ (s.readRecord x asid va).1 := by
  unfold State.readRecord
  extract_lets s1 r
  have hs1 : Follows s₀ s1 := h.modDie
  have hr : Follows s₀ r.1 := hs1.readDev
  split
  · exact hs1.readDev
  · split
    · exact hs1.readDev
    · exact hs1.readDev

theorem Follows.pagesOk {asid n p : Nat} {code : Bool} (h : Follows s₀ s) : Follows s₀ (s.pagesOk asid code n p).1 := by
  induction n generalizing s p with
  | zero => exact h
  | succ n ih =>
    unfold State.pagesOk
    extract_lets r
    have hr : Follows s₀ r.1 := h.translate
    split
    · exact h.translate
    · split
      · exact h.translate
      · exact ih hr

theorem Follows.spanOk {asid : Nat} {code : Bool} {va n : Nat} (h : Follows s₀ s) : Follows s₀ (s.spanOk asid code va n).1 := by
  unfold State.spanOk
  split
  · exact h
  · exact h.pagesOk

theorem Follows.checkKernel {asid kid w : Nat} (h : Follows s₀ s) : Follows s₀ (s.checkKernel asid kid w).1 := by
  unfold State.checkKernel
  split
  · exact h
  · split
    · exact h
    · extract_lets r r1 r2
      have hr : Follows s₀ r.1 := h.spanOk
      have hr1 : Follows s₀ r1.1 := by
        unfold r1
        split
        · exact hr.spanOk
        · exact hr
      have hr2 : Follows s₀ r2.1 := by
        unfold r2
        split
        · exact hr1.spanOk
        · exact hr1
      split
      · dsimp only
        exact hr2
      · split
        · dsimp only
          exact hr2
        · dsimp only
          exact hr2

theorem Follows.addGrid {g : Grid} (h : Follows s₀ s) : Follows s₀ (s.addGrid g) := h.modPkg

theorem Follows.addPending {id : Nat} {dies : List Nat} {n : Nat} (h : Follows s₀ s) : Follows s₀ (s.addPending id dies n) := h.modPkg

theorem Follows.startGrid {src : GridSrc} {asid prio recVa : Nat} {r : List DWord} (h : Follows s₀ s) :
    Follows s₀ (s.startGrid src asid prio recVa r) := by
  unfold State.startGrid
  split
  · exact h.addGrid
  · extract_lets k
    have hk : Follows s₀ k.1 := h.checkKernel
    split
    · exact hk.addGrid
    · exact hk.addGrid.addPending

theorem Follows.modLq {asid q : Nat} {f : LaunchQueue → LaunchQueue} (h : Follows s₀ s) : Follows s₀ (s.modLq asid q f) := h.modPkg

theorem Follows.advanceHead {asid q : Nat} (h : Follows s₀ s) : Follows s₀ (s.advanceHead asid q) := h.modLq

theorem Follows.readNodes {d asid q sv n i : Nat} (h : Follows s₀ s) : Follows s₀ (s.readNodes d asid q sv n i).1 := by
  induction n generalizing s i with
  | zero => exact h
  | succ n ih =>
    unfold State.readNodes
    extract_lets r t
    have hr : Follows s₀ r.1 := h.readRecord
    have ht : Follows s₀ t.1 := ih hr
    split
    · exact hr.launchFault
    · exact ih hr

theorem Follows.modSheet {id : Nat} {f : Sheet → Sheet} (h : Follows s₀ s) : Follows s₀ (s.modSheet id f) := by
  unfold State.modSheet
  split
  · exact h
  · exact h.modPkg

theorem Follows.startNode {id i : Nat} (h : Follows s₀ s) : Follows s₀ (s.startNode id i) := by
  unfold State.startNode
  split
  · exact h
  · exact h.modSheet.startGrid

theorem Follows.endSheet {id : Nat} (h : Follows s₀ s) : Follows s₀ (s.endSheet id) := by
  unfold State.endSheet
  split
  · exact h
  · exact h.ite h.putStatus.modSheet

theorem Follows.sheetEnd {id : Nat} (h : Follows s₀ s) : Follows s₀ (sheetEnd id s) := by
  unfold Machine.sheetEnd
  split
  · exact h
  · exact h.ite h.addDone.modPkg.advanceHead

theorem Follows.successor {id t : Nat} (h : Follows s₀ s) : Follows s₀ (s.successor id t) := by
  unfold State.successor
  split
  · exact h
  · exact h.ite (h.modSheet.ite (h.modSheet.startNode.ite h.modSheet))

theorem Follows.nodeEnded {id i state : Nat} (h : Follows s₀ s) : Follows s₀ (s.nodeEnded id i state) := by
  unfold State.nodeEnded
  split
  · exact h
  · exact (h.modSheet.foldl (fun _ _ h1 => h1.successor)).endSheet.ite h.modSheet.endSheet

theorem Follows.startSheet {asid q : Nat} {t : TakenSheet} (h : Follows s₀ s) : Follows s₀ (s.startSheet asid q t) := by
  unfold State.startSheet
  extract_lets r d n sv id fits rd nodes x s1 first
  have hrd : Follows s₀ rd.1 := by
    unfold rd
    split
    · exact h.readNodes
    · exact h
  have hs1 : Follows s₀ s1 := hrd.modPkg.putStatus
  exact (hs1.foldl (fun _ _ h1 => h1.startNode)).endSheet

theorem Follows.takeEntry {asid q : Nat} {r : List DWord} (h : Follows s₀ s) : Follows s₀ (s.takeEntry asid q r) :=
  h.modLq.startGrid.ite (h.modLq.startSheet.ite h.modLq.modLq)

theorem Follows.takeSheet {asid q : Nat} {t : TakenSheet} (h : Follows s₀ s) : Follows s₀ (s.takeSheet asid q t) := h.modLq.startSheet.ite h

/-! ### Functions: tasks (Machine/Task) -/

theorem Follows.postTask {c a b target poster unit : Nat} {g : Group} {r : State × Nat} (h : Follows s₀ s)
    (e : s.postTask c g a b target poster unit = .ok r) : Follows s₀ r.1 := by
  unfold State.postTask at e
  extract_lets k dest bits q bytes at e
  split at e
  · cases e
  · split at e
    · cases e
      exact h
    · cases e
      have hc : Follows s₀ (s.setCore c (localWrite k g bytes)) := h.setCore (fun hs => ((h.canon hs).core c).localWrite)
      dsimp only
      exact hc.modPkg

theorem Follows.rename {c n : Nat} (h : Follows s₀ s) : OptFollows s₀ (s.rename c n) := by
  unfold State.rename
  extract_lets e r
  have hr : Follows s₀ r.1 := h.modPkg.newTile
  split
  · trivial
  · split
    · trivial
    · exact hr.modCore

theorem Follows.claimName {c n : Nat} (h : Follows s₀ s) : Follows s₀ (s.claimName c n).1 := by
  unfold State.claimName
  extract_lets us
  split
  · exact h
  · split
    · next e => exact h.rename.some e
    · exact h

theorem Follows.claimNames {c : Nat} {ns : List Nat} (h : Follows s₀ s) : Follows s₀ (s.claimNames c ns).1 := by
  induction ns generalizing s with
  | nil => exact h
  | cons n t ih =>
    unfold State.claimNames
    exact ih h.claimName

theorem Follows.retireTask {c num : Nat} (h : Follows s₀ s) : Follows s₀ (s.retireTask c num) := h.modCore

theorem Follows.taskFailed {c asid poster reason : Nat} {r : List DWord} (h : Follows s₀ s) : Follows s₀ (s.taskFailed c asid poster reason r) :=
  h.event.addDone

theorem Follows.acceptTask {c : Nat} {m : TaskMsg} (h : Follows s₀ s) : Follows s₀ (s.acceptTask c m) := by
  unfold State.acceptTask
  extract_lets num r k reads raw w writes free t u s1
  have hr : Follows s₀ r.1 := h.checkKernel
  have hk : s₀.Canon → k.Canon := fun hs => (h.checkKernel.canon hs).core _
  have hw : Follows s₀ w.1 := hr.claimNames
  have hu : Follows s₀ u := hr.claimNames
  have hs1 : Follows s₀ s1 := hu.upd.modCore.countCore
  split
  · exact hs1
  · exact hs1.retireTask.taskFailed

theorem Core.Canon.bindTask {k : Core} {g : Group} {t : Task} (h : k.Canon) : (k.bindTask g t).Canon := h.upd

theorem Follows.putItems {c gid : Nat} {items : List DWord} {close : Bool} (h : Follows s₀ s) : Follows s₀ (s.putItems c gid items close).1 := by
  unfold State.putItems
  split
  · exact h
  · extract_lets used
    split
    · exact h
    · exact h.setGroup

/-! ### Functions: groups (Machine/Groups) -/

theorem Follows.modGrid {id : Nat} {f : Grid → Grid} (h : Follows s₀ s) : Follows s₀ (s.modGrid id f) := by
  unfold State.modGrid
  split
  · exact h
  · exact h.modPkg

theorem Follows.placeMember {id cl j c : Nat} (h : Follows s₀ s) : Follows s₀ (s.placeMember id cl j c) := by
  unfold State.placeMember
  split
  · exact h
  · split
    · exact h
    · exact h.placeNew.modGrid

theorem Follows.nextCluster {i step n : Nat} (h : Follows s₀ s) : Follows s₀ (s.nextCluster i step n) := h.modPkg

theorem Follows.placeCluster {i : Nat} {p : Pending} {g : Grid} {cs : List Nat} (h : Follows s₀ s) : Follows s₀ (s.placeCluster i p g cs) := by
  unfold State.placeCluster
  refine Follows.nextCluster (Follows.countDie (Follows.modGrid ?_))
  exact ((h.raiseG.ite h).foldl (fun _ _ h1 => h1.placeMember)).putStatus.ite ((h.raiseG.ite h).foldl (fun _ _ h1 => h1.placeMember))

theorem Follows.taskGone {c num : Nat} {how : Gone} (h : Follows s₀ s) : Follows s₀ (s.taskGone c num how) := by
  unfold State.taskGone
  split
  · exact h
  · exact h.retireTask.addDone.ite h.retireTask.taskFailed

theorem Follows.groupGone {c gid : Nat} {how : Gone} (h : Follows s₀ s) : Follows s₀ (s.groupGone c gid how) := by
  unfold State.groupGone
  split
  · exact h
  · extract_lets s1 s2
    have hs1 : Follows s₀ s1 := h.foldl (fun _ _ h1 => h1.gripDrain)
    have hs2 : Follows s₀ s2 := hs1.release
    split
    · exact hs2.taskGone
    · exact hs2.modGrid

theorem Follows.releaseHeld {c gid : Nat} (h : Follows s₀ s) : Follows s₀ (s.releaseHeld c gid) := by
  unfold State.releaseHeld
  split
  · exact h
  · exact (h.modCore (fun _ hk => hk.forget)).groupGone.ite h

theorem Follows.readHdr {asid va : Nat} (h : Follows s₀ s) : Follows s₀ (s.readHdr asid va).1 := by
  unfold State.readHdr
  extract_lets r
  have hr : Follows s₀ r.1 := h.readHome
  split
  · split
    · exact h.readHome
    · exact h.readHome
  · exact h.readHome

theorem Follows.liveCount {asid va : Nat} (h : Follows s₀ s) : Follows s₀ (s.liveCount asid va).1 := by
  unfold State.liveCount
  refine h.foldlFst (fun _ _ h1 => ?_)
  split
  · exact h1
  · exact h1.readHdr

theorem Follows.readRecords {asid w n va : Nat} {e : KernelEntry} (h : Follows s₀ s) : Follows s₀ (s.readRecords asid e w n va).1 := by
  induction n generalizing s va with
  | zero => exact h
  | succ n ih =>
    unfold State.readRecords
    extract_lets r q
    have hr : Follows s₀ r.1 := h.readHdr
    have hq : Follows s₀ q.1 := hr.liveCount
    split
    · exact h.readHdr
    · split
      · exact hr.liveCount
      · exact ih hq

theorem Follows.readSaveArea {g : Grid} {va : Nat} (h : Follows s₀ s) : Follows s₀ (s.readSaveArea g va).1 := by
  unfold State.readSaveArea
  extract_lets r q
  have hr : Follows s₀ r.1 := h.readHdr
  have hq : Follows s₀ q.1 := hr.readRecords
  split
  · exact h.readHdr
  · split
    · exact h.readHdr
    · split
      · split
        · exact hq
        · exact hr.readRecords
      · exact hq

theorem Follows.askRestore {link asid recVa idgrid dies va : Nat} (h : Follows s₀ s) :
    Follows s₀ (s.askRestore link asid recVa idgrid dies va).1 := by
  unfold State.askRestore
  split
  · exact h
  · split
    · exact h
    · extract_lets r
      have hr : Follows s₀ r.1 := h.readSaveArea
      split
      · exact h.readSaveArea
      · dsimp only
        exact hr.modPkg

theorem Follows.placeRestored {idx core : Nat} {x : Halted} {g : Grid} {a : Alloc} (h : Follows s₀ s) :
    Follows s₀ (s.placeRestored idx core x g a) := by
  unfold State.placeRestored
  extract_lets gid u b v s1 s2
  have hs1 : Follows s₀ s1 := h.placeGroup.modGroup
  clear_value s1
  have hs2 : Follows s₀ s2 := hs1.modGrid.modPkg
  clear_value s2 v
  split
  · exact hs2
  · exact hs2.machineGroup

/-! ### Functions: the fabric (Machine/Fabric) -/

theorem Follows.modTarget {src tc : Nat} {f : Target → Target} (h : Follows s₀ s) : Follows s₀ (s.modTarget src tc f) := h.modPkg

theorem Follows.inboundSpan {asid fuel va n : Nat} {wr : Bool} (h : Follows s₀ s) : Follows s₀ (s.inboundSpan asid wr fuel va n).1 := by
  induction fuel generalizing s va n with
  | zero => exact h
  | succ fuel ih =>
    unfold State.inboundSpan
    split
    · exact h
    · split
      · exact h
      · extract_lets r drop m
        have hr : Follows s₀ r.1 := h.translateFor
        have hdrop : Follows s₀ drop := hr.modDie
        split
        · exact h.translateFor
        · split
          · dsimp only
            exact hdrop
          · split
            · dsimp only
              exact hdrop
            · exact ih hr

theorem Follows.readMarked {x asid fuel va n : Nat} (h : Follows s₀ s) : Follows s₀ (s.readMarked x asid fuel va n).1 := by
  induction fuel generalizing s va n with
  | zero => exact h
  | succ fuel ih =>
    unfold State.readMarked
    split
    · exact h
    · exact ih h.readDev

theorem Follows.inbound {p : Packet} {wr : Bool} {n : Nat} {f : State → State × AckKind} (h : Follows s₀ s) (hf : ∀ t, Follows s₀ t → Follows s₀ (f t).1) :
    Follows s₀ (s.inbound p wr n f).1 := by
  unfold State.inbound
  split
  · exact h
  · extract_lets r pl
    have hr : Follows s₀ r.1 := h.inboundSpan
    split
    · exact hr.event
    · exact hf _ hr

theorem Follows.inboundAtom {p : Packet} {va v : Nat} {dirty : Bool} (h : Follows s₀ s) : Follows s₀ (s.inboundAtom p va v dirty).1 := by
  unfold State.inboundAtom
  extract_lets op r
  have hr : Follows s₀ r.1 := h.atomFrom
  split
  · exact h.atomFrom
  · exact h.atomFrom
  · exact hr.writeHome.ite hr

theorem Follows.doWrite {p : Packet} (h : Follows s₀ s) : Follows s₀ (s.doWrite p).1 := by
  unfold State.doWrite
  refine h.inbound (fun _ h1 => ?_)
  split
  · exact h1.writeVa
  · exact h1.foldl (fun _ _ h2 => h2.inboundAtom)

theorem Follows.doRead {p : Packet} (h : Follows s₀ s) : Follows s₀ (s.doRead p).1 := h.inbound (fun _ h1 => h1.readMarked)

theorem Follows.doFlag {p : Packet} (h : Follows s₀ s) : Follows s₀ (s.doFlag p).1 := h.inbound (fun _ h1 => h1.atomFrom)

theorem Follows.doAtomic {p : Packet} (h : Follows s₀ s) : Follows s₀ (s.doAtomic p).1 := h.inbound (fun _ h1 => h1.inboundAtom)

theorem Follows.perform {i : Request} (h : Follows s₀ s) : Follows s₀ (s.perform i).1 := by
  unfold State.perform
  split
  · exact h.doWrite
  · exact h.doRead
  · exact h.doAtomic
  · exact h.doFlag
  · dsimp only
    exact h.modPkg

theorem Follows.answer {q : BitVec 32} {a : AckKind} (h : Follows s₀ s) : Follows s₀ (s.answer q a) := h.upd

theorem Follows.performNext {i : Request} (h : Follows s₀ s) : Follows s₀ (s.performNext i) := h.perform.modTarget.answer

theorem Follows.performHeld {src tc n : Nat} (h : Follows s₀ s) : Follows s₀ (s.performHeld src tc n) := by
  induction n generalizing s with
  | zero => exact h
  | succ n ih =>
    unfold State.performHeld
    extract_lets t
    split
    · exact h
    · exact h.ite (ih h.modTarget.performNext)

theorem Follows.duplicate {i : Request} (h : Follows s₀ s) : Follows s₀ (s.duplicate i).1 := by
  unfold State.duplicate
  extract_lets k t
  split
  · exact h
  · split
    · exact h
    · exact h.doRead
    · exact h

theorem State.Canon.acknowledge {port src tc : Nat} (h : s.Canon) : (s.acknowledge port src tc).Canon := by
  unfold State.acknowledge
  split
  · exact h.upd
  · exact h.upd

theorem State.Canon.respCredit {port tc : Nat} {has : Bool} (h : s.Canon) : (respCredit port tc has s).Canon := by
  unfold Machine.respCredit
  extract_lets s1
  have hs1 : s1.Canon := h.upd
  split
  · exact hs1
  · exact hs1.upd

theorem Follows.streamFirst {src tc : Nat} {q : BitVec 32} (h : Follows s₀ s) : Follows s₀ (streamFirst src tc q s) := h.modTarget

theorem State.Canon.receive {i : Request} (h : s.Canon) : (s.receive i).Canon := by
  unfold State.receive
  extract_lets k s1 t d acked u r
  have hs1 : Follows s s1 := (Follows.refl s).upd
  have ht : Follows s t := hs1.modTarget
  have hu : Follows s u := ht.performNext
  have hr : Follows s r.1 := ht.duplicate
  split
  · exact hs1.canon h
  · split
    · exact (hu.performHeld.canon h).acknowledge
    · split
      · exact (ht.modTarget.canon h).acknowledge
      · split
        · exact ht.canon h
        · split
          · exact (hr.answer.canon h).acknowledge
          · exact (ht.answer.canon h).acknowledge

theorem State.Canon.serve {src tc : Nat} (h : s.Canon) : (serve src tc s).Canon := by
  unfold Machine.serve
  extract_lets t
  split
  · exact h
  · split
    · exact h
    · exact ((Follows.refl s).upd.performHeld.canon h).acknowledge

theorem Follows.inbufLevel {port tc level : Nat} (h : Follows s₀ s) : Follows s₀ (inbufLevel port tc level s) := h.modPkg

theorem Follows.setCredit {port tc : Nat} {has : Bool} (h : Follows s₀ s) : Follows s₀ (setCredit port tc has s) := h.modPkg

theorem Follows.failPacket {o : OutPacket} {status : Nat} (h : Follows s₀ s) : Follows s₀ (s.failPacket o status) := by
  unfold State.failPacket
  split
  · extract_lets d
    split
    · exact h.collFail.ite h
    · exact h
  · split
    · exact h.failAt
    · split
      · exact h.modCtx
      · exact h

theorem Follows.readAnswered {j : Job} {o : OutPacket} {e : Elem} (h : Follows s₀ s) : Follows s₀ (j.readAnswered s o e) := by
  unfold Job.readAnswered
  extract_lets s1 ps bs s2
  have hs1 : Follows s₀ s1 := h.mod
  have hs2 : Follows s₀ s2 := hs1.mod
  split
  · exact hs1
  · refine hs2.foldlFst (fun _ _ h1 => ?_)
    split
    · exact h1
    · exact h1.ite h1.store

theorem Follows.answered {j : Job} {u v : Nat} (h : Follows s₀ s) : Follows s₀ (j.answered s u v) := h.mod

theorem Follows.struck {j : Job} {u : Nat} (h : Follows s₀ s) : Follows s₀ (j.struck s u) := h.failAt.mod

theorem Follows.takeAnswer {o : OutPacket} {a : AckKind} (h : Follows s₀ s) : Follows s₀ (s.takeAnswer o a).1 := by
  unfold State.takeAnswer
  split
  · exact h
  · split
    · exact h
    · exact h.failPacket
    · exact h.failPacket
    · dsimp only
      split
      · exact h.readAnswered
      · exact h
    · split
      · exact h.answered
      · split
        · exact h.modCtx
        · exact h
    · dsimp only
      split
      · exact h.struck
      · exact h.failPacket

theorem Follows.dropPacket {dev tc : Nat} {o : OutPacket} {ok : Bool} (h : Follows s₀ s) : Follows s₀ (s.dropPacket dev tc o ok) := by
  unfold State.dropPacket
  extract_lets s1
  have hs1 : Follows s₀ s1 := h.modStream
  split
  · split
    · exact hs1.mod
    · exact hs1
  · exact hs1

theorem Follows.ackBelow {dev tc : Nat} {n : BitVec 32} (h : Follows s₀ s) : Follows s₀ (s.ackBelow dev tc n) := h.foldl (fun _ _ h1 => h1.dropPacket)

theorem Follows.ackAnswer {dev tc : Nat} {q : BitVec 32} {a : AckKind} (h : Follows s₀ s) : Follows s₀ (s.ackAnswer dev tc q a) :=
  h.foldl (fun _ _ h1 => h1.takeAnswer.dropPacket.ite h1.takeAnswer)

theorem Follows.modRoute {dev : Nat} {f : Route → Route} (h : Follows s₀ s) : Follows s₀ (s.modRoute dev f) := h.modPkg

theorem Follows.hintFrom {dev tc : Nat} {hint : Bool} (h : Follows s₀ s) : Follows s₀ (s.hintFrom dev tc hint) :=
  h.takeHint.modStream.ite (h.foldl (fun _ _ h1 => h1.modStream.ite h1))

theorem Follows.replay {dev : Nat} (h : Follows s₀ s) : Follows s₀ (s.replay dev) :=
  h.foldl (fun _ _ h1 => h1.ite (h1.modStream.transmit.countDie.ite h1.modStream.transmit))

/-! ### Functions: grips (Machine/Grip) -/

theorem Follows.gripRetire {c g rd v : Nat} {pc : DWord} (h : Follows s₀ s) : Follows s₀ (s.gripRetire c g rd v pc) :=
  h.modGrip (fun _ hx => ⟨hx.putReg.istore, hx.putReg.dstore⟩)

theorem Follows.gripNext {c g : Nat} {rd : BitVec 5} {v : Nat} (h : Follows s₀ s) : Follows s₀ (s.gripNext c g rd v) := h.gripRetire

theorem Follows.gripTrap {c g : Nat} {t : Trap} (h : Follows s₀ s) : Follows s₀ (s.gripTrap c g t) := by
  unfold State.gripTrap
  extract_lets v
  split
  · exact h.gripExcept
  · exact h.gripExcept
  · exact h.gripExcept
  · exact h.uncorrectable.gripExcept
  · exact h.gripExcept

theorem Grip.Canon.putData {x : Grip} {p n v : Nat} (h : x.Canon) : (x.putData p n v).Canon := ⟨h.istore, Memory.wf_writeV _ _ _ _ h.dstore⟩

theorem Follows.gripDoLoad {c g gid : Nat} {gr : Group} {a n : Nat} {uns : Bool} {rd : Nat} {pc : DWord} (h : Follows s₀ s) :
    Follows s₀ (gripDoLoad s c g gid gr a n uns rd pc) := by
  unfold Machine.gripDoLoad
  split
  · exact h.gripExcept
  · split
    · exact h
    · split
      · exact h.gripExcept
      · exact h.uncorrectable.gripExcept.ite h.gripRetire

theorem Follows.gripDoStore {c g gid : Nat} {gr : Group} {a n v : Nat} {pc : DWord} (h : Follows s₀ s) :
    Follows s₀ (gripDoStore s c g gid gr a n v pc) := by
  unfold Machine.gripDoStore
  split
  · exact h.gripExcept
  · split
    · exact (h.modGrip (fun _ hx => hx.putData)).gripRetire
    · exact h.ite h.modGrip.gripRetire
    · exact h.gripExcept

theorem Grip.Canon.storeCond {x : Grip} {held : Bool} {p n v : Nat} (h : x.Canon) : (if held then x.putData p n v else x).Canon := by
  split
  · exact h.putData
  · exact h

theorem Follows.gripDataAmo {c g n rd p v : Nat} {op : RvAmo} {pc : DWord} (h : Follows s₀ s) : Follows s₀ (gripDataAmo s c g op n rd p v pc) := by
  unfold Machine.gripDataAmo
  extract_lets x o bad held r
  split
  · refine (h.modGrip (fun _ hy => ?_)).gripRetire
    exact ⟨(hy.storeCond (held := held)).istore, (hy.storeCond (held := held)).dstore⟩
  · exact .ite h.uncorrectable.gripExcept h.modGrip.gripRetire
  · exact .ite h.uncorrectable.gripExcept (h.modGrip (fun _ hx => hx.putData)).gripRetire

theorem Follows.gripDoAmo {c g gid : Nat} {gr : Group} {op : RvAmo} {drains : Bool} {n rd a v : Nat} {pc : DWord} (h : Follows s₀ s) :
    Follows s₀ (gripDoAmo s c g gid gr op drains n rd a v pc) := by
  unfold Machine.gripDoAmo
  extract_lets isLoad p
  split
  · exact h.gripExcept
  · split
    · exact (h.gripDrain.ite h).gripDataAmo
    · exact h.ite (h.modGrip.gripRetire.gripDrain.ite h.modGrip.gripRetire)
    · exact h.gripExcept

theorem Grip.Canon.csrWrite {x : Grip} {n v : Nat} (h : x.Canon) : (csrWrite x n v).Canon := by
  unfold Machine.csrWrite
  split
  · exact ⟨h.istore, h.dstore⟩
  · exact ⟨h.istore, h.dstore⟩
  · exact ⟨h.istore, h.dstore⟩
  · exact ⟨h.istore, h.dstore⟩
  · exact ⟨h.istore, h.dstore⟩
  · exact ⟨h.istore, h.dstore⟩
  · exact ⟨h.istore, h.dstore⟩
  · exact ⟨h.istore, h.dstore⟩
  · exact h

theorem Follows.gripCsr {c g : Nat} {op : RvCsr} {immForm : Bool} {rd rs1 : BitVec 5} {num : BitVec 12} {pc : DWord} (h : Follows s₀ s) :
    Follows s₀ (gripCsr s c g op immForm rd rs1 num pc) := by
  unfold Machine.gripCsr
  extract_lets n src writes
  split
  · exact h.gripExcept
  · exact h.gripExcept.ite ((h.gripRetire.modGrip (fun _ hx => hx.csrWrite)).ite h.gripRetire)

theorem Follows.rvStep {c g gid : Nat} {gr : Group} {r : Rv} {nx : DWord} (h : Follows s₀ s) : Follows s₀ (rvStep s c g gid gr r nx) := by
  unfold Machine.rvStep
  extract_lets x rg ea jump
  split
  · exact h.gripRetire
  · exact h.gripRetire
  · exact h.gripRetire
  · exact h.gripRetire
  · exact h.gripRetire
  · exact h.gripDoLoad
  · exact h.gripDoStore
  · exact h.gripRetire
  · exact h.gripRetire
  · exact h.gripDoAmo
  · exact h.gripDrain.gripRetire
  · exact h.gripCsr
  · exact h.gripExcept
  · exact h.upd.gripExcept
  · exact h.modGrip
  · exact h.gripRetire
  · exact h.gripExcept

theorem Follows.imageTrap {c g gid : Nat} {gr : Group} {a n : Nat} (h : Follows s₀ s) : OptFollows s₀ (imageTrap s c g gid gr a n) := by
  unfold Machine.imageTrap
  extract_lets k
  have hk : s₀.Canon → k.Canon := fun hs => (h.canon hs).core _
  split
  · exact h.gripExcept
  · split
    · exact h.gripExcept
    · split
      · exact h.uncorrectable.gripExcept
      · trivial

theorem Follows.gripTag {c g gid : Nat} {gr : Group} {a : Nat} {full : Bool} {act : State → State} (h : Follows s₀ s)
    (hact : ∀ t, Follows s₀ t → Follows s₀ (act t)) :
    Follows s₀ (gripTag s c g gid gr a full act) := by
  unfold Machine.gripTag
  split
  · exact h.gripExcept
  · split
    · exact h.gripExcept
    · extract_lets s1 k ws
      have hs1 : Follows s₀ s1 := h.gripDrain
      have hk : s₀.Canon → k.Canon := fun hs => (h.gripDrain.canon hs).core _
      split
      · exact hact _ hs1.modCore.modGrip
      · split
        · exact hs1
        · exact hs1.modGrip.modCore.countCore

/-! ### Functions: the interlock (Machine/Interlock) -/

theorem Follows.fetchWords {c n a : Nat} {g : Group} (h : Follows s₀ s) : Follows s₀ (fetchWords s c g n a).1 := by
  induction n generalizing s a with
  | zero => exact h
  | succ n ih =>
    unfold Machine.fetchWords
    split
    · exact h
    · extract_lets s1 r
      have hs1 : Follows s₀ s1 := h.fetchLine
      have hr : Follows s₀ r.1 := ih hs1
      split
      · exact h.fetchLine
      · exact ih hs1

theorem Follows.fetchInstr {c : Nat} {g : Group} {a : Nat} (h : Follows s₀ s) : Follows s₀ (fetchInstr s c g a).1 := by
  unfold Machine.fetchInstr
  extract_lets h'
  have hh' : Follows s₀ h'.1 := h.fetchWords
  split
  · exact h.fetchWords
  · extract_lets r
    have hr : Follows s₀ r.1 := hh'.fetchWords
    split
    · exact hh'.fetchWords
    · split
      · exact hh'.fetchWords
      · exact hh'.fetchWords

theorem Follows.noteResults {s₀ s t : State} {c slot : Nat} {i : Instr} (h : Follows s₀ t) : Follows s₀ (s.noteResults t c slot i) := by
  unfold State.noteResults
  split
  · exact h.setWarp.ite h
  · exact h

/-! ### Functions: the sideband (Machine/Sideband) -/

theorem Follows.putQueue {a q : Nat} {l : LaunchQueue} (h : Follows s₀ s) : Follows s₀ (s.putQueue a q l) := h.modPkg

theorem Follows.writeLqd0 {asid queue v : Nat} (h : Follows s₀ s) : Follows s₀ (s.writeLqd0 asid queue v) := h.putQueue

theorem Follows.writeDiemem {d v : Nat} (h : Follows s₀ s) : Follows s₀ (s.writeDiemem d v) := h.modDie.ite h

theorem Follows.writeBwtab {d v : Nat} (h : Follows s₀ s) : Follows s₀ (s.writeBwtab d v).1 := by
  unfold State.writeBwtab
  split
  · dsimp only
    exact h.modDie
  · exact h

theorem Follows.listIsland {i : Nat} (h : Follows s₀ s) : Follows s₀ (s.listIsland i) :=
  h.foldl (fun _ _ h1 => h1.setCore (fun hs => (h1.canon hs).core _))

theorem Follows.writeIslop {i v : Nat} (h : Follows s₀ s) : Follows s₀ (s.writeIslop i v) := h.listIsland.modPkg

theorem Follows.refuseRead (h : Follows s₀ s) : Follows s₀ (s.refuseRead) := h.upd

theorem Follows.sbRead {link : Nat} {addr : DWord} (h : Follows s₀ s) : Follows s₀ (sbRead link addr s) := by
  unfold Machine.sbRead
  split
  · exact h.refuseRead
  · split
    · exact h.refuseRead
    · extract_lets a s1 u
      have hs1 : Follows s₀ s1 := h.modCore.ite h
      exact hs1.upd

theorem Follows.modSb {link : Nat} {f : Sideband → Sideband} (h : Follows s₀ s) : Follows s₀ (s.modSb link f) := h.modPkg

theorem Follows.command {link code : Nat} {named : List (Nat → Bool)} {f : List Nat → State → CmdEffect} (h : Follows s₀ s)
    (hf : ∀ a t, Follows s₀ t → Follows s₀ (f a t).1) : Follows s₀ (s.command link code named f).1 := by
  unfold State.command
  extract_lets b args r
  split
  · exact h
  · have hr : Follows s₀ r.1 := by
      unfold r
      split
      · exact hf _ _ h
      · exact h
    dsimp only
    exact hr.modSb

theorem Follows.runCommand {link : Nat} {f : State → State × Bool} (h : Follows s₀ s) (hf : ∀ t, Follows s₀ t → Follows s₀ (f t).1) :
    Follows s₀ (s.runCommand link f) := (h.told (hf _ h)).ite h.refuse

theorem Follows.unblockQueues {a : Nat} (h : Follows s₀ s) : Follows s₀ (s.unblockQueues a) := h.modPkg

theorem Follows.putRoot {a root merged ctx : Nat} (h : Follows s₀ s) : Follows s₀ (s.putRoot a root merged ctx) := h.modPkg

theorem Follows.cmdBind {link : Nat} (h : Follows s₀ s) : Follows s₀ (cmdBind s link).1 := by
  unfold Machine.cmdBind
  refine h.command (fun _ _ h1 => ?_)
  extract_lets n
  split
  · exact h1.putRoot
  · exact h1

theorem Follows.cmdReroot {link : Nat} (h : Follows s₀ s) : Follows s₀ (cmdReroot s link).1 := by
  unfold Machine.cmdReroot
  refine h.command (fun _ _ h1 => ?_)
  extract_lets n
  split
  · exact h1.putRoot.unblockQueues
  · exact h1

theorem Follows.cmdTlbFlush {link : Nat} (h : Follows s₀ s) : Follows s₀ (cmdTlbFlush s link).1 := h.command (fun _ _ h1 => h1.tlbFlush.unblockQueues)

theorem Follows.cmdRetire {link : Nat} (h : Follows s₀ s) : Follows s₀ (cmdRetire s link).1 := h.command (fun _ _ h1 => h1.beginRetire.ite h1)

theorem Follows.cmdVerdict {link : Nat} (h : Follows s₀ s) : Follows s₀ (cmdVerdict s link).1 := h.command (fun _ _ h1 => h1.verdict)

theorem Follows.cmdRelease {link : Nat} (h : Follows s₀ s) : Follows s₀ (cmdRelease s link).1 := by
  unfold Machine.cmdRelease
  refine h.command (fun _ _ h1 => ?_)
  extract_lets c
  split
  · exact h1.releaseHeld
  · exact h1

theorem Follows.cmdRestore {link : Nat} (h : Follows s₀ s) : Follows s₀ (cmdRestore s link).1 := h.command (fun _ _ h1 => h1.askRestore)

theorem Follows.cmdPreempt {link : Nat} (h : Follows s₀ s) : Follows s₀ (cmdPreempt s link).1 :=
  h.command (fun _ _ h1 => h1.foldl (fun _ _ h2 => h2.startPreempt))

theorem Follows.resetStream {dev tc : Nat} (h : Follows s₀ s) : Follows s₀ (s.resetStream dev tc) := by
  unfold State.resetStream
  exact (h.foldl (fun _ _ h1 => h1.failPacket)).modStream.modTarget

theorem Follows.cmdStreamReset {link : Nat} (h : Follows s₀ s) : Follows s₀ (cmdStreamReset s link).1 := h.command (fun _ _ h1 => h1.resetStream)

theorem Follows.cmdWindowSync {link : Nat} (h : Follows s₀ s) : Follows s₀ (cmdWindowSync s link).1 := h.command (fun _ _ h1 => h1)

theorem Follows.cmdScopeWrite {link : Nat} (h : Follows s₀ s) : Follows s₀ (cmdScopeWrite s link).1 := by
  unfold Machine.cmdScopeWrite
  refine h.command (fun _ _ h1 => ?_)
  extract_lets g n bs dws
  split
  · exact h1
  · exact h1.writeScope

theorem OptFollows.map {α : Type} {o : Option α} {f : α → State} (h : ∀ a, Follows s₀ (f a)) : OptFollows s₀ (o.map f) := by
  cases o with
  | none => trivial
  | some a => exact h a

theorem Follows.bindName {c n v : Nat} (h : Follows s₀ s) : OptFollows s₀ (s.bindName c n v) := by
  unfold State.bindName
  extract_lets gen s1 r
  have hr : Follows s₀ r.1 := h.modCore.modPkg.newTile
  split
  · trivial
  · exact OptFollows.map (fun _ => hr.modCore)

theorem Follows.cmdTaskName {link : Nat} (h : Follows s₀ s) : Follows s₀ (cmdTaskName s link).1 := by
  unfold Machine.cmdTaskName
  refine h.command (fun _ _ h1 => ?_)
  extract_lets c n v
  split
  · exact h1
  · split
    · dsimp only
      exact h1.modCore
    · split
      · next e => exact h1.bindName.some e
      · exact h1

theorem Follows.cmdAttest {link secret : Nat} (h : Follows s₀ s) : Follows s₀ (cmdAttest s link secret).1 :=
  h.command (fun _ _ h1 => h1.upd.writePhys)

theorem Follows.cmdCoreRelease {link : Nat} (h : Follows s₀ s) : Follows s₀ (cmdCoreRelease s link).1 := by
  unfold Machine.cmdCoreRelease
  refine h.command (fun _ _ h1 => ?_)
  extract_lets c
  split
  · dsimp only
    exact (h1.foldl (fun _ _ h2 => h2.releaseHeld)).modCore
  · exact h1

theorem Follows.writeSbcmd {link v : Nat} (h : Follows s₀ s) : Follows s₀ (s.writeSbcmd link v).1 := by
  unfold State.writeSbcmd
  split
  · exact h.cmdBind
  · exact h.cmdReroot
  · exact h.cmdTlbFlush
  · exact h.cmdRetire
  · exact h.cmdVerdict
  · exact h.cmdRelease
  · exact h.cmdRestore
  · exact h.cmdPreempt
  · exact h.cmdStreamReset
  · exact h.cmdWindowSync
  · exact h.cmdScopeWrite
  · exact h.cmdTaskName
  · exact h.cmdAttest
  · exact h.cmdCoreRelease
  · exact h

theorem Follows.packageWrite {o v : Nat} (h : Follows s₀ s) : Follows s₀ (s.packageWrite o v).1 := by
  unfold State.packageWrite
  split
  · dsimp only
    exact h.modPkg
  · split
    · dsimp only
      exact h.modPkg
    · split
      · exact h.writeIslop
      · split
        · dsimp only
          exact h.modRoute
        · exact h

theorem Follows.dieWrite {d o v : Nat} (h : Follows s₀ s) : Follows s₀ (s.dieWrite d o v).1 := by
  unfold State.dieWrite
  extract_lets put
  split
  · exact h.writeDiemem
  · split
    · exact h.writeBwtab
    · split
      · unfold put
        dsimp only
        exact h.modDie
      · split
        · unfold put
          dsimp only
          exact h.modDie
        · split
          · unfold put
            dsimp only
            exact h.modDie
          · split
            · unfold put
              dsimp only
              exact h.modDie
            · split
              · unfold put
                dsimp only
                exact h.modDie
              · split
                · unfold put
                  dsimp only
                  exact h.modDie
                · exact h

theorem Follows.coreWrite {c o v : Nat} (h : Follows s₀ s) : Follows s₀ (s.coreWrite c o v).1 := by
  unfold State.coreWrite
  extract_lets put
  split
  · unfold put
    dsimp only
    exact h.modCore
  · split
    · unfold put
      dsimp only
      exact h.modCore
    · split
      · exact h.modCore (fun _ hk => hk.writeDbgctl)
      · split
        · unfold put
          dsimp only
          exact h.modCore
        · exact h

theorem Follows.linkWrite {i o v : Nat} (h : Follows s₀ s) : Follows s₀ (s.linkWrite i o v).1 := by
  unfold State.linkWrite
  split
  · exact h.writeSbcmd
  · split
    · dsimp only
      exact h.modSb
    · exact h

theorem Follows.sbWrite {addr v : Nat} (h : Follows s₀ s) : Follows s₀ (s.sbWrite addr v).1 := by
  unfold State.sbWrite
  extract_lets o i a q
  split
  · exact h
  · split
    · split
      · exact h.packageWrite
      · exact h
    · split
      · exact h.linkWrite
      · exact h
    · split
      · exact h.dieWrite
      · exact h
    · split
      · exact h.coreWrite
      · exact h
    · split
      · exact h.writeLqd0.ite h.putQueue
      · exact h
    · exact h

theorem Follows.readGood {asid fuel va n : Nat} (h : Follows s₀ s) : Follows s₀ (s.readGood asid fuel va n).1 := by
  induction fuel generalizing s va n with
  | zero => exact h
  | succ fuel ih =>
    unfold State.readGood
    split
    · exact h
    · extract_lets m r t
      have hr : Follows s₀ r.1 := h.readHome
      have ht : Follows s₀ t.1 := ih hr
      split
      · exact h.readHome
      · split
        · exact h.readHome
        · exact ih hr

theorem Follows.linkAck {link : Nat} (h : Follows s₀ s) : Follows s₀ (linkAck link s) := by
  unfold Machine.linkAck
  split
  · exact h
  · exact h.ite h.modPkg.upd

theorem Follows.compStore {addr : Nat} {bytes : List Byte} (h : Follows s₀ s) : Follows s₀ (compStore addr bytes s) :=
  h.modPkg (fun _ hx => ⟨hx.hbm, Memory.wf_writeN _ _ _ hx.comp⟩)

theorem Follows.companionPhys {pa len : Nat} {data : Option (List Byte)} (h : Follows s₀ s) : Follows s₀ (companionPhys pa len data s) := by
  unfold Machine.companionPhys
  extract_lets n up u
  split
  · exact h.refuse
  · split
    · exact h.writePhys.upd
    · exact h.refuse.ite h.upd

/-! ### Functions: the platform (Machine/Platform) -/

theorem Follows.countUnit {c u : Nat} (h : Follows s₀ s) : Follows s₀ (s.countUnit c u) := h.ite h.uncorrectable

theorem Follows.machineCore {c unit addr : Nat} (h : Follows s₀ s) : Follows s₀ (s.machineCore c unit addr) :=
  (h.foldl (fun _ _ h1 => h1.machineGroup)).modCore

theorem Follows.machinePackage {c unit addr : Nat} (h : Follows s₀ s) : Follows s₀ (s.machinePackage c unit addr) := by
  unfold State.machinePackage
  exact h.event.modPkg

theorem Follows.wrapDump (h : Follows s₀ s) : Follows s₀ (wrapDump s) := h.writePhys

theorem Follows.markUnit {u : StoreUnit} (h : Follows s₀ s) : Follows s₀ (s.markUnit u) := by
  unfold State.markUnit
  split
  · exact h.modWarp
  · exact h.modSched
  · exact h.modWarp
  · exact h.modWarp
  · exact h.modCore
  · exact h.modCore
  · exact h.modCore
  · exact h.modCore
  · exact h.modCore
  · exact h.modGrip
  · exact h.modGrip
  · exact h.modDie
  · exact h.modDie
  · exact h.modDie
  · exact h.modPkg

theorem Follows.correctedUnit {u : StoreUnit} (h : Follows s₀ s) : Follows s₀ (s.correctedUnit u) := by
  unfold State.correctedUnit
  split
  · exact h.countDie
  · exact h.countDie
  · exact h.countDie
  · exact h.countDie
  · split
    · exact h.corrected
    · exact h

theorem Follows.badUnit {u : StoreUnit} (h : Follows s₀ s) : Follows s₀ (s.badUnit u) := by
  unfold State.badUnit
  split
  · exact h
  · split
    · exact h.markUnit
    · extract_lets s1 s2
      have hs1 : Follows s₀ s1 := h.markUnit
      have hs2 : Follows s₀ s2 := by
        unfold s2
        split
        · exact hs1.uncorrectable
        · exact hs1.upd
      exact hs2.event

theorem Follows.unitError {u : StoreUnit} {found : ScrubFound} (h : Follows s₀ s) : Follows s₀ (unitError u found s) := by
  unfold Machine.unitError
  split
  · exact h
  · exact h.correctedUnit
  · exact h.markUnit.correctedUnit.ite h.markUnit

theorem Follows.configWrite {addr v : Nat} (h : Follows s₀ s) : Follows s₀ (s.configWrite addr v).1 := by
  unfold State.configWrite
  split
  · dsimp only
    exact h.modPkg
  · split
    · exact h
    · split
      · exact h
      · exact h.sbWrite

theorem Follows.applyRecords {b : List Byte} {n off : Nat} (h : Follows s₀ s) : Follows s₀ (State.applyRecords b n off s).1 := by
  induction n generalizing s off with
  | zero => exact h
  | succ n ih =>
    unfold State.applyRecords
    extract_lets r
    have hr : Follows s₀ r.1 := h.configWrite
    split
    · exact ih hr
    · exact hr

theorem Follows.boot {st : Nat} (h : Follows s₀ s) : Follows s₀ (s.boot st) := h.modPkg

/-- A warm reset keeps HBM4 and the companion memory. -/
theorem State.Canon.warm (h : s.Canon) : s.warm.Canon :=
  ⟨⟨h.pkg.hbm, h.pkg.comp⟩, TabAll.nil, TabAll.nil⟩

theorem Follows.releaseCores (h : Follows s₀ s) : Follows s₀ (s.releaseCores) :=
  ((h.foldl (fun _ _ h1 => h1.modCore)).foldl (fun _ _ h1 => h1.modDie)).boot

theorem State.Canon.bootGo {x : BootOutcome} (h : s.Canon) : (s.bootGo x).Canon := by
  unfold State.bootGo
  extract_lets raw b s1 r
  have hr : Follows s r.1 := Follows.applyRecords (Follows.refl s).modPkg
  split
  · exact (Follows.refl s).boot.canon h
  · split
    · exact (hr.canon h).warm
    · split
      · exact hr.boot.canon h
      · exact hr.modPkg.boot.canon h

theorem Follows.bootFinish (h : Follows s₀ s) : Follows s₀ (bootFinish s) := by
  unfold Machine.bootFinish
  split
  · exact h
  · exact h.modPkg.boot.ite h.modPkg.modPkg.releaseCores

theorem Follows.bootStart (h : Follows s₀ s) : Follows s₀ (s.bootStart) := h.modPkg

theorem Follows.bootAppend {v : DWord} (h : Follows s₀ s) : Follows s₀ (s.bootAppend v).1 := by
  unfold State.bootAppend
  split
  · dsimp only
    exact h.modPkg
  · exact h

theorem State.Canon.bootRun {x : BootOutcome} (h : s.Canon) : (s.bootRun x).Canon := by
  unfold State.bootRun
  split
  · exact h.bootGo
  · exact h

theorem State.Canon.bootWrite {o : Nat} {v : DWord} (h : s.Canon) : (s.bootWrite o v).1.Canon := by
  unfold State.bootWrite
  split
  · exact (Follows.refl s).bootAppend.canon h
  · split
    · extract_lets s1
      have hs1 : s1.Canon := by
        unfold s1
        split
        · exact (Follows.refl s).bootStart.canon h
        · exact h
      clear_value s1
      dsimp only
      split
      · exact hs1.upd.bootRun
      · exact hs1
    · split
      · exact h
      · dsimp only
        split
        · exact h.warm
        · exact h

theorem Follows.thermalEvent {n code : Nat} {t : BitVec 16} (h : Follows s₀ s) : Follows s₀ (s.thermalEvent n code t) := h.event

theorem Package.Canon.watch {p : Package} {now : Nat} {anew : Bool} {n : Nat} (h : p.Canon) : (p.watch now anew n).Canon := ⟨h.hbm, h.comp⟩

theorem Follows.sensed {n : Nat} {t : BitVec 16} (h : Follows s₀ s) : Follows s₀ (s.sensed n t) := h.modPkg

theorem Follows.thermalAct {n code : Nat} {t : BitVec 16} {f : Package → Package} (h : Follows s₀ s)
    (hf : ∀ p, p.Canon → (f p).Canon := by exact fun _ hp => ⟨hp.hbm, hp.comp⟩)
    (hr : ∀ p, (f p).dryResp = p.dryResp ∧ (f p).owed = p.owed := by exact fun _ => ⟨rfl, rfl⟩) :
    Follows s₀ (s.thermalAct n code t f) := (h.modPkg (fun _ hx => (hf _ hx).watch) hr).thermalEvent

theorem Follows.cross {old new : BitVec 16} {deg n code : Nat} {f : Package → Package} (h : Follows s₀ s)
    (hf : ∀ p, p.Canon → (f p).Canon := by exact fun _ hp => ⟨hp.hbm, hp.comp⟩)
    (hr : ∀ p, (f p).dryResp = p.dryResp ∧ (f p).owed = p.owed := by exact fun _ => ⟨rfl, rfl⟩) :
    Follows s₀ (s.cross old new deg n code f) := (h.thermalAct hf hr).ite h

theorem Follows.modTap {f : Tap → Tap} (h : Follows s₀ s) : Follows s₀ (s.modTap f) := h.modPkg

theorem Follows.tck {tms tdi : Bool} {pins : List Bool} (h : Follows s₀ s) : Follows s₀ (tck tms tdi pins s) := by
  unfold Machine.tck
  extract_lets t tdo u u'
  have hu : Follows s₀ u := h.modTap
  exact hu.upd

/-! ### Functions: rounds (Machine/Round) -/

theorem Core.Canon.newCycle {k : Core} (h : k.Canon) : k.newCycle.Canon := h.upd

theorem Core.Canon.mapGrips {k : Core} {f : Nat → Grip → Grip} (h : k.Canon)
    (hf : ∀ n x, x.Canon → (f n x).Canon) : TabAll Grip.Canon (Tab.mapVal k.grips f) :=
  h.grips.mapVal hf

theorem Grip.Canon.counted {x : Grip} {c : Prop} {inst : Decidable c} {n : DWord} (h : x.Canon) : (if c then { x with mcycle := n } else x).Canon := by
  split
  · exact ⟨h.istore, h.dstore⟩
  · exact h

theorem Core.Canon.tick {w : List Nat} {k0 : Core} (h : k0.Canon) : (Core.tick w k0).Canon := by
  unfold Core.tick
  extract_lets k
  have hk : k.Canon := Core.Canon.unitTick h.upd
  clear_value k
  refine Core.Canon.newWindow (Core.Canon.newCycle ⟨hk.scratch, hk.tileMem, hk.weight, hk.acc, ?_⟩)
  dsimp only
  exact hk.mapGrips (fun _ _ hx => hx.counted)

theorem State.Canon.tick (h : s.Canon) : s.tick.Canon := by
  refine ⟨⟨h.pkg.hbm, h.pkg.comp⟩, ?_, ?_⟩
  · unfold State.tick
    dsimp only
    refine h.cores.mapVal (fun c k hk => ?_)
    have hk1 : ({ k with tasks := k.tasks.map (fun t => { t with waited := t.waited + 1 }) } : Core).Canon := hk.upd
    split
    · exact hk1.tick
    · exact hk1
  · unfold State.tick
    dsimp only
    exact h.dies.mapVal (fun _ _ hd => ⟨hd.staging⟩)

theorem State.Canon.ticks {n : Nat} (h : s.Canon) : (State.ticks n s).Canon := by
  induction n generalizing s with
  | zero => exact h
  | succ n ih => exact ih h.tick

theorem State.Canon.pass {dt : Nat} (h : s.Canon) : (s.pass dt).Canon := by
  unfold State.pass
  split
  · exact h
  · refine State.Canon.upd (s := if s.pkg.frozen then s else State.ticks dt s) ?_
    split
    · exact h
    · exact h.ticks

/-! ### Functions: turns (Machine/Turn) -/

theorem Follows.evictHome {die asid line : Nat} (h : Follows s₀ s) : Follows s₀ (evictHome die asid line s) := by
  unfold Machine.evictHome
  split
  · exact h
  · exact h.writeBack.modDie

theorem Follows.evictGuest {die asid line : Nat} (h : Follows s₀ s) : Follows s₀ (evictGuest die asid line s) := by
  unfold Machine.evictGuest
  split
  · exact h
  · next e => exact h.setDie (fun hs => ((h.canon hs).die die).guestRoom e)

theorem Follows.slip {i n : Nat} (h : Follows s₀ s) : Follows s₀ (slip i n s) := h.ite h.modPkg

theorem Follows.fetchNext {c slot : Nat} (h : Follows s₀ s) : Follows s₀ (fetchNext c slot s) := by
  unfold Machine.fetchNext
  split
  · exact h
  · split
    · exact h
    · exact h.fetchInstr

theorem State.Canon.actState {a : Act} (h : s.Canon) : (actState s a).Canon := by
  have hs := Follows.refl s
  unfold Machine.actState
  split
  · exact Follows.canon hs.fetchNext h
  · exact Follows.canon hs.copyRead h
  · exact Follows.canon hs.copyWrite h
  · exact Follows.canon hs.collRead h
  · exact Follows.canon hs.collWrite h
  · exact Follows.canon hs.flushEnd h
  · exact h.serve
  · exact Follows.canon hs.setCredit h
  · exact h.respCredit
  · exact Follows.canon hs.streamFirst h
  · exact Follows.canon hs.sheetEnd h
  · exact Follows.canon hs.inbufLevel h
  · exact Follows.canon hs.compStore h
  · exact Follows.canon hs.companionPhys h
  · exact Follows.canon hs.linkAck h
  · exact Follows.canon hs.bootFinish h
  · exact Follows.canon hs.rehearseStep h
  · exact Follows.canon hs.throughHome h
  · exact Follows.canon hs.branch h
  · exact Follows.canon hs.scanStep h
  · exact Follows.canon hs.unitRead h
  · exact Follows.canon hs.catchTileWord h
  · exact Follows.canon hs.scanWrite h
  · exact Follows.canon hs.scanMove h
  · exact Follows.canon hs.evictHome h
  · exact Follows.canon hs.evictGuest h
  · exact Follows.canon hs.modStack h
  · exact Follows.canon hs.modStack h
  · exact Follows.canon hs.modCore h
  · exact Follows.canon hs.slip h
  · exact Follows.canon hs.sbRead h
  · exact Follows.canon hs.unitError h
  · exact Follows.canon hs.tck h
  · exact Follows.canon hs.wrapDump h
  · exact h

theorem Follows.inTurn {a : Act} (h : Follows s₀ s) : Follows s₀ (s.inTurn a) := by
  unfold State.inTurn
  split
  · exact h
  · extract_lets s1
    have hs1 : Follows s₀ s1 := h.upd
    split
    · exact hs1.modCore
    · exact hs1

theorem Follows.begin {rest : List Turn} (h : Follows s₀ s) : Follows s₀ (s.begin rest) := h.upd

/-! ### What each instruction of a warp means -/

theorem SpecFollows.plain {sh : Shape} {body : Issue → Eff} (h : ∀ s₀ i, Follows s₀ i.s → EffFollows s₀ (body i)) :
    SpecFollows (Spec.plain sh body) := h

theorem SpecFollows.blocks {sh : Shape} {chk : Issue → Option Trap} {body : Issue → Eff}
    (h : ∀ s₀ i, Follows s₀ i.s → EffFollows s₀ (body i)) : SpecFollows (Spec.blocks sh chk body) := h

theorem SpecFollows.arith2 {m : BitVec 10} {w : Nat} {f : ℤ → ℤ → ℤ} {x : Ext} : SpecFollows (arith2 m w f x) :=
  SpecFollows.plain (fun _ _ h => EffFollows.out h)

theorem SpecFollows.iaddSpec {x : Ext} : SpecFollows (iaddSpec x) := SpecFollows.arith2

theorem SpecFollows.isubSpec {x : Ext} : SpecFollows (isubSpec x) := SpecFollows.arith2

theorem SpecFollows.iaddcSpec {x : Ext} : SpecFollows (iaddcSpec x) := SpecFollows.plain (fun _ _ h => h)

theorem SpecFollows.imulSpec {x : Ext} : SpecFollows (imulSpec x) := SpecFollows.arith2

theorem SpecFollows.imulhSpec {x : Ext} : SpecFollows (imulhSpec x) := SpecFollows.plain (fun _ _ h => EffFollows.out h)

theorem SpecFollows.imadSpec {x : Ext} : SpecFollows (imadSpec x) := SpecFollows.plain (fun _ _ h => EffFollows.out h)

theorem SpecFollows.imadwSpec {x : Ext} : SpecFollows (imadwSpec x) := SpecFollows.plain (fun _ _ h => EffFollows.out h)

theorem SpecFollows.iminmaxSpec {big : Bool} {x : Ext} : SpecFollows (iminmaxSpec big x) := SpecFollows.arith2

theorem SpecFollows.iabsSpec {x : Ext} : SpecFollows (iabsSpec x) := SpecFollows.plain (fun _ _ h => EffFollows.out h)

theorem SpecFollows.iadd64Spec {x : Ext} : SpecFollows (iadd64Spec x) := SpecFollows.arith2

theorem SpecFollows.idot4Spec {x : Ext} : SpecFollows (idot4Spec x) := SpecFollows.plain (fun _ _ h => EffFollows.out h)

theorem SpecFollows.shiftOp {m : BitVec 10} {f : Nat → Nat → Nat → Nat} {x : Ext} : SpecFollows (shiftOp m f x) :=
  SpecFollows.plain (fun _ _ h => EffFollows.out h)

theorem SpecFollows.irotSpec {x : Ext} : SpecFollows (irotSpec x) := SpecFollows.shiftOp

theorem SpecFollows.logicOp {f : Nat → Nat → Nat → Nat} {x : Ext} : SpecFollows (logicOp f x) := SpecFollows.plain (fun _ _ h => EffFollows.out h)

theorem SpecFollows.lmixSpec {x : Ext} : SpecFollows (lmixSpec x) := SpecFollows.plain (fun _ _ h => EffFollows.out h)

theorem SpecFollows.bitOp {wide : Bool} {f : Nat → Nat → Nat} {x : Ext} : SpecFollows (bitOp wide f x) :=
  SpecFollows.plain (fun _ _ h => EffFollows.out h)

theorem SpecFollows.bfxSpec {x : Ext} : SpecFollows (bfxSpec x) := SpecFollows.plain (fun _ _ h => EffFollows.out h)

theorem SpecFollows.bfiSpec {x : Ext} : SpecFollows (bfiSpec x) := SpecFollows.plain (fun _ _ h => EffFollows.out h)

theorem SpecFollows.iselSpec {x : Ext} : SpecFollows (iselSpec x) := SpecFollows.plain (fun _ _ h => EffFollows.out h)

theorem SpecFollows.leaSpec {x : Ext} : SpecFollows (leaSpec x) := SpecFollows.plain (fun _ _ h => EffFollows.out h)

theorem SpecFollows.ldiSpec {x : Ext} : SpecFollows (ldiSpec x) := SpecFollows.plain (fun _ _ h => EffFollows.out h)

theorem SpecFollows.isetSpec {x : Ext} : SpecFollows (isetSpec x) := SpecFollows.plain (fun _ _ h => h.setPred)

theorem SpecFollows.psetSpec {x : Ext} : SpecFollows (psetSpec x) := SpecFollows.plain (fun _ _ h => h.setPred)

theorem SpecFollows.pmovSpec {x : Ext} : SpecFollows (pmovSpec x) := by
  unfold Machine.pmovSpec
  intro s₀ i h
  dsimp only [Spec.plain]
  split
  · exact h.setPred
  · exact EffFollows.out h
  · exact EffFollows.out h
  · exact h.setPred
  · exact EffFollows.to h.modWarp
  · exact EffFollows.out h

theorem SpecFollows.pcntSpec {x : Ext} : SpecFollows (pcntSpec x) := SpecFollows.plain (fun _ _ h => EffFollows.out h)

theorem SpecFollows.vtosSpec {x : Ext} : SpecFollows (vtosSpec x) := SpecFollows.plain (fun _ _ h => EffFollows.out h)

theorem SpecFollows.stovSpec {x : Ext} : SpecFollows (stovSpec x) := SpecFollows.plain (fun _ _ h => EffFollows.out h)

theorem SpecFollows.electSpec {x : Ext} : SpecFollows (electSpec x) := SpecFollows.plain (fun _ _ h => h)

theorem SpecFollows.fpOp {f : Fmt} {m : BitVec 10} {nsrc : Nat} {op : Nat → Nat → Nat → Nat × Nat} {x : Ext} : SpecFollows (fpOp f m nsrc op x) :=
  SpecFollows.plain (fun _ _ h => h.outFp)

theorem SpecFollows.faddSpec {x : Ext} : SpecFollows (faddSpec x) := SpecFollows.fpOp

theorem SpecFollows.fsubSpec {x : Ext} : SpecFollows (fsubSpec x) := SpecFollows.fpOp

theorem SpecFollows.fmulSpec {x : Ext} : SpecFollows (fmulSpec x) := SpecFollows.fpOp

theorem SpecFollows.ffmaSpec {x : Ext} : SpecFollows (ffmaSpec x) := SpecFollows.fpOp

theorem SpecFollows.fminmaxSpec {big : Bool} {x : Ext} : SpecFollows (fminmaxSpec big x) := SpecFollows.fpOp

theorem SpecFollows.fsetSpec {x : Ext} : SpecFollows (fsetSpec x) := SpecFollows.plain (fun _ _ h => h)

theorem SpecFollows.fclassSpec {_x : Ext} : SpecFollows (fclassSpec _x) := SpecFollows.plain (fun _ _ h => EffFollows.out h)

theorem SpecFollows.transSpec {fn : Nat} {x : Ext} : SpecFollows (transSpec fn x) := SpecFollows.fpOp

theorem SpecFollows.daddSpec {x : Ext} : SpecFollows (daddSpec x) := SpecFollows.fpOp

theorem SpecFollows.dmulSpec {x : Ext} : SpecFollows (dmulSpec x) := SpecFollows.fpOp

theorem SpecFollows.dfmaSpec {x : Ext} : SpecFollows (dfmaSpec x) := SpecFollows.fpOp

theorem SpecFollows.packOp {m : BitVec 10} {nsrc : Nat} {op : Fmt → Nat → Nat → Nat → Nat × Nat} {x : Ext} : SpecFollows (packOp m nsrc op x) :=
  SpecFollows.plain (fun _ _ h => h.outFp)

theorem SpecFollows.pkaddSpec {x : Ext} : SpecFollows (pkaddSpec x) := SpecFollows.packOp

theorem SpecFollows.pkmulSpec {x : Ext} : SpecFollows (pkmulSpec x) := SpecFollows.packOp

theorem SpecFollows.pkfmaSpec {x : Ext} : SpecFollows (pkfmaSpec x) := SpecFollows.packOp

theorem SpecFollows.cvtBetween {src dst : CvtType} {x : Ext} : SpecFollows (cvtBetween src dst x) := SpecFollows.plain (fun _ _ h => h)

theorem SpecFollows.cvtSpec {x : Ext} : SpecFollows (cvtSpec x) := by
  unfold Machine.cvtSpec
  split
  · exact SpecFollows.cvtBetween
  · exact SpecFollows.plain (fun _ _ h => EffFollows.to h)

theorem SpecFollows.bqsclSpec {x : Ext} : SpecFollows (bqsclSpec x) := SpecFollows.plain (fun _ _ h => EffFollows.out h)

theorem SpecFollows.cvtqPack {x : Ext} : SpecFollows (cvtqPack x) := SpecFollows.plain (fun _ _ h => h)

theorem SpecFollows.cvtqUnpack {x : Ext} : SpecFollows (cvtqUnpack x) := SpecFollows.plain (fun _ _ h => EffFollows.out h)

theorem SpecFollows.cvtqSpec {x : Ext} : SpecFollows (cvtqSpec x) := by
  unfold Machine.cvtqSpec
  split
  · exact SpecFollows.cvtqUnpack
  · exact SpecFollows.cvtqPack

theorem SpecFollows.bqdotSpec {x : Ext} : SpecFollows (bqdotSpec x) := SpecFollows.plain (fun _ _ h => h)

theorem SpecFollows.braSpec  : SpecFollows (braSpec) := SpecFollows.plain (fun _ _ h => EffFollows.withTarget (fun _ => h.jump))

theorem SpecFollows.brpSpec {x : Ext} : SpecFollows (brpSpec x) := by
  unfold Machine.brpSpec
  intro s₀ i h
  dsimp only [Spec.plain]
  refine EffFollows.withTarget (fun _ => ?_)
  split
  · exact h.jump
  · exact EffFollows.to h

theorem SpecFollows.callSpec  : SpecFollows (callSpec) := SpecFollows.plain (fun _ _ h => EffFollows.withTarget (fun _ => h))

theorem SpecFollows.indirectSpec {ext link : Bool} {_x : Ext} : SpecFollows (indirectSpec ext link _x) := by
  unfold Machine.indirectSpec
  intro s₀ i h
  dsimp only [Spec.plain]
  split
  · trivial
  · exact h

theorem SpecFollows.brxSpec  : SpecFollows (brxSpec) := by
  unfold Machine.brxSpec
  intro s₀ i h
  dsimp only [Spec.plain]
  split
  · trivial
  · exact EffFollows.withTarget (fun _ => h.modWarp)

theorem SpecFollows.joinSpec {_x : Ext} : SpecFollows (joinSpec _x) := by
  unfold Machine.joinSpec
  intro s₀ i h
  dsimp only [Spec.plain]
  split
  · split
    · trivial
    · exact EffFollows.to h
  · split
    · exact EffFollows.to h.modWarp
    · split
      · exact EffFollows.to h.modWarp
      · exact h.modWarp

theorem SpecFollows.exitSpec {_x : Ext} : SpecFollows (exitSpec _x) := by
  unfold Machine.exitSpec
  intro s₀ i h
  dsimp only [Spec.blocks]
  split
  · trivial
  · exact h.exitLanes

theorem SpecFollows.recastSpec {x : Ext} : SpecFollows (recastSpec x) := by
  unfold Machine.recastSpec
  intro s₀ i h
  dsimp only [Spec.blocks]
  refine EffFollows.withTarget (fun _ => ?_)
  split
  · exact h
  · split
    · exact h
    · split
      · exact h.modGroup.countCore.setWarp
      · exact h.modGroup.countCore.setWarp

theorem SpecFollows.yieldSpec {_x : Ext} : SpecFollows (yieldSpec _x) := SpecFollows.blocks (fun _ _ h => EffFollows.to h.modSched)

theorem SpecFollows.nopSpec {_x : Ext} : SpecFollows (nopSpec _x) := SpecFollows.plain (fun _ _ h => EffFollows.to h)

theorem SpecFollows.codeTrapSpec {cause : Nat} {always : Bool} {_x : Ext} : SpecFollows (codeTrapSpec cause always _x) :=
  SpecFollows.plain (fun _ _ h => h)

theorem SpecFollows.ldsSpec {x : Ext} : SpecFollows (ldsSpec x) := by
  unfold Machine.ldsSpec
  split
  · exact SpecFollows.plain (fun _ _ h => h.loadBody)
  · exact SpecFollows.plain (fun _ _ h => h.loadBody)

theorem SpecFollows.ldspSpec {x : Ext} : SpecFollows (ldspSpec x) := SpecFollows.plain (fun _ _ h => h.loadBody)

theorem SpecFollows.stsSpec {x : Ext} : SpecFollows (stsSpec x) := by
  unfold Machine.stsSpec
  intro s₀ i h
  dsimp only [Spec.plain]
  refine EffFollows.withAccess ?_
  split
  · trivial
  · exact EffFollows.to h.modWarp

theorem SpecFollows.tagSpec {sh : Shape} {body : Issue → Eff} (hbody : ∀ s₀ i, Follows s₀ i.s → EffFollows s₀ (body i)) :
    SpecFollows (tagSpec sh body) := SpecFollows.blocks (fun _ _ h => hbody _ _ h)

theorem SpecFollows.ldsfSpec {ins : Instr} {x : Ext} : SpecFollows (ldsfSpec ins x) :=
  SpecFollows.tagSpec (fun _ _ h => EffFollows.tagAccess h (fun _ _ h1 => h1.ldsfAct))

theorem SpecFollows.stseSpec {ins : Instr} {x : Ext} : SpecFollows (stseSpec ins x) :=
  SpecFollows.tagSpec (fun _ _ h => EffFollows.tagAccess h (fun _ _ h1 => h1.stseAct))

theorem SpecFollows.tagsSpec {kind : LoadKind} {x : Ext} : SpecFollows (tagsSpec kind x) :=
  SpecFollows.plain (fun _ _ h => (EffFollows.to h.modWarp).withAccess)

theorem SpecFollows.atsSpec {ret : Bool} {x : Ext} : SpecFollows (atsSpec ret x) := by
  unfold Machine.atsSpec
  intro s₀ i h
  dsimp only [Spec.plain]
  refine EffFollows.withAccess ?_
  split
  · trivial
  · split
    · exact h.modWarp
    · exact EffFollows.to h.modWarp

theorem SpecFollows.fenceSpec {x : Ext} : SpecFollows (fenceSpec x) := by
  unfold Machine.fenceSpec
  intro s₀ i h
  dsimp only [Spec.plain]
  split
  · exact EffFollows.to h
  · exact h

theorem SpecFollows.tallocSpec {x : Ext} : SpecFollows (tallocSpec x) := by
  unfold Machine.tallocSpec
  intro s₀ i h
  dsimp only [Spec.plain]
  split
  · trivial
  · split
    · trivial
    · split
      · trivial
      · split
        · exact h.newTile.setHandle
        · exact EffFollows.out h

theorem SpecFollows.tfreeSpec {x : Ext} : SpecFollows (tfreeSpec x) := by
  unfold Machine.tfreeSpec
  intro s₀ i h
  dsimp only [Spec.plain]
  split
  · exact EffFollows.to h.setHandle
  · trivial

theorem SpecFollows.tldSpec {x : Ext} : SpecFollows (tldSpec x) := by
  unfold Machine.tldSpec
  intro s₀ i h
  dsimp only [Spec.plain]
  split
  · trivial
  · split
    · trivial
    · exact h.modWarp

theorem SpecFollows.tstSpec {x : Ext} : SpecFollows (tstSpec x) := by
  unfold Machine.tstSpec
  intro s₀ i h
  dsimp only [Spec.plain]
  split
  · trivial
  · split
    · trivial
    · exact EffFollows.to h.modWarp

theorem SpecFollows.aclrSpec {x : Ext} : SpecFollows (aclrSpec x) := by
  unfold Machine.aclrSpec
  intro s₀ i h
  dsimp only [Spec.plain]
  exact EffFollows.to (h.foldl (fun _ _ h1 => h1.addAcc))

theorem SpecFollows.ardSpec {x : Ext} : SpecFollows (ardSpec x) := by
  unfold Machine.ardSpec
  intro s₀ i h
  dsimp only [Spec.plain]
  split
  · trivial
  · split
    · trivial
    · exact h.addAcc

theorem SpecFollows.awrSpec {x : Ext} : SpecFollows (awrSpec x) := by
  unfold Machine.awrSpec
  intro s₀ i h
  dsimp only [Spec.plain]
  split
  · trivial
  · split
    · trivial
    · exact EffFollows.to h.modWarp.addAcc

theorem SpecFollows.icinvSpec {x : Ext} : SpecFollows (icinvSpec x) := by
  unfold Machine.icinvSpec
  intro s₀ i h
  dsimp only [Spec.plain]
  split
  · exact h
  · exact EffFollows.to h.invalidateCode

theorem SpecFollows.mmaSpec {nb : Nat} {ins : Instr} {x : Ext} : SpecFollows (mmaSpec nb ins x) := by
  unfold Machine.mmaSpec
  intro s₀ i h
  dsimp only [Spec.blocks]
  split
  · exact EffFollows.to h
  · split
    · exact h
    · split
      · trivial
      · exact (h.takeSeq.setCore (fun hs => ((h.takeSeq.canon hs).core _).takeTickets.upd)).posted

theorem SpecFollows.wbldSpec {x : Ext} : SpecFollows (wbldSpec x) := by
  unfold Machine.wbldSpec
  intro s₀ i h
  dsimp only [Spec.plain]
  split
  · trivial
  · split
    · exact h.posted
    · exact (h.ite h.drain).takeSeq.modCore.posted

theorem SpecFollows.wbinvSpec {_x : Ext} : SpecFollows (wbinvSpec _x) := by
  unfold Machine.wbinvSpec
  intro s₀ i h
  dsimp only [Spec.plain]
  split
  · trivial
  · split
    · trivial
    · exact EffFollows.to h.modCore

theorem SpecFollows.scanSpec {x : Ext} : SpecFollows (scanSpec x) := by
  unfold Machine.scanSpec
  intro s₀ i h
  dsimp only [Spec.plain]
  split
  · exact EffFollows.to h
  · split
    · trivial
    · split
      · exact h.posted
      · exact h.takeSeq.modCore.posted

theorem SpecFollows.scanstSpec {x : Ext} : SpecFollows (scanstSpec x) := by
  unfold Machine.scanstSpec
  intro s₀ i h
  dsimp only [Spec.plain]
  split
  · trivial
  · split
    · exact h.posted
    · exact h.takeSeq.modCore.posted

theorem SpecFollows.mfsSpec {x : Ext} : SpecFollows (mfsSpec x) := by
  unfold Machine.mfsSpec
  intro s₀ i h
  dsimp only [Spec.plain]
  exact h.modCore.ite h

theorem SpecFollows.mtsSpec {x : Ext} : SpecFollows (mtsSpec x) := by
  unfold Machine.mtsSpec
  intro s₀ i h
  dsimp only [Spec.plain]
  exact h.mtsBody

theorem SpecFollows.sscmdSpec {op : Issue → Eff} {x : Ext} (hop : ∀ s₀ i, Follows s₀ i.s → EffFollows s₀ (op i)) : SpecFollows (sscmdSpec op x) := by
  unfold Machine.sscmdSpec
  intro s₀ i h
  dsimp only [Spec.plain]
  exact hop _ _ h

theorem SpecFollows.eretSpec {_x : Ext} : SpecFollows (eretSpec _x) := by
  unfold Machine.eretSpec
  intro s₀ i h
  dsimp only [Spec.plain]
  split
  · exact h.returnFromTrap.countIssue.afterEret
  · trivial

theorem SpecFollows.haltSpec {_x : Ext} : SpecFollows (haltSpec _x) := by
  unfold Machine.haltSpec
  intro s₀ i h
  dsimp only [Spec.plain]
  split
  · exact EffFollows.to h.modWarp
  · trivial

theorem SpecFollows.clrerrSpec {_x : Ext} : SpecFollows (clrerrSpec _x) := SpecFollows.plain (fun _ _ h => EffFollows.to h.modGroup)

theorem SpecFollows.waitcSpec {x : Ext} : SpecFollows (waitcSpec x) := by
  unfold Machine.waitcSpec
  intro s₀ i h
  dsimp only [Spec.blocks]
  split
  · exact EffFollows.to h
  · exact h

theorem SpecFollows.tlwaitSpec {x : Ext} : SpecFollows (tlwaitSpec x) := by
  unfold Machine.tlwaitSpec
  intro s₀ i h
  dsimp only [Spec.blocks]
  split
  · trivial
  · split
    · exact h
    · exact h

theorem SpecFollows.tlrdSpec {x : Ext} : SpecFollows (tlrdSpec x) := by
  unfold Machine.tlrdSpec
  intro s₀ i h
  dsimp only [Spec.plain]
  split
  · trivial
  · split
    · split
      · trivial
      · exact h.modGroup
    · exact h

theorem SpecFollows.ballocSpec {x : Ext} : SpecFollows (ballocSpec x) := by
  unfold Machine.ballocSpec
  intro s₀ i h
  dsimp only [Spec.plain]
  split
  · trivial
  · split
    · exact h.ballocSet
    · split
      · trivial
      · split
        · exact h.ballocAt
        · exact EffFollows.out h

theorem SpecFollows.bfreeSpec {_x : Ext} : SpecFollows (bfreeSpec _x) := by
  unfold Machine.bfreeSpec
  intro s₀ i h
  dsimp only [Spec.plain]
  split
  · trivial
  · exact EffFollows.to h.putBar

theorem SpecFollows.barvSpec {_x : Ext} : SpecFollows (barvSpec _x) := by
  unfold Machine.barvSpec
  intro s₀ i h
  dsimp only [Spec.plain]
  split
  · trivial
  · exact h.arriveBody

theorem SpecFollows.barvwSpec {_x : Ext} : SpecFollows (barvwSpec _x) := by
  unfold Machine.barvwSpec
  intro s₀ i h
  dsimp only [Spec.plain]
  split
  · trivial
  · split
    · trivial
    · exact h.arriveBody

theorem SpecFollows.bwaitSpec {x : Ext} : SpecFollows (bwaitSpec x) := by
  unfold Machine.bwaitSpec
  intro s₀ i h
  dsimp only [Spec.blocks]
  split
  · trivial
  · split
    · exact h
    · exact h

theorem SpecFollows.ecrdSpec {x : Ext} : SpecFollows (ecrdSpec x) := by
  unfold Machine.ecrdSpec
  intro s₀ i h
  dsimp only [Spec.plain]
  split
  · trivial
  · exact EffFollows.out h

theorem SpecFollows.ecselSpec {x : Ext} : SpecFollows (ecselSpec x) := by
  unfold Machine.ecselSpec
  intro s₀ i h
  dsimp only [Spec.plain]
  split
  · trivial
  · exact EffFollows.to (h.modDie.ite h.modCore)

theorem SpecFollows.cgrpSpec {_x : Ext} : SpecFollows (cgrpSpec _x) := by
  unfold Machine.cgrpSpec
  intro s₀ i h
  dsimp only [Spec.plain]
  split
  · trivial
  · split
    · trivial
    · exact EffFollows.out h

theorem SpecFollows.fxwinSpec {_x : Ext} : SpecFollows (fxwinSpec _x) := by
  unfold Machine.fxwinSpec
  intro s₀ i h
  dsimp only [Spec.plain]
  split
  · trivial
  · exact EffFollows.out h

theorem SpecFollows.cpostSpec {x : Ext} : SpecFollows (cpostSpec x) := by
  unfold Machine.cpostSpec
  intro s₀ i h
  dsimp only [Spec.blocks]
  split
  · exact EffFollows.to h
  · split
    · exact h.drain
    · split
      · exact h.drain.trapHere
      · exact h.drain.postSlate.posted

theorem SpecFollows.redSpec {x : Ext} : SpecFollows (redSpec x) := by
  unfold Machine.redSpec
  intro s₀ i h
  dsimp only [Spec.plain]
  split
  · trivial
  · exact EffFollows.to (h.foldl (fun _ _ h1 => h1.placeRed))

theorem SpecFollows.redflushSpec {x : Ext} : SpecFollows (redflushSpec x) := by
  unfold Machine.redflushSpec
  intro s₀ i h
  dsimp only [Spec.plain]
  split
  · trivial
  · split
    · exact h.posted
    · exact h.startFlush.posted

theorem SpecFollows.amoSpec {x : Ext} : SpecFollows (amoSpec x) := by
  unfold Machine.amoSpec
  intro s₀ i h
  dsimp only [Spec.plain]
  split
  · exact EffFollows.to h
  · split
    · trivial
    · split
      · exact h.posted
      · exact h.takeSeq.pushCmd.posted

theorem SpecFollows.cfenceSpec {x : Ext} : SpecFollows (cfenceSpec x) := by
  unfold Machine.cfenceSpec
  intro s₀ i h
  dsimp only [Spec.plain]
  split
  · trivial
  · exact EffFollows.to h.modGroup

theorem SpecFollows.cpstatSpec {x : Ext} : SpecFollows (cpstatSpec x) := by
  unfold Machine.cpstatSpec
  intro s₀ i h
  dsimp only [Spec.plain]
  split
  · trivial
  · split
    · exact EffFollows.out h
    · exact EffFollows.out h

theorem SpecFollows.collSpec {x : Ext} : SpecFollows (collSpec x) := by
  unfold Machine.collSpec
  intro s₀ i h
  dsimp only [Spec.plain]
  split
  · exact EffFollows.to h
  · split
    · exact h.drain.trapHere
    · split
      · exact h.drain.postColl.posted
      · exact h.drain.posted

theorem SpecFollows.sysSpec {sh : Shape} {body : Issue → Eff} (hbody : ∀ s₀ i, Follows s₀ i.s → EffFollows s₀ (body i)) :
    SpecFollows (sysSpec sh body) := by
  unfold Machine.sysSpec
  intro s₀ i h
  dsimp only [Spec.plain]
  exact hbody _ _ h

theorem SpecFollows.tlbflushSpec {x : Ext} : SpecFollows (tlbflushSpec x) := by
  unfold Machine.tlbflushSpec
  refine SpecFollows.sysSpec (fun s₀ i h => ?_)
  split
  · trivial
  · exact EffFollows.to h.tlbFlush

theorem SpecFollows.tlbsyncSpec {x : Ext} : SpecFollows (tlbsyncSpec x) := by
  unfold Machine.tlbsyncSpec
  refine SpecFollows.sysSpec (fun s₀ i h => ?_)
  extract_lets n u
  split
  · exact EffFollows.to h
  · exact h

theorem SpecFollows.asidretSpec {x : Ext} : SpecFollows (asidretSpec x) := by
  unfold Machine.asidretSpec
  refine SpecFollows.sysSpec (fun s₀ i h => ?_)
  split
  · trivial
  · exact h.beginRetire.ite h

theorem SpecFollows.sgwrSpec {x : Ext} : SpecFollows (sgwrSpec x) := by
  unfold Machine.sgwrSpec
  refine SpecFollows.sysSpec (fun s₀ i h => ?_)
  split
  · exact EffFollows.to h
  · extract_lets s
    split
    · exact h.drain.trapRead
    · exact h.drain.writeScope

theorem SpecFollows.ttrdSpec {x : Ext} : SpecFollows (ttrdSpec x) := by
  unfold Machine.ttrdSpec
  intro s₀ i h
  dsimp only [Spec.plain]
  exact EffFollows.to h.modWarp

theorem SpecFollows.bwsetSpec {x : Ext} : SpecFollows (bwsetSpec x) := by
  unfold Machine.bwsetSpec
  refine SpecFollows.sysSpec (fun s₀ i h => ?_)
  split
  · trivial
  · extract_lets ds new
    split
    · exact EffFollows.to (h.foldl (fun _ _ h1 => h1.modDie))
    · exact EffFollows.out h

theorem SpecFollows.launchSpec {x : Ext} : SpecFollows (launchSpec x) := by
  unfold Machine.launchSpec
  intro s₀ i h
  dsimp only [Spec.plain]
  split
  · exact EffFollows.to h
  · split
    · exact h.drain.trapHere
    · split
      · exact h.drain.posted
      · exact h.drain.writeHome.modLq.posted

theorem SpecFollows.tskpostSpec {x : Ext} : SpecFollows (tskpostSpec x) := by
  unfold Machine.tskpostSpec
  refine SpecFollows.plain (fun s₀ i h => ?_)
  split
  · exact EffFollows.to h
  · extract_lets s
    have hs : Follows s₀ s := h.drain
    clear_value s
    split
    · exact hs.trapRead
    · next e => exact Follows.posted (hs.postTask e)

theorem SpecFollows.itemputSpec {x : Ext} : SpecFollows (itemputSpec x) := SpecFollows.plain (fun _ _ h => h.putItems.posted)

theorem SpecFollows.quadMove {m : BitVec 10} {pick : Nat → Nat} {x : Ext} : SpecFollows (quadMove m pick x) :=
  SpecFollows.plain (fun _ _ h => EffFollows.out h)

theorem SpecFollows.qswzSpec {x : Ext} : SpecFollows (qswzSpec x) := SpecFollows.quadMove

theorem SpecFollows.qbcSpec {x : Ext} : SpecFollows (qbcSpec x) := SpecFollows.quadMove

theorem SpecFollows.quadDiff {pick : Nat → Nat × Nat} {_x : Ext} : SpecFollows (quadDiff pick _x) := SpecFollows.plain (fun _ _ h => h.outFp)

theorem SpecFollows.qdxSpec {x : Ext} : SpecFollows (qdxSpec x) := SpecFollows.quadDiff

theorem SpecFollows.qdySpec {x : Ext} : SpecFollows (qdySpec x) := SpecFollows.quadDiff

theorem SpecFollows.lxchSpec {x : Ext} : SpecFollows (lxchSpec x) := SpecFollows.plain (fun _ _ h => h)

theorem SpecFollows.qrmSpec {x : Ext} : SpecFollows (qrmSpec x) := by
  unfold Machine.qrmSpec
  intro s₀ i h
  dsimp only [Spec.plain]
  split
  · exact EffFollows.out h
  · exact h

theorem SpecFollows.peerSpec {x : Ext} : SpecFollows (peerSpec x) := by
  unfold Machine.peerSpec
  intro s₀ i h
  dsimp only [Spec.plain]
  split
  · exact h
  · exact EffFollows.out h

theorem SpecFollows.wfoldSpec {x : Ext} : SpecFollows (wfoldSpec x) := SpecFollows.plain (fun _ _ h => h)

theorem SpecFollows.prefixSpec {x : Ext} : SpecFollows (prefixSpec x) := SpecFollows.plain (fun _ _ h => h)

theorem SpecFollows.isectSpec {x : Ext} : SpecFollows (isectSpec x) := SpecFollows.plain (fun _ _ h => h)

/-! ### What each event does -/

theorem Follows.runSpec {sp : Spec} {kBad : Bool} {x : Ext} {len : Nat} (h : Follows s₀ s) (hsp : SpecFollows sp) :
    OutFollows s₀ (runSpec sp kBad x len s) := by
  unfold Machine.runSpec
  split
  · split
    · trivial
    · split
      · trivial
      · exact Follows.issueState hsp h
  · trivial

theorem Follows.runExt {f : Ext → Spec} {x : Ext} (h : Follows s₀ s) (hf : ∀ x, SpecFollows (f x)) : OutFollows s₀ (runExt f x s) :=
  h.runSpec (hf _)

theorem Follows.runAlu {f : Ext → Spec} {b : BAlu} (h : Follows s₀ s) (hf : ∀ x, SpecFollows (f x)) : OutFollows s₀ (runAlu f b s) :=
  h.runSpec (hf _)

theorem Follows.runImm {f : Ext → Spec} {b : BImm} (h : Follows s₀ s) (hf : ∀ x, SpecFollows (f x)) : OutFollows s₀ (runImm f b s) :=
  h.runSpec (hf _)

theorem Follows.runMem {load : Bool} {f : Ext → Spec} {b : BMem} (h : Follows s₀ s) (hf : ∀ x, SpecFollows (f x)) :
    OutFollows s₀ (runMem load f b s) :=
  h.runSpec (hf _)

theorem Follows.resume {c slot : Nat} {f : State → Host.Outcome State Fault Refusal} (h : Follows s₀ s)
    (hf : ∀ t, Follows s₀ t → OutFollows s₀ (f t)) : OutFollows s₀ (resume s c slot f) := by
  unfold Machine.resume
  split
  · next t e =>
    have ht : Follows s₀ t := (hf _ h.upd).next e
    exact ht.upd
  · exact hf _ h.upd

theorem Follows.execBraBr {b : BBr} (h : Follows s₀ s) : OutFollows s₀ (execBraBr b s) := h.runSpec SpecFollows.braSpec

theorem Follows.execCallBr {b : BBr} (h : Follows s₀ s) : OutFollows s₀ (execCallBr b s) := h.runSpec SpecFollows.callSpec

theorem Follows.execLoadLand {core slot idx : Nat} {which : Mask} (h : Follows s₀ s) : OutFollows s₀ (execLoadLand core slot idx which s) :=
  (h.foldl (fun _ _ h1 => h1.stepLane)).modWarp

theorem Follows.execStoreQueuePerform {core slot : Nat} (h : Follows s₀ s) : OutFollows s₀ (execStoreQueuePerform core slot s) := h.performHead

theorem Follows.execGripStorePerform {core grip : Nat} (h : Follows s₀ s) : OutFollows s₀ (execGripStorePerform core grip s) := h.gripPerformHead

theorem Follows.execTileAccessLand {core slot idx : Nat} (h : Follows s₀ s) : OutFollows s₀ (execTileAccessLand core slot idx s) := by
  unfold Machine.execTileAccessLand
  split
  · exact h
  · split
    · exact h
    · split
      · exact ((h.landTile.ite (h.modCore (fun _ hk => hk.writeTile))).ite ((h.landTile.ite (h.modCore (fun _ hk => hk.writeTile))).modCore)).modWarp
      · exact h

theorem Follows.execMmaAccept {core slot : Nat} (h : Follows s₀ s) : OutFollows s₀ (execMmaAccept core slot s) := by
  unfold Machine.execMmaAccept
  split
  · exact h
  · split
    · exact h.resume (fun _ h1 => h1.runExt (fun _ => SpecFollows.mmaSpec))
    · exact h.resume (fun _ h1 => h1.runExt (fun _ => SpecFollows.mmaSpec))
    · exact h.resume (fun _ h1 => h1.runExt (fun _ => SpecFollows.mmaSpec))
    · exact h.resume (fun _ h1 => h1.runExt (fun _ => SpecFollows.mmaSpec))
    · exact h.resume (fun _ h1 => h1.runExt (fun _ => SpecFollows.mmaSpec))
    · exact h.resume (fun _ h1 => h1.runExt (fun _ => SpecFollows.mmaSpec))
    · exact h.resume (fun _ h1 => h1.runExt (fun _ => SpecFollows.mmaSpec))
    · exact h.resume (fun _ h1 => h1.runExt (fun _ => SpecFollows.mmaSpec))
    · exact h

theorem Follows.execGafferWindow {core : Nat} (h : Follows s₀ s) : OutFollows s₀ (execGafferWindow core s) :=
  h.setCore (fun hs => ((h.canon hs).core _).newWindow)

theorem Follows.execMatrixUnitStart {core : Nat} (h : Follows s₀ s) : OutFollows s₀ (execMatrixUnitStart core s) := by
  unfold Machine.execMatrixUnitStart
  extract_lets k
  have hk : s₀.Canon → k.Canon := fun hs => (h.canon hs).core _
  split
  · exact h
  · split
    · split
      · exact h
      · split
        · exact h.setCore (fun hs => (hk hs).upd)
        · exact h
    · split
      · split
        · exact h.setCore (fun hs => (hk hs).upd)
        · exact h
      · exact h

theorem Follows.execMatrixCommandComplete {core : Nat} (h : Follows s₀ s) : OutFollows s₀ (execMatrixCommandComplete core s) := by
  unfold Machine.execMatrixCommandComplete
  extract_lets k
  have hk : s₀.Canon → k.Canon := fun hs => (h.canon hs).core _
  split
  · split
    · exact h
    · split
      · exact (h.setCore (fun hs => ((hk hs).setAccStore ((UnitStore.Canon.accStore (hk hs)).put)).upd.foldl (fun _ _ hk1 => hk1.dropTicket))).endUnit
      · exact h
  · exact h

theorem Follows.execWbldRun {core : Nat} (h : Follows s₀ s) : OutFollows s₀ (execWbldRun core s) := by
  unfold Machine.execWbldRun
  extract_lets k
  have hk : s₀.Canon → k.Canon := fun hs => (h.canon hs).core _
  split
  · split
    · split
      · exact h
      · exact h.setCore (fun hs => (hk hs).upd)
    · exact h
  · exact h

theorem Follows.execWbldComplete {core : Nat} (h : Follows s₀ s) : OutFollows s₀ (execWbldComplete core s) := by
  unfold Machine.execWbldComplete
  extract_lets k
  have hk : s₀.Canon → k.Canon := fun hs => (h.canon hs).core _
  split
  · split
    · split
      · exact h
      · extract_lets k1
        have hk1 : s₀.Canon → k1.Canon := fun hs =>
          ⟨(hk hs).scratch, (hk hs).tileMem, Memory.wf_foldl (hk hs).weight (fun _ _ hx => Memory.wf_write _ _ _ hx), (hk hs).acc, (hk hs).grips⟩
        exact (h.setCore (fun hs => hk1 hs)).endUnit
    · exact h
  · exact h

theorem Follows.execWbinvEffect {core : Nat} (h : Follows s₀ s) : OutFollows s₀ (execWbinvEffect core s) := by
  unfold Machine.execWbinvEffect
  extract_lets k
  have hk : s₀.Canon → k.Canon := fun hs => (h.canon hs).core _
  split
  · split
    · exact h.setCore (fun hs => (hk hs).upd)
    · exact h
  · exact h

theorem Follows.execScanStart {core : Nat} (h : Follows s₀ s) : OutFollows s₀ (execScanStart core s) := by
  unfold Machine.execScanStart
  extract_lets k now
  have hk : s₀.Canon → k.Canon := fun hs => (h.canon hs).core _
  split
  · split
    · extract_lets v ws bad h' x u
      have hu : s₀.Canon → u.Canon := by
        intro h1
        unfold u
        split
        · exact (hk h1).uncorrectable
        · exact hk h1
      exact h.setCore (fun hs => (hu hs).upd)
    · exact h.setCore (fun hs => (hk hs).upd)
  · exact h

theorem Follows.execScanComplete {core : Nat} (h : Follows s₀ s) : OutFollows s₀ (execScanComplete core s) := by
  unfold Machine.execScanComplete
  extract_lets k
  have hk : s₀.Canon → k.Canon := fun hs => (h.canon hs).core _
  split
  · split
    · extract_lets v u
      have hu : s₀.Canon → u.Canon := fun hs => (hk hs).writeScanRecord
      split
      · exact h
      · exact (h.setCore (fun hs => (hu hs).upd)).endUnit
    · exact h
  · exact h

theorem Follows.execScanstComplete {core : Nat} (h : Follows s₀ s) : OutFollows s₀ (execScanstComplete core s) := by
  unfold Machine.execScanstComplete
  extract_lets k
  have hk : s₀.Canon → k.Canon := fun hs => (h.canon hs).core _
  split
  · split
    · split
      · exact h
      · exact (h.setCore (fun hs => (hk hs).upd)).endUnit
    · exact h
  · exact h

theorem Follows.execTrapEntry {core slot : Nat} (h : Follows s₀ s) : OutFollows s₀ (execTrapEntry core slot s) := by
  unfold Machine.execTrapEntry
  split
  · split
    · split
      · exact h.setWarp.takeTrap
      · exact h
    · exact h
  · exact h

theorem Follows.execTagwait {core : Nat} {who : TagWaiter} (h : Follows s₀ s) : OutFollows s₀ (execTagwait core who s) := by
  unfold Machine.execTagwait
  extract_lets k
  have hk : s₀.Canon → k.Canon := fun hs => (h.canon hs).core _
  split
  · split
    · split
      · exact h.countCore.takeTrap
      · exact h
    · exact h
  · extract_lets q
    split
    · split
      · exact h.countCore.gripExcept
      · exact h
    · exact h

theorem Follows.execBreakpointHit {core sched n : Nat} (h : Follows s₀ s) : OutFollows s₀ (execBreakpointHit core sched n s) := by
  unfold Machine.execBreakpointHit
  split
  · split
    · split
      · exact h.takeTrap
      · exact h.modCore (fun _ hk => hk.freeze)
    · exact h
  · exact h

theorem Follows.execDbgctlResume {core : Nat} {value : DWord} (h : Follows s₀ s) : OutFollows s₀ (execDbgctlResume core value s) :=
  h.transact (fun _ h1 => h1.modCore (fun _ hk => hk.writeDbgctl))

theorem Follows.execFenceDrained {core slot : Nat} (h : Follows s₀ s) : OutFollows s₀ (execFenceDrained core slot s) := by
  unfold Machine.execFenceDrained
  split
  · split
    · split
      · exact h.resume (fun _ h1 => h1.runExt (fun _ => SpecFollows.fenceSpec))
      · exact h
    · exact h
  · exact h

theorem Follows.execIcinvDone {core slot : Nat} (h : Follows s₀ s) : OutFollows s₀ (execIcinvDone core slot s) := by
  unfold Machine.execIcinvDone
  split
  · exact h.resume (fun _ h1 => h1.runExt (fun _ => SpecFollows.icinvSpec))
  · exact h

theorem Follows.execRecastWake {core slot : Nat} (h : Follows s₀ s) : OutFollows s₀ (execRecastWake core slot s) := by
  unfold Machine.execRecastWake
  split
  · split
    · split
      · exact h
      · exact h.resume (fun _ h1 => h1.runExt (fun _ => SpecFollows.recastSpec))
    · exact h
  · exact h

theorem Follows.execWaitcReturn {core slot : Nat} (h : Follows s₀ s) : OutFollows s₀ (execWaitcReturn core slot s) := by
  unfold Machine.execWaitcReturn
  split
  · split
    · split
      · exact h.resume (fun _ h1 => h1.runExt (fun _ => SpecFollows.waitcSpec))
      · exact h
    · exact h
  · exact h

theorem Follows.execTlwaitReturn {core slot : Nat} (h : Follows s₀ s) : OutFollows s₀ (execTlwaitReturn core slot s) := by
  unfold Machine.execTlwaitReturn
  split
  · split
    · extract_lets k
      have hk : s₀.Canon → k.Canon := fun hs => (h.canon hs).core _
      split
      · exact h.resume (fun _ h1 => h1.runExt (fun _ => SpecFollows.tlwaitSpec))
      · exact h
    · exact h
  · exact h

theorem Follows.execBwaitReturn {core slot : Nat} (h : Follows s₀ s) : OutFollows s₀ (execBwaitReturn core slot s) := by
  unfold Machine.execBwaitReturn
  split
  · split
    · extract_lets k v
      have hk : s₀.Canon → k.Canon := fun hs => (h.canon hs).core _
      split
      · exact h
      · exact h.resume (fun _ h1 => h1.runExt (fun _ => SpecFollows.bwaitSpec))
    · exact h
  · exact h

theorem Follows.execTokenRefill {port : PortRef} (h : Follows s₀ s) : OutFollows s₀ (execTokenRefill port s) := by
  unfold Machine.execTokenRefill
  split
  · exact h.modCore
  · exact h.modDie

theorem Follows.execPortSend {port : PortRef} (h : Follows s₀ s) : OutFollows s₀ (execPortSend port s) := by
  unfold Machine.execPortSend
  extract_lets p
  split
  · exact h
  · split
    · exact h
    · extract_lets s1
      have hs1 : Follows s₀ s1 := by
        unfold s1
        split
        · exact h.modCore.countCore.countCore
        · exact h.modDie
      exact hs1.granted

theorem Follows.execCpostAccept {core slot : Nat} (h : Follows s₀ s) : OutFollows s₀ (execCpostAccept core slot s) := by
  unfold Machine.execCpostAccept
  split
  · split
    · exact h.resume (fun _ h1 => h1.runExt (fun _ => SpecFollows.cpostSpec))
    · exact h
  · exact h

theorem Follows.execCopyDispatch {core engine ctx : Nat} (h : Follows s₀ s) : OutFollows s₀ (execCopyDispatch core engine ctx s) := by
  unfold Machine.execCopyDispatch
  split
  · exact h
  · extract_lets r u
    have hr : Follows s₀ r.1 := h.nextEntry
    split
    · exact hr
    · exact hr.modCore.modCtx

theorem Follows.execAtomicElementPerform {who : AtomicRef} (h : Follows s₀ s) : OutFollows s₀ (execAtomicElementPerform who s) := by
  unfold Machine.execAtomicElementPerform
  split
  · exact h.performContribution
  · split
    · exact h.performAmo
    · split
      · exact h.atom.ite h
      · exact h

theorem Follows.execCopyFaultSuspend {core engine ctx : Nat} (h : Follows s₀ s) : OutFollows s₀ (execCopyFaultSuspend core engine ctx s) := by
  unfold Machine.execCopyFaultSuspend
  extract_lets x r
  have hr : Follows s₀ r.1 := h.absentPage
  split
  · exact h
  · split
    · exact hr
    · split
      · exact hr.modCtx
      · exact (hr.staleReads.ite hr).mod

theorem Follows.execFaultBatchPost {core engine ctx : Nat} (h : Follows s₀ s) : OutFollows s₀ (execFaultBatchPost core engine ctx s) := by
  unfold Machine.execFaultBatchPost
  extract_lets x d r jb u done e kind pa
  split
  · split
    · exact h
    · exact h.writePhys.modDie.countCore.modCtx
  · exact h

theorem Follows.execCopyComplete {core engine ctx : Nat} (h : Follows s₀ s) : OutFollows s₀ (execCopyComplete core engine ctx s) := by
  unfold Machine.execCopyComplete
  extract_lets x per units wrote flagDone amount
  split
  · exact h
  · split
    · split
      · exact h
      · split
        · exact h.endCmd
        · exact h.endCmd
    · split
      · exact h
      · exact h.endCmd
    · exact h

theorem Follows.execLinkAbsenceTimeout {core engine ctx : Nat} (h : Follows s₀ s) : OutFollows s₀ (execLinkAbsenceTimeout core engine ctx s) := by
  unfold Machine.execLinkAbsenceTimeout
  split
  · exact h
  · extract_lets x wr u
    split
    · exact h
    · exact h.failAt

theorem Follows.execWriteThroughAck {die asid line : Nat} (h : Follows s₀ s) : OutFollows s₀ (execWriteThroughAck die asid line s) := by
  unfold Machine.execWriteThroughAck
  split
  · exact h
  · split
    · exact h
    · extract_lets h1
      split
      · exact h.modDie
      · exact h.modDie

theorem Follows.execCollectiveMatched {key : CollKey} (h : Follows s₀ s) : OutFollows s₀ (execCollectiveMatched key s) :=
  h.foldl (fun _ _ h1 => h1.collMove)

theorem Follows.execGatewayCombine {key : CollKey} {src dst : Nat} (h : Follows s₀ s) : OutFollows s₀ (execGatewayCombine key src dst s) := by
  unfold Machine.execGatewayCombine
  extract_lets own ready
  split
  · exact h
  · exact h.modDie.countDie.countDie

theorem Follows.execCollMemberComplete {die ctx : Nat} (h : Follows s₀ s) : OutFollows s₀ (execCollMemberComplete die ctx s) := by
  unfold Machine.execCollMemberComplete
  split
  · exact h
  · split
    · exact h.ite (h.collFailedStore.modColl.ite h.collEnd)
    · split
      · exact h.modColl.ite h
      · split
        · exact h.collEnd
        · exact h

theorem Follows.execMulticastPacketArrival {src dst : Nat} (h : Follows s₀ s) : OutFollows s₀ (execMulticastPacketArrival src dst s) := by
  unfold Machine.execMulticastPacketArrival
  split
  · exact h
  · exact h.modDie

theorem Follows.execTlbsyncDone {core slot : Nat} (h : Follows s₀ s) : OutFollows s₀ (execTlbsyncDone core slot s) := by
  unfold Machine.execTlbsyncDone
  split
  · split
    · split
      · exact h.resume (fun _ h1 => h1.runExt (fun _ => SpecFollows.tlbsyncSpec))
      · exact h
    · exact h
  · exact h

theorem Follows.execAsidFreed {asid : Nat} (h : Follows s₀ s) : OutFollows s₀ (execAsidFreed asid s) := by
  unfold Machine.execAsidFreed
  split
  · exact h
  · extract_lets s1 s2
    have hs1 : Follows s₀ s1 := h.tlbFlush
    have hs2 : Follows s₀ s2 := hs1.mapDies
    split
    · exact hs1
    · exact hs2.setAsidState

theorem Follows.execSgwrDone {core slot : Nat} (h : Follows s₀ s) : OutFollows s₀ (execSgwrDone core slot s) := by
  unfold Machine.execSgwrDone
  split
  · exact h.resume (fun _ h1 => h1.runExt (fun _ => SpecFollows.sgwrSpec))
  · exact h

theorem Follows.execLaunchEntryTake {asid queue : Nat} (h : Follows s₀ s) : OutFollows s₀ (execLaunchEntryTake asid queue s) := by
  unfold Machine.execLaunchEntryTake
  extract_lets l va r
  have hr : Follows s₀ r.1 := h.readRecord
  split
  · exact h
  · split
    · exact h.takeSheet
    · split
      · exact h
      · split
        · exact hr.launchFault.modLq
        · exact hr.takeEntry

theorem Follows.execTaskArrival {core idx : Nat} (h : Follows s₀ s) : OutFollows s₀ (execTaskArrival core idx s) := by
  unfold Machine.execTaskArrival
  extract_lets mine
  split
  · exact h
  · split
    · exact h
    · exact h.modPkg.modCore.acceptTask

theorem Follows.execTaskPlacement {core entry : Nat} (h : Follows s₀ s) : OutFollows s₀ (execTaskPlacement core entry s) := by
  unfold Machine.execTaskPlacement
  split
  · exact h
  · split
    · exact h
    · split
      · extract_lets gid s1
        have hs1 : Follows s₀ s1 := h.raiseG.placeNew
        refine hs1.modCore (fun _ hk => ⟨Core.Canon.scratch ?_, Core.Canon.tileMem ?_, Core.Canon.weight ?_, Core.Canon.acc ?_, Core.Canon.grips ?_⟩)
        · extract_lets k1
          have hk1 : k1.Canon := by
            unfold k1
            split
            · exact hk.bindTask
            · exact hk
          exact hk1.upd
        · extract_lets k1
          have hk1 : k1.Canon := by
            unfold k1
            split
            · exact hk.bindTask
            · exact hk
          exact hk1.upd
        · extract_lets k1
          have hk1 : k1.Canon := by
            unfold k1
            split
            · exact hk.bindTask
            · exact hk
          exact hk1.upd
        · extract_lets k1
          have hk1 : k1.Canon := by
            unfold k1
            split
            · exact hk.bindTask
            · exact hk
          exact hk1.upd
        · extract_lets k1
          have hk1 : k1.Canon := by
            unfold k1
            split
            · exact hk.bindTask
            · exact hk
          exact hk1.upd
      · exact h

theorem Follows.execClusterPlacement {idx : Nat} (h : Follows s₀ s) : OutFollows s₀ (execClusterPlacement idx s) := by
  unfold Machine.execClusterPlacement
  split
  · exact h
  · split
    · exact h
    · split
      · exact h.placeCluster
      · exact h

theorem Follows.execPreemption {core gid : Nat} (h : Follows s₀ s) : OutFollows s₀ (execPreemption core gid s) := by
  unfold Machine.execPreemption
  split
  · exact h
  · split
    · exact h.takePreempts
    · split
      · exact h.startPreempt
      · exact h

theorem Follows.execPriorityAging {idx : Nat} (h : Follows s₀ s) : OutFollows s₀ (execPriorityAging idx s) := by
  unfold Machine.execPriorityAging
  split
  · exact h
  · split
    · exact h
    · refine h.foldl (fun _ _ h1 => ?_)
      split
      · exact h1.startPreempt.ite h1
      · exact h1

theorem Follows.execTimeSliceEnd {core gid : Nat} (h : Follows s₀ s) : OutFollows s₀ (execTimeSliceEnd core gid s) := by
  unfold Machine.execTimeSliceEnd
  split
  · exact h
  · split
    · exact h
    · split
      · exact h.startPreempt
      · exact h.setGroup

theorem Follows.execGroupRetirement {core gid : Nat} (h : Follows s₀ s) : OutFollows s₀ (execGroupRetirement core gid s) := by
  unfold Machine.execGroupRetirement
  split
  · exact h
  · split
    · exact h
    · split
      · exact h.setGroup.event
      · exact h.groupGone

theorem Follows.execGroupHaltRelease {core gid : Nat} (h : Follows s₀ s) : OutFollows s₀ (execGroupHaltRelease core gid s) := by
  unfold Machine.execGroupHaltRelease
  split
  · exact h
  · split
    · exact h
    · exact h.groupGone.event.ite h.groupGone.event.modPkg

theorem Follows.execRestorePlacement {idx core : Nat} (h : Follows s₀ s) : OutFollows s₀ (execRestorePlacement idx core s) := by
  unfold Machine.execRestorePlacement
  split
  · exact h
  · split
    · exact h
    · split
      · split
        · exact h.placeRestored
        · exact h
      · exact h

theorem Follows.execGridEnd {gridId : Nat} (h : Follows s₀ s) : OutFollows s₀ (execGridEnd gridId s) := by
  unfold Machine.execGridEnd
  split
  · exact h
  · extract_lets h' o s2 s3
    have hs2 : Follows s₀ s2 := h.addDone
    have hs3 : Follows s₀ s3 := hs2.modPkg
    split
    · exact h
    · split
      · exact h.putStatus.modGrid
      · split
        · exact h
        · split
          · exact hs3.advanceHead
          · exact hs3.nodeEnded

theorem Follows.execAckReceived {a : Ack} (h : Follows s₀ s) : OutFollows s₀ (execAckReceived a s) := by
  unfold Machine.execAckReceived
  extract_lets dev tc now s1 s2 r s2'
  have hs1 : Follows s₀ s1 := by
    unfold s1
    split
    · exact h.ackAnswer
    · exact h
  have hs2 : Follows s₀ s2 := hs1.ackBelow.modStream.hintFrom
  have hs2' : Follows s₀ s2' := hs2.countDie.ite hs2
  exact hs2'.modRoute.ite hs2'

theorem Follows.execStallHintExpiry {dev tc : Nat} (h : Follows s₀ s) : OutFollows s₀ (execStallHintExpiry dev tc s) := by
  unfold Machine.execStallHintExpiry
  extract_lets t
  split
  · exact h.modStream
  · exact h

theorem Follows.execLinkDown {port : Nat} (h : Follows s₀ s) : OutFollows s₀ (execLinkDown port s) := h.modPkg.foldl (fun _ _ h1 => h1.replay)

theorem Follows.execAckTimeout {dev tc : Nat} (h : Follows s₀ s) : OutFollows s₀ (execAckTimeout dev tc s) := by
  unfold Machine.execAckTimeout
  extract_lets t r now
  split
  · exact h
  · exact h.modRoute.replay

theorem Follows.execRouteRetry {dev : Nat} (h : Follows s₀ s) : OutFollows s₀ (execRouteRetry dev s) := by
  unfold Machine.execRouteRetry
  extract_lets r now
  split
  · exact h
  · exact h.modRoute.replay

theorem Follows.execFabricTimeout {core engine ctx : Nat} (h : Follows s₀ s) : OutFollows s₀ (execFabricTimeout core engine ctx s) := by
  unfold Machine.execFabricTimeout
  split
  · exact h
  · extract_lets os
    split
    · exact h
    · exact h.failPacket

theorem Follows.runGrip {f : Nat → Nat → Nat → Group → State} (_h : Follows s₀ s)
    (hf : ∀ c g gid gr, Follows s₀ (f c g gid gr)) : OutFollows s₀ (runGrip f s) := by
  unfold Machine.runGrip
  split
  · split
    · trivial
    · split
      · trivial
      · exact hf _ _ _ _
  · trivial

theorem Follows.execGripStandardInstruction {r : Rv} {short : Bool} (h : Follows s₀ s) : OutFollows s₀ (execGripStandardInstruction r short s) :=
  h.runGrip (fun _ _ _ _ => h.rvStep)

theorem Follows.execGPost {rd rs1 : BitVec 5} (h : Follows s₀ s) : OutFollows s₀ (execGPost rd rs1 s) := by
  unfold Machine.execGPost
  refine h.runGrip (fun _ _ _ _ => h.gripDrain.ite ?_)
  extract_lets a r p
  have hp : Follows s₀ p.1 := h.gripDrain.postSlate
  split
  · next e => exact h.gripDrain.imageTrap.some e
  · split
    · exact h.gripDrain.gripTrap
    · exact hp.gripNext

theorem Follows.execGTlwait {rd rs1 rs2 : BitVec 5} (h : Follows s₀ s) : OutFollows s₀ (execGTlwait rd rs1 rs2 s) := by
  unfold Machine.execGTlwait
  refine h.runGrip (fun _ _ _ _ => h.gripExcept.ite ?_)
  split
  · exact h
  · exact h.gripNext

theorem Follows.execGTlrd {rd rs1 : BitVec 5} (h : Follows s₀ s) : OutFollows s₀ (execGTlrd rd rs1 s) :=
  h.runGrip (fun _ _ _ _ => h.gripExcept.ite h.gripNext)

theorem Follows.execGLdf {rd rs1 : BitVec 5} (h : Follows s₀ s) : OutFollows s₀ (execGLdf rd rs1 s) :=
  h.runGrip (fun _ _ _ _ => h.gripTag (fun _ h1 => h1.uncorrectable.gripExcept.ite h1.gripNext))

theorem Follows.execGSte {rs1 rs2 : BitVec 5} (h : Follows s₀ s) : OutFollows s₀ (execGSte rs1 rs2 s) :=
  h.runGrip (fun _ _ _ _ => h.gripTag (fun _ h1 => (h1.setCore (fun hs => ((h1.canon hs).core _).localWrite)).gripNext))

theorem Follows.gripItem {close : Bool} {rd rs1 : BitVec 5} (h : Follows s₀ s) : OutFollows s₀ (gripItem close rd rs1 s) :=
  h.runGrip (fun _ _ _ _ => h.putItems.gripNext)

theorem Follows.execGItem {rd rs1 : BitVec 5} (h : Follows s₀ s) : OutFollows s₀ (execGItem rd rs1 s) := h.gripItem

theorem Follows.execGItemClose {rd rs1 : BitVec 5} (h : Follows s₀ s) : OutFollows s₀ (execGItemClose rd rs1 s) := h.gripItem

theorem Follows.execGTask {rd rs1 rs2 : BitVec 5} (h : Follows s₀ s) : OutFollows s₀ (execGTask rd rs1 rs2 s) := by
  refine h.runGrip (fun c g _ gr => ?_)
  extract_lets s1
  have hs1 : Follows s₀ s1 := h.gripDrain
  clear_value s1
  split
  · exact hs1.gripTrap
  · next e => exact (hs1.postTask e).gripNext

theorem Follows.execGBarv {rd rs1 : BitVec 5} (h : Follows s₀ s) : OutFollows s₀ (execGBarv rd rs1 s) :=
  h.runGrip (fun _ _ _ _ => h.gripExcept.ite (h.gripExcept.ite (h.ite h.modGrip.gripNext)))

theorem Follows.execGEvt {rs1 : BitVec 5} (h : Follows s₀ s) : OutFollows s₀ (execGEvt rs1 s) := h.runGrip (fun _ _ _ _ => h.countCore.gripNext)

theorem Follows.execGEvtEnd {_rs1 : BitVec 5} (h : Follows s₀ s) : OutFollows s₀ (execGEvtEnd _rs1 s) := h.runGrip (fun _ _ _ _ => h.gripNext.modGrip)

theorem Follows.execGEvtFail {rs1 : BitVec 5} (h : Follows s₀ s) : OutFollows s₀ (execGEvtFail rs1 s) := h.runGrip (fun _ _ _ _ => h.gripFail)

theorem Follows.execTagWaitSatisfied {core : Nat} {who : TagWaiter} (h : Follows s₀ s) : OutFollows s₀ (execTagWaitSatisfied core who s) := by
  unfold Machine.execTagWaitSatisfied
  split
  · split
    · exact h.resume (fun _ ht => ht.runMem (fun _ => SpecFollows.ldsfSpec))
    · exact h.resume (fun _ ht => ht.runExt (fun _ => SpecFollows.ldsfSpec))
    · exact h.resume (fun _ ht => ht.runMem (fun _ => SpecFollows.stseSpec))
    · exact h.resume (fun _ ht => ht.runExt (fun _ => SpecFollows.stseSpec))
    · exact h
  · next g =>
    extract_lets x
    split
    · split
      · next rd rs1 _ =>
        have ho : OutFollows s₀ (Machine.execGLdf rd rs1 { s with cur := .grip core g }) := h.upd.execGLdf
        split
        · next e => exact (ho.next e).upd
        · exact ho
      · next rs1 rs2 _ =>
        have ho : OutFollows s₀ (Machine.execGSte rs1 rs2 { s with cur := .grip core g }) := h.upd.execGSte
        split
        · next e => exact (ho.next e).upd
        · exact ho
      · exact h
    · exact h

theorem Follows.execSchedulerSelect {core sched : Nat} (h : Follows s₀ s) : OutFollows s₀ (execSchedulerSelect core sched s) := by
  unfold Machine.execSchedulerSelect
  extract_lets q
  split
  · exact h
  · split
    · exact h
    · extract_lets s1 lt
      have hs1 : Follows s₀ s1 := by
        unfold s1
        split
        · exact h.ite h.modWarp
        · exact h
      exact hs1.modSched.modWarp

theorem Follows.execLqd0Write {asid queue : Nat} {value : DWord} (h : Follows s₀ s) : OutFollows s₀ (execLqd0Write asid queue value s) :=
  h.transact (fun _ h1 => h1.writeLqd0)

theorem Follows.execLqd1TailWrite {asid queue : Nat} {value : DWord} (h : Follows s₀ s) : OutFollows s₀ (execLqd1TailWrite asid queue value s) :=
  h.transact (fun _ h1 => h1.putQueue)

theorem Follows.execDiememWrite {die : Nat} {value : DWord} (h : Follows s₀ s) : OutFollows s₀ (execDiememWrite die value s) :=
  h.transact (fun _ h1 => h1.writeDiemem)

theorem Follows.execBwtabWrite {die : Nat} {value : DWord} (h : Follows s₀ s) : OutFollows s₀ (execBwtabWrite die value s) :=
  h.transact (fun _ h1 => h1.writeBwtab)

theorem Follows.execFqctlHeadWrite {die : Nat} {value : DWord} (h : Follows s₀ s) : OutFollows s₀ (execFqctlHeadWrite die value s) := by
  refine h.transact (fun t ht => ?_)
  dsimp only
  exact ht.modDie

theorem Follows.execEqctlHeadWrite {die : Nat} {value : DWord} (h : Follows s₀ s) : OutFollows s₀ (execEqctlHeadWrite die value s) := by
  refine h.transact (fun t ht => ?_)
  dsimp only
  exact ht.modDie

theorem Follows.execIslopWrite {island : Nat} {value : DWord} (h : Follows s₀ s) : OutFollows s₀ (execIslopWrite island value s) :=
  h.transact (fun _ h1 => h1.writeIslop)

theorem Follows.execErrstatRead {core : Nat} (h : Follows s₀ s) : OutFollows s₀ (execErrstatRead core s) := by
  refine Follows.ite ?_ h.refuse
  have hr : Follows s₀ (s.modCore core Core.readErrstat) := h.modCore (fun _ hk => hk.readErrstat)
  exact hr.upd

theorem Follows.execAsidBind {link : Nat} (h : Follows s₀ s) : OutFollows s₀ (execAsidBind link s) := h.runCommand (fun _ h1 => h1.cmdBind)

theorem Follows.execAsidReroot {link : Nat} (h : Follows s₀ s) : OutFollows s₀ (execAsidReroot link s) := h.runCommand (fun _ h1 => h1.cmdReroot)

theorem Follows.execTlbFlush {link : Nat} (h : Follows s₀ s) : OutFollows s₀ (execTlbFlush link s) := h.runCommand (fun _ h1 => h1.cmdTlbFlush)

theorem Follows.execAsidRetire {link : Nat} (h : Follows s₀ s) : OutFollows s₀ (execAsidRetire link s) := h.runCommand (fun _ h1 => h1.cmdRetire)

theorem Follows.execFaultVerdict {link : Nat} (h : Follows s₀ s) : OutFollows s₀ (execFaultVerdict link s) := h.runCommand (fun _ h1 => h1.cmdVerdict)

theorem Follows.execGroupRelease {link : Nat} (h : Follows s₀ s) : OutFollows s₀ (execGroupRelease link s) := h.runCommand (fun _ h1 => h1.cmdRelease)

theorem Follows.execRestore {link : Nat} (h : Follows s₀ s) : OutFollows s₀ (execRestore link s) := h.runCommand (fun _ h1 => h1.cmdRestore)

theorem Follows.execPreempt {link : Nat} (h : Follows s₀ s) : OutFollows s₀ (execPreempt link s) := h.runCommand (fun _ h1 => h1.cmdPreempt)

theorem Follows.execStreamReset {link : Nat} (h : Follows s₀ s) : OutFollows s₀ (execStreamReset link s) :=
  h.runCommand (fun _ h1 => h1.cmdStreamReset)

theorem Follows.execWindowSync {link : Nat} (h : Follows s₀ s) : OutFollows s₀ (execWindowSync link s) := h.runCommand (fun _ h1 => h1.cmdWindowSync)

theorem Follows.execScopeWrite {link : Nat} (h : Follows s₀ s) : OutFollows s₀ (execScopeWrite link s) := h.runCommand (fun _ h1 => h1.cmdScopeWrite)

theorem Follows.execTaskName {link : Nat} (h : Follows s₀ s) : OutFollows s₀ (execTaskName link s) := h.runCommand (fun _ h1 => h1.cmdTaskName)

theorem Follows.execAttest {link secret : Nat} (h : Follows s₀ s) : OutFollows s₀ (execAttest link secret s) :=
  h.runCommand (fun _ h1 => h1.cmdAttest)

theorem Follows.execCoreRelease {link : Nat} (h : Follows s₀ s) : OutFollows s₀ (execCoreRelease link s) :=
  h.runCommand (fun _ h1 => h1.cmdCoreRelease)

theorem Follows.execSidebandCommandFinish {link : Nat} (h : Follows s₀ s) : OutFollows s₀ (execSidebandCommandFinish link s) := by
  unfold Machine.execSidebandCommandFinish
  extract_lets b
  split
  · exact h.modSb
  · exact h

theorem Follows.execCompanionDeviceMemoryAccess {a : CompanionAccess} (h : Follows s₀ s) : OutFollows s₀ (execCompanionDeviceMemoryAccess a s) := by
  unfold Machine.execCompanionDeviceMemoryAccess
  extract_lets die asid va r u u' n
  have hr : Follows s₀ r.1 := h.readGood
  have hu : Follows s₀ u := h.readGood
  split
  · exact h.refuse
  · split
    · split
      · exact hu.upd
      · exact hr.refuse
    · extract_lets c r' u'2
      have hc : Follows s₀ c.1 := h.mayWriteSpan
      have hr' : Follows s₀ r'.1 := hc.writeVa
      have hu'2 : Follows s₀ u'2 := hr'.modPkg
      split
      · exact hc.refuse
      · exact hu'2.upd

theorem Follows.execMachine {m : MachineError} (h : Follows s₀ s) : OutFollows s₀ (execMachine m s) := by
  unfold Machine.execMachine
  extract_lets u a
  split
  · exact h.countUnit.machineGroup.ite h
  · exact h.countUnit.machineCore
  · exact h.machinePackage

theorem Follows.execScrubPass {u : StoreUnit} {found : ScrubFound} (h : Follows s₀ s) : OutFollows s₀ (execScrubPass u found s) :=
  h.ite (h.markUnit.correctedUnit.ite (h.correctedUnit.ite h.badUnit))

theorem Follows.execBootctlStart (h : Follows s₀ s) : OutFollows s₀ (execBootctlStart s) := (h.told h.bootStart).ite h.refuse

theorem Follows.execBootbufWrite {value : DWord} (h : Follows s₀ s) : OutFollows s₀ (execBootbufWrite value s) := (h.told h.bootAppend).ite h.refuse

theorem Follows.execLinkStateChange {link : Nat} {dest : LinkState} (h : Follows s₀ s) : OutFollows s₀ (execLinkStateChange link dest s) := by
  unfold Machine.execLinkStateChange
  split
  · exact h
  · extract_lets up
    refine h.modPkg (fun _ hx => ?_) (fun _ => ?_)
    · extract_lets u q
      split
      · exact ⟨hx.hbm, hx.comp⟩
      · exact ⟨hx.hbm, hx.comp⟩
    · extract_lets u q
      split
      · exact ⟨rfl, rfl⟩
      · exact ⟨rfl, rfl⟩

theorem Follows.execThermalThreshold {sensor : Nat} {temp : BitVec 16} (h : Follows s₀ s) : OutFollows s₀ (execThermalThreshold sensor temp s) :=
  h.sensed.listIsland.cross.cross.cross.ite (h.sensed.cross.ite h.sensed.cross.cross.cross)

theorem Follows.execThermalUndo {sensor : Nat} {temp : BitVec 16} (h : Follows s₀ s) : OutFollows s₀ (execThermalUndo sensor temp s) :=
  h.sensed.ite (h.sensed.listIsland.thermalAct.ite (h.sensed.ite (h.sensed.thermalAct.ite h.sensed.thermalAct)))

theorem Follows.execJtagExtest {pins : List Bool} (h : Follows s₀ s) : OutFollows s₀ (execJtagExtest pins s) := h.modTap.ite h.modTap

theorem Follows.execJtagIdcode (h : Follows s₀ s) : OutFollows s₀ (execJtagIdcode s) := by
  have ht : Follows s₀ (s.modTap (fun t => { t with ir := 1, driven := false })) := h.modTap
  exact ht.upd

theorem Follows.execJtagSamplePreload {pins : List Bool} (h : Follows s₀ s) : OutFollows s₀ (execJtagSamplePreload pins s) := h.modTap

theorem Follows.execJtagBypass {code : BitVec 4} (h : Follows s₀ s) : OutFollows s₀ (execJtagBypass code s) := h.modTap

theorem Follows.runOwn {e : Own} (h : Follows s₀ s) : OutFollows s₀ (runOwn e s) := by
  unfold Machine.runOwn
  split
  · exact h.execTrapEntry
  · exact h.execStoreQueuePerform
  · exact h.execLoadLand
  · exact h.execTileAccessLand
  · exact h.execWaitcReturn
  · exact h.execTlwaitReturn
  · exact h.execBwaitReturn
  · exact h.execRecastWake
  · exact h.execCpostAccept
  · exact h.execMmaAccept
  · exact h.execFenceDrained
  · exact h.execIcinvDone
  · exact h.execSgwrDone
  · exact h.execTlbsyncDone
  · exact h.execTagWaitSatisfied
  · exact h.execTagwait
  · exact h.execGripStorePerform
  · exact h.execSchedulerSelect
  · exact h.execCopyDispatch
  · exact h.execCopyFaultSuspend
  · exact h.execFaultBatchPost
  · exact h.execCopyComplete
  · exact h.execLinkAbsenceTimeout
  · exact h.execFabricTimeout
  · exact h.execAtomicElementPerform
  · exact h.execGafferWindow
  · exact h.execTokenRefill
  · exact h.execPortSend
  · exact h.execMatrixUnitStart
  · exact h.execMatrixCommandComplete
  · exact h.execWbldRun
  · exact h.execWbldComplete
  · exact h.execWbinvEffect
  · exact h.execScanStart
  · exact h.execScanComplete
  · exact h.execScanstComplete
  · exact h.execPreemption
  · exact h.execTimeSliceEnd
  · exact h.execGroupHaltRelease
  · exact h.execGroupRetirement
  · exact h.execTaskArrival
  · exact h.execTaskPlacement
  · exact h.execWriteThroughAck
  · exact h.execCollectiveMatched
  · exact h.execGatewayCombine
  · exact h.execCollMemberComplete
  · exact h.execMulticastPacketArrival
  · exact h.execClusterPlacement
  · exact h.execPriorityAging
  · exact h.execRestorePlacement
  · exact h.execLaunchEntryTake
  · split
    · exact h
    · exact h.execGridEnd
  · exact h.execAsidFreed
  · exact h.execStallHintExpiry
  · exact h.execAckTimeout
  · exact h.execRouteRetry
  · exact h.execSidebandCommandFinish

end

/-! ### Resets, turns and steps -/

section
variable {s : State}

/-- The state that an outcome answers, if one, is in canonical form. -/
def OutCanon : Host.Outcome State Fault Refusal → Prop
  | .next t => t.Canon
  | .fault _ => True
  | .refused _ => True

theorem OutFollows.canon {o : Host.Outcome State Fault Refusal} (h : OutFollows s o) (hs : s.Canon) : OutCanon o := by
  cases o with
  | next t => exact Follows.canon h hs
  | fault _ => trivial
  | refused _ => trivial

theorem OutCanon.next {o : Host.Outcome State Fault Refusal} {t : State} (h : OutCanon o) (e : o = .next t) : t.Canon := by subst e; exact h

theorem State.Canon.told {r : State × Bool} (h : s.Canon) (hr : r.1.Canon) : (s.told r).Canon := by
  unfold State.told
  split
  · exact hr.upd
  · exact (Follows.refl s).refuse.canon h

theorem State.Canon.execColdReset (h : s.Canon) : OutCanon (execColdReset s) :=
  ⟨⟨rfl, h.pkg.comp⟩, TabAll.nil, TabAll.nil⟩

theorem State.Canon.execResetctlWarm (h : s.Canon) : OutCanon (execResetctlWarm s) := by
  unfold Machine.execResetctlWarm
  show State.Canon (if s.anyOpen && !s.bootFailed then s.warm else s.refuse)
  split
  · exact h.warm
  · exact (Follows.refl s).refuse.canon h

theorem State.Canon.execBootctlGo {x : BootOutcome} (h : s.Canon) : OutCanon (execBootctlGo x s) := by
  unfold Machine.execBootctlGo
  show State.Canon (if s.anyOpen then s.told (s.bootRun x, true) else s.refuse)
  split
  · exact h.told h.bootRun
  · exact (Follows.refl s).refuse.canon h

theorem State.Canon.execSidebandRegisterWrite {link : Nat} {addr value : DWord} (h : s.Canon) :
    OutCanon (execSidebandRegisterWrite link addr value s) := by
  unfold Machine.execSidebandRegisterWrite
  extract_lets a
  have hrefuse : s.refuse.Canon := (Follows.refl s).refuse.canon h
  split
  · exact hrefuse
  · split
    · exact h.told h.bootWrite
    · split
      · exact hrefuse
      · exact h.told ((Follows.refl s).sbWrite.canon h)

/-- Every instruction and every event leaves the memories in canonical form. -/
theorem State.Canon.exec (h : s.Canon) (i : Instr) : OutCanon (exec i s) := by
  have hs := Follows.refl s
  cases i with
  | braBr _ => exact OutFollows.canon hs.execBraBr h
  | braExt _ => exact OutFollows.canon (hs.runExt (fun _ => SpecFollows.braSpec)) h
  | brp _ => exact OutFollows.canon (hs.runExt (fun _ => SpecFollows.brpSpec)) h
  | brx _ => exact OutFollows.canon (hs.runExt (fun _ => SpecFollows.brxSpec)) h
  | joinAlu _ => exact OutFollows.canon (hs.runAlu (fun _ => SpecFollows.joinSpec)) h
  | joinExt _ => exact OutFollows.canon (hs.runExt (fun _ => SpecFollows.joinSpec)) h
  | callBr _ => exact OutFollows.canon hs.execCallBr h
  | callExt _ => exact OutFollows.canon (hs.runExt (fun _ => SpecFollows.callSpec)) h
  | calliAlu _ => exact OutFollows.canon (hs.runAlu (fun _ => SpecFollows.indirectSpec)) h
  | calliExt _ => exact OutFollows.canon (hs.runExt (fun _ => SpecFollows.indirectSpec)) h
  | retAlu _ => exact OutFollows.canon (hs.runAlu (fun _ => SpecFollows.indirectSpec)) h
  | retExt _ => exact OutFollows.canon (hs.runExt (fun _ => SpecFollows.indirectSpec)) h
  | jmpiAlu _ => exact OutFollows.canon (hs.runAlu (fun _ => SpecFollows.indirectSpec)) h
  | jmpiExt _ => exact OutFollows.canon (hs.runExt (fun _ => SpecFollows.indirectSpec)) h
  | exitAlu _ => exact OutFollows.canon (hs.runAlu (fun _ => SpecFollows.exitSpec)) h
  | exitExt _ => exact OutFollows.canon (hs.runExt (fun _ => SpecFollows.exitSpec)) h
  | recast _ => exact OutFollows.canon (hs.runExt (fun _ => SpecFollows.recastSpec)) h
  | yieldAlu _ => exact OutFollows.canon (hs.runAlu (fun _ => SpecFollows.yieldSpec)) h
  | yieldExt _ => exact OutFollows.canon (hs.runExt (fun _ => SpecFollows.yieldSpec)) h
  | nopAlu _ => exact OutFollows.canon (hs.runAlu (fun _ => SpecFollows.nopSpec)) h
  | nopExt _ => exact OutFollows.canon (hs.runExt (fun _ => SpecFollows.nopSpec)) h
  | bkptImm _ => exact OutFollows.canon (hs.runImm (fun _ => SpecFollows.codeTrapSpec)) h
  | bkptExt _ => exact OutFollows.canon (hs.runExt (fun _ => SpecFollows.codeTrapSpec)) h
  | trapImm _ => exact OutFollows.canon (hs.runImm (fun _ => SpecFollows.codeTrapSpec)) h
  | trapExt _ => exact OutFollows.canon (hs.runExt (fun _ => SpecFollows.codeTrapSpec)) h
  | svcImm _ => exact OutFollows.canon (hs.runImm (fun _ => SpecFollows.codeTrapSpec)) h
  | svcExt _ => exact OutFollows.canon (hs.runExt (fun _ => SpecFollows.codeTrapSpec)) h
  | iaddAlu _ => exact OutFollows.canon (hs.runAlu (fun _ => SpecFollows.iaddSpec)) h
  | iaddImm _ => exact OutFollows.canon (hs.runImm (fun _ => SpecFollows.iaddSpec)) h
  | iaddExt _ => exact OutFollows.canon (hs.runExt (fun _ => SpecFollows.iaddSpec)) h
  | isubAlu _ => exact OutFollows.canon (hs.runAlu (fun _ => SpecFollows.isubSpec)) h
  | isubImm _ => exact OutFollows.canon (hs.runImm (fun _ => SpecFollows.isubSpec)) h
  | isubExt _ => exact OutFollows.canon (hs.runExt (fun _ => SpecFollows.isubSpec)) h
  | iaddc _ => exact OutFollows.canon (hs.runExt (fun _ => SpecFollows.iaddcSpec)) h
  | imulAlu _ => exact OutFollows.canon (hs.runAlu (fun _ => SpecFollows.imulSpec)) h
  | imulImm _ => exact OutFollows.canon (hs.runImm (fun _ => SpecFollows.imulSpec)) h
  | imulExt _ => exact OutFollows.canon (hs.runExt (fun _ => SpecFollows.imulSpec)) h
  | imulhAlu _ => exact OutFollows.canon (hs.runAlu (fun _ => SpecFollows.imulhSpec)) h
  | imulhImm _ => exact OutFollows.canon (hs.runImm (fun _ => SpecFollows.imulhSpec)) h
  | imulhExt _ => exact OutFollows.canon (hs.runExt (fun _ => SpecFollows.imulhSpec)) h
  | imad _ => exact OutFollows.canon (hs.runExt (fun _ => SpecFollows.imadSpec)) h
  | imadw _ => exact OutFollows.canon (hs.runExt (fun _ => SpecFollows.imadwSpec)) h
  | ishlAlu _ => exact OutFollows.canon (hs.runAlu (fun _ => SpecFollows.shiftOp)) h
  | ishlImm _ => exact OutFollows.canon (hs.runImm (fun _ => SpecFollows.shiftOp)) h
  | ishlExt _ => exact OutFollows.canon (hs.runExt (fun _ => SpecFollows.shiftOp)) h
  | ishrAlu _ => exact OutFollows.canon (hs.runAlu (fun _ => SpecFollows.shiftOp)) h
  | ishrImm _ => exact OutFollows.canon (hs.runImm (fun _ => SpecFollows.shiftOp)) h
  | ishrExt _ => exact OutFollows.canon (hs.runExt (fun _ => SpecFollows.shiftOp)) h
  | isarAlu _ => exact OutFollows.canon (hs.runAlu (fun _ => SpecFollows.shiftOp)) h
  | isarImm _ => exact OutFollows.canon (hs.runImm (fun _ => SpecFollows.shiftOp)) h
  | isarExt _ => exact OutFollows.canon (hs.runExt (fun _ => SpecFollows.shiftOp)) h
  | irotAlu _ => exact OutFollows.canon (hs.runAlu (fun _ => SpecFollows.irotSpec)) h
  | irotImm _ => exact OutFollows.canon (hs.runImm (fun _ => SpecFollows.irotSpec)) h
  | irotExt _ => exact OutFollows.canon (hs.runExt (fun _ => SpecFollows.irotSpec)) h
  | andAlu _ => exact OutFollows.canon (hs.runAlu (fun _ => SpecFollows.logicOp)) h
  | andImm _ => exact OutFollows.canon (hs.runImm (fun _ => SpecFollows.logicOp)) h
  | andExt _ => exact OutFollows.canon (hs.runExt (fun _ => SpecFollows.logicOp)) h
  | orAlu _ => exact OutFollows.canon (hs.runAlu (fun _ => SpecFollows.logicOp)) h
  | orImm _ => exact OutFollows.canon (hs.runImm (fun _ => SpecFollows.logicOp)) h
  | orExt _ => exact OutFollows.canon (hs.runExt (fun _ => SpecFollows.logicOp)) h
  | xorAlu _ => exact OutFollows.canon (hs.runAlu (fun _ => SpecFollows.logicOp)) h
  | xorImm _ => exact OutFollows.canon (hs.runImm (fun _ => SpecFollows.logicOp)) h
  | xorExt _ => exact OutFollows.canon (hs.runExt (fun _ => SpecFollows.logicOp)) h
  | andnAlu _ => exact OutFollows.canon (hs.runAlu (fun _ => SpecFollows.logicOp)) h
  | andnImm _ => exact OutFollows.canon (hs.runImm (fun _ => SpecFollows.logicOp)) h
  | andnExt _ => exact OutFollows.canon (hs.runExt (fun _ => SpecFollows.logicOp)) h
  | lmix _ => exact OutFollows.canon (hs.runExt (fun _ => SpecFollows.lmixSpec)) h
  | bfx _ => exact OutFollows.canon (hs.runExt (fun _ => SpecFollows.bfxSpec)) h
  | bfi _ => exact OutFollows.canon (hs.runExt (fun _ => SpecFollows.bfiSpec)) h
  | iminAlu _ => exact OutFollows.canon (hs.runAlu (fun _ => SpecFollows.iminmaxSpec)) h
  | iminImm _ => exact OutFollows.canon (hs.runImm (fun _ => SpecFollows.iminmaxSpec)) h
  | iminExt _ => exact OutFollows.canon (hs.runExt (fun _ => SpecFollows.iminmaxSpec)) h
  | imaxAlu _ => exact OutFollows.canon (hs.runAlu (fun _ => SpecFollows.iminmaxSpec)) h
  | imaxImm _ => exact OutFollows.canon (hs.runImm (fun _ => SpecFollows.iminmaxSpec)) h
  | imaxExt _ => exact OutFollows.canon (hs.runExt (fun _ => SpecFollows.iminmaxSpec)) h
  | iabsAlu _ => exact OutFollows.canon (hs.runAlu (fun _ => SpecFollows.iabsSpec)) h
  | iabsExt _ => exact OutFollows.canon (hs.runExt (fun _ => SpecFollows.iabsSpec)) h
  | isel _ => exact OutFollows.canon (hs.runExt (fun _ => SpecFollows.iselSpec)) h
  | idot4 _ => exact OutFollows.canon (hs.runExt (fun _ => SpecFollows.idot4Spec)) h
  | lea _ => exact OutFollows.canon (hs.runExt (fun _ => SpecFollows.leaSpec)) h
  | iadd64Alu _ => exact OutFollows.canon (hs.runAlu (fun _ => SpecFollows.iadd64Spec)) h
  | iadd64Imm _ => exact OutFollows.canon (hs.runImm (fun _ => SpecFollows.iadd64Spec)) h
  | iadd64Ext _ => exact OutFollows.canon (hs.runExt (fun _ => SpecFollows.iadd64Spec)) h
  | ldiAlu _ => exact OutFollows.canon (hs.runAlu (fun _ => SpecFollows.ldiSpec)) h
  | ldiExt _ => exact OutFollows.canon (hs.runExt (fun _ => SpecFollows.ldiSpec)) h
  | clz _ => exact OutFollows.canon (hs.runExt (fun _ => SpecFollows.bitOp)) h
  | ctz _ => exact OutFollows.canon (hs.runExt (fun _ => SpecFollows.bitOp)) h
  | popc _ => exact OutFollows.canon (hs.runExt (fun _ => SpecFollows.bitOp)) h
  | brev _ => exact OutFollows.canon (hs.runExt (fun _ => SpecFollows.bitOp)) h
  | iset _ => exact OutFollows.canon (hs.runExt (fun _ => SpecFollows.isetSpec)) h
  | pset _ => exact OutFollows.canon (hs.runExt (fun _ => SpecFollows.psetSpec)) h
  | pmov _ => exact OutFollows.canon (hs.runExt (fun _ => SpecFollows.pmovSpec)) h
  | pcnt _ => exact OutFollows.canon (hs.runExt (fun _ => SpecFollows.pcntSpec)) h
  | vtos _ => exact OutFollows.canon (hs.runExt (fun _ => SpecFollows.vtosSpec)) h
  | stov _ => exact OutFollows.canon (hs.runExt (fun _ => SpecFollows.stovSpec)) h
  | elect _ => exact OutFollows.canon (hs.runExt (fun _ => SpecFollows.electSpec)) h
  | faddAlu _ => exact OutFollows.canon (hs.runAlu (fun _ => SpecFollows.faddSpec)) h
  | faddImm _ => exact OutFollows.canon (hs.runImm (fun _ => SpecFollows.faddSpec)) h
  | faddExt _ => exact OutFollows.canon (hs.runExt (fun _ => SpecFollows.faddSpec)) h
  | fsubAlu _ => exact OutFollows.canon (hs.runAlu (fun _ => SpecFollows.fsubSpec)) h
  | fsubImm _ => exact OutFollows.canon (hs.runImm (fun _ => SpecFollows.fsubSpec)) h
  | fsubExt _ => exact OutFollows.canon (hs.runExt (fun _ => SpecFollows.fsubSpec)) h
  | fmulAlu _ => exact OutFollows.canon (hs.runAlu (fun _ => SpecFollows.fmulSpec)) h
  | fmulImm _ => exact OutFollows.canon (hs.runImm (fun _ => SpecFollows.fmulSpec)) h
  | fmulExt _ => exact OutFollows.canon (hs.runExt (fun _ => SpecFollows.fmulSpec)) h
  | ffma _ => exact OutFollows.canon (hs.runExt (fun _ => SpecFollows.ffmaSpec)) h
  | fminAlu _ => exact OutFollows.canon (hs.runAlu (fun _ => SpecFollows.fminmaxSpec)) h
  | fminImm _ => exact OutFollows.canon (hs.runImm (fun _ => SpecFollows.fminmaxSpec)) h
  | fminExt _ => exact OutFollows.canon (hs.runExt (fun _ => SpecFollows.fminmaxSpec)) h
  | fmaxAlu _ => exact OutFollows.canon (hs.runAlu (fun _ => SpecFollows.fminmaxSpec)) h
  | fmaxImm _ => exact OutFollows.canon (hs.runImm (fun _ => SpecFollows.fminmaxSpec)) h
  | fmaxExt _ => exact OutFollows.canon (hs.runExt (fun _ => SpecFollows.fminmaxSpec)) h
  | fset _ => exact OutFollows.canon (hs.runExt (fun _ => SpecFollows.fsetSpec)) h
  | fclass _ => exact OutFollows.canon (hs.runExt (fun _ => SpecFollows.fclassSpec)) h
  | frcp _ => exact OutFollows.canon (hs.runExt (fun _ => SpecFollows.transSpec)) h
  | frsq _ => exact OutFollows.canon (hs.runExt (fun _ => SpecFollows.transSpec)) h
  | fsqrt _ => exact OutFollows.canon (hs.runExt (fun _ => SpecFollows.transSpec)) h
  | fexp2 _ => exact OutFollows.canon (hs.runExt (fun _ => SpecFollows.transSpec)) h
  | flog2 _ => exact OutFollows.canon (hs.runExt (fun _ => SpecFollows.transSpec)) h
  | fsin _ => exact OutFollows.canon (hs.runExt (fun _ => SpecFollows.transSpec)) h
  | fcos _ => exact OutFollows.canon (hs.runExt (fun _ => SpecFollows.transSpec)) h
  | ftanh _ => exact OutFollows.canon (hs.runExt (fun _ => SpecFollows.transSpec)) h
  | daddAlu _ => exact OutFollows.canon (hs.runAlu (fun _ => SpecFollows.daddSpec)) h
  | daddExt _ => exact OutFollows.canon (hs.runExt (fun _ => SpecFollows.daddSpec)) h
  | dmulAlu _ => exact OutFollows.canon (hs.runAlu (fun _ => SpecFollows.dmulSpec)) h
  | dmulExt _ => exact OutFollows.canon (hs.runExt (fun _ => SpecFollows.dmulSpec)) h
  | dfma _ => exact OutFollows.canon (hs.runExt (fun _ => SpecFollows.dfmaSpec)) h
  | pkaddAlu _ => exact OutFollows.canon (hs.runAlu (fun _ => SpecFollows.pkaddSpec)) h
  | pkaddExt _ => exact OutFollows.canon (hs.runExt (fun _ => SpecFollows.pkaddSpec)) h
  | pkmulAlu _ => exact OutFollows.canon (hs.runAlu (fun _ => SpecFollows.pkmulSpec)) h
  | pkmulExt _ => exact OutFollows.canon (hs.runExt (fun _ => SpecFollows.pkmulSpec)) h
  | pkfma _ => exact OutFollows.canon (hs.runExt (fun _ => SpecFollows.pkfmaSpec)) h
  | cvt _ => exact OutFollows.canon (hs.runExt (fun _ => SpecFollows.cvtSpec)) h
  | cvtq _ => exact OutFollows.canon (hs.runExt (fun _ => SpecFollows.cvtqSpec)) h
  | bqdot _ => exact OutFollows.canon (hs.runExt (fun _ => SpecFollows.bqdotSpec)) h
  | bqscl _ => exact OutFollows.canon (hs.runExt (fun _ => SpecFollows.bqsclSpec)) h
  | qswz _ => exact OutFollows.canon (hs.runExt (fun _ => SpecFollows.qswzSpec)) h
  | qbc _ => exact OutFollows.canon (hs.runExt (fun _ => SpecFollows.qbcSpec)) h
  | qdx _ => exact OutFollows.canon (hs.runExt (fun _ => SpecFollows.qdxSpec)) h
  | qdy _ => exact OutFollows.canon (hs.runExt (fun _ => SpecFollows.qdySpec)) h
  | lxch _ => exact OutFollows.canon (hs.runExt (fun _ => SpecFollows.lxchSpec)) h
  | qrm _ => exact OutFollows.canon (hs.runExt (fun _ => SpecFollows.qrmSpec)) h
  | peer _ => exact OutFollows.canon (hs.runExt (fun _ => SpecFollows.peerSpec)) h
  | wfold _ => exact OutFollows.canon (hs.runExt (fun _ => SpecFollows.wfoldSpec)) h
  | prefixFold _ => exact OutFollows.canon (hs.runExt (fun _ => SpecFollows.prefixSpec)) h
  | isect _ => exact OutFollows.canon (hs.runExt (fun _ => SpecFollows.isectSpec)) h
  | mma2 _ => exact OutFollows.canon (hs.runExt (fun _ => SpecFollows.mmaSpec)) h
  | mma3 _ => exact OutFollows.canon (hs.runExt (fun _ => SpecFollows.mmaSpec)) h
  | mma4 _ => exact OutFollows.canon (hs.runExt (fun _ => SpecFollows.mmaSpec)) h
  | mma5 _ => exact OutFollows.canon (hs.runExt (fun _ => SpecFollows.mmaSpec)) h
  | mma6 _ => exact OutFollows.canon (hs.runExt (fun _ => SpecFollows.mmaSpec)) h
  | mma7 _ => exact OutFollows.canon (hs.runExt (fun _ => SpecFollows.mmaSpec)) h
  | mma8 _ => exact OutFollows.canon (hs.runExt (fun _ => SpecFollows.mmaSpec)) h
  | mmaw _ => exact OutFollows.canon (hs.runExt (fun _ => SpecFollows.mmaSpec)) h
  | wbld _ => exact OutFollows.canon (hs.runExt (fun _ => SpecFollows.wbldSpec)) h
  | wbinv _ => exact OutFollows.canon (hs.runExt (fun _ => SpecFollows.wbinvSpec)) h
  | aclr _ => exact OutFollows.canon (hs.runExt (fun _ => SpecFollows.aclrSpec)) h
  | ard _ => exact OutFollows.canon (hs.runExt (fun _ => SpecFollows.ardSpec)) h
  | awr _ => exact OutFollows.canon (hs.runExt (fun _ => SpecFollows.awrSpec)) h
  | scan _ => exact OutFollows.canon (hs.runExt (fun _ => SpecFollows.scanSpec)) h
  | scanst _ => exact OutFollows.canon (hs.runExt (fun _ => SpecFollows.scanstSpec)) h
  | mfs _ => exact OutFollows.canon (hs.runExt (fun _ => SpecFollows.mfsSpec)) h
  | mts _ => exact OutFollows.canon (hs.runExt (fun _ => SpecFollows.mtsSpec)) h
  | sscmdSpill _ => exact OutFollows.canon (hs.runExt (fun _ => SpecFollows.sscmdSpec (fun _ _ h => h.doSpill))) h
  | sscmdFill _ => exact OutFollows.canon (hs.runExt (fun _ => SpecFollows.sscmdSpec (fun _ _ h => h.doFill))) h
  | sscmdPop _ => exact OutFollows.canon (hs.runExt (fun _ => SpecFollows.sscmdSpec (fun _ _ h => h.doPop))) h
  | sscmdPush _ => exact OutFollows.canon (hs.runExt (fun _ => SpecFollows.sscmdSpec (fun _ _ h => h.doPush))) h
  | eret _ => exact OutFollows.canon (hs.runExt (fun _ => SpecFollows.eretSpec)) h
  | halt _ => exact OutFollows.canon (hs.runExt (fun _ => SpecFollows.haltSpec)) h
  | clrerr _ => exact OutFollows.canon (hs.runExt (fun _ => SpecFollows.clrerrSpec)) h
  | tlbflush _ => exact OutFollows.canon (hs.runExt (fun _ => SpecFollows.tlbflushSpec)) h
  | tlbsync _ => exact OutFollows.canon (hs.runExt (fun _ => SpecFollows.tlbsyncSpec)) h
  | asidret _ => exact OutFollows.canon (hs.runExt (fun _ => SpecFollows.asidretSpec)) h
  | sgwr _ => exact OutFollows.canon (hs.runExt (fun _ => SpecFollows.sgwrSpec)) h
  | ttrd _ => exact OutFollows.canon (hs.runExt (fun _ => SpecFollows.ttrdSpec)) h
  | bwset _ => exact OutFollows.canon (hs.runExt (fun _ => SpecFollows.bwsetSpec)) h
  | ldsMem _ => exact OutFollows.canon (hs.runMem (fun _ => SpecFollows.ldsSpec)) h
  | ldsExt _ => exact OutFollows.canon (hs.runExt (fun _ => SpecFollows.ldsSpec)) h
  | stsMem _ => exact OutFollows.canon (hs.runMem (fun _ => SpecFollows.stsSpec)) h
  | stsExt _ => exact OutFollows.canon (hs.runExt (fun _ => SpecFollows.stsSpec)) h
  | ldsfMem _ => exact OutFollows.canon (hs.runMem (fun _ => SpecFollows.ldsfSpec)) h
  | ldsfExt _ => exact OutFollows.canon (hs.runExt (fun _ => SpecFollows.ldsfSpec)) h
  | stseMem _ => exact OutFollows.canon (hs.runMem (fun _ => SpecFollows.stseSpec)) h
  | stseExt _ => exact OutFollows.canon (hs.runExt (fun _ => SpecFollows.stseSpec)) h
  | ldsp _ => exact OutFollows.canon (hs.runExt (fun _ => SpecFollows.ldspSpec)) h
  | tags _ => exact OutFollows.canon (hs.runExt (fun _ => SpecFollows.tagsSpec)) h
  | tagc _ => exact OutFollows.canon (hs.runExt (fun _ => SpecFollows.tagsSpec)) h
  | ats _ => exact OutFollows.canon (hs.runExt (fun _ => SpecFollows.atsSpec)) h
  | atsn _ => exact OutFollows.canon (hs.runExt (fun _ => SpecFollows.atsSpec)) h
  | talloc _ => exact OutFollows.canon (hs.runExt (fun _ => SpecFollows.tallocSpec)) h
  | tfree _ => exact OutFollows.canon (hs.runExt (fun _ => SpecFollows.tfreeSpec)) h
  | tld _ => exact OutFollows.canon (hs.runExt (fun _ => SpecFollows.tldSpec)) h
  | tst _ => exact OutFollows.canon (hs.runExt (fun _ => SpecFollows.tstSpec)) h
  | fence _ => exact OutFollows.canon (hs.runExt (fun _ => SpecFollows.fenceSpec)) h
  | icinv _ => exact OutFollows.canon (hs.runExt (fun _ => SpecFollows.icinvSpec)) h
  | cpost _ => exact OutFollows.canon (hs.runExt (fun _ => SpecFollows.cpostSpec)) h
  | red _ => exact OutFollows.canon (hs.runExt (fun _ => SpecFollows.redSpec)) h
  | amo _ => exact OutFollows.canon (hs.runExt (fun _ => SpecFollows.amoSpec)) h
  | redflush _ => exact OutFollows.canon (hs.runExt (fun _ => SpecFollows.redflushSpec)) h
  | cfence _ => exact OutFollows.canon (hs.runExt (fun _ => SpecFollows.cfenceSpec)) h
  | cpstat _ => exact OutFollows.canon (hs.runExt (fun _ => SpecFollows.cpstatSpec)) h
  | coll _ => exact OutFollows.canon (hs.runExt (fun _ => SpecFollows.collSpec)) h
  | cgrp _ => exact OutFollows.canon (hs.runExt (fun _ => SpecFollows.cgrpSpec)) h
  | fxwin _ => exact OutFollows.canon (hs.runExt (fun _ => SpecFollows.fxwinSpec)) h
  | tskpost _ => exact OutFollows.canon (hs.runExt (fun _ => SpecFollows.tskpostSpec)) h
  | launch _ => exact OutFollows.canon (hs.runExt (fun _ => SpecFollows.launchSpec)) h
  | itemput _ => exact OutFollows.canon (hs.runExt (fun _ => SpecFollows.itemputSpec)) h
  | waitc _ => exact OutFollows.canon (hs.runExt (fun _ => SpecFollows.waitcSpec)) h
  | tlwait _ => exact OutFollows.canon (hs.runExt (fun _ => SpecFollows.tlwaitSpec)) h
  | tlrd _ => exact OutFollows.canon (hs.runExt (fun _ => SpecFollows.tlrdSpec)) h
  | balloc _ => exact OutFollows.canon (hs.runExt (fun _ => SpecFollows.ballocSpec)) h
  | bfree _ => exact OutFollows.canon (hs.runExt (fun _ => SpecFollows.bfreeSpec)) h
  | barv _ => exact OutFollows.canon (hs.runExt (fun _ => SpecFollows.barvSpec)) h
  | barvw _ => exact OutFollows.canon (hs.runExt (fun _ => SpecFollows.barvwSpec)) h
  | bwait _ => exact OutFollows.canon (hs.runExt (fun _ => SpecFollows.bwaitSpec)) h
  | ecrd _ => exact OutFollows.canon (hs.runExt (fun _ => SpecFollows.ecrdSpec)) h
  | ecsel _ => exact OutFollows.canon (hs.runExt (fun _ => SpecFollows.ecselSpec)) h
  | gPost _ _ => exact OutFollows.canon hs.execGPost h
  | gTlwait _ _ _ => exact OutFollows.canon hs.execGTlwait h
  | gTlrd _ _ => exact OutFollows.canon hs.execGTlrd h
  | gLdf _ _ => exact OutFollows.canon hs.execGLdf h
  | gSte _ _ => exact OutFollows.canon hs.execGSte h
  | gItem _ _ => exact OutFollows.canon hs.execGItem h
  | gItemClose _ _ => exact OutFollows.canon hs.execGItemClose h
  | gTask _ _ _ => exact OutFollows.canon hs.execGTask h
  | gBarv _ _ => exact OutFollows.canon hs.execGBarv h
  | gEvt _ => exact OutFollows.canon hs.execGEvt h
  | gEvtEnd rs1 => exact OutFollows.canon (hs.execGEvtEnd (_rs1 := rs1)) h
  | gEvtFail _ => exact OutFollows.canon hs.execGEvtFail h
  | gripStandardInstruction _ _ => exact OutFollows.canon hs.execGripStandardInstruction h
  | trapEntry _ _ => exact OutFollows.canon hs.execTrapEntry h
  | tagwait _ _ => exact OutFollows.canon hs.execTagwait h
  | machine _ => exact OutFollows.canon hs.execMachine h
  | breakpointHit _ _ _ => exact OutFollows.canon hs.execBreakpointHit h
  | dbgctlResume _ _ => exact OutFollows.canon hs.execDbgctlResume h
  | schedulerSelect _ _ => exact OutFollows.canon hs.execSchedulerSelect h
  | storeQueuePerform _ _ => exact OutFollows.canon hs.execStoreQueuePerform h
  | gripStorePerform _ _ => exact OutFollows.canon hs.execGripStorePerform h
  | loadLand _ _ _ _ => exact OutFollows.canon hs.execLoadLand h
  | tileAccessLand _ _ _ => exact OutFollows.canon hs.execTileAccessLand h
  | tagWaitSatisfied _ _ => exact OutFollows.canon hs.execTagWaitSatisfied h
  | waitcReturn _ _ => exact OutFollows.canon hs.execWaitcReturn h
  | tlwaitReturn _ _ => exact OutFollows.canon hs.execTlwaitReturn h
  | bwaitReturn _ _ => exact OutFollows.canon hs.execBwaitReturn h
  | recastWake _ _ => exact OutFollows.canon hs.execRecastWake h
  | cpostAccept _ _ => exact OutFollows.canon hs.execCpostAccept h
  | mmaAccept _ _ => exact OutFollows.canon hs.execMmaAccept h
  | fenceDrained _ _ => exact OutFollows.canon hs.execFenceDrained h
  | icinvDone _ _ => exact OutFollows.canon hs.execIcinvDone h
  | sgwrDone _ _ => exact OutFollows.canon hs.execSgwrDone h
  | tlbsyncDone _ _ => exact OutFollows.canon hs.execTlbsyncDone h
  | atomicElementPerform _ => exact OutFollows.canon hs.execAtomicElementPerform h
  | writeThroughAck _ _ _ => exact OutFollows.canon hs.execWriteThroughAck h
  | scrubPass _ _ => exact OutFollows.canon hs.execScrubPass h
  | copyDispatch _ _ _ => exact OutFollows.canon hs.execCopyDispatch h
  | copyFaultSuspend _ _ _ => exact OutFollows.canon hs.execCopyFaultSuspend h
  | faultBatchPost _ _ _ => exact OutFollows.canon hs.execFaultBatchPost h
  | copyComplete _ _ _ => exact OutFollows.canon hs.execCopyComplete h
  | matrixUnitStart _ => exact OutFollows.canon hs.execMatrixUnitStart h
  | matrixCommandComplete _ => exact OutFollows.canon hs.execMatrixCommandComplete h
  | gafferWindow _ => exact OutFollows.canon hs.execGafferWindow h
  | wbldRun _ => exact OutFollows.canon hs.execWbldRun h
  | wbldComplete _ => exact OutFollows.canon hs.execWbldComplete h
  | wbinvEffect _ => exact OutFollows.canon hs.execWbinvEffect h
  | scanStart _ => exact OutFollows.canon hs.execScanStart h
  | scanComplete _ => exact OutFollows.canon hs.execScanComplete h
  | scanstComplete _ => exact OutFollows.canon hs.execScanstComplete h
  | tokenRefill _ => exact OutFollows.canon hs.execTokenRefill h
  | portSend _ => exact OutFollows.canon hs.execPortSend h
  | priorityAging _ => exact OutFollows.canon hs.execPriorityAging h
  | timeSliceEnd _ _ => exact OutFollows.canon hs.execTimeSliceEnd h
  | clusterPlacement _ => exact OutFollows.canon hs.execClusterPlacement h
  | preemption _ _ => exact OutFollows.canon hs.execPreemption h
  | groupHaltRelease _ _ => exact OutFollows.canon hs.execGroupHaltRelease h
  | restorePlacement _ _ => exact OutFollows.canon hs.execRestorePlacement h
  | groupRetirement _ _ => exact OutFollows.canon hs.execGroupRetirement h
  | launchEntryTake _ _ => exact OutFollows.canon hs.execLaunchEntryTake h
  | gridEnd _ => exact OutFollows.canon hs.execGridEnd h
  | taskArrival _ _ => exact OutFollows.canon hs.execTaskArrival h
  | taskPlacement _ _ => exact OutFollows.canon hs.execTaskPlacement h
  | collectiveMatched _ => exact OutFollows.canon hs.execCollectiveMatched h
  | collMemberComplete _ _ => exact OutFollows.canon hs.execCollMemberComplete h
  | gatewayCombine _ _ _ => exact OutFollows.canon hs.execGatewayCombine h
  | multicastPacketArrival _ _ => exact OutFollows.canon hs.execMulticastPacketArrival h
  | writePacket _ => exact h.receive
  | readPacket _ => exact h.receive
  | atomicPacket _ => exact h.receive
  | flagPacket _ => exact h.receive
  | collPacket _ => exact h.receive
  | ackReceived _ => exact OutFollows.canon hs.execAckReceived h
  | stallHintExpiry _ _ => exact OutFollows.canon hs.execStallHintExpiry h
  | linkDown _ => exact OutFollows.canon hs.execLinkDown h
  | ackTimeout _ _ => exact OutFollows.canon hs.execAckTimeout h
  | routeRetry _ => exact OutFollows.canon hs.execRouteRetry h
  | fabricTimeout _ _ _ => exact OutFollows.canon hs.execFabricTimeout h
  | asidFreed _ => exact OutFollows.canon hs.execAsidFreed h
  | coldReset => exact h.execColdReset
  | warmReset => exact h.warm
  | resetctlWarm => exact h.execResetctlWarm
  | bootctlStart => exact OutFollows.canon hs.execBootctlStart h
  | bootbufWrite _ => exact OutFollows.canon hs.execBootbufWrite h
  | bootctlGo _ => exact h.execBootctlGo
  | linkStateChange _ _ => exact OutFollows.canon hs.execLinkStateChange h
  | sidebandRegisterWrite _ _ _ => exact h.execSidebandRegisterWrite
  | errstatRead _ => exact OutFollows.canon hs.execErrstatRead h
  | lqd0Write _ _ _ => exact OutFollows.canon hs.execLqd0Write h
  | lqd1TailWrite _ _ _ => exact OutFollows.canon hs.execLqd1TailWrite h
  | diememWrite _ _ => exact OutFollows.canon hs.execDiememWrite h
  | bwtabWrite _ _ => exact OutFollows.canon hs.execBwtabWrite h
  | fqctlHeadWrite _ _ => exact OutFollows.canon hs.execFqctlHeadWrite h
  | eqctlHeadWrite _ _ => exact OutFollows.canon hs.execEqctlHeadWrite h
  | islopWrite _ _ => exact OutFollows.canon hs.execIslopWrite h
  | asidBind _ => exact OutFollows.canon hs.execAsidBind h
  | asidReroot _ => exact OutFollows.canon hs.execAsidReroot h
  | tlbFlush _ => exact OutFollows.canon hs.execTlbFlush h
  | asidRetire _ => exact OutFollows.canon hs.execAsidRetire h
  | faultVerdict _ => exact OutFollows.canon hs.execFaultVerdict h
  | groupRelease _ => exact OutFollows.canon hs.execGroupRelease h
  | restore _ => exact OutFollows.canon hs.execRestore h
  | preempt _ => exact OutFollows.canon hs.execPreempt h
  | streamReset _ => exact OutFollows.canon hs.execStreamReset h
  | windowSync _ => exact OutFollows.canon hs.execWindowSync h
  | scopeWrite _ => exact OutFollows.canon hs.execScopeWrite h
  | taskName _ => exact OutFollows.canon hs.execTaskName h
  | attest _ _ => exact OutFollows.canon hs.execAttest h
  | coreRelease _ => exact OutFollows.canon hs.execCoreRelease h
  | sidebandCommandFinish _ => exact OutFollows.canon hs.execSidebandCommandFinish h
  | thermalThreshold _ _ => exact OutFollows.canon hs.execThermalThreshold h
  | thermalUndo _ _ => exact OutFollows.canon hs.execThermalUndo h
  | jtagExtest _ => exact OutFollows.canon hs.execJtagExtest h
  | jtagIdcode => exact OutFollows.canon hs.execJtagIdcode h
  | jtagSamplePreload _ => exact OutFollows.canon hs.execJtagSamplePreload h
  | jtagBypass _ => exact OutFollows.canon hs.execJtagBypass h
  | companionDeviceMemoryAccess _ => exact OutFollows.canon hs.execCompanionDeviceMemoryAccess h
  | linkAbsenceTimeout _ _ _ => exact OutFollows.canon hs.execLinkAbsenceTimeout h

theorem OutCanon.afterIssue {c slot : Nat} {i : Option Instr} {o : Host.Outcome State Fault Refusal} (h : OutCanon o) :
    OutCanon (afterIssue s c slot i o) := by
  cases o with
  | next t =>
    refine Follows.canon (Follows.ite ?_ ?_) (State.Canon.upd h (t := { t with cur := .none }))
    · exact Follows.refl _
    · refine Follows.modSched ?_
      cases i with
      | none => exact Follows.refl _
      | some i => exact (Follows.refl _).noteResults
  | fault _ => trivial
  | refused _ => trivial

theorem State.Canon.issueNext {c slot : Nat} {w : Warp} {g : Group} (h : s.Canon) : OutCanon (issueNext s c slot w g) := by
  unfold Machine.issueNext
  extract_lets r
  have hr : Follows s r.1 := (Follows.refl s).fetchInstr
  split
  · exact OutCanon.afterIssue (o := .next _) (hr.trapHere.canon h)
  · split
    · exact hr.canon h
    · exact OutCanon.afterIssue ((hr.canon h).upd.exec _)

theorem State.Canon.issueTurn {c q : Nat} (h : s.Canon) : OutCanon (issueTurn s c q) := by
  have hs := Follows.refl s
  unfold Machine.issueTurn
  extract_lets k
  split
  · exact h
  · split
    · exact h
    · split
      · exact h
      · split
        · exact h
        · split
          · exact hs.execTrapEntry.canon h
          · split
            · exact hs.execPreemption.canon h
            · split
              · exact hs.execBreakpointHit.canon h
              · exact h.issueNext

theorem State.Canon.gripTurn {c g : Nat} (h : s.Canon) : OutCanon (gripTurn s c g) := by
  have hs := Follows.refl s
  unfold Machine.gripTurn
  extract_lets x
  split
  · exact h
  · split
    · exact hs.gripTakeStruck.canon h
    · exact hs.uncorrectable.gripFail.canon h
    · exact hs.gripExcept.canon h
    · exact hs.modGrip.gripExcept.canon h
    · next i _ =>
      have he : OutCanon (Machine.exec i { s with cur := .grip c g }) := h.upd.exec i
      split
      · exact h
      · split
        · next e => exact (he.next e).upd
        · exact he

theorem State.Canon.eventTurn {i : Instr} (h : s.Canon) : OutCanon (eventTurn s i) := by
  unfold Machine.eventTurn
  split
  · trivial
  · split
    · exact h.upd.exec i
    · exact h

theorem OutCanon.ite {c : Prop} {inst : Decidable c} {o o' : Host.Outcome State Fault Refusal} (h : OutCanon o) (h' : OutCanon o') :
    OutCanon (if c then o else o') := by
  split
  · exact h
  · exact h'

theorem State.Canon.takeAct {a : Act} (h : s.Canon) : OutCanon (takeAct s a) := by
  have hs := Follows.refl s
  unfold Machine.takeAct
  split
  · exact h.eventTurn
  · exact OutCanon.ite h (hs.upd.runOwn.canon h)
  · exact OutCanon.ite h h.issueTurn
  · exact OutCanon.ite h h.gripTurn
  · exact OutCanon.ite h (hs.sbRead.canon h)
  · exact OutCanon.ite h (hs.wrapDump.canon h)
  · exact hs.compStore.canon h
  · exact OutCanon.ite h (hs.tck.canon h)
  · exact OutCanon.ite h (hs.companionPhys.canon h)
  · exact OutCanon.ite h h.actState

theorem State.Canon.runAct {a : Act} (h : s.Canon) : OutCanon (runAct s a) := by
  unfold Machine.runAct
  split
  · trivial
  · exact OutCanon.ite h ((Follows.refl s).inTurn.canon h).takeAct

theorem State.Canon.step (h : s.Canon) : OutCanon (step s) := by
  unfold Machine.step Machine.turnStep
  split
  · exact h.upd
  · exact ((Follows.refl s).begin.canon h).pass.runAct

end

/-- Settles O50: every function of the model that writes a memory writes it by the operations that keep the canonical form. -/
theorem stepsKeepMemoriesCanonical : Obligations.StepsKeepMemoriesCanonical := by
  intro s t hs e
  exact t.canon_iff.1 ((State.Canon.step (s.canon_iff.2 hs)).next e)

end Sys2Proof.Machine

/-! PROOFS. Packets at the target, collectives and their gateways, acknowledgements, hints and routes at the initiator, a retired ASID, and the
companion's accesses (10 R259; 15 R363 to R382; 16 R410): O58. -/

namespace Sys2Proof.Machine

section
variable {s t : State} {e : Instr} {r : Request}

/-! ### The target -/

theorem Follows.mayRespond (h : Follows s t) (port tc : Nat) : t.mayRespond port tc = s.mayRespond port tc := by
  obtain ⟨hdry, howed⟩ := h.resp
  simp only [State.mayRespond, hdry, howed]

theorem State.target_modTarget_same (s : State) (src tc : Nat) (f : Target → Target) :
    (s.modTarget src tc f).target src tc = f (s.target src tc) :=
  Tab.getD_set_same _ _ _ _

theorem State.modTarget_congr {src tc : Nat} {f g : Target → Target} (h : f (s.target src tc) = g (s.target src tc)) :
    s.modTarget src tc f = s.modTarget src tc g := by
  unfold State.modTarget
  rw [h]

theorem exec_of_isPacket (h : isPacket e r) : exec e s = .next (s.receive r) := by
  cases r with
  | write p => exact congrArg (exec · s) h
  | read p => exact congrArg (exec · s) h
  | atomic p => exact congrArg (exec · s) h
  | flag p => exact congrArg (exec · s) h
  | coll p => exact congrArg (exec · s) h

theorem follows_arrived (s : State) (r : Request) : Follows s (arrived s r) := (Follows.refl s).upd.modTarget

theorem acknowledge_of_mayRespond (h : s.mayRespond (portOf r) (streamOf r).2.1 = true) :
    s.acknowledge (portOf r) (streamOf r).1 (streamOf r).2.1 = acking s r :=
  if_pos h

theorem receive_dropped (h : 2 ≤ s.inLevel (portOf r) (streamOf r).2.1 ∨ s.bootFailed = true) : s.receive r = { s with out := Out.reset } := by
  refine if_pos ?_
  rw [Bool.or_eq_true, decide_eq_true_iff]
  exact h.symm

/-- The state that follows the coming of a packet answers it at once. -/
theorem acknowledge_follows (hc : comes s e r) (h : Follows s t) : t.acknowledge (portOf r) (streamOf r).1 (streamOf r).2.1 = acking t r := by
  obtain ⟨-, -, -, hm⟩ := hc
  exact acknowledge_of_mayRespond ((h.mayRespond _ _).trans hm)

/-- A packet that finds room is judged by its number. -/
theorem exec_comes (hc : comes s e r) :
    exec e s = .next (
      if aheadBy (arrived s r) r = 0 && !((arrived s r).mustWait r) then
        (((arrived s r).performNext r).performHeld (streamOf r).1 (streamOf r).2.1 (streamAt ((arrived s r).performNext r) r).held.length).acknowledge
          (portOf r) (streamOf r).1 (streamOf r).2.1
      else if aheadBy (arrived s r) r ≤ 1023 then
        ((arrived s r).modTarget (streamOf r).1 (streamOf r).2.1 (fun t => t.hold r)).acknowledge (portOf r) (streamOf r).1 (streamOf r).2.1
      else if aheadBy (arrived s r) r < 2 ^ 31 then arrived s r
      else if 2 ^ 32 - 1024 ≤ aheadBy (arrived s r) r then
        (((arrived s r).duplicate r).1.answer (streamOf r).2.2 ((arrived s r).duplicate r).2).acknowledge (portOf r) (streamOf r).1 (streamOf r).2.1
      else ((arrived s r).answer (streamOf r).2.2 .remoteNack).acknowledge (portOf r) (streamOf r).1 (streamOf r).2.1) := by
  obtain ⟨hp, hl, hb, -⟩ := hc
  refine (exec_of_isPacket hp).trans (congrArg Host.Outcome.next (if_neg ?_))
  rw [Bool.or_eq_true, decide_eq_true_iff]
  rintro (h | h)
  · exact Bool.noConfusion (hb.symm.trans h)
  · exact Nat.not_lt.2 h hl

theorem packet_next (hc : comes s e r) (hd : aheadBy (arrived s r) r = 0) (hw : (arrived s r).mustWait r = false)
    (hh : (streamAt ((arrived s r).performNext r) r).held = []) : exec e s = .next (acking ((arrived s r).performNext r) r) := by
  rw [exec_comes hc, if_pos (by rw [hd, hw]; rfl), hh]
  exact congrArg Host.Outcome.next (acknowledge_follows hc (follows_arrived s r).performNext)

theorem packet_held (hc : comes s e r) (hd : 1 ≤ aheadBy (arrived s r) r ∨ (arrived s r).mustWait r = true) (hn : aheadBy (arrived s r) r ≤ 1023)
    (hh : ∀ x ∈ (streamAt (arrived s r) r).held, (streamOf x).2.2 ≠ (streamOf r).2.2) :
    exec e s = .next (acking ((arrived s r).modTarget (streamOf r).1 (streamOf r).2.1 (fun t => { t with held := t.held ++ [r] })) r) := by
  have hnot : ¬((decide (aheadBy (arrived s r) r = 0) && !((arrived s r).mustWait r)) = true) := by
    rw [Bool.and_eq_true, decide_eq_true_iff]
    rintro ⟨h0, hw⟩
    rcases hd with h1 | h1
    · omega
    · rw [h1] at hw
      exact absurd hw (by decide)
  have hold : (streamAt (arrived s r) r).hold r = { streamAt (arrived s r) r with held := (streamAt (arrived s r) r).held ++ [r] } :=
    if_neg (by simpa [List.any_eq_true] using hh)
  rw [exec_comes hc, if_neg hnot, if_pos hn, State.modTarget_congr (g := fun t => { t with held := t.held ++ [r] }) hold]
  exact congrArg Host.Outcome.next (acknowledge_follows hc (follows_arrived s r).modTarget)

/-- A packet further ahead than the window is not next in its stream, and not held. -/
theorem comes_far (hc : comes s e r) (hd : 1023 < aheadBy (arrived s r) r) :
    exec e s = .next (if aheadBy (arrived s r) r < 2 ^ 31 then arrived s r
      else if 2 ^ 32 - 1024 ≤ aheadBy (arrived s r) r then
        (((arrived s r).duplicate r).1.answer (streamOf r).2.2 ((arrived s r).duplicate r).2).acknowledge (portOf r) (streamOf r).1 (streamOf r).2.1
      else ((arrived s r).answer (streamOf r).2.2 .remoteNack).acknowledge (portOf r) (streamOf r).1 (streamOf r).2.1) := by
  have hnot : ¬((decide (aheadBy (arrived s r) r = 0) && !((arrived s r).mustWait r)) = true) := by
    rw [Bool.and_eq_true, decide_eq_true_iff]
    omega
  rw [exec_comes hc, if_neg hnot, if_neg (Nat.not_le.2 hd)]

theorem packet_behind (hc : comes s e r) (hd : 2 ^ 32 - 1024 ≤ aheadBy (arrived s r) r) :
    exec e s = .next (acking (((arrived s r).duplicate r).1.answer (streamOf r).2.2 ((arrived s r).duplicate r).2) r) := by
  rw [comes_far hc (by omega), if_neg (by omega), if_pos hd]
  exact congrArg Host.Outcome.next (acknowledge_follows hc (follows_arrived s r).duplicate.answer)

theorem packet_refused (hc : comes s e r) (hd : 2 ^ 31 ≤ aheadBy (arrived s r) r) (hn : aheadBy (arrived s r) r < 2 ^ 32 - 1024) :
    exec e s = .next (acking ((arrived s r).answer (streamOf r).2.2 .remoteNack) r) := by
  rw [comes_far hc (by omega), if_neg (by omega), if_neg (by omega)]
  exact congrArg Host.Outcome.next (acknowledge_follows hc (follows_arrived s r).answer)

/-- A packet that its stream expects, in a stream that is not fresh. -/
theorem arrived_of_not_fresh (hf : (streamAt s r).fresh = false) : streamAt (arrived s r) r = streamAt s r :=
  (State.target_modTarget_same _ _ _ _).trans (if_neg (fun h => Bool.noConfusion (hf.symm.trans h)))

theorem streamAt_performNext_coll (s : State) (p : CollPacket) :
    streamAt (s.performNext (.coll p)) (.coll p) =
      { streamAt s (.coll p) with next := (streamAt s (.coll p)).next + 1, performed := (streamAt s (.coll p)).performed + 1 } :=
  State.target_modTarget_same (s.perform (.coll p)).1 p.src.toNat p.tc.toNat (fun t => { t with next := t.next + 1, performed := t.performed + 1 })

theorem collPacket_handed {p : CollPacket} (hl : s.inLevel p.port p.tc.toNat < 2) (hb : s.bootFailed = false) (hm : s.mayRespond p.port p.tc.toNat = true)
    (hf : (s.target p.src.toNat p.tc.toNat).fresh = false) (hq : (s.target p.src.toNat p.tc.toNat).next = p.q)
    (hh : (s.target p.src.toNat p.tc.toNat).held = []) :
    ∃ t, exec (.collPacket p) s = .next t ∧ t.pkg.peerColl = s.pkg.peerColl ++ [p] ∧ t.out.answers = [(p.q, .done)] ∧ t.out.acked = some (p.q + 1) ∧
      (t.target p.src.toNat p.tc.toNat).next = p.q + 1 := by
  have hc : comes s (.collPacket p) (.coll p) := ⟨rfl, hl, hb, hm⟩
  have ha : streamAt (arrived s (.coll p)) (.coll p) = s.target p.src.toNat p.tc.toNat := arrived_of_not_fresh hf
  have hn := streamAt_performNext_coll (arrived s (.coll p)) p
  rw [ha, hq] at hn
  have hd : aheadBy (arrived s (.coll p)) (.coll p) = 0 := by
    rw [aheadBy, ha, hq]
    simp [streamOf]
  have hnext : (streamAt ((arrived s (.coll p)).performNext (.coll p)) (.coll p)).next = p.q + 1 := congrArg Target.next hn
  exact ⟨_, packet_next hc hd rfl ((congrArg Target.held hn).trans hh), rfl, rfl, congrArg some hnext, hnext⟩

/-! ### Collectives -/

theorem collMember_running {d x : Nat} {k : CollCtx} (hk : Tab.get? (s.die d).coll x = some k) (hs : k.status = 0) :
    exec (.collMemberComplete d x) s =
      if k.phase = 3 then .next (if s.collReady k d then s.modColl d x CollCtx.stored else s)
      else if k.phase = 4 ∧ s.collOver d x k then .next (s.collEnd d x k) else .next s := by
  show execCollMemberComplete d x s = _
  unfold execCollMemberComplete
  rw [hk]
  exact if_neg (not_not.2 hs)

theorem collMember_failed {d x : Nat} {k : CollCtx} (hk : Tab.get? (s.die d).coll x = some k) (hs : k.status ≠ 0) (ho : s.collOver d x k = true) :
    exec (.collMemberComplete d x) s =
      .next (if k.phase = 3 then (s.collFailedStore d k).modColl d x (fun k => { k with phase := 4 }) else s.collEnd d x k) := by
  show execCollMemberComplete d x s = _
  unfold execCollMemberComplete
  rw [hk]
  refine (if_pos hs).trans (congrArg Host.Outcome.next (if_neg ?_))
  simp [ho]

/-! ### Gateways -/

/-- What the gateway asks of a context, as it computes it. -/
def readyFor (s : State) (key : CollKey) (src dst : Nat) (x : CollCtx) : Bool :=
  x.key == key && x.b.folds && x.status == 0 && x.members.any (fun m => m.1 == s.pkg.devid.toNat && dieOf m.2 == dst) && (s.partial? x src dst).isNone &&
    (x.members.filter (fun m => m.1 == s.pkg.devid.toNat && dieOf m.2 == src)).all (fun m => (s.memberBytes x m).isSome)

theorem readyFor_iff (s : State) (key : CollKey) (src dst : Nat) (x : CollCtx) : readyFor s key src dst x = true ↔ GatewayReady s key src dst x := by
  simp only [readyFor, Bool.and_eq_true, beq_iff_eq, List.any_eq_true, List.all_eq_true, List.mem_filter, Option.isNone_iff_eq_none]
  constructor
  · rintro ⟨⟨⟨⟨⟨hk, hf⟩, hl⟩, hb⟩, hp⟩, ha⟩
    exact ⟨hk, hf, hl, hb, hp, fun m hm h1 h2 => ha m ⟨hm, h1, h2⟩⟩
  · rintro ⟨hk, hf, hl, hb, hp, ha⟩
    exact ⟨⟨⟨⟨⟨hk, hf⟩, hl⟩, hb⟩, hp⟩, fun m hm => ha m hm.1 hm.2.1 hm.2.2⟩

theorem find?_readyFor {key : CollKey} {src dst n : Nat} {before after : List (Nat × CollCtx)} {x : CollCtx}
    (hx : GatewayReady s key src dst x) (hb : ∀ p ∈ before, ¬GatewayReady s key src dst p.2) :
    ((before ++ (n, x) :: after).map Prod.snd).find? (readyFor s key src dst) = some x := by
  have hnone : (before.map Prod.snd).find? (readyFor s key src dst) = none := by
    simp only [List.find?_eq_none, List.mem_map]
    rintro _ ⟨p, hp, rfl⟩
    exact mt (readyFor_iff ..).1 (hb p hp)
  rw [List.map_append, List.find?_append, hnone, List.map_cons, List.find?_cons_of_pos ((readyFor_iff ..).2 hx)]
  rfl

theorem State.partials_countDie (s : State) (d code n k : Nat) : ((s.countDie d code n).die k).partials = (s.die k).partials := by
  by_cases h : k = d
  · subst h
    unfold State.countDie
    rw [State.die_modDie_same]
  · exact congrArg Die.partials (State.die_setDie_ne _ _ h)

theorem gatewayCombine_sends {key : CollKey} {src dst n : Nat} {before after : List (Nat × CollCtx)} {x : CollCtx} (hsd : src ≠ dst)
    (hc : (s.die src).coll = before ++ (n, x) :: after) (hx : GatewayReady s key src dst x) (hb : ∀ p ∈ before, ¬GatewayReady s key src dst p.2) :
    ∃ t, exec (.gatewayCombine key src dst) s = .next t ∧ (t.die dst).partials = (s.die dst).partials ++
      [{ key := key, members := x.members, src := src, dst := dst,
         data := (List.range (x.b.srcLen x.members.length)).map (s.dieFold x s.pkg.devid.toNat src) }] := by
  have hfind : (if src = dst then none else ((s.die src).coll.map Prod.snd).find? (readyFor s key src dst)) = some x := by
    rw [if_neg hsd, hc, find?_readyFor hx hb]
  have hexec : exec (.gatewayCombine key src dst) s = execGatewayCombine key src dst s := rfl
  unfold execGatewayCombine at hexec
  extract_lets own ready at hexec
  rw [show (if src = dst then none else ((s.die src).coll.map Prod.snd).find? ready) = some x from hfind] at hexec
  refine ⟨_, hexec, ?_⟩
  rw [State.partials_countDie, State.partials_countDie, State.die_modDie_same]

/-! ### Streams and routes at the initiator -/

theorem State.stream_modStream_same (s : State) (dev tc : Nat) (f : Stream → Stream) : (s.modStream dev tc f).stream dev tc = f (s.stream dev tc) :=
  Tab.getD_set_same _ _ _ _

theorem State.stream_modStream_ne (s : State) {dev tc c : Nat} (f : Stream → Stream) (h : c ≠ tc) :
    (s.modStream dev tc f).stream dev c = s.stream dev c :=
  Tab.getD_set_ne _ _ _ (by omega)

/-- A current hint of a class ends. -/
def State.endHint (dev : Nat) (s : State) (c : Nat) : State :=
  if (s.stream dev c).hint then s.modStream dev c (fun t => { t with hint := false }) else s

theorem State.stream_endHint (s : State) (dev c tc : Nat) :
    (s.endHint dev c).stream dev tc = { s.stream dev tc with hint := (s.stream dev tc).hint && tc != c } := by
  have hset : ∀ b, (s.stream dev tc).hint = b → s.stream dev tc = { s.stream dev tc with hint := b } := fun b hb =>
    congrArg (fun b => { s.stream dev tc with hint := b }) hb
  unfold State.endHint
  by_cases h : tc = c
  · subst h
    rw [bne_self_eq_false, Bool.and_false]
    split
    · exact State.stream_modStream_same _ _ _ _
    · next hh => exact hset false (Bool.eq_false_iff.2 hh)
  · rw [bne_iff_ne.2 h, Bool.and_true]
    split
    · exact State.stream_modStream_ne _ _ h
    · rfl

theorem State.stream_endHints (s : State) (dev tc : Nat) (cs : List Nat) :
    (cs.foldl (State.endHint dev) s).stream dev tc = { s.stream dev tc with hint := (s.stream dev tc).hint && !(cs.contains tc) } := by
  induction cs generalizing s with
  | nil => simp
  | cons c cs ih =>
    rw [List.foldl_cons, ih, State.stream_endHint]
    simp only [List.contains_cons, Bool.not_or, Bool.and_assoc]
    rfl

/-- An acknowledgement's hint is that of its stream, whose time of hearing stands. -/
theorem State.stream_hintFrom (s : State) (dev : Nat) {tc : Nat} (hint : Bool) (htc : tc < 4) :
    ((s.hintFrom dev tc hint).stream dev tc).hint = hint ∧ ((s.hintFrom dev tc hint).stream dev tc).ackAt = (s.stream dev tc).ackAt ∧
      (hint = true → ((s.hintFrom dev tc hint).stream dev tc).hintAt = s.ucycle.toNat) := by
  cases hint with
  | true =>
    have hk : (s.takeHint dev).stream dev tc = s.stream dev tc := by
      unfold State.takeHint
      split
      · rfl
      · rfl
    have hst : (s.hintFrom dev tc true).stream dev tc = { s.stream dev tc with hint := true, hintAt := s.ucycle.toNat } := by
      rw [← hk]
      exact State.stream_modStream_same (s.takeHint dev) dev tc (fun t => { t with hint := true, hintAt := s.ucycle.toNat })
    rw [hst]
    exact ⟨rfl, rfl, fun _ => rfl⟩
  | false =>
    have hst : (s.hintFrom dev tc false).stream dev tc = _ := State.stream_endHints s dev tc [0, 1, 2, 3]
    have hin : [0, 1, 2, 3].contains tc = true := by
      simp only [List.contains_eq_mem, List.mem_cons, List.not_mem_nil, or_false, decide_eq_true_eq]
      omega
    rw [hst, hin]
    exact ⟨Bool.and_false _, rfl, fun h => nomatch h⟩

/-- A stream that is heard at the time of `s`. -/
theorem stream_heard (h : Follows s t) (dev : Nat) {tc : Nat} (hint : Bool) (htc : tc < 4) {u : State}
    (hu : u = (t.modStream dev tc (fun x => { x with ackAt := s.ucycle.toNat })).hintFrom dev tc hint) :
    (u.stream dev tc).hint = hint ∧ (u.stream dev tc).ackAt = s.ucycle.toNat ∧ (hint = true → (u.stream dev tc).hintAt = s.ucycle.toNat) := by
  subst hu
  obtain ⟨hhint, hack, hat⟩ := State.stream_hintFrom (t.modStream dev tc (fun x => { x with ackAt := s.ucycle.toNat })) dev hint htc
  rw [State.stream_modStream_same] at hack
  exact ⟨hhint, hack, fun hh => (hat hh).trans (congrArg BitVec.toNat h.ucycle)⟩

theorem ackReceived_hears (s : State) (a : Ack) :
    ∃ t, exec (.ackReceived a) s = .next t ∧ (t.stream a.dev.toNat a.tc.toNat).hint = a.hint ∧
      (t.stream a.dev.toNat a.tc.toNat).ackAt = s.ucycle.toNat ∧ (a.hint = true → (t.stream a.dev.toNat a.tc.toNat).hintAt = s.ucycle.toNat) := by
  have hexec : exec (.ackReceived a) s = execAckReceived a s := rfl
  unfold execAckReceived at hexec
  extract_lets dev tc now s1 s2 r s3 at hexec
  refine ⟨_, hexec, ?_⟩
  have hs1 : Follows s s1 := by
    unfold s1
    split
    · exact (Follows.refl s).ackAnswer
    · exact Follows.refl s
  have hs2 := stream_heard hs1.ackBelow dev a.hint a.tc.isLt (u := s2) rfl
  have hs3 : s3.pkg.streams = s2.pkg.streams := by
    unfold s3
    split
    · rfl
    · rfl
  clear_value s2 s3
  have hlast : ∀ d c f, (if r.allFailed then s3.modRoute dev f else s3).stream d c = s2.stream d c := by
    intro d c f
    unfold State.stream
    rw [← hs3]
    split
    · rfl
    · rfl
  rw [hlast]
  exact hs2

theorem State.replay_routes (s : State) (dev : Nat) : (s.replay dev).pkg.routes = s.pkg.routes := by
  unfold State.replay
  extract_lets p now
  refine List.foldlRecOn (motive := fun t : State => t.pkg.routes = s.pkg.routes) [0, 1, 2, 3] _ rfl (fun t ht tc _ => ?_)
  extract_lets os s1
  have hs1 : s1.pkg.routes = t.pkg.routes := rfl
  clear_value s1
  split
  · exact ht
  · split
    · exact hs1.trans ht
    · exact hs1.trans ht

theorem linkDown_fails (s : State) (port : Nat) :
    ∃ t, exec (.linkDown port) s = .next t ∧ (∀ dev r, Tab.get? s.pkg.routes dev = some r →
      (usesPort r port → Tab.get? t.pkg.routes dev = some (r.fail port s.ucycle.toNat)) ∧ (¬usesPort r port → Tab.get? t.pkg.routes dev = some r)) := by
  have hexec : exec (.linkDown port) s = execLinkDown port s := rfl
  unfold execLinkDown at hexec
  extract_lets now hit used at hexec
  refine ⟨_, hexec, fun dev r hr => ?_⟩
  have hroutes : ∀ t : State, (used.foldl (fun s d => s.replay d) t).pkg.routes = t.pkg.routes := fun t =>
    List.foldlRecOn (motive := fun u : State => u.pkg.routes = t.pkg.routes) used _ rfl (fun u hu d _ => (u.replay_routes d).trans hu)
  have hhit : hit r = true ↔ usesPort r port := by simp [hit]
  rw [hroutes, State.modPkg_pkg, Tab.get?_mapVal, hr]
  exact ⟨fun hu => congrArg some (if_pos (hhit.2 hu)), fun hu => congrArg some (if_neg (mt hhit.1 hu))⟩

/-! ### A retired ASID -/

theorem State.asid_setAsidState (s : State) (a st : Nat) : (s.setAsidState a st).asid a = { s.asid a with state := st } := Tab.getD_set_same _ _ _ _

theorem asidFreed_frees {asid : Nat} (hs : (s.asid asid).state = 2) (hg : ∀ p ∈ (s.tlbFlush asid).dies, ∀ h ∈ p.2.guest, h.asid ≠ asid) :
    ∃ t, exec (.asidFreed asid) s = .next t ∧ (t.asid asid).state = 0 ∧ (∀ p ∈ t.dies, ∀ h ∈ p.2.home, h.asid ≠ asid) := by
  have hnone : ¬((s.tlbFlush asid).dies.any (fun p => p.2.guest.any (fun h => h.asid == asid)) = true) := by
    simp only [List.any_eq_true, beq_iff_eq]
    rintro ⟨p, hp, h, hh, he⟩
    exact hg p hp h hh he
  refine ⟨_, (if_neg (not_not.2 hs)).trans (if_neg hnone), congrArg AsidEntry.state (State.asid_setAsidState _ _ _), ?_⟩
  rintro p hp h hh
  obtain ⟨q, -, rfl⟩ := List.mem_map.1 hp
  simpa using (List.mem_filter.1 hh).2

/-! ### The companion processor's accesses -/

theorem companion_refused {a : CompanionAccess} (h : s.bootFailed = true ∨ Tab.getD s.pkg.links a.link LinkState.down ≠ .up) :
    exec (.companionDeviceMemoryAccess a) s = .next s.refuse := by
  refine if_pos ?_
  rw [Bool.or_eq_true, bne_iff_ne]
  exact h

end

theorem companion_open {s : State} {a : CompanionAccess} (hb : s.bootFailed = false) (hu : Tab.getD s.pkg.links a.link LinkState.down = .up) :
    ¬((s.bootFailed || Tab.getD s.pkg.links a.link LinkState.down != .up) = true) := by
  rw [hb, hu]
  decide

theorem companion_reads {s : State} {a : CompanionAccess} (hb : s.bootFailed = false) (hu : Tab.getD s.pkg.links a.link LinkState.down = .up)
    (hd : a.data = none) :
    (∀ t bs, s.readGood a.asid.toNat (a.len + 1) a.va.toNat a.len = (t, some bs) →
      exec (.companionDeviceMemoryAccess a) s = .next { t with out := { Out.reset with data := bs } }) ∧
    (∀ t, s.readGood a.asid.toNat (a.len + 1) a.va.toNat a.len = (t, none) → exec (.companionDeviceMemoryAccess a) s = .next t.refuse) := by
  have hexec : exec (.companionDeviceMemoryAccess a) s = execCompanionDeviceMemoryAccess a s := rfl
  unfold execCompanionDeviceMemoryAccess at hexec
  rw [if_neg (companion_open hb hu), hd] at hexec
  refine ⟨fun t bs hr => ?_, fun t hr => ?_⟩
  · rw [hexec]
    simp only [hr]
  · rw [hexec]
    simp only [hr]

theorem companion_writes {s : State} {a : CompanionAccess} {bs : List Byte} (hb : s.bootFailed = false)
    (hu : Tab.getD s.pkg.links a.link LinkState.down = .up) (hd : a.data = some bs) :
    (∀ t, s.mayWriteSpan a.asid.toNat (bs.length / 65536 + 2) a.va.toNat bs.length = (t, none) →
      exec (.companionDeviceMemoryAccess a) s =
        .next { ((t.writeVa (if a.link = 0 then 0 else 2) a.asid.toNat (companionWriter a.link (s.nextWrite a.link)) (bs.length + 1) a.va.toNat
          { bytes := bs, bad := [] }).1).modPkg (fun p => { p with compWait := p.compWait ++ [(a.link, s.nextWrite a.link)] }) with out := Out.reset }) ∧
    (∀ t e, s.mayWriteSpan a.asid.toNat (bs.length / 65536 + 2) a.va.toNat bs.length = (t, some e) →
      exec (.companionDeviceMemoryAccess a) s = .next t.refuse) := by
  have hexec : exec (.companionDeviceMemoryAccess a) s = execCompanionDeviceMemoryAccess a s := rfl
  unfold execCompanionDeviceMemoryAccess at hexec
  rw [if_neg (companion_open hb hu), hd] at hexec
  refine ⟨fun t hw => ?_, fun t e hw => ?_⟩
  · rw [hexec]
    simp only [hw]
  · rw [hexec]
    simp only [hw]

/-- Settles O58, clause by clause from the lemma of each event. -/
theorem fabricEventsComplete : Obligations.FabricEventsComplete := by
  refine ⟨fun _ _ _ => packet_next, fun _ _ _ => packet_held, ?far, fun _ _ _ => packet_behind, fun _ _ _ => packet_refused, ?dropped,
    fun _ _ => collPacket_handed, fun _ _ => rfl, ?member, fun _ _ _ _ _ _ _ _ => gatewayCombine_sends, ?multicast, ackReceived_hears, ?expiry,
    linkDown_fails, ?timeout, ?retry, fun _ _ => asidFreed_frees, fun _ _ => companion_refused, fun _ _ => companion_reads,
    fun _ _ _ => companion_writes⟩
  case far => exact fun s e r hc hd hn => (comes_far hc hd).trans (congrArg Host.Outcome.next (if_pos hn))
  case dropped => exact fun s e r hp h => (exec_of_isPacket hp).trans (congrArg Host.Outcome.next (receive_dropped h))
  case member =>
    intro s d x k hk
    refine ⟨fun hs hp hr => ?_, fun hs hp ho => ?_, fun hs hp ho => ?_, fun hs hp ho => ?_⟩
    · rw [collMember_running hk hs, if_pos hp, if_pos hr]
    · rw [collMember_running hk hs, if_neg (by omega), if_pos ⟨hp, ho⟩]
    · rw [collMember_failed hk hs ho, if_pos hp]
    · rw [collMember_failed hk hs ho, if_neg hp]
  case multicast => exact fun s src dst h => if_neg (Nat.not_le.2 h)
  case expiry => exact fun s dev tc hh ht => if_pos (by rw [hh, decide_eq_true ht]; rfl)
  case timeout =>
    intro s dev tc hu ht hf
    refine if_neg ?_
    simp [hu, hf, Nat.not_lt.2 ht]
  case retry =>
    intro s dev hf ht
    refine if_neg ?_
    simp [hf, Nat.not_lt.2 ht]

end Sys2Proof.Machine

/-! PROOFS. Local memory: loads, stores, tags, shared atomics, LDSF and STSE, FENCE (12 R286 to R296; 11 R270, R271; 10 R261): O18 to O20. -/

namespace Sys2Proof.Machine

/-! ## The B-MEM forms, and a meaning that cannot issue yet -/

theorem memLeaves_of_body {load : Bool} {mk : BMem → Instr} {sp : BMem → Ext → Spec} {ok : Issue → Prop} {st : BMem → Issue → State}
    (he : ∀ b s, exec (mk b) s = runMem load (sp b) b s)
    (hb : ∀ b i, ok i → settle (sp b i.x) i ((sp b i.x).body i) = st b i) : MemLeaves load mk sp ok st := by
  intro b s c slot w g ha x i hr ho
  rw [he, runMem, runSpec_settles _ _ _ _ _ _ _ _ _ ha hr]
  exact congrArg Host.Outcome.next (hb b i ho)

theorem settle_of_stall {sp : Spec} {i : Issue} (h : sp.body i = .stall) : settle sp i (sp.body i) = i.s := by rw [h]; rfl

/-! ## Instructions that add an access to their warp's -/

/-- A meaning that traps unless its place is legal, then waits for room where `full` holds, else is done with `res`. -/
structure Access (sp : Ext → Spec) (legal full : Issue → Prop) [DecidablePred legal] [DecidablePred full] (trap : Issue → Trap)
    (res : Issue → Res) : Prop where
  body : ∀ i, (sp i.x).body i = if legal i then (if full i then .stall else .done (res i)) else .trap (trap i)
  keeps : ∀ i, Keeps i.c i.s (res i).s

section
variable {sp : Ext → Spec} {legal full : Issue → Prop} [DecidablePred legal] [DecidablePred full] {trap : Issue → Trap} {res : Issue → Res}
  (h : Access sp legal full trap res)
include h

theorem Access.body_done {i : Issue} (hi : legal i ∧ ¬full i) : (sp i.x).body i = .done (res i) :=
  (h.body i).trans ((if_pos hi.1).trans (if_neg hi.2))

theorem Access.settle_illegal {i : Issue} (hi : ¬legal i) : settle (sp i.x) i ((sp i.x).body i) = i.s.takeTrap i.c i.slot (trap i) false :=
  settle_of_trap ((h.body i).trans (if_neg hi))

theorem Access.settle_full {i : Issue} (hi : legal i ∧ full i) : settle (sp i.x) i ((sp i.x).body i) = i.s :=
  settle_of_stall ((h.body i).trans ((if_pos hi.1).trans (if_pos hi.2)))

/-! The extended form. -/

theorem Access.ext {mk : Ext → Instr} {ok : Issue → Prop} (ho : ∀ i, ok i → legal i ∧ ¬full i)
    (he : ∀ x s, exec (mk x) s = runExt sp x s := by intros; rfl) : ExtFormWhen mk sp ok res :=
  extFormWhen_of_stands (fun i _ hi => h.body_done (ho i hi)) (fun i _ _ => h.keeps i) he

theorem Access.extTraps {mk : Ext → Instr} {ok : Issue → Prop} (ho : ∀ i, ok i → ¬legal i)
    (he : ∀ x s, exec (mk x) s = runExt sp x s := by intros; rfl) :
    ExtLeaves mk sp ok (fun i => i.s.takeTrap i.c i.slot (trap i) false) :=
  extLeaves_of_stands (fun i _ hi => h.settle_illegal (ho i hi)) he

theorem Access.extStalls {mk : Ext → Instr} {ok : Issue → Prop} (ho : ∀ i, ok i → legal i ∧ full i)
    (he : ∀ x s, exec (mk x) s = runExt sp x s := by intros; rfl) : ExtLeaves mk sp ok (fun i => i.s) :=
  extLeaves_of_stands (fun i _ hi => h.settle_full (ho i hi)) he

/-! The B-MEM form. -/

theorem Access.mem {load : Bool} {mk : BMem → Instr} {ok : Issue → Prop} (ho : ∀ i, ok i → legal i ∧ ¬full i)
    (he : ∀ b s, exec (mk b) s = runMem load sp b s := by intros; rfl) : MemForm load mk (fun _ => sp) ok res :=
  memForm_of_body load mk _ ok res he (fun _ _ i hx hi => hx ▸ h.body_done (ho i hi)) (keepsWarp_of_keeps (fun i _ => h.keeps i))

theorem Access.memTraps {load : Bool} {mk : BMem → Instr} {ok : Issue → Prop} (ho : ∀ i, ok i → ¬legal i)
    (he : ∀ b s, exec (mk b) s = runMem load sp b s := by intros; rfl) :
    MemLeaves load mk (fun _ => sp) ok (fun _ i => i.s.takeTrap i.c i.slot (trap i) false) :=
  memLeaves_of_body he (fun _ i hi => h.settle_illegal (ho i hi))

theorem Access.memStalls {load : Bool} {mk : BMem → Instr} {ok : Issue → Prop} (ho : ∀ i, ok i → legal i ∧ full i)
    (he : ∀ b s, exec (mk b) s = runMem load sp b s := by intros; rfl) : MemLeaves load mk (fun _ => sp) ok (fun _ i => i.s) :=
  memLeaves_of_body he (fun _ i hi => h.settle_full (ho i hi))

end

/-! ## The accesses of the executing lanes (12 R288) -/

/-- Lane `l`'s access of `n` bytes, `addr` by lane. -/
def laneEa (i : Issue) (n : Nat) (win : Bool) (addr : Nat → Nat) (l : Nat) : LaneEa :=
  { lane := l, ea := addr l, helper := i.hlp.has l, ok := laneFits i n win (addr l) }

/-- The accesses of the executing lanes. -/
def laneAccesses (i : Issue) (n : Nat) (win : Bool) (addr : Nat → Nat) : List LaneEa := i.run.list.map (laneEa i n win addr)

theorem accesses_eq (i : Issue) (n : Nat) (win : Bool) : i.accesses n win i.d = laneAccesses i n win (laneAddr i) := rfl

theorem accesses_atom (i : Issue) (n : Nat) (win : Bool) :
    i.accesses n win (fun l => if atsOp i.x = 7 then 0 else i.d l) = laneAccesses i n win (atomAddr i) := rfl

theorem realLanes_laneAccesses (i : Issue) (n : Nat) (win : Bool) (addr : Nat → Nat) :
    realLanes (laneAccesses i n win addr) = (ownLanes i).map (laneEa i n win addr) := by
  simp only [realLanes, laneAccesses, ownLanes, List.filter_map]
  rfl

/-- The lanes that are no helpers and make an illegal access, in ascending order. -/
def badLanes (i : Issue) (n : Nat) (win : Bool) (addr : Nat → Nat) : List Nat := (ownLanes i).filter (fun l => !laneFits i n win (addr l))

/-- LOCAL-ADDR of the lowest of them. -/
def addressTrap (i : Issue) (n : Nat) (win : Bool) (addr : Nat → Nat) : Trap :=
  { cause := 0x08, tval := BitVec.ofNat 64 (addr (badLane i n win addr)) }

theorem badLanes_eq_nil_iff {i : Issue} {n : Nat} {win : Bool} {addr : Nat → Nat} : badLanes i n win addr = [] ↔ lanesOk i n win addr := by
  simp only [badLanes, ownLanes, List.filter_eq_nil_iff, List.mem_filter, Bool.not_eq_true', Bool.not_eq_false, and_imp]

theorem find?_laneAccesses (i : Issue) (n : Nat) (win : Bool) (addr : Nat → Nat) :
    (laneAccesses i n win addr).find? (fun t => !t.helper && !t.ok) = (badLanes i n win addr).head?.map (laneEa i n win addr) := by
  rw [laneAccesses, List.find?_map, badLanes, ownLanes, List.filter_filter, List.head?_filter]
  congr 2
  funext l
  exact Bool.and_comm _ _

theorem accessTrap_of_lanesOk {i : Issue} {n : Nat} {win : Bool} {addr : Nat → Nat} (h : lanesOk i n win addr) :
    accessTrap (laneAccesses i n win addr) = none := by
  rw [accessTrap, find?_laneAccesses, badLanes_eq_nil_iff.2 h]; rfl

theorem accessTrap_of_not_lanesOk {i : Issue} {n : Nat} {win : Bool} {addr : Nat → Nat} (h : ¬lanesOk i n win addr) :
    accessTrap (laneAccesses i n win addr) = some (addressTrap i n win addr) := by
  obtain ⟨l, ls, hl⟩ := List.exists_cons_of_ne_nil (mt badLanes_eq_nil_iff.1 h)
  have hb : badLane i n win addr = l := congrArg (fun o => List.headD o 0) hl
  rw [accessTrap, find?_laneAccesses, hl, addressTrap, hb]; rfl

theorem withAccess_eq (i : Issue) (n : Nat) (win : Bool) (addr : Nat → Nat) (f : Unit → Eff) :
    withAccess (laneAccesses i n win addr) f = if lanesOk i n win addr then f () else .trap (addressTrap i n win addr) := by
  by_cases h : lanesOk i n win addr
  · rw [withAccess, accessTrap_of_lanesOk h, if_pos h]
  · rw [withAccess, accessTrap_of_not_lanesOk h, if_neg h]

/-! ## The loads, stores, tag changes and atomics (12 R289, R292 to R294) -/

theorem dstRegs_dataW (d n : Nat) : dstRegs d (dataW n) = if n = 8 then [d, d + 1] else [d] := by
  unfold dstRegs dataW
  by_cases h : n = 8 <;> simp [h]

theorem addLoad_eq (i : Issue) (kind : LoadKind) (n : Nat) (sext win : Bool) (d : Nat) (ls : List Nat) (w : Warp) :
    w.addLoad kind false d n sext i.hlp (ls.map (laneEa i n win (laneAddr i))) =
      addsLoad i kind n sext d ls (fun l => !laneFits i n win (laneAddr i l)) w := by
  have hg : ∀ b : Bool, (if b then none else some (0, false) : Option (Nat × Bool)) = if !b then some (0, false) else none := by decide
  simp only [Warp.addLoad, addsLoad, List.map_map, Function.comp_def, laneEa, hg, Bool.false_eq_true, if_false]
  rfl

theorem loadBody_eq (kind : LoadKind) (n : Nat) (sext win : Bool) (i : Issue) :
    loadBody kind n sext win i =
      if lanesOk i n win (laneAddr i) then (if 63 ≤ i.w.ld then .stall else .done (loadResult kind n sext win i))
      else .trap (addressTrap i n win (laneAddr i)) := by
  have hl : ∀ w : Warp, w.addLoad kind true (vecNum i.x.dst) n sext i.hlp (laneAccesses i n win (laneAddr i)) =
      { addsLoad i kind n sext (vecNum i.x.dst) i.run.list (fun l => !laneFits i n win (laneAddr i l)) w with ld := w.ld + 1 } :=
    fun w => congrArg (fun u : Warp => { u with ld := w.ld + 1 }) (addLoad_eq i kind n sext win (vecNum i.x.dst) i.run.list w)
  simp only [loadBody, accesses_eq, withAccess_eq, hl, dstRegs_dataW, loadResult]
  rfl

theorem lds_access : Access ldsSpec (fun i => lanesOk i (szBytes i.x) true (laneAddr i)) (fun i => 63 ≤ i.w.ld)
    (fun i => addressTrap i (szBytes i.x) true (laneAddr i))
    (fun i => loadResult .lds (szBytes i.x) ((szOf (szField i.x)).getD (4, false)).2 true i) := by
  refine ⟨fun i => ?_, fun i => keeps_modWarp _ _ _ _ _⟩
  have hb : (ldsSpec i.x).body i = loadBody .lds (szBytes i.x) ((szOf (szField i.x)).getD (4, false)).2 true i := by
    unfold ldsSpec szBytes
    cases szOf (szField i.x) <;> rfl
  exact hb.trans (loadBody_eq _ _ _ _ i)

theorem ldsp_access : Access ldspSpec (fun i => lanesOk i 4 false (laneAddr i)) (fun i => 63 ≤ i.w.ld) (fun i => addressTrap i 4 false (laneAddr i))
    (fun i => loadResult (.ldsp (bitsOf i.x.mods2.toNat 2 0)) 4 false false i) :=
  ⟨fun i => loadBody_eq _ _ _ _ i, fun _ => keeps_modWarp _ _ _ _ _⟩

theorem sts_access : Access stsSpec (fun i => lanesOk i (szBytes i.x) true (laneAddr i)) (fun i => 63 ≤ i.w.st ∨ 16 ≤ i.w.storeQ.length)
    (fun i => addressTrap i (szBytes i.x) true (laneAddr i)) storeResult := by
  refine ⟨fun i => ?_, fun i => keeps_modWarp _ _ _ _ _⟩
  have hs : storeBytes (szBytes i.x) (realLanes (laneAccesses i (szBytes i.x) true (laneAddr i))) i.b =
      (ownLanes i).flatMap (fun l => withAddrs (laneAddr i l) (toBytes (i.b l) (szBytes i.x))) := by
    rw [storeBytes, realLanes_laneAccesses, List.flatMap_map]; rfl
  simp only [stsSpec, Spec.plain, accesses_eq, withAccess_eq, hs]
  rfl

theorem tags_access (kind : LoadKind) : Access (tagsSpec kind) (fun i => lanesOk i (szBytes i.x) false (laneAddr i)) (fun _ => False)
    (fun i => addressTrap i (szBytes i.x) false (laneAddr i)) (tagsResult kind) := by
  refine ⟨fun i => ?_, fun i => keeps_modWarp _ _ _ _ _⟩
  simp only [tagsSpec, Spec.plain, accesses_eq, withAccess_eq, realLanes_laneAccesses, addLoad_eq, if_false]
  rfl

theorem atomBody_eq (i : Issue) (load : Option Nat) :
    SqBody.atomic (atsOp i.x) (szBytes i.x) (atsNat i.x) ((realLanes (laneAccesses i (szBytes i.x) false (atomAddr i))).map
      (fun t => { lane := t.lane, addr := t.ea, operand := i.b t.lane, cmp := i.d t.lane })) load = atomBody i load := by
  rw [realLanes_laneAccesses, List.map_map]; rfl

theorem ats_access : Access (atsSpec true) (fun i => lanesOk i (szBytes i.x) false (atomAddr i)) (fun i => 63 ≤ i.w.ld ∨ 16 ≤ i.w.storeQ.length)
    (fun i => addressTrap i (szBytes i.x) false (atomAddr i)) atsResult := by
  refine ⟨fun i => ?_, fun i => keeps_modWarp _ _ _ _ _⟩
  have hf : (sqCapacity ≤ i.w.storeQ.length ∨ True ∧ 63 ≤ i.w.ld ∨ ¬True ∧ 63 ≤ i.w.st) ↔ (63 ≤ i.w.ld ∨ 16 ≤ i.w.storeQ.length) := by
    simp [sqCapacity, or_comm]
  simp only [atsSpec, Spec.plain, accesses_atom, withAccess_eq, hf, atomBody_eq, dstRegs_dataW, if_true]
  simp only [laneAccesses, Warp.addLoad, List.map_map]
  rfl

theorem atsn_access : Access (atsSpec false) (fun i => lanesOk i (szBytes i.x) false (atomAddr i)) (fun i => 63 ≤ i.w.st ∨ 16 ≤ i.w.storeQ.length)
    (fun i => addressTrap i (szBytes i.x) false (atomAddr i)) atsnResult := by
  refine ⟨fun i => ?_, fun i => keeps_modWarp _ _ _ _ _⟩
  have hf : (sqCapacity ≤ i.w.storeQ.length ∨ (false = true ∧ 63 ≤ i.w.ld) ∨ (¬false = true ∧ 63 ≤ i.w.st)) ↔
      (63 ≤ i.w.st ∨ 16 ≤ i.w.storeQ.length) := by simp [sqCapacity, or_comm]
  simp only [atsSpec, Spec.plain, accesses_atom, withAccess_eq, hf, atomBody_eq]
  rfl

/-- Settles O18: each meaning looks at its addresses, then at its room, and is done with an access of its warp. -/
theorem localAccessesComplete : Obligations.LocalAccessesComplete := by
  have hq : ∀ {n q : Nat}, n < 63 ∧ q < 16 → ¬(63 ≤ n ∨ 16 ≤ q) := by omega
  refine ⟨?lds, ?ldsExt, ?ldsp, ?sts, ?stsExt, ?tags, ?tagc, ?ats, ?atsn⟩
  case lds => exact lds_access.mem (fun _ h => ⟨h.1, Nat.not_le.2 h.2⟩)
  case ldsExt => exact lds_access.ext (fun _ h => ⟨h.1, Nat.not_le.2 h.2⟩)
  case ldsp => exact ldsp_access.ext (fun _ h => ⟨h.1, Nat.not_le.2 h.2⟩)
  case sts => exact sts_access.mem (fun _ h => ⟨h.1, hq h.2⟩)
  case stsExt => exact sts_access.ext (fun _ h => ⟨h.1, hq h.2⟩)
  case tags => exact (tags_access .tags).ext (fun _ h => ⟨h, not_false⟩)
  case tagc => exact (tags_access .tagc).ext (fun _ h => ⟨h, not_false⟩)
  case ats => exact ats_access.ext (fun _ h => ⟨h.1, hq h.2⟩)
  case atsn => exact atsn_access.ext (fun _ h => ⟨h.1, hq h.2⟩)

/-- Settles O19: a bad address is looked for first, and a full counter or queue only then. -/
theorem localAddressTraps : Obligations.LocalAddressTraps := by
  have same : ∀ {p : Issue → Prop} i, p i → p i := fun _ h => h
  exact ⟨lds_access.memTraps same, lds_access.extTraps same, ldsp_access.extTraps same, sts_access.memTraps same, sts_access.extTraps same,
    (tags_access .tags).extTraps same, (tags_access .tagc).extTraps same, ats_access.extTraps same, atsn_access.extTraps same,
    lds_access.memStalls same, lds_access.extStalls same, ldsp_access.extStalls same, sts_access.memStalls same, sts_access.extStalls same,
    ats_access.extStalls same, atsn_access.extStalls same⟩

/-! ## LDSF and STSE (12 R291; 10 R261) -/

theorem tagLanes_eq (i : Issue) (n : Nat) (win : Bool) :
    tagLanes i (laneAccesses i n win (laneAddr i)) = i.run.list.map (fun l => { lane := l, addr := laneAddr i l, operand := i.b l, cmp := 0 }) := by
  rw [tagLanes, laneAccesses, List.map_map]; rfl

/-- What a tag access waits with. -/
def tagWaiting (full : Bool) (ins : Instr) (i : Issue) : Waiting :=
  { instr := ins, len := i.len, start := ((quiet i).core i.c).cycle.toNat, tag := some (full, szBytes i.x), lns := tagLanesOf i, flushes := 0 }

/-- The state that a tag access leaves when it begins to wait. -/
def tagQueued (i : Issue) : State :=
  ((quiet i).modCore i.c (fun k => { k with tagQ := k.tagQ ++ [.warp i.slot] })).countCore i.c 0x22 1

/-- A tag access with room, and with legal addresses where it is issued: its words decide. -/
theorem tagAccess_eq {full : Bool} {i : Issue} (hroom : full = true → i.w.ld < 63)
    (haddr : i.w.waiting = none → lanesOk i (szBytes i.x) false (laneAddr i)) (ins : Instr) (act : Issue → State → Nat → List AtomLane → Eff) :
    tagAccess full (szBytes i.x) ins act i =
      if tagsFree full i = true then act i (quiet i) (szBytes i.x) (tagLanesOf i)
      else if i.w.waiting = none then .block (tagWaiting full ins i) (tagQueued i) else .final (quiet i) := by
  have hr : ¬(63 ≤ i.w.ld ∧ full = true) := fun ⟨hl, hf⟩ => Nat.not_le.2 (hroom hf) hl
  cases hw : i.w.waiting with
  | none =>
    simp only [tagAccess, accesses_eq, accessTrap_of_lanesOk (haddr hw), tagLanes_eq, if_neg hr, tagsFree, tagWordsOf, tagOwn, tagWaiting, tagLanesOf, hw]
    rfl
  | some t =>
    simp only [tagAccess, if_neg hr, tagsFree, tagWordsOf, tagOwn, tagLanesOf, hw]
    rfl

theorem tagAccess_acts {full : Bool} {i : Issue} (h : tagsReady full i) (ins : Instr) (act : Issue → State → Nat → List AtomLane → Eff) :
    tagAccess full (szBytes i.x) ins act i = act i (quiet i) (szBytes i.x) (tagLanesOf i) := by
  obtain ⟨hroom, haddr, hfree⟩ := h
  rw [tagAccess_eq hroom haddr, if_pos hfree]

theorem tagAccess_blocks {full : Bool} {i : Issue} (h : tagsBlocked full i) (ins : Instr) (act : Issue → State → Nat → List AtomLane → Eff) :
    tagAccess full (szBytes i.x) ins act i = .block (tagWaiting full ins i) (tagQueued i) := by
  obtain ⟨hw, hroom, haddr, hfree⟩ := h
  rw [tagAccess_eq hroom (fun _ => haddr), if_neg (Bool.eq_false_iff.1 hfree), if_pos hw]

theorem ldsfSpec_done {i : Issue} (ins : Instr) (h : tagsReady true i) : (ldsfSpec ins i.x).body i = .done (ldsfResult i) := by
  refine (tagAccess_acts h ins ldsfAct).trans ?_
  simp only [ldsfAct, dstRegs_dataW]
  rfl

theorem stseSpec_done {i : Issue} (ins : Instr) (h : tagsReady false i) : (stseSpec ins i.x).body i = .done (stseResult i) :=
  tagAccess_acts h ins stseAct

theorem ldsfSpec_waits {i : Issue} (ins : Instr) (h : tagsBlocked true i) :
    settle (ldsfSpec ins i.x) i ((ldsfSpec ins i.x).body i) = tagWaits true (ldsfSpec ins i.x).shape ins i :=
  congrArg (settle (ldsfSpec ins i.x) i) (tagAccess_blocks h ins ldsfAct)

theorem stseSpec_waits {i : Issue} (ins : Instr) (h : tagsBlocked false i) :
    settle (stseSpec ins i.x) i ((stseSpec ins i.x).body i) = tagWaits false (stseSpec ins i.x).shape ins i :=
  congrArg (settle (stseSpec ins i.x) i) (tagAccess_blocks h ins stseAct)

theorem ldsfResult_keeps (i : Issue) : Keeps i.c i.s (ldsfResult i).s := by
  refine Keeps.trans ?_ (keeps_modWarp _ _ _ _ _)
  have hk := (quiet_keeps i).trans (keeps_setCore (quiet i) i.c i.c
    ((setTags ((quiet i).core i.c) (tagWordsOf i) false).unwait (.warp i.slot)) (Core.keeps_of_warps rfl))
  cases hb : (ldsfLoad i).bad with
  | none => exact hk
  | some p => exact hk.trans (keeps_uncorrectable _ _ _ _)

theorem stseResult_keeps (i : Issue) : Keeps i.c i.s (stseResult i).s :=
  (quiet_keeps i).trans (keeps_setCore _ _ _ _ ((keeps_localWrite _ _ _).trans (Core.keeps_of_warps rfl)))

/-! ## FENCE (12 R296) -/

theorem fenceSpec_done {i : Issue} (h : i.w.storeQ = []) : (fenceSpec i.x).body i = .done i.res := by
  simp only [fenceSpec, Spec.plain, h, List.isEmpty_nil, if_true]
  rfl

theorem fenceSpec_waits {i : Issue} (h : i.w.storeQ ≠ []) :
    (fenceSpec i.x).body i = .hold { instr := .fence i.x, len := i.len, start := 0, tag := none, lns := [], flushes := 0 } i.s :=
  if_neg (mt List.isEmpty_iff.1 h)

/-- Settles O20: an access that drained its queue acts where its words are free, and else waits; FENCE by whether its queue is empty. -/
theorem tagAccessesComplete : Obligations.TagAccessesComplete := by
  refine ⟨?ldsf, ?ldsfExt, ?stse, ?stseExt, ?ldsfWaits, ?stseWaits, ?ldsfExtWaits, ?stseExtWaits, ?fence, ?fenceWaits⟩
  case ldsf =>
    exact memForm_of_body _ _ _ _ _ (fun _ _ => rfl) (fun _ _ _ hx h => hx ▸ ldsfSpec_done _ h) (keepsWarp_of_keeps (fun i _ => ldsfResult_keeps i))
  case ldsfExt => exact extFormWhen_of_stands (fun _ _ h => ldsfSpec_done _ h) (fun i _ _ => ldsfResult_keeps i) (fun _ _ => rfl)
  case stse =>
    exact memForm_of_body _ _ _ _ _ (fun _ _ => rfl) (fun _ _ _ hx h => hx ▸ stseSpec_done _ h) (keepsWarp_of_keeps (fun i _ => stseResult_keeps i))
  case stseExt => exact extFormWhen_of_stands (fun _ _ h => stseSpec_done _ h) (fun i _ _ => stseResult_keeps i) (fun _ _ => rfl)
  case ldsfWaits => exact memLeaves_of_body (fun _ _ => rfl) (fun _ _ h => ldsfSpec_waits _ h)
  case stseWaits => exact memLeaves_of_body (fun _ _ => rfl) (fun _ _ h => stseSpec_waits _ h)
  case ldsfExtWaits => exact extLeaves_of_stands (fun _ _ h => ldsfSpec_waits _ h) (fun _ _ => rfl)
  case stseExtWaits => exact extLeaves_of_stands (fun _ _ h => stseSpec_waits _ h) (fun _ _ => rfl)
  case fence => exact extFormWhen_of_stands (fun _ _ h => fenceSpec_done h) (fun _ _ _ => Keeps.refl _ _)
  case fenceWaits => exact extLeaves_of_stands (fun i _ h => by rw [fenceSpec_waits h]; rfl)

end Sys2Proof.Machine

/-! PROOFS. Tile handles and ICINV (12 R297 to R301; 16 R395), tile rows and accumulators (12 R302; 08 R191, R206): O25 and O26. -/

namespace Sys2Proof.Machine

/-! ## The operations keep the issuing warp in its slot -/

theorem keeps_foldl {α : Type} {c : Nat} {f : State → α → State} (h : ∀ s a, Keeps c s (f s a)) (l : List α) (s : State) :
    Keeps c s (l.foldl f s) := by
  induction l generalizing s with
  | nil => exact Keeps.refl _ _
  | cons a t ih => exact (h s a).trans (ih _)

theorem keeps_grantGrans (s : State) (c d gid : Nat) (lvl : Bool) (base n : Nat) : Keeps c s (grantGrans s d gid lvl base n) := by
  refine keeps_foldl (fun t j => ?_) _ _
  dsimp only
  split
  · exact keeps_modDie _ _ _ _
  · refine keeps_modCore _ _ _ _ (fun k => ?_)
    split <;> rfl

theorem keeps_newTile (s : State) (c d gid : Nat) (lvl : Bool) (fmt rows cols : Nat) : Keeps c s (newTile s d gid lvl fmt rows cols).1 := by
  unfold newTile
  dsimp only
  split
  · exact Keeps.refl _ _
  · exact keeps_grantGrans { s with free := s.free + 2 } _ _ _ _ _ _

theorem keeps_invalidateCode (s : State) (c d scope : Nat) : Keeps c s (invalidateCode s d scope) := by
  intro n h
  have hc : ((invalidateCode s d scope).core c).warps = (s.core c).warps := by
    simp only [State.core, invalidateCode, Tab.getD, Tab.get?_mapVal]
    cases Tab.get? s.cores c with
    | none => rfl
    | some k => simp only [Option.map_some, Option.getD_some]; split <;> rfl
  rwa [State.warp?, hc]

theorem keeps_addAcc (s : State) (i : Issue) (c : Nat) (counted : Bool) (kind : TileKind) (n row count dst : Nat) (regs : List (List Word)) :
    Keeps c s (addAcc s i counted kind n row count dst regs) :=
  (keeps_modCore s c i.c (fun k => k.takeTicket (i.g.acc n)) (fun _ => rfl)).trans (keeps_modWarp _ _ _ _ _)

/-! ## TALLOC's descriptor (12 R300) -/

/-- Bits [hi:lo] of a number that are 0 hold no set bit. -/
theorem lowBit_eq_none {v hi lo : Nat} (h : bitsOf v hi lo = 0) : lowBit v hi lo = none := by
  simp only [lowBit, List.find?_eq_none, List.mem_map, List.mem_range]
  rintro n ⟨j, hj, rfl⟩
  have ht : (bitsOf v hi lo).testBit j = v.testBit (lo + j) := by
    simp only [bitsOf, Nat.testBit_mod_two_pow, Nat.testBit_div_two_pow, hj, decide_true, Bool.true_and, Nat.add_comm]
  rw [← ht, h, Nat.zero_testBit]
  exact Bool.false_ne_true

/-- Only the codes from 8 on name block formats. -/
theorem blockFmt_isSome {fmt : Nat} (h : (blockFmt fmt).isSome = true) : 8 ≤ fmt := by
  by_contra hn
  rw [blockFmt, if_neg (by omega), if_neg (by omega)] at h
  cases h

theorem tallocBad_of_descOk {v : Nat} (h : descOk v) : tallocBad v = none := by
  obtain ⟨htop, hmid, hfmt, hrows, hcols, hblock, -⟩ := h
  have hlow : (blockFmt (bitsOf v 47 44)).isSome = true → lowBit v 20 16 = none := by
    intro hb
    have h32 := hblock (blockFmt_isSome hb)
    refine lowBit_eq_none ?_
    simp only [bitsOf] at h32 ⊢
    omega
  have hb : (if bitsOf v 31 16 = 0 then some 16 else if (blockFmt (bitsOf v 47 44)).isSome = true then lowBit v 20 16 else none) = none := by
    rw [if_neg hcols]
    split
    · next hs => exact hlow hs
    · rfl
  simp only [tallocBad, lowBit_eq_none htop, lowBit_eq_none hmid, if_neg hfmt, if_neg hrows, hb]
  rfl

theorem tallocHuge_of_descOk {v : Nat} (h : descOk v) :
    tallocHuge (bitsOf v 48 48 == 1) (bitsOf v 47 44) (bitsOf v 15 0) (bitsOf v 31 16) = false := by
  obtain ⟨-, -, -, -, -, -, hsize⟩ := h
  refine decide_eq_false (Nat.not_lt.2 ?_)
  simp only [beq_iff_eq]
  exact hsize

theorem taskHandle_iff {i : Issue} : taskHandle i.g (i.a 0) = true ↔ ofTask i := by
  simp only [taskHandle, ofTask, Bool.and_eq_true, decide_eq_true_eq]

/-! ## TALLOC, TFREE, TTRD and ICINV (12 R297 to R301; 16 R395) -/

theorem tallocSpec_done {i : Issue} (h : tallocOk i) : (tallocSpec i.x).body i = .done (tallocResult i) := by
  obtain ⟨hd, ht, hb⟩ := h
  have hfree : ¬(taskHandle i.g (i.a 0) || (entryOf i).bound) = true := by simp [hb, taskHandle_iff, ht]
  simp only [tallocSpec, Spec.plain, tallocBad_of_descOk hd, tallocHuge_of_descOk hd, Bool.false_eq_true, if_false]
  refine (if_neg hfree).trans ?_
  unfold tallocResult tallocNew
  generalize newTile i.s i.c i.w.gid _ _ _ _ = r
  cases r.2 with
  | some e => rfl
  | none => simp only [Issue.out, wrote, beq_iff_eq]

theorem tallocSpec_bound {i : Issue} (hd : descOk (i.b 0)) (hb : (entryOf i).bound = true) :
    (tallocSpec i.x).body i = .trap { cause := 0x09, tval := BitVec.ofNat 64 (i.a 0) } := by
  have hbusy : (taskHandle i.g (i.a 0) || (entryOf i).bound) = true := by rw [hb, Bool.or_true]
  simp only [tallocSpec, Spec.plain, tallocBad_of_descOk hd, tallocHuge_of_descOk hd, Bool.false_eq_true, if_false]
  exact if_pos hbusy

theorem tallocResult_keeps (i : Issue) : Keeps i.c i.s (tallocResult i).s := by
  unfold tallocResult
  cases (tallocNew i).2 with
  | none => exact Keeps.refl _ _
  | some e => exact (keeps_newTile _ _ _ _ _ _ _ _).trans (keeps_modCore _ _ _ _ (fun _ => rfl))

theorem tfreeSpec_done {i : Issue} (h : tfreeOk i) : (tfreeSpec i.x).body i = .done (tfreeResult i) := by
  have hb : ((entryOf i).bound && !taskHandle i.g (i.a 0)) = true := by simp [h.1, mt taskHandle_iff.1 h.2]
  exact if_pos hb

theorem tfreeSpec_unbound {i : Issue} (h : (entryOf i).bound = false) :
    (tfreeSpec i.x).body i = .trap { cause := 0x09, tval := BitVec.ofNat 64 (i.a 0) } := by
  have hb : ¬((entryOf i).bound && !taskHandle i.g (i.a 0)) = true := by simp [h]
  exact if_neg hb

theorem icinvSpec_waits {i : Issue} (h : i.w.waiting = none) : (icinvSpec i.x).body i = .hold (i.wait (.icinv i.x)) i.s := by
  simp only [icinvSpec, Spec.plain, h]
  rfl

theorem icinvSpec_done {i : Issue} (h : i.w.waiting.isSome = true) : (icinvSpec i.x).body i = .done (icinvResult i) := by
  obtain ⟨t, ht⟩ := Option.isSome_iff_exists.1 h
  simp only [icinvSpec, Spec.plain, ht]
  rfl

/-- Settles O25: the handle's entry decides whether TALLOC and TFREE are done or trap; TTRD reads it; ICINV's second run empties the caches. -/
theorem tileHandlesComplete : Obligations.TileHandlesComplete := by
  refine ⟨?talloc, ?tfree, ?ttrd, ?tallocBound, ?tfreeUnbound, ?icinvWaits, ?icinv⟩
  case talloc => exact extFormWhen_of_stands (fun _ _ h => tallocSpec_done h) (fun i _ _ => tallocResult_keeps i)
  case tfree => exact extFormWhen_of_stands (fun _ _ h => tfreeSpec_done h) (fun _ _ _ => keeps_modCore _ _ _ _ (fun _ => rfl))
  case ttrd => exact extForm_of_when (extFormWhen_of_stands (fun _ _ _ => rfl) (fun _ _ _ => keeps_modWarp _ _ _ _ _))
  case tallocBound => exact extLeaves_of_stands (fun _ _ h => settle_of_trap (tallocSpec_bound h.1 h.2.2))
  case tfreeUnbound => exact extLeaves_of_stands (fun _ _ h => settle_of_trap (tfreeSpec_unbound h))
  case icinvWaits => exact extLeaves_of_stands (fun _ _ h => by rw [icinvSpec_waits h]; rfl)
  case icinv => exact extFormWhen_of_stands (fun _ _ h => icinvSpec_done h) (fun i _ _ => keeps_invalidateCode _ _ _ _)

/-! ## TLD, TST, ARD, AWR and ACLR (12 R302; 08 R191, R206) -/

/-- TILE of the handle or the first accumulator row. -/
def tileCause (i : Issue) : Trap := { cause := 0x09, tval := BitVec.ofNat 64 (i.a 0) }

theorem tilePosTrap_of_posOk {i : Issue} (h : posOk i) :
    tilePosTrap (handleEntry i.k i.g (i.a 0)) (i.a 0) (bitsOf (i.d 0) 15 0) (bitsOf (i.d 0) 26 16) (rangeCount i.x) (i.d 0) = none := by
  obtain ⟨hb, hl, (hr : _ + rangeCount i.x ≤ _), hw, hz⟩ := h
  simp only [entryOf] at hb hl hr hw
  refine if_neg ?_
  simp [hb, hl, hz, Nat.not_lt.2 hr, Nat.not_le.2 hw]

theorem tilePosTrap_of_not_posOk {i : Issue} (h : ¬posOk i) :
    tilePosTrap (handleEntry i.k i.g (i.a 0)) (i.a 0) (bitsOf (i.d 0) 15 0) (bitsOf (i.d 0) 26 16) (rangeCount i.x) (i.d 0) = some (tileCause i) := by
  refine if_pos (by_contra fun hn => h ?_)
  simp only [Bool.or_eq_true, Bool.not_eq_true', decide_eq_true_eq, not_or, Bool.not_eq_false, Bool.not_eq_true, not_lt, not_le, not_not] at hn
  obtain ⟨⟨⟨⟨hb, hl⟩, hr⟩, hw⟩, hz⟩ := hn
  exact ⟨hb, hl, hr, hw, hz⟩

theorem tld_access : Access tldSpec posOk (fun i => 63 ≤ i.w.tl) tileCause tldResult := by
  refine ⟨fun i => ?_, fun _ => keeps_modWarp _ _ _ _ _⟩
  by_cases h : posOk i
  · simp only [tldSpec, Spec.plain, tilePosTrap_of_posOk h, if_pos h]
    rfl
  · simp only [tldSpec, Spec.plain, tilePosTrap_of_not_posOk h, if_neg h]

theorem taskRead_iff {i : Issue} : taskRead i.g (i.a 0) = true ↔ ¬notReadOnly i := by
  simp only [taskRead, notReadOnly, Bool.and_eq_true, decide_eq_true_eq, not_not]

theorem tst_access : Access tstSpec (fun i => notReadOnly i ∧ posOk i) (fun i => 63 ≤ i.w.tl) tileCause tstResult := by
  refine ⟨fun i => ?_, fun _ => keeps_modWarp _ _ _ _ _⟩
  by_cases hn : notReadOnly i
  · have hr : ¬taskRead i.g (i.a 0) = true := fun k => taskRead_iff.1 k hn
    by_cases h : posOk i
    · simp only [tstSpec, Spec.plain, tilePosTrap_of_posOk h, if_neg hr, if_pos (And.intro hn h)]
      rfl
    · simp only [tstSpec, Spec.plain, tilePosTrap_of_not_posOk h, if_neg hr, if_neg (fun k : _ ∧ posOk i => h k.2)]
      rfl
  · simp only [tstSpec, Spec.plain, if_pos (taskRead_iff.2 hn), if_neg (fun k : notReadOnly i ∧ _ => hn k.1)]
    rfl

theorem if_lt_eq_if_le {α : Type} (m n : Nat) (a b : α) : (if m < n then a else b) = if n ≤ m then b else a := by
  simp only [← not_lt, ite_not]

theorem ard_access : Access ardSpec (fun i => i.a 0 + countOf i ≤ 128) (fun i => 63 ≤ i.w.tl) tileCause ardResult :=
  ⟨fun _ => if_lt_eq_if_le _ _ _ _, fun _ => keeps_addAcc _ _ _ _ _ _ _ _ _ _⟩

theorem awr_access : Access awrSpec (fun i => i.a 0 + countOf i ≤ 128) (fun i => 63 ≤ i.w.tl) tileCause awrResult :=
  ⟨fun _ => if_lt_eq_if_le _ _ _ _, fun _ => (keeps_modWarp _ _ _ _ _).trans (keeps_addAcc _ _ _ _ _ _ _ _ _ _)⟩

theorem aclrResult_keeps (i : Issue) : Keeps i.c i.s (aclrResult i).s := keeps_foldl (fun _ _ => keeps_addAcc _ _ _ _ _ _ _ _ _ _) _ _

/-- Settles O26: each meaning looks at its place, then at `tl`, and is done with an access of its warp; ACLR is always done. -/
theorem tileAccessesComplete : Obligations.TileAccessesComplete := by
  refine ⟨?tld, ?tst, ?ard, ?awr, ?aclr, ?tldTraps, ?tstTraps, ?ardTraps, ?awrTraps, ?tldStalls, ?tstStalls, ?ardStalls, ?awrStalls⟩
  case tld => exact tld_access.ext (fun _ h => ⟨h.1, Nat.not_le.2 h.2⟩)
  case tst => exact tst_access.ext (fun _ ⟨hn, hp, hl⟩ => ⟨⟨hn, hp⟩, Nat.not_le.2 hl⟩)
  case ard => exact ard_access.ext (fun _ h => ⟨h.1, Nat.not_le.2 h.2⟩)
  case awr => exact awr_access.ext (fun _ h => ⟨h.1, Nat.not_le.2 h.2⟩)
  case aclr => exact extForm_of_when (extFormWhen_of_stands (fun _ _ _ => rfl) (fun i _ _ => aclrResult_keeps i))
  case tldTraps => exact tld_access.extTraps (fun _ h => h)
  case tstTraps => exact tst_access.extTraps (fun _ h => h)
  case ardTraps => exact ard_access.extTraps (fun _ h => Nat.not_le.2 h)
  case awrTraps => exact awr_access.extTraps (fun _ h => Nat.not_le.2 h)
  case tldStalls => exact tld_access.extStalls (fun _ h => h)
  case tstStalls => exact tst_access.extStalls (fun _ ⟨hn, hp, hl⟩ => ⟨⟨hn, hp⟩, hl⟩)
  case ardStalls => exact ard_access.extStalls (fun _ h => h)
  case awrStalls => exact awr_access.extStalls (fun _ h => h)

end Sys2Proof.Machine

/-! PROOFS. Waits that end: the events that let a waiting instruction of a warp go on (02 R31, R32; 10 R261; 17 R414 to R421): O52. -/

namespace Sys2Proof.Machine

/-! ## An instruction run again -/

/-- With its warp acting, an instruction of a warp answers a state. -/
theorem runSpec_next (sp : Spec) (kBad : Bool) (x : Ext) (len : Nat) {s : State} {c slot : Nat} {w : Warp} {g : Group} (ha : Acts s c slot w g) :
    runSpec sp kBad x len s = .next (issueState sp kBad (mkIssue s c slot w g sp.shape x len)) := by
  simp only [runSpec, ha.cur, ha.warp, ha.group]

theorem runsAgain_of_next {s : State} {c slot : Nat} {i : Instr} {e : Host.Outcome State Fault Refusal} {t : State}
    (hi : exec i { s with cur := .warp c slot } = .next t) (he : e = resume s c slot (exec i)) : RunsAgain s c slot i e :=
  ⟨t, hi, by rw [he, resume, hi]⟩

section
variable {s : State} {c slot : Nat} {w : Warp} {g : Group} {t : Waiting} {i : Instr} (h : WaitsIn s c slot w g t i)
include h

theorem WaitsIn.acts : Acts { s with cur := .warp c slot } c slot w g := ⟨rfl, h.warp, h.group⟩

/-- The instruction that the warp waits in, as the events of waiting instructions read it. -/
theorem WaitsIn.waitInstr : (s.waitOf c slot).map Waiting.instr = some i := by rw [h.waitOf, ← h.instr]; rfl

theorem WaitsIn.extRunsAgain {sp : Ext → Spec} {x : Ext} {e : Host.Outcome State Fault Refusal} (he : e = resume s c slot (exec i))
    (hr : ∀ s, exec i s = runExt sp x s := by intros; rfl) : RunsAgain s c slot i e :=
  runsAgain_of_next ((hr _).trans (runSpec_next _ _ _ _ h.acts)) he

theorem WaitsIn.memRunsAgain {load : Bool} {sp : Ext → Spec} {b : BMem} {e : Host.Outcome State Fault Refusal} (he : e = resume s c slot (exec i))
    (hr : ∀ s, exec i s = runMem load sp b s := by intros; rfl) : RunsAgain s c slot i e :=
  runsAgain_of_next ((hr _).trans (runSpec_next _ _ _ _ h.acts)) he

end

/-! ## The events -/

section
variable {s : State} {c slot : Nat} {w : Warp} {g : Group} {t : Waiting}

theorem tagWaitSatisfied_warp {i : Instr} (h : WaitsIn s c slot w g t i)
    (hi : (∃ b, i = .ldsfMem b ∨ i = .stseMem b) ∨ (∃ x, i = .ldsfExt x ∨ i = .stseExt x)) :
    RunsAgain s c slot i (exec (.tagWaitSatisfied c (.warp slot)) s) := by
  have he : exec (.tagWaitSatisfied c (.warp slot)) s = execTagWaitSatisfied c (.warp slot) s := rfl
  rw [he, execTagWaitSatisfied]
  rcases hi with ⟨b, rfl | rfl⟩ | ⟨x, rfl | rfl⟩
  · exact h.memRunsAgain (by simp only [h.waitInstr]; rfl)
  · exact h.memRunsAgain (by simp only [h.waitInstr]; rfl)
  · exact h.extRunsAgain (by simp only [h.waitInstr]; rfl)
  · exact h.extRunsAgain (by simp only [h.waitInstr]; rfl)

theorem waitcReturn_runs {x : Ext} (h : WaitsIn s c slot w g t (.waitc x)) (hd : w.waitcDone x = true) :
    RunsAgain s c slot (.waitc x) (exec (.waitcReturn c slot) s) := by
  refine h.extRunsAgain ?_
  show execWaitcReturn c slot s = _
  simp only [execWaitcReturn, h.waitOf, h.warp, h.instr, hd, if_true]
  rfl

/-- A timeline at its target, or held below it by a failure, lets a TLWAIT return. -/
theorem Timeline.waitDone_isSome {l : Timeline} {v : Nat} (h : v ≤ l.value ∨ l.blocked = true) : (l.waitDone v).isSome = true := by
  unfold Timeline.waitDone
  by_cases hv : v ≤ l.value
  · rw [if_pos hv]; rfl
  · have hb : (l.blocked && decide (l.value + 1 ≤ v)) = true := by
      rw [h.resolve_left hv, Bool.true_and]
      exact decide_eq_true (Nat.not_le.1 hv)
    rw [if_neg hv, if_pos hb]; rfl

theorem tlwaitReturn_runs {x : Ext} (h : WaitsIn s c slot w g t (.tlwait x))
    (hd : eventSrc s c slot g w x cntPos64 x.a ≤ (g.tl (tlField x)).value ∨ (g.tl (tlField x)).blocked = true) :
    RunsAgain s c slot (.tlwait x) (exec (.tlwaitReturn c slot) s) := by
  refine h.extRunsAgain ?_
  show execTlwaitReturn c slot s = _
  simp only [execTlwaitReturn, h.waitOf, h.warp, h.group, h.instr, Timeline.waitDone_isSome hd, if_true]
  rfl

theorem bwaitReturn_runs {x : Ext} (h : WaitsIn s c slot w g t (.bwait x))
    (hd : (g.bar (eventSrc s c slot g w x cntPos x.a)).past (eventSrc s c slot g w x cntPos x.b) ≠ 0) :
    RunsAgain s c slot (.bwait x) (exec (.bwaitReturn c slot) s) := by
  refine h.extRunsAgain ?_
  show execBwaitReturn c slot s = _
  simp only [execBwaitReturn, h.waitOf, h.warp, h.group, h.instr, if_neg hd]
  rfl

/-- A queue that holds an item from before this cycle, or is closed and received none in it, keeps no RECAST waiting. -/
theorem Group.castDry_eq_false {g : Group} (h : g.castNew < g.castQ.length ∨ (g.castOpen = false ∧ g.castNew = 0)) : g.castDry = false := by
  rcases h with hn | ⟨ho, hn⟩
  · have hr : g.castReady.isEmpty = false := by
      rw [List.isEmpty_eq_false_iff, Group.castReady, Ne, List.take_eq_nil_iff, not_or]
      exact ⟨by omega, List.ne_nil_of_length_pos (by omega)⟩
    rw [Group.castDry, hr, Bool.false_and]
  · simp only [Group.castDry, ho, hn, bne_self_eq_false, Bool.or_self, Bool.and_false]

theorem recastWake_runs {x : Ext} (h : WaitsIn s c slot w g t (.recast x)) (hd : g.castNew < g.castQ.length ∨ (g.castOpen = false ∧ g.castNew = 0)) :
    RunsAgain s c slot (.recast x) (exec (.recastWake c slot) s) := by
  refine h.extRunsAgain ?_
  show execRecastWake c slot s = _
  simp only [execRecastWake, h.waitOf, h.warp, h.group, h.instr, Group.castDry_eq_false hd, Bool.false_eq_true, if_false]
  rfl

theorem cpostAccept_runs {x : Ext} (h : WaitsIn s c slot w g t (.cpost x)) (hd : (s.core c).copyQ.length < 64) :
    RunsAgain s c slot (.cpost x) (exec (.cpostAccept c slot) s) := by
  refine h.extRunsAgain ?_
  show execCpostAccept c slot s = _
  simp only [execCpostAccept, h.waitInstr]
  exact if_pos hd

theorem mmaAccept_runs {i : Instr} {x : Ext} (h : WaitsIn s c slot w g t i)
    (hi : i ∈ [.mma2 x, .mma3 x, .mma4 x, .mma5 x, .mma6 x, .mma7 x, .mma8 x, .mmaw x]) (hd : (s.core c).matUsed < 32) :
    RunsAgain s c slot i (exec (.mmaAccept c slot) s) := by
  have he : exec (.mmaAccept c slot) s = execMmaAccept c slot s := rfl
  rw [he, execMmaAccept, if_neg (Nat.not_le.2 hd), h.waitInstr]
  simp only [List.mem_cons, List.not_mem_nil, or_false] at hi
  rcases hi with rfl | rfl | rfl | rfl | rfl | rfl | rfl | rfl
  all_goals exact h.extRunsAgain rfl

theorem fenceDrained_runs {x : Ext} (h : WaitsIn s c slot w g t (.fence x)) (hd : w.storeQ = []) :
    RunsAgain s c slot (.fence x) (exec (.fenceDrained c slot) s) := by
  refine h.extRunsAgain ?_
  show execFenceDrained c slot s = _
  simp only [execFenceDrained, h.waitOf, h.warp, h.instr, hd, List.isEmpty_nil, if_true]
  rfl

theorem icinvDone_runs {x : Ext} (h : WaitsIn s c slot w g t (.icinv x)) : RunsAgain s c slot (.icinv x) (exec (.icinvDone c slot) s) := by
  refine h.extRunsAgain ?_
  show execIcinvDone c slot s = _
  simp only [execIcinvDone, h.waitInstr]
  rfl

theorem sgwrDone_runs {x : Ext} (h : WaitsIn s c slot w g t (.sgwr x)) : RunsAgain s c slot (.sgwr x) (exec (.sgwrDone c slot) s) := by
  refine h.extRunsAgain ?_
  show execSgwrDone c slot s = _
  simp only [execSgwrDone, h.waitInstr]
  rfl

theorem tlbsyncDone_runs {x : Ext} (h : WaitsIn s c slot w g t (.tlbsync x)) (hd : s.flushesDone t.flushes = true) :
    RunsAgain s c slot (.tlbsync x) (exec (.tlbsyncDone c slot) s) := by
  refine h.extRunsAgain ?_
  show execTlbsyncDone c slot s = _
  simp only [execTlbsyncDone, h.waitOf, h.instr, hd, if_true]
  rfl

end

/-- Settles O52: each event finds the wait and its condition, and resumes an instruction that answers a state with its warp acting. -/
theorem waitsEndByTheirEvents : Obligations.WaitsEndByTheirEvents := by
  intro s c slot w g t i h
  refine ⟨tagWaitSatisfied_warp h, ?waitc, ?tlwait, ?bwait, ?recast, ?cpost, fun _ => mmaAccept_runs h, ?fence, ?icinv, ?sgwr, ?tlbsync⟩
  case waitc => rintro x rfl; exact waitcReturn_runs h
  case tlwait => rintro x rfl; exact tlwaitReturn_runs h
  case bwait => rintro x rfl; exact bwaitReturn_runs h
  case recast => rintro x rfl; exact recastWake_runs h
  case cpost => rintro x rfl; exact cpostAccept_runs h
  case fence => rintro x rfl; exact fenceDrained_runs h
  case icinv => rintro x rfl; exact icinvDone_runs h
  case sgwr => rintro x rfl; exact sgwrDone_runs h
  case tlbsync => rintro x rfl; exact tlbsyncDone_runs h

end Sys2Proof.Machine

/-! PROOFS. The posts of the copy queue: CPOST, RED, REDFLUSH, AMO, CFENCE and CPSTAT (13 R306, R320, R329 to R334): O31. -/

namespace Sys2Proof.Machine

/-! ## The operations of the copy queue leave every warp in its slot -/

theorem keeps_setGroup (s : State) (c d gid : Nat) (g : Group) : Keeps c s (s.setGroup d gid g) :=
  keeps_modCore _ _ _ _ (fun _ => rfl)

theorem keeps_pushCmd (s : State) (c d : Nat) (m : Cmd) : Keeps c s (s.pushCmd d m) :=
  (keeps_modGroup _ _ _ _ _).trans (keeps_modCore _ _ _ _ (fun _ => rfl))

theorem keeps_postSlate (s : State) (c d gid poster : Nat) (pc : DWord) (r : List DWord) : Keeps c s (s.postSlate d gid poster pc r).1 := by
  unfold State.postSlate; split
  · exact Keeps.refl _ _
  · exact (keeps_takeSeq _ _ _ _ _).trans (keeps_pushCmd _ _ _ _)

theorem keeps_drainFull (s : State) (c d q : Nat) : Keeps c s (s.drainFull d q) :=
  (keeps_drainRed s c d false _).trans (keeps_modCore _ _ _ _ (fun _ => rfl))

theorem keeps_placeRed (s : State) (c d q : Nat) (e : RedEntry) : Keeps c s (s.placeRed d q e) := by
  unfold State.placeRed
  extract_lets put s1
  have hput : ∀ t es, Keeps c t (put t es) := fun _ _ => keeps_modCore _ _ _ _ (fun _ => rfl)
  split
  · exact hput _ _
  · exact (keeps_drainFull s c d q).trans (hput _ _)

theorem keeps_complete (s : State) (c d gid tl seq status : Nat) (pc : DWord) (e : Nat) (addr : DWord) (word4 : Nat) (bar : Option Nat) :
    Keeps c s (s.complete d gid tl seq status pc e addr word4 bar) := by
  unfold State.complete
  extract_lets s1 s2
  have hfailed : Keeps c s s1 := by
    unfold s1; split
    · exact Keeps.refl _ _
    · exact (keeps_faultRecord _ _ _ _ _ _ _ _ _).trans (keeps_modGroup _ _ _ _ _)
  have harrived : Keeps c s1 s2 := by
    unfold s2; split
    · exact Keeps.refl _ _
    · exact keeps_arrive _ _ _ _ _ _
  exact (hfailed.trans harrived).trans (keeps_modGroup _ _ _ _ _)

theorem keeps_endFlush (s : State) (c d gid : Nat) (f : Flush) : Keeps c s (s.endFlush d gid f) := by
  unfold State.endFlush; split <;> exact keeps_complete _ _ _ _ _ _ _ _ _ _ _ _

theorem keeps_endFlushes (s : State) (c d gid : Nat) : Keeps c s (s.endFlushes d gid) := by
  unfold State.endFlushes; split
  · exact Keeps.refl _ _
  · exact (keeps_setGroup _ _ _ _ _).trans (keeps_foldl (fun _ _ => keeps_endFlush _ _ _ _ _) _ _)

theorem keeps_raiseG (s : State) (c d : Nat) : Keeps c s (s.raiseG d) := fun _ h => h

theorem keeps_passMarks (s : State) (c d gid n : Nat) : Keeps c s (s.passMarks d gid n) := by
  induction n generalizing s with
  | zero => exact Keeps.refl _ _
  | succ n ih =>
    unfold State.passMarks
    split
    case h_1 => exact Keeps.refl _ _
    case h_2 g _ =>
      split
      case h_1 => exact Keeps.refl _ _
      case h_2 m t _ =>
        split
        · have hpassed := keeps_setGroup s c d gid { g with marks := t }
          dsimp only
          split
          · exact (hpassed.trans (keeps_raiseG _ _ _)).trans (ih _)
          · exact hpassed.trans (ih _)
        · exact Keeps.refl _ _

theorem keeps_flushStep (s : State) (c d gid : Nat) : Keeps c s (s.flushStep d gid) := by
  unfold State.flushStep; split
  · exact Keeps.refl _ _
  · exact (keeps_passMarks _ _ _ _ _).trans (keeps_endFlushes _ _ _ _)

theorem keeps_startFlush (i : Issue) (tl cscope : Nat) : Keeps i.c i.s (i.startFlush tl cscope).1 := by
  unfold Issue.startFlush
  extract_lets lo s1 new sq s2
  have hdrained : Keeps i.c i.s s1 := (keeps_drainRed _ _ _ _ _).trans (keeps_modGroup _ _ _ _ _)
  have hflushed : Keeps i.c s1 s2 := (keeps_takeSeq _ _ _ _ _).trans (keeps_modGroup _ _ _ _ _)
  have hcounted : Keeps i.c s2 (s2.modCore i.c (fun k => { k with cid := k.cid + 1 })) := keeps_modCore _ _ _ _ (fun _ => rfl)
  exact ((hdrained.trans hflushed).trans hcounted).trans (keeps_flushStep _ _ _ _)

theorem keeps_redResult (i : Issue) : Keeps i.c i.s (redResult i).s :=
  keeps_foldl (fun _ _ => keeps_placeRed _ _ _ _ _) _ _

/-! ## What each meaning is -/

theorem cpostSpec_body (i : Issue) : (cpostSpec i.x).body i =
    if !(i.grd.has i.elected) then .done i.res
    else if 64 ≤ i.k.copyQ.length then .block (i.wait (.cpost i.x)) (quiet i)
    else match slateFails i with
      | some t => .final ((quiet i).takeTrap i.c i.slot t false)
      | none => .done (numbered (fun i => (slatePosted i).1) (fun i => (slatePosted i).2) i) := rfl

theorem redSpec_placed {i : Issue} (h : redOk i) : (redSpec i.x).body i = .done (redResult i) := by
  have hlegal : (redLanes i).find? (fun l => i.a l % accSize i != 0 || decide (2 ^ 52 ≤ i.a l)) = none := by
    simpa only [List.find?_eq_none, Bool.or_eq_true, bne_iff_ne, decide_eq_true_eq, not_or, not_not, Nat.not_le] using h
  simp only [redSpec, Spec.plain]
  split
  case h_1 l hl => exact absurd (hlegal.symm.trans hl) (by simp)
  case h_2 => rfl

theorem redflushSpec_body (i : Issue) : (redflushSpec i.x).body i =
    match flushFails i with
    | some t => .trap t
    | none =>
      if 4 ≤ i.g.flushes.length then .done (noRoom i)
      else .done (numbered (fun i => (flushStart i).1) (fun i => (flushStart i).2) i) := rfl

theorem amoSpec_body (i : Issue) : (amoSpec i.x).body i =
    if !(i.grd.has i.elected) then .done i.res
    else match amoFails i with
      | some t => .trap t
      | none => if 64 ≤ i.k.copyQ.length then .done (noRoom i) else .done (numbered amoPosted (nextSeq amoTl) i) := rfl

theorem cfenceSpec_body (i : Issue) : (cfenceSpec i.x).body i =
    match cfenceFails i with
    | some t => .trap t
    | none => .done (cfenceResult i) := rfl

theorem cpstatSpec_read {i : Issue} (h : statLine i) : (cpstatSpec i.x).body i = .done (cpstatResult i) := by
  refine (if_neg (Nat.not_le.2 h)).trans ?_
  show (if bitsOf i.x.mods.toNat 1 0 = 0 then _ else _) = _
  unfold cpstatResult
  split <;> rfl

theorem cpstatSpec_beyond {i : Issue} (h : ¬statLine i) :
    (cpstatSpec i.x).body i = .trap { cause := 0x0A, tval := BitVec.ofNat 64 (bitsOf i.x.mods.toNat 5 2) } := if_pos (Nat.not_lt.1 h)

/-! ## Every form of them completes, blocks or traps -/

/-- Settles O31: by what each meaning is with its check failed, its queue full, and its queue with room. -/
theorem copyPostsComplete : Obligations.CopyPostsComplete := by
  refine ⟨?cpost, ?cpostFull, ?cpostBad, ?cpostOff, ?red, ?flush, ?flushFull, ?flushBad, ?amo, ?amoFull, ?amoOff, ?amoBad, ?fence, ?fenceBad,
    ?stat, ?statBad⟩
  case cpost =>
    exact extFormWhen_numbered (fun i ⟨hg, hf, ht⟩ => by simp [cpostSpec_body, hg, Nat.not_le.2 hf, ht])
      (fun i => (keeps_drain _ _ _ _).trans (keeps_postSlate _ _ _ _ _ _ _))
  case cpostFull =>
    refine extLeaves_of_body _ _ _ _ (fun _ _ => rfl) (fun x i hx ⟨hg, hf⟩ => ?_)
    subst hx
    simp [cpostSpec_body, hg, hf, settle]
  case cpostBad =>
    refine extLeaves_of_body _ _ _ _ (fun _ _ => rfl) (fun x i hx ⟨hg, hf, hs⟩ => ?_)
    subst hx
    obtain ⟨t, ht⟩ := Option.isSome_iff_exists.1 hs
    simp [cpostSpec_body, hg, Nat.not_le.2 hf, ht, settle, quietTrap]
  case cpostOff => exact extFormWhen_off (fun i h => by simp [cpostSpec_body, h])
  case red =>
    exact extFormWhen_of_body _ _ _ _ (fun _ _ => rfl) (fun _ _ hx h => hx ▸ redSpec_placed h) (keepsWarp_of_keeps (fun i _ => keeps_redResult i))
  case flush =>
    exact extFormWhen_numbered (fun i ⟨ht, hf⟩ => by simp [redflushSpec_body, ht, Nat.not_le.2 hf]) (fun i => keeps_startFlush _ _ _)
  case flushFull => exact extFormWhen_numbered (fun i ⟨ht, hf⟩ => by simp [redflushSpec_body, ht, hf, noRoom]) (fun _ => Keeps.refl _ _)
  case flushBad => exact extLeaves_trapsAs (fun _ h => h) (fun i t _ ht => by simp [redflushSpec_body, ht])
  case amo =>
    exact extFormWhen_numbered (fun i ⟨hg, ht, hf⟩ => by simp [amoSpec_body, hg, ht, Nat.not_le.2 hf])
      (fun i => (keeps_takeSeq _ _ _ _ _).trans (keeps_pushCmd _ _ _ _))
  case amoFull => exact extFormWhen_numbered (fun i ⟨hg, ht, hf⟩ => by simp [amoSpec_body, hg, ht, hf, noRoom]) (fun _ => Keeps.refl _ _)
  case amoOff => exact extFormWhen_off (fun i h => by simp [amoSpec_body, h])
  case amoBad => exact extLeaves_trapsAs (fun _ ⟨_, hs⟩ => hs) (fun i t ⟨hg, _⟩ ht => by simp [amoSpec_body, hg, ht])
  case fence =>
    exact extFormWhen_of_body _ _ _ _ (fun _ _ => rfl) (fun x i hx ht => by subst hx; simp [cfenceSpec_body, ht])
      (keepsWarp_of_keeps (fun i _ => keeps_modGroup _ _ _ _ _))
  case fenceBad => exact extLeaves_trapsAs (fun _ h => h) (fun i t _ ht => by simp [cfenceSpec_body, ht])
  case stat => exact extFormWhen_of_body _ _ _ _ (fun _ _ => rfl) (fun _ _ hx h => hx ▸ cpstatSpec_read h) (keepsWarp_of_state (fun _ => rfl))
  case statBad =>
    exact extLeaves_of_body _ _ _ _ (fun _ _ => rfl) (fun _ _ hx h => by subst hx; exact settle_of_trap (cpstatSpec_beyond h))

end Sys2Proof.Machine

/-! PROOFS. The bytes of a READ's unit that a suspension forgets (13 R323, R325): O55. -/

namespace Sys2Proof.Machine

/-- What a slate command becomes at an absent page: `suspended`, and where the READ of its next unit starts afresh, none of that unit's bytes
has been asked for (13 R325). -/
def suspendedAfresh (j : Job) (u : Nat) (va : Nat) (wr ix : Bool) (x : EngCtx) : EngCtx :=
  { suspended j u va wr ix x with sentOff := if j.f.ss = 3 ∧ u ≤ x.sent then 0 else x.sentOff }

theorem copyFaultSuspend_job {s s1 : State} {c e x va : Nat} {m : Cmd} {wr ix : Bool} {j : Job} (hr : ((s.core c).ctx e x).phase = .running)
    (hm : ((s.core c).ctx e x).cmd = some m) (ha : s.absentPage c e x = (s1, some (va, wr, ix))) (hj : s1.job c e x = some j) :
    exec (.copyFaultSuspend c e x) s =
      .next (j.mod (if j.f.ss = 3 then j.staleReads s1 (j.cleared s1) else s1) (suspendedAfresh j (j.cleared s1) va wr ix)) := by
  show execCopyFaultSuspend c e x s = _
  simp only [execCopyFaultSuspend, hr, hm, ha, hj, bne_self_eq_false, Option.isNone_some, Bool.or_self, Bool.false_eq_true, if_false]
  rfl

theorem Job.ctx_mod (j : Job) (s : State) (f : EngCtx → EngCtx) : j.ctx (j.mod s f) = f (j.ctx s) := by
  simp only [Job.ctx, Job.mod, State.modCtx, State.core_modCore_same, Core.ctx, Tab.getD_set_same]

theorem Job.ctx_staleReads (j : Job) (s : State) (u : Nat) : j.ctx (j.staleReads s u) = j.ctx s := rfl

/-- The two differ in a context that has asked for some bytes of a unit at which it suspends. -/
theorem Job.mod_suspendedAfresh_ne {j : Job} {t : State} {u va : Nat} {wr ix : Bool} (hs : j.f.ss = 3) (hu : u ≤ (j.ctx t).sent)
    (ho : (j.ctx t).sentOff ≠ 0) : j.mod t (suspendedAfresh j u va wr ix) ≠ j.mod t (suspended j u va wr ix) := by
  intro h
  have hoff := congrArg (fun t => (j.ctx t).sentOff) h
  simp only [Job.ctx_mod] at hoff
  refine ho ?_
  calc (j.ctx t).sentOff = (suspendedAfresh j u va wr ix (j.ctx t)).sentOff := hoff.symm
    _ = 0 := if_pos ⟨hs, hu⟩

/-- A remote get of one row of 512 elements of BQ8, 536 bytes, from window 0 to VA 0: KIND 5, any engine, both formats 0xF, from window space to
device memory, X0 512, and both strides 1. -/
def rowGet : List DWord := [0x500000080FF00300, 0, 0, 0, 0, 512, 0, 0, 1, 0, 0x100000000, 0, 0, 0, 0, 0]

/-- Its command, of group 0. -/
def rowGetCmd : Cmd :=
  { cid := 0, gid := 0, asid := probeAsid, tl := 0, seq := 1, pc := 0, poster := 0, eng := 2, wide := false, what := .slate rowGet, src := none, dst := none
    dstTaskRead := false }

/-- Context 7 of engine 1 of core 0 holds the get, whose first 256 bytes have been asked for; VA 0 is not mapped. -/
def rowGetAsked : State :=
  (State.reset.withFetchWord 32 0x60).modCore 0 (fun k => { k with ctxs := [(15, { EngCtx.reset with cmd := some rowGetCmd, sentOff := 256 })] })

/-- The get as context 7 of engine 1 holds it. -/
def rowGetJob : Job := { c := 0, e := 1, x := 7, cmd := rowGetCmd, g := probeGroup, f := slateOf rowGet }

/-- The state in which the page of VA 0 has been found absent. -/
def rowGetAbsent : State := (rowGetAsked.absentPage 0 1 7).1

/-- The get passes the first of the checks at acceptance, those of its bits (13 Table 7). -/
theorem rowGet_legal : slateBad rowGet (slateOf rowGet) = none := by decide

theorem rowGetAsked_absentPage : rowGetAsked.absentPage 0 1 7 = (rowGetAbsent, some (0, true, false)) := by rfl

theorem rowGetAbsent_job : rowGetAbsent.job 0 1 7 = some rowGetJob := by rfl

theorem rowGetAbsent_ctx : rowGetJob.ctx rowGetAbsent = { EngCtx.reset with cmd := some rowGetCmd, sentOff := 256 } := by rfl

/-- Refutes O55: its clause on a suspension leaves out that a READ under way starts again at its unit's first byte. `rowGetAsked` has asked for
256 bytes of its unit, which the event forgets, since on RESUME every source from E on is read afresh (13 R325); the clause keeps them. -/
theorem not_copyEventsComplete : ¬ Obligations.CopyEventsComplete := by
  intro h
  obtain ⟨-, hsuspend, -⟩ := h
  have hclause := hsuspend rowGetAsked 0 1 7 _ _ _ _ _ _ rfl rfl rowGetAsked_absentPage rowGetAbsent_job
  have hexec := copyFaultSuspend_job (s := rowGetAsked) rfl rfl rowGetAsked_absentPage rowGetAbsent_job
  have hwindow : rowGetJob.f.ss = 3 := rfl
  rw [if_pos hwindow] at hclause hexec
  refine Job.mod_suspendedAfresh_ne hwindow ?sent ?asked (Host.Outcome.next.inj (hexec.symm.trans hclause))
  case sent => rw [Job.cleared, Job.ctx_staleReads, rowGetAbsent_ctx]; decide
  case asked => rw [Job.ctx_staleReads, rowGetAbsent_ctx]; decide

end Sys2Proof.Machine

/-! PROOFS. Every row of the instruction table answers (03 Tables 14 and 15): O45. A row is an instruction of a warp, which runs by its form, an
instruction of a grip, or an event. -/

namespace Sys2Proof.Machine

/-! ## A row that answers a next state -/

/-- An outcome is a next state. -/
def IsNext (o : Host.Outcome State Fault Refusal) : Prop := ∃ t, o = .next t

theorem IsNext.next (t : State) : IsNext (.next t) := ⟨t, rfl⟩

/-- A warp whose wait is seen stands in its slot, with its group. -/
theorem acts_of_waitOf {s : State} {c slot : Nat} {t : Waiting} (h : s.waitOf c slot = some t) :
    ∃ w g, Acts { s with cur := .warp c slot } c slot w g := by
  unfold State.waitOf at h
  cases hw : s.warp? c slot with
  | none => simp only [hw, reduceCtorEq] at h
  | some w =>
    cases hg : s.group? c w.gid with
    | none => simp only [hw, hg, Bool.true_or, if_true, reduceCtorEq] at h
    | some g => exact ⟨w, g, rfl, hw, hg⟩

/-- A waiting instruction runs again and answers. -/
theorem isNext_resume {s : State} {c slot : Nat} {t : Waiting} (h : s.waitOf c slot = some t) {f : State → Host.Outcome State Fault Refusal}
    {sp : Spec} {kBad : Bool} {x : Ext} {len : Nat} (hf : ∀ s, f s = runSpec sp kBad x len s) : IsNext (resume s c slot f) := by
  obtain ⟨w, g, ha⟩ := acts_of_waitOf h
  simp only [resume, hf, runSpec_next sp kBad x len ha]
  exact IsNext.next _

theorem isNext_resume_instr {s : State} {c slot : Nat} {i : Instr} (h : (s.waitOf c slot).map Waiting.instr = some i)
    {f : State → Host.Outcome State Fault Refusal} {sp : Spec} {kBad : Bool} {x : Ext} {len : Nat} (hf : ∀ s, f s = runSpec sp kBad x len s) :
    IsNext (resume s c slot f) := by
  obtain ⟨t, ht, _⟩ := Option.map_eq_some_iff.1 h
  exact isNext_resume ht hf

/-! ## Events that act without a warp

Each of these functions branches on what its event finds, and every branch ends in a next state; the split stops there, and does not enter the
state that a branch answers. -/

theorem execTrapEntry_isNext (core slot : Nat) (s : State) : IsNext (execTrapEntry core slot s) := by
  dsimp only [execTrapEntry]
  repeat' first | exact IsNext.next _ | split
theorem execTagwait_isNext (core : Nat) (who : TagWaiter) (s : State) : IsNext (execTagwait core who s) := by
  dsimp only [execTagwait]
  repeat' first | exact IsNext.next _ | split
theorem execMachine_isNext (m : MachineError) (s : State) : IsNext (execMachine m s) := by
  dsimp only [execMachine]
  repeat' first | exact IsNext.next _ | split
theorem execBreakpointHit_isNext (core sched n : Nat) (s : State) : IsNext (execBreakpointHit core sched n s) := by
  dsimp only [execBreakpointHit]
  repeat' first | exact IsNext.next _ | split
theorem execSchedulerSelect_isNext (core sched : Nat) (s : State) : IsNext (execSchedulerSelect core sched s) := by
  dsimp only [execSchedulerSelect]
  repeat' first | exact IsNext.next _ | split
theorem execTileAccessLand_isNext (core slot idx : Nat) (s : State) : IsNext (execTileAccessLand core slot idx s) := by
  dsimp only [execTileAccessLand]
  repeat' first | exact IsNext.next _ | split
theorem execAtomicElementPerform_isNext (who : AtomicRef) (s : State) : IsNext (execAtomicElementPerform who s) := by
  dsimp only [execAtomicElementPerform]
  repeat' first | exact IsNext.next _ | split
theorem execWriteThroughAck_isNext (die asid line : Nat) (s : State) : IsNext (execWriteThroughAck die asid line s) := by
  dsimp only [execWriteThroughAck]
  repeat' first | exact IsNext.next _ | split
theorem execCopyDispatch_isNext (core engine ctx : Nat) (s : State) : IsNext (execCopyDispatch core engine ctx s) := by
  dsimp only [execCopyDispatch]
  repeat' first | exact IsNext.next _ | split
theorem execCopyFaultSuspend_isNext (core engine ctx : Nat) (s : State) : IsNext (execCopyFaultSuspend core engine ctx s) := by
  dsimp only [execCopyFaultSuspend]
  repeat' first | exact IsNext.next _ | split
theorem execFaultBatchPost_isNext (core engine ctx : Nat) (s : State) : IsNext (execFaultBatchPost core engine ctx s) := by
  dsimp only [execFaultBatchPost]
  repeat' first | exact IsNext.next _ | split
theorem execCopyComplete_isNext (core engine ctx : Nat) (s : State) : IsNext (execCopyComplete core engine ctx s) := by
  dsimp only [execCopyComplete]
  repeat' first | exact IsNext.next _ | split
theorem execMatrixUnitStart_isNext (core : Nat) (s : State) : IsNext (execMatrixUnitStart core s) := by
  dsimp only [execMatrixUnitStart]
  repeat' first | exact IsNext.next _ | split
theorem execMatrixCommandComplete_isNext (core : Nat) (s : State) : IsNext (execMatrixCommandComplete core s) := by
  dsimp only [execMatrixCommandComplete]
  repeat' first | exact IsNext.next _ | split
theorem execWbldRun_isNext (core : Nat) (s : State) : IsNext (execWbldRun core s) := by
  dsimp only [execWbldRun]
  repeat' first | exact IsNext.next _ | split
theorem execWbldComplete_isNext (core : Nat) (s : State) : IsNext (execWbldComplete core s) := by
  dsimp only [execWbldComplete]
  repeat' first | exact IsNext.next _ | split
theorem execWbinvEffect_isNext (core : Nat) (s : State) : IsNext (execWbinvEffect core s) := by
  dsimp only [execWbinvEffect]
  repeat' first | exact IsNext.next _ | split
theorem execScanStart_isNext (core : Nat) (s : State) : IsNext (execScanStart core s) := by
  dsimp only [execScanStart]
  repeat' first | exact IsNext.next _ | split
theorem execScanComplete_isNext (core : Nat) (s : State) : IsNext (execScanComplete core s) := by
  dsimp only [execScanComplete]
  repeat' first | exact IsNext.next _ | split
theorem execScanstComplete_isNext (core : Nat) (s : State) : IsNext (execScanstComplete core s) := by
  dsimp only [execScanstComplete]
  repeat' first | exact IsNext.next _ | split
theorem execTokenRefill_isNext (port : PortRef) (s : State) : IsNext (execTokenRefill port s) := by
  dsimp only [execTokenRefill]
  repeat' first | exact IsNext.next _ | split
theorem execPortSend_isNext (port : PortRef) (s : State) : IsNext (execPortSend port s) := by
  dsimp only [execPortSend]
  repeat' first | exact IsNext.next _ | split
theorem execPriorityAging_isNext (idx : Nat) (s : State) : IsNext (execPriorityAging idx s) := by
  dsimp only [execPriorityAging]
  repeat' first | exact IsNext.next _ | split
theorem execTimeSliceEnd_isNext (core gid : Nat) (s : State) : IsNext (execTimeSliceEnd core gid s) := by
  dsimp only [execTimeSliceEnd]
  repeat' first | exact IsNext.next _ | split
theorem execClusterPlacement_isNext (idx : Nat) (s : State) : IsNext (execClusterPlacement idx s) := by
  dsimp only [execClusterPlacement]
  repeat' first | exact IsNext.next _ | split
theorem execPreemption_isNext (core gid : Nat) (s : State) : IsNext (execPreemption core gid s) := by
  dsimp only [execPreemption]
  repeat' first | exact IsNext.next _ | split
theorem execGroupHaltRelease_isNext (core gid : Nat) (s : State) : IsNext (execGroupHaltRelease core gid s) := by
  dsimp only [execGroupHaltRelease]
  repeat' first | exact IsNext.next _ | split
theorem execRestorePlacement_isNext (idx core : Nat) (s : State) : IsNext (execRestorePlacement idx core s) := by
  dsimp only [execRestorePlacement]
  repeat' first | exact IsNext.next _ | split
theorem execGroupRetirement_isNext (core gid : Nat) (s : State) : IsNext (execGroupRetirement core gid s) := by
  dsimp only [execGroupRetirement]
  repeat' first | exact IsNext.next _ | split
theorem execLaunchEntryTake_isNext (asid queue : Nat) (s : State) : IsNext (execLaunchEntryTake asid queue s) := by
  dsimp only [execLaunchEntryTake]
  repeat' first | exact IsNext.next _ | split
theorem execGridEnd_isNext (gridId : Nat) (s : State) : IsNext (execGridEnd gridId s) := by
  dsimp only [execGridEnd]
  repeat' first | exact IsNext.next _ | split
theorem execTaskArrival_isNext (core idx : Nat) (s : State) : IsNext (execTaskArrival core idx s) := by
  dsimp only [execTaskArrival]
  repeat' first | exact IsNext.next _ | split
theorem execTaskPlacement_isNext (core entry : Nat) (s : State) : IsNext (execTaskPlacement core entry s) := by
  dsimp only [execTaskPlacement]
  repeat' first | exact IsNext.next _ | split
theorem execCollMemberComplete_isNext (die ctx : Nat) (s : State) : IsNext (execCollMemberComplete die ctx s) := by
  dsimp only [execCollMemberComplete]
  repeat' first | exact IsNext.next _ | split
theorem execGatewayCombine_isNext (key : CollKey) (src dst : Nat) (s : State) : IsNext (execGatewayCombine key src dst s) := by
  dsimp only [execGatewayCombine]
  repeat' first | exact IsNext.next _ | split
theorem execMulticastPacketArrival_isNext (src dst : Nat) (s : State) : IsNext (execMulticastPacketArrival src dst s) := by
  dsimp only [execMulticastPacketArrival]
  repeat' first | exact IsNext.next _ | split
theorem execStallHintExpiry_isNext (dev tc : Nat) (s : State) : IsNext (execStallHintExpiry dev tc s) := by
  dsimp only [execStallHintExpiry]
  repeat' first | exact IsNext.next _ | split
theorem execAckTimeout_isNext (dev tc : Nat) (s : State) : IsNext (execAckTimeout dev tc s) := by
  dsimp only [execAckTimeout]
  repeat' first | exact IsNext.next _ | split
theorem execRouteRetry_isNext (dev : Nat) (s : State) : IsNext (execRouteRetry dev s) := by
  dsimp only [execRouteRetry]
  repeat' first | exact IsNext.next _ | split
theorem execFabricTimeout_isNext (core engine ctx : Nat) (s : State) : IsNext (execFabricTimeout core engine ctx s) := by
  dsimp only [execFabricTimeout]
  repeat' first | exact IsNext.next _ | split
theorem execAsidFreed_isNext (asid : Nat) (s : State) : IsNext (execAsidFreed asid s) := by
  dsimp only [execAsidFreed]
  repeat' first | exact IsNext.next _ | split
theorem execLinkStateChange_isNext (link : Nat) (dest : LinkState) (s : State) : IsNext (execLinkStateChange link dest s) := by
  dsimp only [execLinkStateChange]
  repeat' first | exact IsNext.next _ | split
theorem execSidebandRegisterWrite_isNext (link : Nat) (addr value : DWord) (s : State) : IsNext (execSidebandRegisterWrite link addr value s) := by
  dsimp only [execSidebandRegisterWrite]
  repeat' first | exact IsNext.next _ | split
theorem execSidebandCommandFinish_isNext (link : Nat) (s : State) : IsNext (execSidebandCommandFinish link s) := by
  dsimp only [execSidebandCommandFinish]
  repeat' first | exact IsNext.next _ | split
theorem execCompanionDeviceMemoryAccess_isNext (a : CompanionAccess) (s : State) : IsNext (execCompanionDeviceMemoryAccess a s) := by
  dsimp only [execCompanionDeviceMemoryAccess]
  repeat' first | exact IsNext.next _ | split
theorem execLinkAbsenceTimeout_isNext (core engine ctx : Nat) (s : State) : IsNext (execLinkAbsenceTimeout core engine ctx s) := by
  dsimp only [execLinkAbsenceTimeout]
  repeat' first | exact IsNext.next _ | split

/-! ## Events that run a waiting instruction again -/

theorem execWaitcReturn_isNext (core slot : Nat) (s : State) : IsNext (execWaitcReturn core slot s) := by
  unfold execWaitcReturn
  split
  next hw _ =>
    split
    · split
      · exact isNext_resume hw (fun _ => rfl)
      · exact IsNext.next s
    · exact IsNext.next s
  · exact IsNext.next s
theorem execTlwaitReturn_isNext (core slot : Nat) (s : State) : IsNext (execTlwaitReturn core slot s) := by
  dsimp only [execTlwaitReturn]
  split
  next hw _ =>
    split
    · split
      · exact isNext_resume hw (fun _ => rfl)
      · exact IsNext.next s
    · exact IsNext.next s
  · exact IsNext.next s
theorem execBwaitReturn_isNext (core slot : Nat) (s : State) : IsNext (execBwaitReturn core slot s) := by
  dsimp only [execBwaitReturn]
  split
  next hw _ =>
    split
    · split
      · exact IsNext.next s
      · exact isNext_resume hw (fun _ => rfl)
    · exact IsNext.next s
  · exact IsNext.next s
theorem execRecastWake_isNext (core slot : Nat) (s : State) : IsNext (execRecastWake core slot s) := by
  unfold execRecastWake
  split
  next hw _ =>
    split
    · split
      · exact IsNext.next s
      · exact isNext_resume hw (fun _ => rfl)
    · exact IsNext.next s
  · exact IsNext.next s
theorem execFenceDrained_isNext (core slot : Nat) (s : State) : IsNext (execFenceDrained core slot s) := by
  unfold execFenceDrained
  split
  next hw _ =>
    split
    · split
      · exact isNext_resume hw (fun _ => rfl)
      · exact IsNext.next s
    · exact IsNext.next s
  · exact IsNext.next s
theorem execTlbsyncDone_isNext (core slot : Nat) (s : State) : IsNext (execTlbsyncDone core slot s) := by
  unfold execTlbsyncDone
  split
  next hw =>
    split
    · split
      · exact isNext_resume hw (fun _ => rfl)
      · exact IsNext.next s
    · exact IsNext.next s
  · exact IsNext.next s
theorem execCpostAccept_isNext (core slot : Nat) (s : State) : IsNext (execCpostAccept core slot s) := by
  unfold execCpostAccept
  split
  next hw =>
    split
    · exact isNext_resume_instr hw (fun _ => rfl)
    · exact IsNext.next s
  · exact IsNext.next s
theorem execIcinvDone_isNext (core slot : Nat) (s : State) : IsNext (execIcinvDone core slot s) := by
  unfold execIcinvDone
  split
  next hw => exact isNext_resume_instr hw (fun _ => rfl)
  · exact IsNext.next s
theorem execSgwrDone_isNext (core slot : Nat) (s : State) : IsNext (execSgwrDone core slot s) := by
  unfold execSgwrDone
  split
  next hw => exact isNext_resume_instr hw (fun _ => rfl)
  · exact IsNext.next s
theorem execMmaAccept_isNext (core slot : Nat) (s : State) : IsNext (execMmaAccept core slot s) := by
  unfold execMmaAccept
  split
  · exact IsNext.next s
  · split
    case h_9 => exact IsNext.next s
    all_goals next hw => exact isNext_resume_instr hw (fun _ => rfl)

/-! ## The rows -/

/-- What a row of the table is: an instruction of a warp or of a grip, an event that answers in every state, or the wake-up of a tag wait, which
runs a grip's instruction too. -/
inductive Row (i : Instr) : Prop where
  | warp (sp : Spec) (kBad : Bool) (x : Ext) (len : Nat) (he : encode i ≠ []) (hg : i.isGrip = false) (hx : ∀ s, exec i s = runSpec sp kBad x len s)
  | grip (f : State → Nat → Nat → Nat → Group → State) (hg : i.isGrip = true) (hx : ∀ s, exec i s = runGrip (f s) s)
  | event (he : encode i = []) (hg : i.isGrip = false) (hx : ∀ s, IsNext (exec i s))
  | tagWait (c : Nat) (who : TagWaiter) (hi : i = .tagWaitSatisfied c who)

theorem row (i : Instr) : Row i := by
  cases i with
  | braBr _ | braExt _ | brp _ | brx _ | joinAlu _ | joinExt _ | callBr _ | callExt _ | calliAlu _ | calliExt _ | retAlu _ | retExt _
  | jmpiAlu _ | jmpiExt _ | exitAlu _ | exitExt _ | recast _ | yieldAlu _ | yieldExt _ | nopAlu _ | nopExt _ | bkptImm _ | bkptExt _
  | trapImm _ | trapExt _ | svcImm _ | svcExt _ | iaddAlu _ | iaddImm _ | iaddExt _ | isubAlu _ | isubImm _ | isubExt _ | iaddc _
  | imulAlu _ | imulImm _ | imulExt _ | imulhAlu _ | imulhImm _ | imulhExt _ | imad _ | imadw _ | ishlAlu _ | ishlImm _ | ishlExt _
  | ishrAlu _ | ishrImm _ | ishrExt _ | isarAlu _ | isarImm _ | isarExt _ | irotAlu _ | irotImm _ | irotExt _ | andAlu _ | andImm _
  | andExt _ | orAlu _ | orImm _ | orExt _ | xorAlu _ | xorImm _ | xorExt _ | andnAlu _ | andnImm _ | andnExt _ | lmix _ | bfx _ | bfi _
  | iminAlu _ | iminImm _ | iminExt _ | imaxAlu _ | imaxImm _ | imaxExt _ | iabsAlu _ | iabsExt _ | isel _ | idot4 _ | lea _ | iadd64Alu _
  | iadd64Imm _ | iadd64Ext _ | ldiAlu _ | ldiExt _ | clz _ | ctz _ | popc _ | brev _ | iset _ | pset _ | pmov _ | pcnt _ | vtos _ | stov _
  | elect _ | faddAlu _ | faddImm _ | faddExt _ | fsubAlu _ | fsubImm _ | fsubExt _ | fmulAlu _ | fmulImm _ | fmulExt _ | ffma _
  | fminAlu _ | fminImm _ | fminExt _ | fmaxAlu _ | fmaxImm _ | fmaxExt _ | fset _ | fclass _ | frcp _ | frsq _ | fsqrt _ | fexp2 _
  | flog2 _ | fsin _ | fcos _ | ftanh _ | daddAlu _ | daddExt _ | dmulAlu _ | dmulExt _ | dfma _ | pkaddAlu _ | pkaddExt _ | pkmulAlu _
  | pkmulExt _ | pkfma _ | cvt _ | cvtq _ | bqdot _ | bqscl _ | qswz _ | qbc _ | qdx _ | qdy _ | lxch _ | qrm _ | peer _ | wfold _
  | prefixFold _ | isect _ | mma2 _ | mma3 _ | mma4 _ | mma5 _ | mma6 _ | mma7 _ | mma8 _ | mmaw _ | wbld _ | wbinv _ | aclr _ | ard _
  | awr _ | scan _ | scanst _ | mfs _ | mts _ | sscmdSpill _ | sscmdFill _ | sscmdPop _ | sscmdPush _ | eret _ | halt _ | clrerr _
  | tlbflush _ | tlbsync _ | asidret _ | sgwr _ | ttrd _ | bwset _ | ldsMem _ | ldsExt _ | stsMem _ | stsExt _ | ldsfMem _ | ldsfExt _
  | stseMem _ | stseExt _ | ldsp _ | tags _ | tagc _ | ats _ | atsn _ | talloc _ | tfree _ | tld _ | tst _ | fence _ | icinv _ | cpost _
  | red _ | amo _ | redflush _ | cfence _ | cpstat _ | coll _ | cgrp _ | fxwin _ | tskpost _ | launch _ | itemput _ | waitc _ | tlwait _
  | tlrd _ | balloc _ | bfree _ | barv _ | barvw _ | bwait _ | ecrd _ | ecsel _ =>
    exact .warp _ _ _ _ (List.cons_ne_nil _ _) rfl (fun _ => rfl)
  | gPost _ _ | gTlwait _ _ _ | gTlrd _ _ | gLdf _ _ | gSte _ _ | gItem _ _ | gItemClose _ _ | gTask _ _ _ | gBarv _ _ | gEvt _ | gEvtEnd _
  | gEvtFail _ | gripStandardInstruction _ _ => exact .grip _ rfl (fun _ => rfl)
  | dbgctlResume _ _ | storeQueuePerform _ _ | gripStorePerform _ _ | loadLand _ _ _ _ | scrubPass _ _ | gafferWindow _
  | collectiveMatched _ | writePacket _ | readPacket _ | atomicPacket _ | flagPacket _ | collPacket _ | ackReceived _ | linkDown _
  | coldReset | warmReset | resetctlWarm | bootctlStart | bootbufWrite _ | bootctlGo _ | errstatRead _ | lqd0Write _ _ _
  | lqd1TailWrite _ _ _ | diememWrite _ _ | bwtabWrite _ _ | fqctlHeadWrite _ _ | eqctlHeadWrite _ _ | islopWrite _ _ | asidBind _
  | asidReroot _ | tlbFlush _ | asidRetire _ | faultVerdict _ | groupRelease _ | restore _ | preempt _ | streamReset _ | windowSync _
  | scopeWrite _ | taskName _ | attest _ _ | coreRelease _ | thermalThreshold _ _ | thermalUndo _ _ | jtagExtest _ | jtagIdcode
  | jtagSamplePreload _ | jtagBypass _ =>
    exact .event rfl rfl (fun _ => ⟨_, rfl⟩)
  | trapEntry core slot => exact .event rfl rfl (execTrapEntry_isNext core slot)
  | tagwait core who => exact .event rfl rfl (execTagwait_isNext core who)
  | machine m => exact .event rfl rfl (execMachine_isNext m)
  | breakpointHit core sched n => exact .event rfl rfl (execBreakpointHit_isNext core sched n)
  | schedulerSelect core sched => exact .event rfl rfl (execSchedulerSelect_isNext core sched)
  | tileAccessLand core slot idx => exact .event rfl rfl (execTileAccessLand_isNext core slot idx)
  | waitcReturn core slot => exact .event rfl rfl (execWaitcReturn_isNext core slot)
  | tlwaitReturn core slot => exact .event rfl rfl (execTlwaitReturn_isNext core slot)
  | bwaitReturn core slot => exact .event rfl rfl (execBwaitReturn_isNext core slot)
  | recastWake core slot => exact .event rfl rfl (execRecastWake_isNext core slot)
  | cpostAccept core slot => exact .event rfl rfl (execCpostAccept_isNext core slot)
  | mmaAccept core slot => exact .event rfl rfl (execMmaAccept_isNext core slot)
  | fenceDrained core slot => exact .event rfl rfl (execFenceDrained_isNext core slot)
  | icinvDone core slot => exact .event rfl rfl (execIcinvDone_isNext core slot)
  | sgwrDone core slot => exact .event rfl rfl (execSgwrDone_isNext core slot)
  | tlbsyncDone core slot => exact .event rfl rfl (execTlbsyncDone_isNext core slot)
  | atomicElementPerform who => exact .event rfl rfl (execAtomicElementPerform_isNext who)
  | writeThroughAck die asid line => exact .event rfl rfl (execWriteThroughAck_isNext die asid line)
  | copyDispatch core engine ctx => exact .event rfl rfl (execCopyDispatch_isNext core engine ctx)
  | copyFaultSuspend core engine ctx => exact .event rfl rfl (execCopyFaultSuspend_isNext core engine ctx)
  | faultBatchPost core engine ctx => exact .event rfl rfl (execFaultBatchPost_isNext core engine ctx)
  | copyComplete core engine ctx => exact .event rfl rfl (execCopyComplete_isNext core engine ctx)
  | matrixUnitStart core => exact .event rfl rfl (execMatrixUnitStart_isNext core)
  | matrixCommandComplete core => exact .event rfl rfl (execMatrixCommandComplete_isNext core)
  | wbldRun core => exact .event rfl rfl (execWbldRun_isNext core)
  | wbldComplete core => exact .event rfl rfl (execWbldComplete_isNext core)
  | wbinvEffect core => exact .event rfl rfl (execWbinvEffect_isNext core)
  | scanStart core => exact .event rfl rfl (execScanStart_isNext core)
  | scanComplete core => exact .event rfl rfl (execScanComplete_isNext core)
  | scanstComplete core => exact .event rfl rfl (execScanstComplete_isNext core)
  | tokenRefill port => exact .event rfl rfl (execTokenRefill_isNext port)
  | portSend port => exact .event rfl rfl (execPortSend_isNext port)
  | priorityAging idx => exact .event rfl rfl (execPriorityAging_isNext idx)
  | timeSliceEnd core gid => exact .event rfl rfl (execTimeSliceEnd_isNext core gid)
  | clusterPlacement idx => exact .event rfl rfl (execClusterPlacement_isNext idx)
  | preemption core gid => exact .event rfl rfl (execPreemption_isNext core gid)
  | groupHaltRelease core gid => exact .event rfl rfl (execGroupHaltRelease_isNext core gid)
  | restorePlacement idx core => exact .event rfl rfl (execRestorePlacement_isNext idx core)
  | groupRetirement core gid => exact .event rfl rfl (execGroupRetirement_isNext core gid)
  | launchEntryTake asid queue => exact .event rfl rfl (execLaunchEntryTake_isNext asid queue)
  | gridEnd gridId => exact .event rfl rfl (execGridEnd_isNext gridId)
  | taskArrival core idx => exact .event rfl rfl (execTaskArrival_isNext core idx)
  | taskPlacement core entry => exact .event rfl rfl (execTaskPlacement_isNext core entry)
  | collMemberComplete die ctx => exact .event rfl rfl (execCollMemberComplete_isNext die ctx)
  | gatewayCombine key src dst => exact .event rfl rfl (execGatewayCombine_isNext key src dst)
  | multicastPacketArrival src dst => exact .event rfl rfl (execMulticastPacketArrival_isNext src dst)
  | stallHintExpiry dev tc => exact .event rfl rfl (execStallHintExpiry_isNext dev tc)
  | ackTimeout dev tc => exact .event rfl rfl (execAckTimeout_isNext dev tc)
  | routeRetry dev => exact .event rfl rfl (execRouteRetry_isNext dev)
  | fabricTimeout core engine ctx => exact .event rfl rfl (execFabricTimeout_isNext core engine ctx)
  | asidFreed asid => exact .event rfl rfl (execAsidFreed_isNext asid)
  | linkStateChange link dest => exact .event rfl rfl (execLinkStateChange_isNext link dest)
  | sidebandRegisterWrite link addr value => exact .event rfl rfl (execSidebandRegisterWrite_isNext link addr value)
  | sidebandCommandFinish link => exact .event rfl rfl (execSidebandCommandFinish_isNext link)
  | companionDeviceMemoryAccess a => exact .event rfl rfl (execCompanionDeviceMemoryAccess_isNext a)
  | linkAbsenceTimeout core engine ctx => exact .event rfl rfl (execLinkAbsenceTimeout_isNext core engine ctx)
  | tagWaitSatisfied c who => exact .tagWait c who rfl

/-! ## The wake-up of a tag wait (10 R261) -/

/-- An outcome is a next state, or there was no warp or grip to act. -/
def Answers (o : Host.Outcome State Fault Refusal) : Prop := IsNext o ∨ o = .fault .noActor

theorem Answers.next (t : State) : Answers (.next t) := .inl (IsNext.next t)

theorem runSpec_answers (sp : Spec) (kBad : Bool) (x : Ext) (len : Nat) (s : State) : Answers (runSpec sp kBad x len s) := by
  unfold runSpec
  split
  · split
    · exact .inr rfl
    · split
      · exact .inr rfl
      · exact Answers.next _
  · exact .inr rfl

theorem runGrip_answers (f : Nat → Nat → Nat → Group → State) (s : State) : Answers (runGrip f s) := by
  unfold runGrip
  split
  · split
    · exact .inr rfl
    · split
      · exact .inr rfl
      · exact Answers.next _
  · exact .inr rfl

/-- The wake-up of a warp's tag wait answers in every state. -/
theorem tagWait_warp_isNext (s : State) (c slot : Nat) : IsNext (exec (.tagWaitSatisfied c (.warp slot)) s) := by
  show IsNext (execTagWaitSatisfied c (.warp slot) s)
  unfold execTagWaitSatisfied
  dsimp only
  split
  case h_5 => exact IsNext.next s
  all_goals next hw => exact isNext_resume_instr hw (fun _ => rfl)

/-- The wake-up of a grip's tag wait answers a next state, or what the grip's access answers. -/
theorem tagWait_grip {P : Host.Outcome State Fault Refusal → Prop} {s : State} {c g : Nat} (hnext : ∀ t, P (.next t))
    (hrun : ((s.core c).grip g).run = 1 → ∀ f, P (runGrip f { s with cur := .grip c g })) : P (exec (.tagWaitSatisfied c (.grip g)) s) := by
  show P (execTagWaitSatisfied c (.grip g) s)
  unfold execTagWaitSatisfied
  dsimp only
  split
  next h =>
    split
    · split
      · exact hnext _
      · exact hrun h.1 _
    · split
      · exact hnext _
      · exact hrun h.1 _
    · exact hnext _
  · exact hnext _

/-- A grip that runs has its group, so its access answers a next state. -/
theorem Owned.runGrip_isNext {s : State} (h : Owned s) {c g : Nat} (hr : ((s.core c).grip g).run = 1) (f : Nat → Nat → Nat → Group → State) :
    IsNext (runGrip f { s with cur := .grip c g }) := by
  obtain ⟨gid, hgid, hgr⟩ := h.grips c g hr
  obtain ⟨gr, hgr⟩ := Option.isSome_iff_exists.1 hgr
  have ha : GripActs { s with cur := .grip c g } c g gid ((s.core c).grip g) gr := ⟨rfl, rfl, hgid, hgr⟩
  exact ⟨_, runGrip_of_gripActs ha f⟩

theorem tagWait_isNext {s : State} (h : Owned s) (c : Nat) (who : TagWaiter) : IsNext (exec (.tagWaitSatisfied c who) s) := by
  cases who with
  | warp slot => exact tagWait_warp_isNext s c slot
  | grip g => exact tagWait_grip IsNext.next (fun hr f => h.runGrip_isNext hr f)

theorem exec_answers (i : Instr) (s : State) : Answers (exec i s) := by
  cases row i with
  | warp sp kBad x len he hg hx => exact hx s ▸ runSpec_answers sp kBad x len s
  | grip f hg hx => exact hx s ▸ runGrip_answers (f s) s
  | event he hg hx => exact .inl (hx s)
  | tagWait c who hi =>
    subst hi
    cases who with
    | warp slot => exact .inl (tagWait_warp_isNext s c slot)
    | grip g => exact tagWait_grip Answers.next (fun _ f => runGrip_answers f _)

/-! ## A step refuses nothing -/

/-- An outcome refuses nothing. -/
def Unrefused (o : Host.Outcome State Fault Refusal) : Prop := ∀ r, o ≠ .refused r

theorem Unrefused.next (t : State) : Unrefused (.next t) := nofun
theorem Unrefused.fault (f : Fault) : Unrefused (.fault f) := nofun
theorem Answers.unrefused {o : Host.Outcome State Fault Refusal} (h : Answers o) : Unrefused o := by
  rcases h with ⟨t, rfl⟩ | rfl
  · exact Unrefused.next t
  · exact Unrefused.fault _
theorem Unrefused.ite {p : Prop} {inst : Decidable p} {o o' : Host.Outcome State Fault Refusal} (h : Unrefused o) (h' : Unrefused o') :
    Unrefused (if p then o else o') := by
  split
  · exact h
  · exact h'

theorem exec_unrefused (i : Instr) (s : State) : Unrefused (exec i s) := (exec_answers i s).unrefused

/-- The row of an event of the part's own. -/
noncomputable def Own.row (e : Own) : Instr :=
  match e with
  | .trapEntry core slot => .trapEntry core slot
  | .storeQueuePerform core slot => .storeQueuePerform core slot
  | .loadLand core slot idx which => .loadLand core slot idx which
  | .tileAccessLand core slot idx => .tileAccessLand core slot idx
  | .waitcReturn core slot => .waitcReturn core slot
  | .tlwaitReturn core slot => .tlwaitReturn core slot
  | .bwaitReturn core slot => .bwaitReturn core slot
  | .recastWake core slot => .recastWake core slot
  | .cpostAccept core slot => .cpostAccept core slot
  | .mmaAccept core slot => .mmaAccept core slot
  | .fenceDrained core slot => .fenceDrained core slot
  | .icinvDone core slot => .icinvDone core slot
  | .sgwrDone core slot => .sgwrDone core slot
  | .tlbsyncDone core slot => .tlbsyncDone core slot
  | .tagWaitSatisfied core who => .tagWaitSatisfied core who
  | .tagwait core who => .tagwait core who
  | .gripStorePerform core grip => .gripStorePerform core grip
  | .schedulerSelect core sched => .schedulerSelect core sched
  | .copyDispatch core engine ctx => .copyDispatch core engine ctx
  | .copyFaultSuspend core engine ctx => .copyFaultSuspend core engine ctx
  | .faultBatchPost core engine ctx => .faultBatchPost core engine ctx
  | .copyComplete core engine ctx => .copyComplete core engine ctx
  | .linkAbsenceTimeout core engine ctx => .linkAbsenceTimeout core engine ctx
  | .fabricTimeout core engine ctx => .fabricTimeout core engine ctx
  | .atomicElementPerform who => .atomicElementPerform who
  | .gafferWindow core => .gafferWindow core
  | .tokenRefill port => .tokenRefill port
  | .portSend port => .portSend port
  | .matrixUnitStart core => .matrixUnitStart core
  | .matrixCommandComplete core => .matrixCommandComplete core
  | .wbldRun core => .wbldRun core
  | .wbldComplete core => .wbldComplete core
  | .wbinvEffect core => .wbinvEffect core
  | .scanStart core => .scanStart core
  | .scanComplete core => .scanComplete core
  | .scanstComplete core => .scanstComplete core
  | .preemption core gid => .preemption core gid
  | .timeSliceEnd core gid => .timeSliceEnd core gid
  | .groupHaltRelease core gid => .groupHaltRelease core gid
  | .groupRetirement core gid => .groupRetirement core gid
  | .taskArrival core idx => .taskArrival core idx
  | .taskPlacement core entry => .taskPlacement core entry
  | .writeThroughAck die asid line => .writeThroughAck die asid line
  | .collectiveMatched key => .collectiveMatched key
  | .gatewayCombine key src dst => .gatewayCombine key src dst
  | .collMemberComplete die ctx => .collMemberComplete die ctx
  | .multicastPacketArrival src dst => .multicastPacketArrival src dst
  | .clusterPlacement idx => .clusterPlacement idx
  | .priorityAging idx => .priorityAging idx
  | .restorePlacement idx core => .restorePlacement idx core
  | .launchEntryTake asid queue => .launchEntryTake asid queue
  | .gridEnd gridId => .gridEnd gridId
  | .asidFreed asid => .asidFreed asid
  | .stallHintExpiry dev tc => .stallHintExpiry dev tc
  | .ackTimeout dev tc => .ackTimeout dev tc
  | .routeRetry dev => .routeRetry dev
  | .sidebandCommandFinish link => .sidebandCommandFinish link

/-- What an event of the part's own does is its row's, unless a grid has halted groups and does not end. -/
theorem runOwn_eq (e : Own) (s : State) : runOwn e s = .next s ∨ runOwn e s = exec e.row s := by
  cases e with
  | gridEnd id =>
    by_cases h : s.gridHalted id = true
    · exact .inl (if_pos h)
    · exact .inr (if_neg h)
  | _ => exact .inr rfl

theorem runOwn_unrefused (e : Own) (s : State) : Unrefused (runOwn e s) := by
  rcases runOwn_eq e s with h | h <;> rw [h]
  · exact Unrefused.next s
  · exact exec_unrefused e.row s

theorem afterIssue_unrefused {s : State} {c slot : Nat} {i : Option Instr} {o : Host.Outcome State Fault Refusal} (h : Unrefused o) :
    Unrefused (afterIssue s c slot i o) := by
  cases o with
  | next t => exact Unrefused.next _
  | fault f => exact Unrefused.fault f
  | refused r => exact absurd rfl (h r)

theorem issueNext_unrefused (s : State) (c slot : Nat) (w : Warp) (g : Group) : Unrefused (issueNext s c slot w g) := by
  unfold issueNext
  dsimp only
  split
  · exact afterIssue_unrefused (Unrefused.next _)
  · exact Unrefused.ite (Unrefused.next _) (afterIssue_unrefused (exec_unrefused _ _))

theorem issueTurn_unrefused (s : State) (c q : Nat) : Unrefused (issueTurn s c q) := by
  unfold issueTurn
  dsimp only
  split
  · exact Unrefused.next s
  · split
    · exact Unrefused.next s
    · split
      · exact Unrefused.next s
      · refine Unrefused.ite (Unrefused.next s) (Unrefused.ite (exec_unrefused (.trapEntry c _) s)
          (Unrefused.ite (exec_unrefused (.preemption c _) s) ?_))
        split
        · exact exec_unrefused (.breakpointHit c q _) s
        · exact issueNext_unrefused s c _ _ _

theorem gripTurn_unrefused (s : State) (c g : Nat) : Unrefused (gripTurn s c g) := by
  unfold gripTurn
  dsimp only
  refine Unrefused.ite (Unrefused.next s) ?_
  split
  · exact Unrefused.next _
  · exact Unrefused.next _
  · exact Unrefused.next _
  · exact Unrefused.next _
  · refine Unrefused.ite (Unrefused.next s) ?_
    split
    · exact Unrefused.next _
    · exact exec_unrefused _ _

theorem eventTurn_unrefused (s : State) (i : Instr) : Unrefused (eventTurn s i) :=
  Unrefused.ite (Unrefused.fault _) (Unrefused.ite (exec_unrefused i _) (Unrefused.next s))

theorem takeAct_unrefused (s : State) (a : Act) : Unrefused (takeAct s a) := by
  have hn := Unrefused.next
  unfold takeAct
  split
  · exact eventTurn_unrefused s _
  · exact (hn s).ite (runOwn_unrefused _ _)
  · exact (hn s).ite (issueTurn_unrefused s _ _)
  · exact (hn s).ite (gripTurn_unrefused s _ _)
  · exact (hn s).ite (hn _)
  · exact (hn s).ite (hn _)
  · exact hn _
  · exact (hn s).ite (hn _)
  · exact (hn s).ite (hn _)
  · exact (hn s).ite (hn _)

theorem step_unrefused (s : State) : Unrefused (step s) := by
  show Unrefused (turnStep s)
  unfold turnStep
  split
  · exact Unrefused.next _
  · exact Unrefused.ite (Unrefused.fault _) (Unrefused.ite (Unrefused.next _) (takeAct_unrefused _ _))

/-! ## O45 -/

theorem exec_ne_noSuchUnit (i : Instr) (s : State) : exec i s ≠ .fault .noSuchUnit := by
  rcases exec_answers i s with ⟨t, h⟩ | h <;> rw [h] <;> nofun

theorem exec_isNext_of_acts {i : Instr} {s : State} {c slot : Nat} {w : Warp} {g : Group} (he : encode i ≠ []) (hg : i.isGrip = false)
    (h : Acts s c slot w g) : IsNext (exec i s) := by
  cases row i with
  | warp sp kBad x len he hg hx => exact ⟨_, (hx s).trans (runSpec_next sp kBad x len h)⟩
  | grip f hg' hx => exact absurd (hg'.symm.trans hg) (by decide)
  | event he' hg hx => exact absurd he' he
  | tagWait c who hi => exact absurd (by rw [hi]; rfl) he

theorem exec_isNext_of_gripActs {i : Instr} {s : State} {c g gid : Nat} {x : Grip} {gr : Group} (hg : i.isGrip = true)
    (h : GripActs s c g gid x gr) : IsNext (exec i s) := by
  cases row i with
  | warp sp kBad x len he hg' hx => exact absurd (hg'.symm.trans hg) (by decide)
  | grip f hg hx => exact ⟨_, (hx s).trans (runGrip_of_gripActs h (f s))⟩
  | event he hg' hx => exact absurd (hg'.symm.trans hg) (by decide)
  | tagWait c who hi => rw [hi] at hg; exact absurd hg Bool.false_ne_true

theorem exec_isNext_of_owned {i : Instr} {s : State} (he : encode i = []) (hg : i.isGrip = false) (h : Owned s) : IsNext (exec i s) := by
  cases row i with
  | warp sp kBad x len he' hg hx => exact absurd he he'
  | grip f hg' hx => exact absurd (hg'.symm.trans hg) (by decide)
  | event he hg hx => exact hx s
  | tagWait c who hi => exact hi ▸ tagWait_isNext h c who

/-- Settles O45: by what each row is, and for a step by the turn that it takes. -/
theorem nothingIsRefused : Obligations.NothingIsRefused :=
  ⟨fun i s => exec_unrefused i s, step_unrefused, exec_ne_noSuchUnit, fun _ _ _ _ _ _ he hg h => exec_isNext_of_acts he hg h,
    fun _ _ _ _ _ _ _ hg h => exec_isNext_of_gripActs hg h, fun _ _ he hg h => exec_isNext_of_owned he hg h⟩

end Sys2Proof.Machine

/-! PROOFS. Waits on counters and timelines, named barriers and event counters (17 R412 to R428): O21 to O24. -/

namespace Sys2Proof.Machine

/-! ## Forms that block or trap -/

/-- A meaning that blocks leaves its warp waiting. -/
theorem settle_of_block {sp : Spec} {i : Issue} {t : Waiting} (h : sp.body i = .block t i.s) :
    settle sp i (sp.body i) = countIssue sp.shape i (i.s.blockIn i.c i.slot t) := by rw [h]; rfl

/-- A meaning that is the trap SLATE with a number of its issue. -/
theorem extLeaves_slates {mk : Ext → Instr} {sp : Ext → Spec} {ok : Issue → Prop} {v : Issue → Nat}
    (hb : ∀ i, ok i → (sp i.x).body i = .trap { cause := 0x0A, tval := BitVec.ofNat 64 (v i) })
    (he : ∀ x s, exec (mk x) s = runExt sp x s := by intros; rfl) : ExtLeaves mk sp ok (fun i => slates (v i) i) :=
  extLeaves_of_stands (fun i _ h => settle_of_trap (hb i h)) he

theorem indexTrap_of_lt {limit n : Nat} (h : n < limit) : indexTrap limit n = none := if_neg (Nat.not_le.2 h)

theorem indexTrap_of_le {limit n : Nat} (h : limit ≤ n) : indexTrap limit n = some { cause := 0x0A, tval := BitVec.ofNat 64 n } := if_pos h

/-! ## WAITC (17 R413, R414) -/

theorem limitOk_iff {limit n : Nat} : limitOk limit n = true ↔ limitMet limit n := by
  simp only [limitOk, limitMet, Bool.or_eq_true, beq_iff_eq, decide_eq_true_eq]

theorem waitcDone_iff {i : Issue} : i.w.waitcDone i.x = true ↔ waitcMet i := by
  have hlimits : i.w.waitcDone i.x = true ↔ limitMet (waitcLimits i.x).1 i.w.ld ∧ limitMet (waitcLimits i.x).2.1 i.w.st ∧
      limitMet (waitcLimits i.x).2.2.1 i.w.cp ∧ limitMet (waitcLimits i.x).2.2.2 i.w.tl := by
    simp only [Warp.waitcDone, Bool.and_eq_true, limitOk_iff, and_assoc]
  exact hlimits

theorem waitcSpec_body (i : Issue) : (waitcSpec i.x).body i = if i.w.waitcDone i.x then .done i.res else .block (i.wait (.waitc i.x)) i.s := rfl

/-! ## TLWAIT and TLRD (17 R415 to R417) -/

theorem tlwaitSpec_body {i : Issue} (h : hasLine i) : (tlwaitSpec i.x).body i =
    match (lineOf i).waitDone (i.a 0) with
    | none => .block (i.wait (.tlwait i.x)) i.s
    | some e => .done { lineResult e i with after := asyncTrap i.g (lineNum i) (lineOf i) e } := by
  simp only [tlwaitSpec, Spec.blocks, show indexTrap i.g.nTl (tlField i.x) = none from indexTrap_of_lt h]
  rfl

theorem tlwaitSpec_beyond {i : Issue} (h : ¬hasLine i) :
    (tlwaitSpec i.x).body i = .trap { cause := 0x0A, tval := BitVec.ofNat 64 (lineNum i) } := by
  simp only [tlwaitSpec, Spec.blocks, show indexTrap i.g.nTl (tlField i.x) = _ from indexTrap_of_le (Nat.not_lt.1 h)]
  rfl

theorem waitDone_reached {i : Issue} (h : i.a 0 ≤ (lineOf i).value) : (lineOf i).waitDone (i.a 0) = some false := if_pos h

theorem waitDone_failed {i : Issue} (h : (lineOf i).value < i.a 0) (hf : lineFailed i) : (lineOf i).waitDone (i.a 0) = some true := by
  have hb : ((lineOf i).blocked && decide ((lineOf i).value + 1 ≤ i.a 0)) = true := by rw [hf, Bool.true_and]; exact decide_eq_true h
  exact (if_neg (Nat.not_le.2 h)).trans (if_pos hb)

theorem waitDone_below {i : Issue} (h : (lineOf i).value < i.a 0) (hf : ¬lineFailed i) : (lineOf i).waitDone (i.a 0) = none := by
  have hb : ¬((lineOf i).blocked && decide ((lineOf i).value + 1 ≤ i.a 0)) = true := by rw [Bool.eq_false_iff.2 hf]; exact Bool.false_ne_true
  exact (if_neg (Nat.not_le.2 h)).trans (if_neg hb)

theorem tlwaitSpec_reached {i : Issue} (h : hasLine i ∧ i.a 0 ≤ (lineOf i).value) : (tlwaitSpec i.x).body i = .done (lineResult false i) := by
  rw [tlwaitSpec_body h.1, waitDone_reached h.2]
  rfl

theorem tlwaitSpec_failed {i : Issue} (h : hasLine i ∧ (lineOf i).value < i.a 0 ∧ lineFailed i ∧ i.g.asyncen = false) :
    (tlwaitSpec i.x).body i = .done (lineResult true i) := by
  obtain ⟨hl, hv, hf, ha⟩ := h
  rw [tlwaitSpec_body hl, waitDone_failed hv hf]
  simp only [asyncTrap, ha]
  rfl

theorem tlwaitSpec_async {i : Issue} (h : hasLine i ∧ (lineOf i).value < i.a 0 ∧ lineFailed i ∧ i.g.asyncen = true) :
    (tlwaitSpec i.x).body i = .done (lineAsync i) := by
  obtain ⟨hl, hv, hf, ha⟩ := h
  rw [tlwaitSpec_body hl, waitDone_failed hv hf]
  simp only [asyncTrap, ha]
  rfl

theorem tlwaitSpec_blocks {i : Issue} (h : hasLine i ∧ (lineOf i).value < i.a 0 ∧ ¬lineFailed i) :
    (tlwaitSpec i.x).body i = .block (i.wait (.tlwait i.x)) i.s := by
  obtain ⟨hl, hv, hf⟩ := h
  rw [tlwaitSpec_body hl, waitDone_below hv hf]

/-- A result that raises no flag and meets no poison is followed by its own trap alone. -/
theorem afterTrap_own (g : Group) {r : Res} (hp : r.poison = none) (hf : r.flags = 0) : afterTrap g r = r.after := by
  simp [afterTrap, hp, hf]

theorem tlrdSpec_body {i : Issue} (h : hasLine i) : (tlrdSpec i.x).body i =
    if modBit i.x 4 then
      if (lineOf i).incomplete then .trap { cause := 0x0A, tval := BitVec.ofNat 64 (lineNum i) } else .done (lineSet i)
    else .done (lineResult (lineOf i).blocked i) := by
  simp only [tlrdSpec, Spec.plain, show indexTrap i.g.nTl (tlField i.x) = none from indexTrap_of_lt h]
  rfl

theorem incomplete_iff {i : Issue} : (lineOf i).incomplete = true ↔ lineBusy i := decide_eq_true_iff

theorem tlrdSpec_read {i : Issue} (h : hasLine i ∧ ¬setBit 4 i) : (tlrdSpec i.x).body i = .done (lineResult (lineOf i).blocked i) := by
  rw [tlrdSpec_body h.1, if_neg h.2]

theorem tlrdSpec_set {i : Issue} (h : hasLine i ∧ setBit 4 i ∧ ¬lineBusy i) : (tlrdSpec i.x).body i = .done (lineSet i) := by
  rw [tlrdSpec_body h.1, if_pos h.2.1, if_neg (mt incomplete_iff.1 h.2.2)]

theorem tlrdSpec_traps {i : Issue} (h : ¬hasLine i ∨ (setBit 4 i ∧ lineBusy i)) :
    (tlrdSpec i.x).body i = .trap { cause := 0x0A, tval := BitVec.ofNat 64 (lineNum i) } := by
  by_cases hl : hasLine i
  · obtain ⟨hs, hb⟩ := h.resolve_left (not_not.2 hl)
    rw [tlrdSpec_body hl, if_pos hs, if_pos (incomplete_iff.2 hb)]
  · simp only [tlrdSpec, Spec.plain, show indexTrap i.g.nTl (tlField i.x) = _ from indexTrap_of_le (Nat.not_lt.1 hl)]
    rfl

/-- Settles O21: each meaning by where its counters or its timeline stand; what it is done with leaves the warp in its slot. -/
theorem counterWaitsComplete : Obligations.CounterWaitsComplete := by
  refine ⟨?waitc, ?waitcBlocks, ?tlwait, ?tlwaitFailed, ?tlwaitAsync, ?tlwaitBlocks, ?tlrd, ?tlrdSet⟩
  case waitc =>
    exact extFormWhen_of_stands (fun i _ h => by rw [waitcSpec_body, if_pos (waitcDone_iff.2 h)]) (fun _ _ _ => Keeps.refl _ _)
  case waitcBlocks =>
    exact extLeaves_of_stands (fun i _ h => settle_of_block (by rw [waitcSpec_body, if_neg (mt waitcDone_iff.1 h)]))
  case tlwait => exact extFormWhen_of_stands (fun _ _ h => tlwaitSpec_reached h) (fun _ _ _ => Keeps.refl _ _)
  case tlwaitFailed => exact extFormWhen_of_stands (fun _ _ h => tlwaitSpec_failed h) (fun _ _ _ => Keeps.refl _ _)
  case tlwaitAsync =>
    exact extTraps_of_body _ _ _ _ _ (fun _ _ => rfl) (fun _ _ hx h => hx ▸ tlwaitSpec_async h) (fun i _ => afterTrap_own _ rfl rfl)
      (keepsWarp_of_state (fun _ => rfl))
  case tlwaitBlocks => exact extLeaves_of_stands (fun _ _ h => settle_of_block (tlwaitSpec_blocks h))
  case tlrd => exact extFormWhen_of_stands (fun _ _ h => tlrdSpec_read h) (fun _ _ _ => Keeps.refl _ _)
  case tlrdSet => exact extFormWhen_of_stands (fun _ _ h => tlrdSpec_set h) (fun _ _ _ => keeps_modGroup _ _ _ _ _)

/-! ## BALLOC and BFREE (17 R418, R419) -/

theorem freeBar_of_lowestFree {i : Issue} (h : lowestFree i (freeOne i)) : i.g.freeBar = some (freeOne i) := by
  obtain ⟨hn, hf, hlow⟩ := h
  rw [Group.freeBar, List.find?_range_eq_some]
  refine ⟨by simpa using hf, List.mem_range.2 hn, fun m hm => ?_⟩
  simpa using hlow m hm

theorem freeBar_of_none {i : Issue} (h : ∀ n < i.g.nBar, ¬barFree i n) : i.g.freeBar = none := by
  simpa only [Group.freeBar, List.find?_eq_none, List.mem_range, decide_eq_true_eq] using h

theorem savedOk_iff {i : Issue} : barrierWordBad (i.a 0) = false ↔ savedOk i := by
  simp only [barrierWordBad, Bool.or_eq_false_iff, Bool.and_eq_false_iff, bne_eq_false_iff_eq, decide_eq_false_iff_not, not_le]

theorem countOk_iff {n : Nat} : ¬(n = 0 ∨ 65535 < n) ↔ countOk n := by simp only [not_or, not_lt]

/-- BALLOC that names no barrier (17 R419). -/
theorem ballocSpec_any {i : Issue} (hfix : ¬setBit 0 i) (hset : ¬setBit 1 i) : (ballocSpec i.x).body i =
    if i.a 0 = 0 ∨ 65535 < i.a 0 then .trap { cause := 0x0A, tval := 0 }
    else match i.g.freeBar with
      | some n => .done (ballocResult n i)
      | none => .done (ballocNone i) := by
  simp only [ballocSpec, Spec.plain, Bool.eq_false_iff.2 hfix, Bool.eq_false_iff.2 hset, Bool.or_self, Bool.false_eq_true, if_false]
  rfl

/-- BALLOC with FIX: the barrier that SRCB names, or none. -/
theorem ballocSpec_fix {i : Issue} (hfix : setBit 0 i) (hset : ¬setBit 1 i) (hb : i.b 0 < i.g.nBar) : (ballocSpec i.x).body i =
    if i.a 0 = 0 ∨ 65535 < i.a 0 then .trap { cause := 0x0A, tval := 0 }
    else if (i.g.bar (i.b 0)).expected = 0 then .done (ballocResult (i.b 0) i) else .done (ballocNone i) := by
  simp only [ballocSpec, Spec.plain, show modBit i.x 0 = true from hfix, Bool.eq_false_iff.2 hset, Bool.true_or, Bool.false_eq_true, if_false,
    if_true, indexTrap_of_lt hb]
  split_ifs <;> rfl

/-- BALLOC with SET: barrier SRCB from a saved word. -/
theorem ballocSpec_set {i : Issue} (hset : setBit 1 i) (hb : i.b 0 < i.g.nBar) : (ballocSpec i.x).body i =
    if barrierWordBad (i.a 0) then .trap { cause := 0x0A, tval := 0 } else .done (ballocSaved i) := by
  simp only [ballocSpec, Spec.plain, show modBit i.x 1 = true from hset, Bool.or_true, if_true, indexTrap_of_lt hb]
  rfl

theorem ballocSpec_beyond {i : Issue} (h : (setBit 0 i ∨ setBit 1 i) ∧ i.g.nBar ≤ i.b 0) :
    (ballocSpec i.x).body i = .trap { cause := 0x0A, tval := BitVec.ofNat 64 (i.b 0) } := by
  have hn : (modBit i.x 0 || modBit i.x 1) = true := Bool.or_eq_true_iff.2 h.1
  simp only [ballocSpec, Spec.plain, hn, if_true, indexTrap_of_le h.2]

theorem bfreeSpec_done {i : Issue} (h : i.a 0 < i.g.nBar) : (bfreeSpec i.x).body i = .done (bfreeResult i) := by
  simp only [bfreeSpec, Spec.plain, indexTrap_of_lt h]
  rfl

/-! ## BARV, BARVW and BWAIT (17 R420, R421) -/

theorem freeTrap_of_free {g : Group} {n : Nat} (h : (g.bar n).expected = 0) :
    freeTrap g n = some { cause := 0x0A, tval := BitVec.ofNat 64 (0x100 + n) } := if_pos h

theorem freeTrap_of_allocated {g : Group} {n : Nat} (h : ¬(g.bar n).expected = 0) : freeTrap g n = none := if_neg h

theorem arriveBody_done {i : Issue} (h : arriveOk i) (weight : Nat) : arriveBody i weight = .done (arriveResult weight i) := by
  obtain ⟨-, hf, hq⟩ := h
  simp only [arriveBody, freeTrap_of_allocated hf]
  exact if_neg (Nat.not_le.2 hq)

theorem barvSpec_arrives {i : Issue} (h : arriveOk i) : (barvSpec i.x).body i = .done (arriveResult 1 i) := by
  simp only [barvSpec, Spec.plain, indexTrap_of_lt h.1, arriveBody_done h]

theorem barvwSpec_arrives {i : Issue} (h : arriveOk i ∧ countOk (i.b 0)) : (barvwSpec i.x).body i = .done (arriveResult (i.b 0) i) := by
  simp only [barvwSpec, Spec.plain, indexTrap_of_lt h.1.1, if_neg (countOk_iff.2 h.2), arriveBody_done h.1]

theorem bwaitSpec_body {i : Issue} (h : bwaitOk i) : (bwaitSpec i.x).body i =
    if lapped i = 0 then .block (i.wait (.bwait i.x)) i.s else .done (bwaitResult i) := by
  have ht : (if i.w.waiting.isSome = true then none else freeTrap i.g (i.a 0)) = none := by
    split
    · rfl
    · next hw => exact freeTrap_of_allocated (h.2.resolve_right hw)
  simp only [bwaitSpec, Spec.blocks, indexTrap_of_lt h.1, ht]
  rfl

theorem bwaitSpec_free {i : Issue} (h : i.a 0 < i.g.nBar ∧ barFree i (i.a 0) ∧ i.w.waiting.isSome = false) :
    (bwaitSpec i.x).body i = .trap { cause := 0x0A, tval := BitVec.ofNat 64 (0x100 + i.a 0) } := by
  obtain ⟨hn, hf, hw⟩ := h
  simp only [bwaitSpec, Spec.blocks, indexTrap_of_lt hn, hw, Bool.false_eq_true, if_false, freeTrap_of_free hf]
  rfl

/-- Settles O22: each meaning by the barrier that it names or finds; what it is done with leaves the warp in its slot. -/
theorem barriersComplete : Obligations.BarriersComplete := by
  refine ⟨?any, ?none, ?fix, ?taken, ?saved, ?bfree, ?barv, ?barvw, ?bwait, ?bwaitBlocks⟩
  case any =>
    refine extFormWhen_of_stands (fun i _ ⟨hfix, hset, hc, hl⟩ => ?_) (fun _ _ _ => keeps_modGroup _ _ _ _ _)
    rw [ballocSpec_any hfix hset, if_neg (countOk_iff.2 hc), freeBar_of_lowestFree hl]
  case none =>
    refine extFormWhen_of_stands (fun i _ ⟨hfix, hset, hc, hn⟩ => ?_) (fun _ _ _ => Keeps.refl _ _)
    rw [ballocSpec_any hfix hset, if_neg (countOk_iff.2 hc), freeBar_of_none hn]
  case fix =>
    refine extFormWhen_of_stands (fun i _ ⟨hfix, hset, hb, hc, hf⟩ => ?_) (fun _ _ _ => keeps_modGroup _ _ _ _ _)
    rw [ballocSpec_fix hfix hset hb, if_neg (countOk_iff.2 hc), if_pos hf]
  case taken =>
    refine extFormWhen_of_stands (fun i _ ⟨hfix, hset, hb, hc, hf⟩ => ?_) (fun _ _ _ => Keeps.refl _ _)
    rw [ballocSpec_fix hfix hset hb, if_neg (countOk_iff.2 hc), if_neg hf]
  case saved =>
    refine extFormWhen_of_stands (fun i _ ⟨hset, hb, hw⟩ => ?_) (fun _ _ _ => keeps_modGroup _ _ _ _ _)
    rw [ballocSpec_set hset hb, if_neg (Bool.eq_false_iff.1 (savedOk_iff.2 hw))]
  case bfree => exact extFormWhen_of_stands (fun _ _ h => bfreeSpec_done h) (fun _ _ _ => keeps_modGroup _ _ _ _ _)
  case barv => exact extFormWhen_of_stands (fun _ _ h => barvSpec_arrives h) (fun _ _ _ => keeps_modWarp _ _ _ _ _)
  case barvw => exact extFormWhen_of_stands (fun _ _ h => barvwSpec_arrives h) (fun _ _ _ => keeps_modWarp _ _ _ _ _)
  case bwait => exact extFormWhen_of_stands (fun _ _ h => (bwaitSpec_body h.1).trans (if_neg h.2)) (fun _ _ _ => Keeps.refl _ _)
  case bwaitBlocks => exact extLeaves_of_stands (fun _ _ h => settle_of_block ((bwaitSpec_body h.1).trans (if_pos h.2)))

/-! ## Event counters (17 R425 to R427) -/

theorem evCount_le_iff {i : Issue} : evCount (modBit i.x 0) ≤ i.a 0 ↔ ¬evIn i := by
  simp only [evCount, evIn, not_lt]

theorem sourceOk_iff {i : Issue} : sourceOk (modBit i.x 0) (i.b 0) = true ↔ sourceIn i := by
  unfold sourceOk sourceIn
  split_ifs
  · simp only [Bool.or_eq_true, Bool.and_eq_true, beq_iff_eq, decide_eq_true_eq]
  · simp only [Bool.or_eq_true, Bool.and_eq_true, beq_iff_eq, decide_eq_true_eq]
    omega

/-- Every source has a code of eight bits. -/
theorem sourceIn_le {i : Issue} (h : sourceIn i) : i.b 0 ≤ 0xFF := by
  unfold sourceIn at h
  split_ifs at h <;> omega

theorem ecselSpec_illegal_iff {i : Issue} :
    (evCount (modBit i.x 0) ≤ i.a 0 ∨ 0xFF < i.b 0 ∨ (!sourceOk (modBit i.x 0) (i.b 0)) = true) ↔ ¬(evIn i ∧ sourceIn i) := by
  rw [evCount_le_iff, Bool.not_eq_true', ← Bool.not_eq_true, sourceOk_iff, not_and_or]
  exact or_congr_right (or_iff_right_of_imp fun h hs => Nat.not_le.2 h (sourceIn_le hs))

theorem ecrdSpec_body (i : Issue) : (ecrdSpec i.x).body i =
    if evCount (modBit i.x 0) ≤ i.a 0 then .trap { cause := 0x0A, tval := 0 } else .done (ecrdResult i) := rfl

theorem ecselSpec_body (i : Issue) : (ecselSpec i.x).body i =
    if evCount (modBit i.x 0) ≤ i.a 0 ∨ 0xFF < i.b 0 ∨ (!sourceOk (modBit i.x 0) (i.b 0)) = true then .trap { cause := 0x0A, tval := 0 }
    else .done (ecselResult i) := rfl

theorem ecselResult_keeps (i : Issue) : Keeps i.c i.s (ecselResult i).s := by
  unfold ecselResult
  dsimp only
  split
  · exact keeps_modDie _ _ _ _
  · exact keeps_modCore _ _ _ _ (fun _ => rfl)

/-- Settles O23: an existing counter is read, or takes an assigned source. -/
theorem eventCountersComplete : Obligations.EventCountersComplete := by
  refine ⟨?ecrd, ?ecsel⟩
  case ecrd =>
    exact extFormWhen_of_stands (fun i _ h => by rw [ecrdSpec_body, if_neg (mt evCount_le_iff.1 (not_not.2 h))]) (fun _ _ _ => Keeps.refl _ _)
  case ecsel =>
    exact extFormWhen_of_stands (fun i _ h => by rw [ecselSpec_body, if_neg (mt ecselSpec_illegal_iff.1 (not_not.2 h))])
      (fun i _ _ => ecselResult_keeps i)

/-- Settles O24: in each case the meaning is the trap itself. -/
theorem counterSlatesTrap : Obligations.CounterSlatesTrap := by
  refine ⟨?tlwait, ?tlrd, ?beyond, ?saved, ?count, ?bfree, ?barv, ?barvFree, ?barvw, ?bwait, ?ecrd, ?ecsel⟩
  case tlwait => exact extLeaves_slates (fun _ h => tlwaitSpec_beyond h)
  case tlrd => exact extLeaves_slates (fun _ h => tlrdSpec_traps h)
  case beyond => exact extLeaves_slates (fun _ h => ballocSpec_beyond h)
  case saved =>
    refine extLeaves_slates (v := fun _ => 0) (fun i ⟨hset, hb, hw⟩ => ?_)
    rw [ballocSpec_set hset hb, if_pos (Bool.not_eq_false _ ▸ mt savedOk_iff.1 hw)]
    rfl
  case count =>
    refine extLeaves_slates (v := fun _ => 0) (fun i ⟨hfix, hset, hc⟩ => ?_)
    rw [ballocSpec_any hfix hset, if_pos (not_not.1 (mt countOk_iff.1 hc))]
    rfl
  case bfree => exact extLeaves_slates (fun i h => by simp only [bfreeSpec, Spec.plain, indexTrap_of_le h])
  case barv => exact extLeaves_slates (fun i h => by simp only [barvSpec, Spec.plain, indexTrap_of_le h])
  case barvFree =>
    exact extLeaves_slates (fun i h => by simp only [barvSpec, Spec.plain, indexTrap_of_lt h.1, arriveBody, freeTrap_of_free h.2])
  case barvw =>
    refine extLeaves_slates (v := fun _ => 0) (fun i ⟨hn, hc⟩ => ?_)
    simp only [barvwSpec, Spec.plain, indexTrap_of_lt hn, if_pos (not_not.1 (mt countOk_iff.1 hc))]
    rfl
  case bwait => exact extLeaves_slates (fun _ h => bwaitSpec_free h)
  case ecrd => exact extLeaves_slates (v := fun _ => 0) (fun i h => by rw [ecrdSpec_body, if_pos (evCount_le_iff.2 h)]; rfl)
  case ecsel => exact extLeaves_slates (v := fun _ => 0) (fun i h => by rw [ecselSpec_body, if_pos (ecselSpec_illegal_iff.2 h)]; rfl)

end Sys2Proof.Machine

/-! PROOFS. The table instructions, CGRP and FXWIN (15 R361, R374; 16 R384, R399 to R410): O27 and O28. -/

namespace Sys2Proof.Machine

/-! ## Accesses of device memory and of the tables leave every core -/

theorem keeps_of_cores {s t : State} (h : t.cores = s.cores) (c : Nat) : Keeps c s t := by
  intro n hn
  have hw : (t.core c).warps = (s.core c).warps := by
    simp only [State.core, Tab.getD, h]
    cases Tab.get? s.cores c <;> rfl
  rwa [State.warp?, hw]

theorem writeBack_cores (s : State) (h : HomeLine) : (s.writeBack h).cores = s.cores := by
  unfold State.writeBack; split <;> rfl

theorem cleanDie_cores (s : State) (d asid : Nat) : (s.cleanDie d asid).cores = s.cores :=
  List.foldlRecOn (motive := fun t : State => t.cores = s.cores) _ _ rfl (fun _ ht _ _ => (writeBack_cores _ _).trans ht)

theorem tlbFlush_cores (s : State) (asid : Nat) : (s.tlbFlush asid).cores = s.cores := by
  unfold State.tlbFlush; split
  · rfl
  · extract_lets s1
    have h1 : s1.cores = s.cores :=
      List.foldlRecOn (motive := fun t : State => t.cores = s.cores) [0, 1, 2, 3] _ rfl (fun _ ht _ _ => (cleanDie_cores _ _ _).trans ht)
    dsimp only
    exact h1

/-! ## TLBFLUSH, TLBSYNC and ASIDRET (16 R408 to R410) -/

theorem asidTrap_of_asidOk {i : Issue} (h : asidOk i) : asidTrap (i.a 0) = none := if_neg (Nat.not_le.2 h)

theorem asidTrap_of_not_asidOk {i : Issue} (h : ¬asidOk i) : asidTrap (i.a 0) = some { cause := 0x0A, tval := 0 } := if_pos (Nat.not_lt.1 h)

theorem tlbflushSpec_done {i : Issue} (h : asidOk i) : (tlbflushSpec i.x).body i = .done (tlbflushResult i) := by
  simp only [tlbflushSpec, sysSpec, Spec.plain, asidTrap_of_asidOk h]
  rfl

theorem tlbflushSpec_traps {i : Issue} (h : ¬asidOk i) : (tlbflushSpec i.x).body i = .trap { cause := 0x0A, tval := 0 } := by
  simp only [tlbflushSpec, sysSpec, Spec.plain, asidTrap_of_not_asidOk h]

theorem tlbsyncSpec_body (i : Issue) : (tlbsyncSpec i.x).body i =
    if i.s.flushesDone (flushMark i) then .done i.res else .hold { i.wait (.tlbsync i.x) with flushes := flushMark i } i.s := rfl

theorem asidretSpec_done {i : Issue} (h : asidOk i) : (asidretSpec i.x).body i = .done (asidretResult i) := by
  have hst : i.s.retireStatus (some i.g.asid) (i.a 0) = retireOf i := by simp only [State.retireStatus, retireOf, Option.some.injEq]
  simp only [asidretSpec, sysSpec, Spec.plain, asidTrap_of_asidOk h, hst]
  rfl

theorem asidretSpec_traps {i : Issue} (h : ¬asidOk i) : (asidretSpec i.x).body i = .trap { cause := 0x0A, tval := 0 } := by
  simp only [asidretSpec, sysSpec, Spec.plain, asidTrap_of_not_asidOk h]

theorem asidretResult_keeps (i : Issue) : Keeps i.c i.s (asidretResult i).s := by
  unfold asidretResult
  dsimp only
  split
  · exact keeps_of_cores ((tlbFlush_cores _ _).trans (State.modPkg_cores _ _)) _
  · exact Keeps.refl _ _

/-! ## SGWR (16 R399) -/

theorem sgwrSpec_returns {i : Issue} (h : i.w.waiting.isSome = true) : (sgwrSpec i.x).body i = .done i.res := if_pos h

theorem sgwrSpec_writes {i : Issue} (h : sgwrOk i) : (sgwrSpec i.x).body i =
    .hold (i.wait (.sgwr i.x)) ((quiet i).writeScope i.g.asid (i.a 0) (localRead ((quiet i).core i.c) i.g (i.b 0) 64)) := by
  obtain ⟨hw, ht⟩ := h
  simp only [quiet] at ht
  simp only [sgwrSpec, sysSpec, Spec.plain, hw, ht, Bool.false_eq_true, if_false]
  rfl

/-! ## BWSET, CGRP and FXWIN (16 R406; 15 R361, R374) -/

theorem bwsetSpec_body (i : Issue) : (bwsetSpec i.x).body i =
    if 7 < i.a 0 ∨ 255 < i.b 0 then .trap { cause := 0x0A, tval := 0 } else .done (bwsetResult i) := by
  have h : (bwsetSpec i.x).body i = if 7 < i.a 0 ∨ 255 < i.b 0 then .trap { cause := 0x0A, tval := 0 }
      else if (bwDies i).all (fun d => decide ((bwNew i d).sum ≤ 256)) then
        .done { i.res with s := (bwDies i).foldl (fun s d => s.modDie d (fun k => { k with weights := bwNew i d })) i.s }
      else .done (wrote i (fun _ => 1)) := rfl
  rw [h, bwsetResult, apply_ite Eff.done]

theorem bwOk_iff {i : Issue} : ¬(7 < i.a 0 ∨ 255 < i.b 0) ↔ bwOk i := by simp only [not_or, not_lt]

theorem bwsetResult_keeps (i : Issue) : Keeps i.c i.s (bwsetResult i).s := by
  unfold bwsetResult
  split
  · exact keeps_foldl (fun _ _ => keeps_modDie _ _ _ _) _ _
  · exact Keeps.refl _ _

theorem cgrpSpec_body (i : Issue) : (cgrpSpec i.x).body i =
    if 32 ≤ i.a 0 then .trap { cause := 0x0A, tval := 0 }
    else if i.s.scopeOk i.c i.g.asid (i.a 0) then .done (cgrpResult i)
    else .trap { cause := 0x0A, tval := BitVec.ofNat 64 (0x400 + i.a 0) } := by
  cases hs : i.s.scope? i.c i.g.asid (i.a 0) with
  | none => simp only [cgrpSpec, Spec.plain, State.scopeOk, hs]; rfl
  | some e => simp only [cgrpSpec, Spec.plain, cgrpResult, State.scopeOk, hs]; rfl

theorem fxwinSpec_body (i : Issue) : (fxwinSpec i.x).body i =
    if 256 ≤ i.a 0 then .trap { cause := 0x0A, tval := 0 } else .done (fxwinResult i) := rfl

/-- Settles O27: each meaning by its operands and its waits; what it is done with leaves the warp in its slot. -/
theorem tablesComplete : Obligations.TablesComplete := by
  refine ⟨?flush, ?sync, ?syncWaits, ?retire, ?sgwr, ?sgwrWaits, ?bwset, ?cgrp, ?fxwin⟩
  case flush => exact extFormWhen_of_stands (fun _ _ h => tlbflushSpec_done h) (fun _ _ _ => keeps_of_cores (tlbFlush_cores _ _) _)
  case sync => exact extFormWhen_of_stands (fun i _ h => by rw [tlbsyncSpec_body, if_pos h]) (fun _ _ _ => Keeps.refl _ _)
  case syncWaits => exact extLeaves_of_stands (fun i _ h => by rw [tlbsyncSpec_body, if_neg h]; rfl)
  case retire => exact extFormWhen_of_stands (fun _ _ h => asidretSpec_done h) (fun i _ _ => asidretResult_keeps i)
  case sgwr => exact extFormWhen_of_stands (fun _ _ h => sgwrSpec_returns h) (fun _ _ _ => Keeps.refl _ _)
  case sgwrWaits => exact extLeaves_of_stands (fun i _ h => by rw [sgwrSpec_writes h]; rfl)
  case bwset =>
    exact extFormWhen_of_stands (fun i _ h => by rw [bwsetSpec_body, if_neg (bwOk_iff.2 h)]) (fun i _ _ => bwsetResult_keeps i)
  case cgrp =>
    exact extFormWhen_of_stands (fun i _ h => by rw [cgrpSpec_body, if_neg (Nat.not_le.2 h.1), if_pos h.2]) (fun _ _ _ => Keeps.refl _ _)
  case fxwin =>
    exact extFormWhen_of_stands (fun i _ h => by rw [fxwinSpec_body, if_neg (Nat.not_le.2 h)]) (fun _ _ _ => Keeps.refl _ _)

/-! ## Their traps (16 R384, R406, R407) -/

/-- An instruction of system kernels is checked for SYS before anything else. -/
theorem systemOnly_of_pre {mk : Ext → Instr} {sp : Ext → Spec} (hp : ∀ i : Issue, (sp i.x).pre i = sysOnly i)
    (he : ∀ x s, exec (mk x) s = runExt sp x s := by intros; rfl) : SystemOnly mk := by
  intro x s c slot w g ha hsys
  have ht : ∀ i : Issue, i.x = x → i.g = g → (sp x).pre i = some { cause := 0x01, tval := 0 } := by
    rintro i rfl rfl
    rw [hp, sysOnly, hsys]
    rfl
  rw [he, runExt, runSpec_next _ _ _ _ ha, issueState, checkTrap, ht _ rfl rfl]
  rfl

/-- Settles O28: SYS is checked first of all; an illegal operand is the trap SLATE itself. -/
theorem tableTraps : Obligations.TableTraps := by
  refine ⟨systemOnly_of_pre (fun _ => rfl), systemOnly_of_pre (fun _ => rfl), systemOnly_of_pre (fun _ => rfl), systemOnly_of_pre (fun _ => rfl),
    systemOnly_of_pre (fun _ => rfl), ?flush, ?retire, ?bwset, ?cgrp, ?cgrpScope, ?fxwin⟩
  case flush => exact extLeaves_slates (v := fun _ => 0) (fun _ h => tlbflushSpec_traps h)
  case retire => exact extLeaves_slates (v := fun _ => 0) (fun _ h => asidretSpec_traps h)
  case bwset => exact extLeaves_slates (v := fun _ => 0) (fun i h => by rw [bwsetSpec_body, if_pos (not_not.1 (mt bwOk_iff.1 h))]; rfl)
  case cgrp => exact extLeaves_slates (v := fun _ => 0) (fun i h => by rw [cgrpSpec_body, if_pos h]; rfl)
  case cgrpScope =>
    exact extLeaves_slates (fun i h => by rw [cgrpSpec_body, if_neg (Nat.not_le.2 h.1), if_neg (Bool.eq_false_iff.1 h.2)])
  case fxwin => exact extLeaves_slates (v := fun _ => 0) (fun i h => by rw [fxwinSpec_body, if_pos h]; rfl)

end Sys2Proof.Machine

/-! PROOFS. The posts to other cores and units: COLL, TSKPOST, LAUNCH and ITEMPUT (14 R342, R345, R350; 15 R362): O32. -/

namespace Sys2Proof.Machine

/-! ## They leave every warp in its slot -/

theorem walk_cores (merged : Bool) (asid va st fuel lv base : Nat) (s : State) : (walk merged asid va st fuel lv base s).1.cores = s.cores := by
  induction fuel generalizing lv base s with
  | zero => rfl
  | succ fuel ih =>
    unfold walk
    split
    · exact ih _ _ _
    · dsimp only
      split_ifs
      · rfl
      · rfl
      · rfl
      · exact ih _ _ _
      · rfl

theorem translate_cores (s : State) (asid va : Nat) : (s.translate asid va).1.cores = s.cores := by
  unfold State.translate
  dsimp only
  split
  · rfl
  · split
    · rfl
    · split <;> exact walk_cores _ _ _ _ _ _ _ _

theorem translateFor_cores (s : State) (asid va : Nat) : (s.translateFor asid va).1.cores = s.cores := by
  unfold State.translateFor
  dsimp only
  split <;> exact translate_cores _ _ _

theorem fillHome_cores (s : State) (d : Nat) (h : HomeLine) : (s.fillHome d h).cores = s.cores := by
  unfold State.fillHome
  split
  · rfl
  · exact writeBack_cores _ _

theorem reach_cores (s : State) (asid va : Nat) (wr : Bool) : (s.reach asid va wr).1.cores = s.cores := by
  have ht := translateFor_cores s asid va
  unfold State.reach
  dsimp only
  split
  · rfl
  · split
    · exact ht
    · split_ifs
      · exact ht
      · exact ht
      · exact ht
      · split
        · exact ht
        · exact (fillHome_cores _ _ _).trans ht

theorem writeHbm_cores (s : State) (pa : Nat) (bs : List Byte) (bad : Bool) : (s.writeHbm pa bs bad).cores = s.cores := by
  unfold State.writeHbm
  dsimp only
  split <;> rfl

theorem writeHome_cores (s : State) (asid va : Nat) (bs : List Byte) (bad : Bool) : (s.writeHome asid va bs bad).1.cores = s.cores := by
  have hr := reach_cores s asid va true
  unfold State.writeHome
  dsimp only
  split
  · exact hr
  · exact (writeHbm_cores _ _ _ _).trans hr
  · exact hr

theorem keeps_postColl (s : State) (i : Issue) (n : Nat) (r : List DWord) (e : Scope) : Keeps i.c s (s.postColl i n r e).1 := by
  unfold State.postColl
  extract_lets b k count sq m x s1
  have hseq : Keeps i.c s sq.1 := keeps_takeSeq _ _ _ _ _
  have hcounted : Keeps i.c sq.1 s1 := (keeps_modGroup _ _ _ _ _).trans (keeps_modCore _ _ _ _ (fun _ => rfl))
  exact (hseq.trans hcounted).trans (keeps_modDie _ _ _ _)

theorem keeps_postTask {s : State} {d : Nat} {g : Group} {a b target poster unit : Nat} {r : State × Nat}
    (h : s.postTask d g a b target poster unit = .ok r) (c : Nat) : Keeps c s r.1 := by
  unfold State.postTask at h
  extract_lets k at h
  split at h
  · cases h
  · split at h
    · cases h; exact Keeps.refl _ _
    · cases h; exact (keeps_setCore _ _ _ _ (keeps_localWrite _ _ _)).trans (keeps_modPkg _ _ _)

theorem keeps_putItems (s : State) (c d gid : Nat) (items : List DWord) (close : Bool) : Keeps c s (s.putItems d gid items close).1 := by
  unfold State.putItems
  split
  · exact Keeps.refl _ _
  · dsimp only
    split
    · exact Keeps.refl _ _
    · exact keeps_setGroup _ _ _ _ _

theorem keeps_collPosted (i : Issue) : Keeps i.c i.s (collPosted i).1 := by
  unfold collPosted
  split
  · exact (quiet_keeps i).trans (keeps_postColl _ _ _ _ _)
  · exact quiet_keeps i

theorem keeps_taskOk (i : Issue) : Keeps i.c i.s (taskOk i).1 := by
  unfold taskOk
  split
  · next h => exact (quiet_keeps i).trans (keeps_postTask h _)
  · exact Keeps.refl _ _

theorem keeps_launchPosted (i : Issue) : Keeps i.c i.s (launchPosted i) :=
  (quiet_keeps i).trans ((keeps_of_cores (writeHome_cores _ _ _ _ _) _).trans (keeps_modPkg _ _ _))

theorem keeps_numbered {s : Issue → State} (n : Issue → Nat) {i : Issue} (h : Keeps i.c i.s (s i)) : Keeps i.c i.s (numbered s n i).s :=
  h.trans (keeps_modWarp _ _ _ _ _)

/-! ## What each meaning is -/

/-- A meaning that takes, once its checks have drained the store queue, the trap that they give. -/
theorem extLeaves_of_final {mk : Ext → Instr} {sp : Ext → Spec} {ok : Issue → Prop} {f : Issue → Option Trap} {st : Issue → State}
    {g : Issue → Trap → State} (hf : ∀ i, ok i → (f i).isSome = true) (hst : ∀ i t, f i = some t → st i = g i t)
    (hb : ∀ i t, ok i → f i = some t → (sp i.x).body i = .final (g i t))
    (he : ∀ x s, exec (mk x) s = runExt sp x s := by intros; rfl) : ExtLeaves mk sp ok st :=
  extLeaves_of_stands (fun i _ ho => by
    obtain ⟨t, ht⟩ := Option.isSome_iff_exists.1 (hf i ho)
    rw [hb i t ho ht, hst i t ht]
    rfl) he

theorem collSpec_body (i : Issue) : (collSpec i.x).body i =
    if !(i.grd.has i.elected) then .done i.res
    else match collFails i with
      | some t => .final ((quiet i).takeTrap i.c i.slot t false)
      | none =>
        match ((quiet i).die (dieOf i.c)).freeColl, (quiet i).scope? i.c i.g.asid (collOf (blockOf 4 i)).group with
        | some n, some e =>
          .done (numbered (fun i => ((quiet i).postColl i n (blockOf 4 i) e).1) (fun i => ((quiet i).postColl i n (blockOf 4 i) e).2) i)
        | _, _ => .done (numbered quiet (fun _ => 0) i) := rfl

theorem collSpec_posted {i : Issue} (h : elects i ∧ collFails i = none ∧ collRoom i) : (collSpec i.x).body i =
    .done (numbered (fun i => (collPosted i).1) (fun i => (collPosted i).2) i) := by
  obtain ⟨hg, hf, hn, he⟩ := h
  obtain ⟨n, hn⟩ := Option.isSome_iff_exists.1 hn
  obtain ⟨e, he⟩ := Option.isSome_iff_exists.1 he
  simp [collSpec_body, hg, hf, hn, he, numbered, collPosted]

theorem collSpec_full {i : Issue} (h : elects i ∧ collFails i = none ∧ ¬collRoom i) : (collSpec i.x).body i =
    .done (numbered quiet (fun _ => 0) i) := by
  obtain ⟨hg, hf, hr⟩ := h
  rw [collSpec_body, if_neg (by simp [hg]), hf]
  dsimp only
  split
  · next n e hn he => exact absurd ⟨by rw [hn]; rfl, by rw [he]; rfl⟩ hr
  · rfl

theorem tskpostSpec_body (i : Issue) : (tskpostSpec i.x).body i =
    if !(i.grd.has i.elected) then .done i.res
    else match taskPosted i with
      | .error t => .final ((quiet i).trapRead i.c i.slot t)
      | .ok r => .done (numbered (fun _ => r.1) (fun _ => r.2) i) := rfl

theorem tskpostSpec_posted {i : Issue} (h : elects i ∧ taskFails i = none) : (tskpostSpec i.x).body i =
    .done (numbered (fun i => (taskOk i).1) (fun i => (taskOk i).2) i) := by
  obtain ⟨hg, hf⟩ := h
  rw [tskpostSpec_body, if_neg (by simp [hg])]
  cases hp : taskPosted i with
  | error t => simp [taskFails, hp] at hf
  | ok r => simp only [numbered, taskOk, hp]

theorem tskpostSpec_traps {i : Issue} {t : Trap} (hg : elects i) (ht : taskFails i = some t) : (tskpostSpec i.x).body i =
    .final ((if t.cause = 0x11 then (quiet i).uncorrectable i.c 0x04 else quiet i).takeTrap i.c i.slot t false) := by
  rw [tskpostSpec_body, if_neg (by simp [hg])]
  cases hp : taskPosted i with
  | error u =>
    have hu : u = t := by simpa [taskFails, hp] using ht
    rw [hu]
    rfl
  | ok r => simp [taskFails, hp] at ht

theorem launchSpec_body (i : Issue) : (launchSpec i.x).body i =
    if !(i.grd.has i.elected) then .done i.res
    else if launchBad i (bitsOf i.x.mods.toNat 3 0) then .final ((quiet i).takeTrap i.c i.slot { cause := 0x0A, tval := 0 } false)
    else if launchFull i then .done (numbered quiet (fun _ => 0) i)
    else .done (numbered launchPosted (fun _ => 1) i) := rfl

theorem launchBad_iff {i : Issue} : launchBad i (bitsOf i.x.mods.toNat 3 0) = false ↔ launchOk i := by
  simp only [launchBad, launchOk, Bool.or_eq_false_iff, bne_eq_false_iff_eq, decide_eq_false_iff_not, Bool.not_eq_false', beq_eq_false_iff_ne,
    not_le, not_lt, and_assoc, Nat.one_le_iff_ne_zero]

theorem launchSpec_legal {i : Issue} (hg : elects i) (h : launchOk i) : (launchSpec i.x).body i =
    if launchFull i then .done (numbered quiet (fun _ => 0) i) else .done (numbered launchPosted (fun _ => 1) i) := by
  rw [launchSpec_body, if_neg (by simp [hg]), launchBad_iff.2 h]
  rfl

theorem itemputSpec_body (i : Issue) : (itemputSpec i.x).body i =
    .done (numbered (fun i => (itemPut i).1) (fun i => (itemPut i).2) i) := rfl

/-! ## With an empty store queue -/

theorem blockAddrTrap_eq_none {g : Group} {a n : Nat} (h : a % 8 = 0 ∧ a + n ≤ g.scrSize) : blockAddrTrap g a n = none :=
  if_neg (by omega)

theorem blockPoisonTrap_eq_none {k : Core} {g : Group} {a n : Nat} (h : ∀ j, j < n / 4 → localPoison k g (a + 4 * j) = false) :
    blockPoisonTrap k g a n = none := by
  have hf : (List.range (n / 4)).find? (fun j => localPoison k g (a + 4 * j)) = none := by simpa using h
  rw [blockPoisonTrap, hf]
  rfl

section
variable {i : Issue} (hi : i.Stands)
include hi

theorem collFails_of_plain {n m : Nat} {e : Scope} (h : CollPlain i n m e) : collFails i = none := by
  have hbar : ((collOf (blockOf 4 i)).baren && decide (i.g.nBar ≤ (collOf (blockOf 4 i)).bar)) = false := by
    cases hb : (collOf (blockOf 4 i)).baren with
    | false => rfl
    | true => simpa using h.bar hb
  have hhandles : ((((collOf (blockOf 4 i)).sides e.count (some m)).filter (fun p => p.1 == 1)).map (fun p => baseHandle p.2.1)).filter
      (fun t => decide (i.g.nTile ≤ t)) = [] := by
    simp only [List.filter_eq_nil_iff, List.mem_map, List.mem_filter, beq_iff_eq, decide_eq_true_eq, not_le]
    rintro _ ⟨p, ⟨hp, hs⟩, rfl⟩
    exact (h.tiles p hp hs).1
  have htiles : ((collOf (blockOf 4 i)).sides e.count (some m)).find? (fun p => p.1 == 1 &&
      collTileBad (handleEntry (i.s.core i.c) i.g (baseHandle p.2.1)) (collOf (blockOf 4 i)) p.2.1 p.2.2) = none := by
    simp only [List.find?_eq_none, Bool.and_eq_true, beq_iff_eq, not_and, Bool.not_eq_true]
    intro p hp hs
    rw [← hi.core]
    exact (h.tiles p hp hs).2
  have hlocal : ((collOf (blockOf 4 i)).sides e.count (some m)).filter (fun p => p.1 == 2 &&
      decide (i.g.scrSize < bitsOf p.2.1 31 0 + p.2.2 * (collOf (blockOf 4 i)).size)) = [] := by
    simp only [List.filter_eq_nil_iff, Bool.and_eq_true, beq_iff_eq, decide_eq_true_eq, not_and, not_lt]
    exact h.local_
  simp only [collFails, collCheck, quiet_of_calm hi h.quiet, h.scope, Option.bind_some, h.member, Option.map_some, Option.getD_some, h.block,
    h.done, hbar, Nat.not_le.2 h.line, hhandles, htiles, hlocal]
  rfl

theorem taskPosted_of_plain (h : TaskPlain i) : taskPosted i = .ok (taskSent i, 1) := by
  have hmask : ¬i.g.scrSize < i.a 0 + 8 := by have := h.delta.2; omega
  have hwords : 8 * (1 + (maskBits (deltaMask i)).length) / 4 = 2 * (1 + (maskBits (deltaMask i)).length) := by omega
  have hfields : ((maskBits (deltaMask i)).zip ((deltaOf i).drop 1)).findSome? (fun p => recReserved p.1 p.2) = none :=
    List.findSome?_eq_none_iff.2 h.fields
  have htarget : ¬(192 ≤ i.d 0 ∧ i.d 0 ≠ 0xFFFFFFFF) := by have := h.target; omega
  have htrap : taskTrap i.k i.g (i.a 0) (i.b 0) (i.d 0) = none := by
    simp only [taskTrap, if_neg hmask, blockAddrTrap_eq_none h.delta, blockAddrTrap_eq_none h.base,
      blockPoisonTrap_eq_none (hwords ▸ h.clean.1), blockPoisonTrap_eq_none (n := 104) h.clean.2, h.mask, hfields, h.legal, if_neg htarget]
    rfl
  simp only [taskPosted, State.postTask, quiet_of_calm hi h.quiet, ← hi.core, htrap]
  exact if_neg (Nat.not_le.2 h.room)

theorem taskSent_keeps : Keeps i.c i.s (taskSent i) := by
  unfold taskSent
  extract_lets bytes
  exact (keeps_setCore _ _ _ _ (hi.core ▸ keeps_localWrite _ _ _)).trans (keeps_modPkg _ _ _)

theorem launchFull_of_calm (hc : calm i) : launchFull i ↔ ¬ringRoom i := by
  rw [launchFull, launchQ, quiet_of_calm hi hc, not_lt]

theorem launchPosted_of_calm (hc : calm i) : launchPosted i = sheetPosted i := by
  simp only [launchPosted, sheetPosted, launchQ, quiet_of_calm hi hc]

theorem itemPut_of_room (h : castRoom i) : itemPut i = (castGrown i, (castItems i).length) := by
  obtain ⟨ho, hp⟩ := h
  have hno : ¬((!i.g.castOpen && !(castItems i).isEmpty) || decide (castPool < ((i.s.core i.c).groups.map (fun p => p.2.castQ.length)).sum +
      (castItems i).length)) = true := by
    simp only [ho, ← hi.core, castPool, Bool.not_true, Bool.false_and, Bool.false_or, decide_eq_true_eq, not_lt]
    exact hp
  simp only [itemPut, State.putItems, hi.group, if_neg hno, castGrown, State.modGroup]

theorem itemPut_of_closed (h : i.g.castOpen = false ∧ castItems i ≠ []) : itemPut i = (i.s, 2 ^ 64 - 1) := by
  obtain ⟨ho, hn⟩ := h
  simp [itemPut, State.putItems, hi.group, ho, hn, allOnes64]

end

/-- Settles O32: by what each meaning is with its check failed, without room, and with room; with an empty store queue its conditions are
those of the state at issue. -/
theorem groupPostsComplete : Obligations.GroupPostsComplete := by
  refine ⟨?collPlain, ?taskPlain, ?launchPlain, ?itemRoom, ?itemClosed, ?coll, ?collFull, ?collBad, ?collOff, ?task, ?taskBad, ?taskOff, ?launch,
    ?launchFull, ?launchBad, ?launchOff, ?item⟩
  case collPlain =>
    refine fun n m e => extFormWhen_of_stands (fun i hi h => ?_) (fun i _ _ => keeps_numbered _ (keeps_postColl _ _ _ _ _))
    have hg : (!(i.grd.has i.elected)) = false := by simp [h.elected]
    simp only [collSpec_body, hg, collFails_of_plain hi h, quiet_of_calm hi h.quiet, h.free, h.scope, numbered]
    rfl
  case taskPlain =>
    refine extFormWhen_of_stands (fun i hi h => ?_) (fun i hi _ => ?_)
    · have hg : (!(i.grd.has i.elected)) = false := by simp [h.elected]
      simp only [tskpostSpec_body, hg, taskPosted_of_plain hi h]
      rfl
    · exact keeps_numbered _ (taskSent_keeps hi)
  case launchPlain =>
    refine extFormWhen_of_stands (fun i hi ⟨hg, hc, hl, hr⟩ => ?_) (fun i hi ⟨_, hc, _⟩ => ?_)
    · rw [launchSpec_legal hg hl, if_neg (fun h => (launchFull_of_calm hi hc).1 h hr), numbered, launchPosted_of_calm hi hc]
      rfl
    · exact keeps_numbered _ (launchPosted_of_calm hi hc ▸ keeps_launchPosted i)
  case itemRoom =>
    refine extFormWhen_of_stands (fun i hi h => ?_) (fun i _ _ => keeps_numbered _ (keeps_modGroup _ _ _ _ _))
    rw [itemputSpec_body, numbered, itemPut_of_room hi h]
    rfl
  case itemClosed =>
    refine extFormWhen_of_stands (fun i hi h => ?_) (fun i _ _ => keeps_numbered _ (Keeps.refl _ _))
    rw [itemputSpec_body, numbered, itemPut_of_closed hi h]
    rfl
  case coll => exact extFormWhen_numbered (fun _ h => collSpec_posted h) keeps_collPosted
  case collFull => exact extFormWhen_numbered (fun _ h => collSpec_full h) quiet_keeps
  case collBad =>
    exact extLeaves_of_final (fun _ h => h.2) (fun i t ht => by rw [quietTrap, ht]) (fun i t h ht => by rw [collSpec_body, if_neg (by simp [h.1]), ht])
  case collOff => exact extFormWhen_off (fun i h => by simp [collSpec_body, h])
  case task => exact extFormWhen_numbered (fun _ h => tskpostSpec_posted h) keeps_taskOk
  case taskBad => exact extLeaves_of_final (fun _ h => h.2) (fun i t ht => by rw [taskTrapped, ht]) (fun i t h ht => tskpostSpec_traps h.1 ht)
  case taskOff => exact extFormWhen_off (fun i h => by simp [tskpostSpec_body, h])
  case launch => exact extFormWhen_numbered (fun i h => by rw [launchSpec_legal h.1 h.2.1, if_neg h.2.2]) keeps_launchPosted
  case launchFull => exact extFormWhen_numbered (fun i h => by rw [launchSpec_legal h.1 h.2.1, if_pos h.2.2]) quiet_keeps
  case launchBad =>
    refine extLeaves_of_stands (fun i _ ⟨hg, hl⟩ => ?_)
    rw [launchSpec_body, if_neg (by simp [hg]), if_pos (Bool.not_eq_false _ ▸ mt launchBad_iff.1 hl)]
    rfl
  case launchOff => exact extFormWhen_off (fun i h => by simp [launchSpec_body, h])
  case item => exact extForm_of_when (extFormWhen_numbered (fun i _ => itemputSpec_body i) (fun i => keeps_putItems _ _ _ _ _ _))

end Sys2Proof.Machine

/-! PROOFS. The state after reset (18 R433) and the steps of grips and events (14 R351, R356): O40, O49 and O43. -/

namespace Sys2Proof.Machine

/-! ## Reset: a unit that no table lists stands in its own reset state -/

theorem core_reset (c : Nat) : State.reset.core c = Core.idle 0 := rfl
theorem die_reset (d : Nat) : State.reset.die d = Die.reset := rfl
theorem stack_reset (k : Nat) : State.reset.stack k = Stack.reset := rfl

/-- Settles O40: every core, die and stack is the reset one, whose fields are read off. -/
theorem resetLeaves : Obligations.ResetLeaves := by
  refine ⟨fun c => ?cores, fun c n => ?counters, fun d => ?dies, fun _ => rfl, fun k => ?walks, rfl, rfl, rfl, rfl, fun _ => rfl⟩
  case cores =>
    rw [core_reset]
    exact ⟨⟨rfl, rfl, rfl, rfl⟩, rfl, rfl, rfl, rfl⟩
  case counters =>
    rw [core_reset]
    rfl
  case dies =>
    rw [die_reset]
    exact ⟨rfl, rfl, rfl, rfl, rfl, rfl⟩
  case walks =>
    rw [stack_reset]
    rfl

/-- Settles O49: the memories of the package are empty, and no table lists a core or a die. -/
theorem resetIsCanonical : Obligations.ResetIsCanonical :=
  State.reset.canon_iff.1 ⟨⟨rfl, rfl⟩, TabAll.nil, TabAll.nil⟩

/-! ## A grip's turn and an event's -/

/-- A running grip whose store holds an instruction, and whose queued atomics owe it no register, runs it. -/
theorem gripTurn_runs {s : State} {c g : Nat} {i : Instr} (hrun : ((s.core c).grip g).run = 1) (hfrozen : s.pkg.frozen = false)
    (htag : ((s.core c).grip g).wtag = none) (hi : ((s.core c).grip g).fetch = .ok i)
    (hregs : ∀ r ∈ gripRegs i, r = 0 ∨ r ∉ ((s.core c).grip g).awaits) {t : State} (ht : exec i { s with cur := .grip c g } = .next t) :
    gripTurn s c g = .next { t with cur := .none } := by
  have hstop : ¬(((s.core c).grip g).run ≠ 1 ∨ (((s.core c).grip g).wtag.isSome = true ∧ ((s.core c).grip g).struck.isNone = true) ∨
      s.pkg.frozen = true) := by simp [hrun, hfrozen, htag]
  have howed : ¬((gripRegs i).any (fun r => r != 0 && ((s.core c).grip g).awaits.contains r)) = true := by
    simp only [List.any_eq_true, Bool.and_eq_true, bne_iff_ne, List.contains_iff_mem, not_exists, not_and]
    exact fun r hr h0 => (hregs r hr).resolve_left h0
  simp only [gripTurn, if_neg hstop, hi, if_neg howed, ht]

theorem takeAct_grip {s : State} {c g : Nat} (hfrozen : s.pkg.frozen = false) (htripped : s.pkg.tripped = false) :
    takeAct s (.grip c g) = gripTurn s c g := by
  simp [takeAct, hfrozen, htripped]

theorem eventTurn_runs {s : State} {i : Instr} (hwf : i.wf = true) (hmay : mayHappen s i = true) : eventTurn s i = exec i { s with cur := .none } := by
  simp only [eventTurn, hwf, hmay, Bool.not_true, Bool.false_eq_true, if_false, if_true]

/-- Settles O43: the turn is the grip's, which runs what its store holds, or the event's, which may happen. -/
theorem stepRunsGripsAndEvents : Obligations.StepRunsGripsAndEvents := by
  refine ⟨?grip, ?event⟩
  case grip =>
    intro s dt rest c g i ha p s0 hl hc hg hfrozen htripped hrun htag hi hregs t ht
    have hr : (Act.grip c g).inRange = true := by simp [Act.inRange, hc, hg]
    rw [step_of_agenda ha hr hl, takeAct_grip hfrozen htripped, gripTurn_runs hrun hfrozen htag hi hregs ht]
  case event =>
    intro s dt rest i ha p s0 hl hwf hmay
    exact (step_of_agenda ha rfl hl).trans (eventTurn_runs hwf hmay)

end Sys2Proof.Machine

/-! PROOFS. The integer instructions of a grip (14 R351 to R356): the arithmetic of the unprivileged specification on words of every width, and
what retires an instruction. -/

namespace Sys2Proof.Machine

/-! ## Arithmetic -/

theorem wrapInt_eq_toNat_ofInt (z : Int) (w : Nat) : wrapInt z w = (BitVec.ofInt w z).toNat := by
  simp [wrapInt, BitVec.toNat_ofInt]

theorem sextNat_toNat {w : Nat} (hw : 0 < w) (a : BitVec w) : sextNat a.toNat w = a.toInt := by
  have hlt := a.isLt
  have hp : 2 ^ w = 2 * 2 ^ (w - 1) := (Nat.two_pow_pred_mul_two hw ▸ Nat.mul_comm _ _)
  simp only [sextNat, Nat.pos_iff_ne_zero.1 hw, if_false, Nat.mod_eq_of_lt hlt, BitVec.toInt]
  push_cast
  split <;> split <;> omega

theorem ofInt_eq_of_toInt {w : Nat} {z : Int} {x : BitVec w} (h : x.toInt = z.bmod (2 ^ w)) : BitVec.ofInt w z = x :=
  BitVec.eq_of_toInt_eq (by rw [BitVec.toInt_ofInt, h])

theorem extractLsb'_ofInt_double (w : Nat) (z : Int) : (BitVec.ofInt (2 * w) z).extractLsb' w w = BitVec.ofInt w (z / 2 ^ w) := by
  apply BitVec.eq_of_toNat_eq
  zify
  simp only [BitVec.extractLsb'_toNat, BitVec.toNat_ofInt, Nat.shiftRight_eq_div_pow]
  have hd : (0 : Int) < 2 ^ w := by positivity
  have hz : (z % (2 ^ w * 2 ^ w)) / 2 ^ w % 2 ^ w = z / 2 ^ w % 2 ^ w := by
    rw [Int.emod_def z, mul_assoc, Int.sub_mul_ediv_left _ _ hd.ne', Int.sub_mul_emod_self_left]
  have h2 : (0 : Int) ≤ z % (2 ^ w * 2 ^ w) := Int.emod_nonneg _ (by positivity)
  push_cast
  rw [two_mul, pow_add, Int.toNat_of_nonneg h2, hz, Int.toNat_of_nonneg (Int.emod_nonneg _ hd.ne')]

theorem rvArith_eq_rvBits {w : Nat} (hw : 0 < w) (op : RvOp) (a b : BitVec w) :
    rvArith op w a.toNat b.toNat = (rvBits op a b).toNat := by
  have ha : a.toNat % 2 ^ w = a.toNat := Nat.mod_eq_of_lt a.isLt
  have hb : b.toNat % 2 ^ w = b.toNat := Nat.mod_eq_of_lt b.isLt
  have hone : 1 % 2 ^ w = 1 := Nat.mod_eq_of_lt (Nat.one_lt_two_pow (by omega))
  have hzero : b.toInt = 0 ↔ b = 0 := by rw [← BitVec.toInt_inj]; simp
  have hzeroN : b.toNat = 0 ↔ b = 0 := by rw [← BitVec.toNat_inj]; simp
  have hones : 2 ^ w - 1 = (BitVec.allOnes w).toNat := by simp
  have hu : ∀ x : BitVec w, x.setWidth (2 * w) = BitVec.ofInt (2 * w) (x.toNat : Int) := by
    intro x; apply BitVec.eq_of_toNat_eq; simp
  cases op <;> simp only [rvArith, rvBits, sextNat_toNat hw, wrapInt_eq_toNat_ofInt, ha, hb, BitVec.signExtend, hu, ← BitVec.ofInt_mul,
    extractLsb'_ofInt_double, hzero, hzeroN, apply_ite BitVec.toNat, hones]
  case add => simp
  case sub => rw [ofInt_eq_of_toInt BitVec.toInt_sub]
  case sll => simp [Nat.shiftLeft_eq]
  case slt => by_cases h : a.toInt < b.toInt <;> simp [BitVec.slt, h, hone]
  case sltu => by_cases h : a.toNat < b.toNat <;> simp [BitVec.ult, h, hone]
  case xor => simp
  case srl => simp [Nat.shiftRight_eq_div_pow]
  case sra =>
    rw [show a.toInt / 2 ^ (b.toNat % w) = (a.sshiftRight (b.toNat % w)).toInt by
      rw [BitVec.toInt_sshiftRight, Int.shiftRight_eq_div_pow]; push_cast; rfl, BitVec.ofInt_toInt]
  case or => simp
  case and => simp
  case mul => rw [BitVec.ofInt_mul, BitVec.ofInt_toInt, BitVec.ofInt_toInt]
  case mulhu =>
    have hlt : a.toNat * b.toNat / 2 ^ w < 2 ^ w := Nat.div_lt_of_lt_mul (Nat.mul_lt_mul'' a.isLt b.isLt)
    rw [show (a.toNat : Int) * b.toNat / 2 ^ w = ((a.toNat * b.toNat / 2 ^ w : Nat) : Int) by push_cast; rfl, BitVec.ofInt_natCast,
      BitVec.toNat_ofNat, Nat.mod_eq_of_lt hlt]
  case div => rw [ofInt_eq_of_toInt (BitVec.toInt_sdiv a b)]
  case divu => simp
  case rem => rw [← BitVec.toInt_srem, BitVec.ofInt_toInt]
  case remu => simp

theorem rvArith_mod_32 (op : RvOp) (a b : Nat) : rvArith op 32 a b = rvArith op 32 (a % 2 ^ 32) (b % 2 ^ 32) := by
  have hsh : b % 2 ^ 32 % 32 = b % 32 := Nat.mod_mod_of_dvd _ (by decide)
  simp only [rvArith, sextNat, Nat.mod_mod, hsh]

theorem ofNat_rvResult (op : RvOp) (word : Bool) (a b : DWord) : BitVec.ofNat 64 (rvResult op word a.toNat b.toNat) = rvOf op word a b := by
  cases word with
  | false => rw [rvResult, rvOf, if_neg Bool.false_ne_true, if_neg Bool.false_ne_true, rvArith_eq_rvBits (by decide),
      BitVec.ofNat_toNat, BitVec.setWidth_eq]
  | true =>
    rw [rvResult, rvOf, if_pos rfl, if_pos rfl, rvArith_mod_32, ← BitVec.toNat_setWidth, ← BitVec.toNat_setWidth, rvArith_eq_rvBits (by decide),
      sextNat_toNat (by decide), wrapInt_eq_toNat_ofInt, BitVec.ofNat_toNat, BitVec.setWidth_eq, BitVec.signExtend]

theorem rvTaken_iff (k : RvBranch) (a b : DWord) : rvTaken k a b = true ↔ rvGoes k a b := by
  cases k <;> simp [rvTaken, rvGoes, BitVec.slt, BitVec.ult]

/-! ## A grip's instruction done -/

theorem Grip.reg_putReg (k : Grip) (rd : Nat) (v : DWord) (n : Nat) :
    (k.putReg rd v).reg n = if n = rd ∧ n ≠ 0 then v else k.reg n := by
  by_cases h0 : rd = 0
  · subst h0; simp +contextual [Grip.putReg]
  · by_cases hn : n = rd
    · subst hn; simp [Grip.putReg, Grip.reg, h0]
    · simp [Grip.putReg, Grip.reg, h0, hn, Tab.getD_set_ne _ _ _ hn]

theorem Grip.putReg_eq (k : Grip) (rd : Nat) (v : DWord) : k.putReg rd v = { k with x := (k.putReg rd v).x } := by
  unfold Grip.putReg; split <;> rfl

/-- What retires a grip's instruction gives rd, moves the pc, counts, and changes nothing else. -/
theorem gripDone_gripRetire (s : State) (c g rd : Nat) {v : Nat} {w : DWord} (hv : BitVec.ofNat 64 v = w) (pc : DWord) :
    GripDone s c g rd w pc (s.gripRetire c g rd v pc) := by
  subst hv
  have hg : ((s.gripRetire c g rd v pc).core c).grip g =
      { ((s.core c).grip g).putReg rd (BitVec.ofNat 64 v) with pc := pc, minstret := ((s.core c).grip g).minstret + 1 } := by
    rw [State.gripRetire, State.grip_modGrip_same, Grip.putReg_eq]
  constructor
  · intro n; rw [hg]; exact Grip.reg_putReg _ _ _ n
  · rw [hg, Grip.putReg_eq]
  · intro n hn; rw [State.gripRetire, State.grip_modGrip_ne _ _ _ hn]
  · simp only [State.gripRetire, State.modGrip, State.core_modCore_same]
  · intro n hn; simp only [State.gripRetire, State.modGrip, State.core_modCore_ne _ _ hn]
  · rfl

/-- An outcome that retires completes. -/
theorem gripCompletes_gripRetire {s : State} {c g rd v : Nat} {w : DWord} {pc : DWord} {e : Host.Outcome State Fault Refusal}
    (he : e = .next (s.gripRetire c g rd v pc)) (hv : BitVec.ofNat 64 v = w) : GripCompletes s c g rd w pc e :=
  ⟨_, he, gripDone_gripRetire s c g rd hv pc⟩

/-- An outcome that is a grip's exception traps, where the grip has a handler. -/
theorem gripTraps_gripExcept {s : State} {c g cause v : Nat} {w : DWord} {e : Host.Outcome State Fault Refusal}
    (he : e = .next (s.gripExcept c g cause v)) (h : ((s.core c).grip g).mtvec ≠ 0) (hv : BitVec.ofNat 64 v = w) :
    GripTraps s c g cause w e :=
  hv ▸ ⟨_, he, gripExcept_excepted s c g cause v h⟩

/-- A standard instruction of the acting grip is its step. -/
theorem runsRv_eq {s : State} {c g gid : Nat} {x : Grip} {gr : Group} (h : GripActs s c g gid x gr) (r : Rv) (short : Bool) :
    runsRv r short s = .next (rvStep s c g gid gr r (nextOf x short)) :=
  (runGrip_of_gripActs h _).trans (by rw [h.grip])

theorem ofNat_toNat64 (v : DWord) : BitVec.ofNat 64 v.toNat = v := by rw [BitVec.ofNat_toNat, BitVec.setWidth_eq]

section
variable {s : State} {c g gid : Nat} {x : Grip} {gr : Group} {short : Bool} (h : GripActs s c g gid x gr)
include h

/-- An instruction whose step retires with `v` completes with it. -/
theorem runsRv_completes {s1 : State} {r : Rv} {rd v : Nat} {w pc : DWord}
    (hr : rvStep s c g gid gr r (nextOf x short) = s1.gripRetire c g rd v pc) (hv : BitVec.ofNat 64 v = w) :
    GripCompletes s1 c g rd w pc (runsRv r short s) :=
  gripCompletes_gripRetire (by rw [runsRv_eq h, hr]) hv

/-- A jump or a branch to `pc`. -/
theorem branch_completes (k : RvBranch) (rs1 rs2 : BitVec 5) (off : BitVec 13) {pc : DWord}
    (hpc : (if rvTaken k (x.reg rs1.toNat) (x.reg rs2.toNat) then x.pc + off.signExtend 64 else nextOf x short) = pc) :
    GripCompletes s c g 0 0 pc (runsRv (.branch k rs1 rs2 off) short s) :=
  runsRv_completes h (by subst hpc; rw [← h.grip]; rfl) rfl

/-- An instruction whose step is an exception takes it. -/
theorem runsRv_traps {s1 : State} {r : Rv} {cause v : Nat} {w : DWord} (hr : rvStep s c g gid gr r (nextOf x short) = s1.gripExcept c g cause v)
    (hm : ((s1.core c).grip g).mtvec ≠ 0) (hv : BitVec.ofNat 64 v = w) : GripTraps s1 c g cause w (runsRv r short s) :=
  gripTraps_gripExcept (by rw [runsRv_eq h, hr]) hm hv

theorem ebreak_traps (hm : x.mtvec ≠ 0) :
    GripTraps { s with free := s.free + 1 } c g 3 0 (runsRv .ebreak short s) ∨
      GripTraps { s with free := s.free + 1 } c g 3 x.pc (runsRv .ebreak short s) := by
  have hx : (({ s with free := s.free + 1 } : State).core c).grip g = x := h.grip
  have ht : ∀ w, BitVec.ofNat 64 (ebreakVal s x.pc) = w → GripTraps { s with free := s.free + 1 } c g 3 w (runsRv .ebreak short s) :=
    fun w hw => runsRv_traps h (by rw [← h.grip]; rfl) (by rw [hx]; exact hm) (by rw [← hw, h.grip])
  by_cases hc : Config.freeChoice s.free % 2 = 0
  · exact .inl (ht _ (by rw [ebreakVal, if_pos hc]; rfl))
  · exact .inr (ht _ (by rw [ebreakVal, if_neg hc, ofNat_toNat64]))

end

/-- Settles O33: each instruction's step, and the arithmetic of the unprivileged specification on words of every width. -/
theorem gripIntegerCompletes : Obligations.GripIntegerCompletes := by
  intro s c g gid x gr short h
  have hx := h.grip
  refine ⟨?_, ?_, ?_, ?_, ?_, ?_, ?_, ?_, ?_, ?_, ?_, ?_⟩
  · exact fun rd imm => runsRv_completes h rfl (ofNat_toNat64 _)
  · exact fun rd imm => runsRv_completes h rfl (by rw [hx, ofNat_toNat64])
  · exact fun rd off => runsRv_completes h (by rw [← hx]; rfl) (ofNat_toNat64 _)
  · exact fun rd rs1 off => runsRv_completes h (by rw [← ofNat_half_twice, ← hx]; rfl) (ofNat_toNat64 _)
  · exact fun k rs1 rs2 off hgo => branch_completes h k rs1 rs2 off (if_pos ((rvTaken_iff _ _ _).2 hgo))
  · exact fun k rs1 rs2 off hgo => branch_completes h k rs1 rs2 off (if_neg (fun e => hgo ((rvTaken_iff _ _ _).1 e)))
  · exact fun op w rd rs1 imm => runsRv_completes h rfl (by rw [hx, ofNat_rvResult])
  · exact fun op w rd rs1 rs2 => runsRv_completes h rfl (by rw [hx, ofNat_rvResult])
  · exact fun p q => runsRv_completes h rfl rfl
  · exact runsRv_completes h rfl rfl
  · rw [runsRv_eq h, ← hx]
    rfl
  · intro hm
    have hm' : ((s.core c).grip g).mtvec ≠ 0 := hx.symm ▸ hm
    exact ⟨runsRv_traps h rfl hm' rfl, fun w => runsRv_traps h rfl hm' (BitVec.ofNat_toNat _ _), ebreak_traps h hm⟩

end Sys2Proof.Machine

/-! PROOFS. A grip's loads, stores, atomics and CSR instructions, and the exceptions that they take (14 R351 to R356; 11 R272): O34 and O35. -/

namespace Sys2Proof.Machine

/-- A change of a core that leaves its grips alone. -/
theorem State.grip_modCore (s : State) (c : Nat) (f : Core → Core) (h : ∀ k, (f k).grips = k.grips) (d g : Nat) :
    ((s.modCore c f).core d).grip g = (s.core d).grip g := by
  by_cases e : d = c
  · subst e; rw [State.core_modCore_same, Core.grip, h]; rfl
  · rw [State.core_modCore_ne _ _ e]

theorem State.grip_uncorrectable (s : State) (c u d g : Nat) : ((s.uncorrectable c u).core d).grip g = (s.core d).grip g :=
  s.grip_modCore c (fun k => k.uncorrectable u) (fun _ => rfl) d g

/-! ## What an access does, by the place that its address names -/

section
variable {s : State} {c g gid : Nat} {gr : Group} {a n rd v q : Nat} {uns drains : Bool} {op : RvAmo} {pc : DWord}

theorem gripDoLoad_misaligned (ha : a % n ≠ 0) : gripDoLoad s c g gid gr a n uns rd pc = s.gripExcept c g 4 a := if_pos ha

theorem gripDoLoad_held (ha : a % n = 0) (hh : behindAtomic s c g gid gr a n = true) : gripDoLoad s c g gid gr a n uns rd pc = s := by
  rw [gripDoLoad, if_neg (not_not.2 ha), if_pos hh]

theorem gripDoLoad_value (ha : a % n = 0) (hh : behindAtomic s c g gid gr a n = false) (hv : gripLoad (s.core c) g gid gr a n = some (v, false)) :
    gripDoLoad s c g gid gr a n uns rd pc = s.gripRetire c g rd (gripValue v n uns) pc := by
  simp only [gripDoLoad, ha, hh, hv, ne_eq, not_true, if_false, Bool.false_eq_true]

theorem gripDoLoad_poison (ha : a % n = 0) (hh : behindAtomic s c g gid gr a n = false) (hv : gripLoad (s.core c) g gid gr a n = some (v, true)) :
    gripDoLoad s c g gid gr a n uns rd pc = (s.uncorrectable c (gripUnit a)).gripExcept c g 27 a := by
  simp only [gripDoLoad, ha, hh, hv, ne_eq, not_true, if_false, if_true, Bool.false_eq_true]

theorem gripDoLoad_nowhere (ha : a % n = 0) (hp : placeOf s c gid gr a n = .none) : gripDoLoad s c g gid gr a n uns rd pc = s.gripExcept c g 5 a := by
  simp only [gripDoLoad, gripHeld, gripLoad, ha, hp, ne_eq, not_true, if_false, Bool.false_eq_true]

theorem gripDoStore_misaligned (ha : a % n ≠ 0) : gripDoStore s c g gid gr a n v pc = s.gripExcept c g 6 a := if_pos ha

theorem gripDoStore_dstore (ha : a % n = 0) (hp : placeOf s c gid gr a n = .dstore q) :
    gripDoStore s c g gid gr a n v pc = (s.modGrip c g (fun x => x.putData q n v)).gripRetire c g 0 0 pc := by
  simp only [gripDoStore, ha, hp, ne_eq, not_true, if_false]

theorem gripDoStore_loc (ha : a % n = 0) (hp : placeOf s c gid gr a n = .loc q) :
    gripDoStore s c g gid gr a n v pc = if sqCapacity ≤ ((s.core c).grip g).storeQ.length then s
      else (s.modGrip c g (fun x => x.enqueue (.store (withAddrs q (toBytes v n))))).gripRetire c g 0 0 pc := by
  simp only [gripDoStore, ha, hp, ne_eq, not_true, if_false]

theorem gripDoStore_fault (ha : a % n = 0) (hp : placeOf s c gid gr a n = .none ∨ ∃ p, placeOf s c gid gr a n = .istore p) :
    gripDoStore s c g gid gr a n v pc = s.gripExcept c g 7 a := by
  obtain hp | ⟨p, hp⟩ := hp <;> simp only [gripDoStore, ha, hp, ne_eq, not_true, if_false]

theorem gripDoAmo_misaligned (ha : a % n ≠ 0) : gripDoAmo s c g gid gr op drains n rd a v pc = s.gripExcept c g (if op = .lr then 4 else 6) a := by
  simp only [gripDoAmo, ha, ne_eq, not_false_eq_true, if_true, beq_iff_eq]

theorem gripDoAmo_dstore (ha : a % n = 0) (hp : placeOf s c gid gr a n = .dstore q) :
    gripDoAmo s c g gid gr op drains n rd a v pc = gripDataAmo (if drains then s.gripDrain c g else s) c g op n rd q v pc := by
  simp only [gripDoAmo, resvKey, ha, hp, ne_eq, not_true, if_false]

theorem gripAmoEntry_eq (op : RvAmo) (n rd p v : Nat) : gripAmoEntry op n rd p v = queuedAtomic op n rd p v := by
  cases op <;> rfl

theorem gripDoAmo_loc (ha : a % n = 0) (hp : placeOf s c gid gr a n = .loc q) (hq : q < gr.scrSize) :
    gripDoAmo s c g gid gr op drains n rd a v pc = if sqCapacity ≤ ((s.core c).grip g).storeQ.length then s
      else
        let t := (s.modGrip c g (fun x => x.enqueue (queuedAtomic op n rd q v))).gripRetire c g 0 0 pc
        if drains then t.gripDrain c g else t := by
  simp only [gripDoAmo, resvKey, ha, hp, hq, ne_eq, not_true, if_false, if_true, gripAmoEntry_eq]

theorem gripDoAmo_fault (ha : a % n = 0) (hp : resvKey gr (placeOf s c gid gr a n) = none) :
    gripDoAmo s c g gid gr op drains n rd a v pc = s.gripExcept c g (if op = .lr then 5 else 7) a := by
  simp only [gripDoAmo, ha, hp, ne_eq, not_true, if_false, beq_iff_eq]

/-! ## An atomic on the data store -/

theorem gripDataAmo_lr (hb : ((s.core c).grip g).poison.contains (q / 8) = false) :
    gripDataAmo s c g .lr n rd q v pc = (s.modGrip c g (fun x => { x with resv := some (resvData + q, n) })).gripRetire c g rd
      (gripValue (Memory.readV ((s.core c).grip g).dstore q n) n false) pc := by
  simp only [gripDataAmo, hb, Bool.false_eq_true, if_false]

/-- The bytes from `key` are reserved by a grip. -/
def Grip.Reserves (x : Grip) (key n : Nat) : Prop := ∃ b m, x.resv = some (b, m) ∧ b ≤ key ∧ key + n ≤ b + m

theorem gripDataAmo_sc_held (hr : ((s.core c).grip g).Reserves (resvData + q) n) :
    gripDataAmo s c g .sc n rd q v pc = (s.modGrip c g (fun x => { x.putData q n v with resv := none })).gripRetire c g rd 0 pc := by
  obtain ⟨b, m, hr, hlo, hhi⟩ := hr
  simp only [gripDataAmo, hr, hlo, hhi, decide_true, Bool.and_self, if_true]

theorem gripDataAmo_sc_lost (hr : ¬((s.core c).grip g).Reserves (resvData + q) n) :
    gripDataAmo s c g .sc n rd q v pc = (s.modGrip c g (fun x => { x with resv := none })).gripRetire c g rd 1 pc := by
  cases hx : ((s.core c).grip g).resv with
  | none => simp only [gripDataAmo, hx, Bool.false_eq_true, if_false]
  | some p =>
    have hout : (decide (p.1 ≤ resvData + q) && decide (resvData + q + n ≤ p.1 + p.2)) = false := by
      rw [← Bool.not_eq_true, Bool.and_eq_true, decide_eq_true_iff, decide_eq_true_iff]
      exact fun hin => hr ⟨p.1, p.2, hx, hin⟩
    simp only [gripDataAmo, hx, hout, Bool.false_eq_true, if_false]

theorem gripDataAmo_op (hlr : op ≠ .lr) (hsc : op ≠ .sc) (hb : ((s.core c).grip g).poison.contains (q / 8) = false) :
    gripDataAmo s c g op n rd q v pc = (s.modGrip c g (fun x => x.putData q n
      (atomInt (rvAmoOp op).1 (8 * n) (rvAmoOp op).2 (Memory.readV ((s.core c).grip g).dstore q n) (v % 2 ^ (8 * n)) 0))).gripRetire c g rd
      (gripValue (Memory.readV ((s.core c).grip g).dstore q n) n false) pc := by
  unfold gripDataAmo
  split
  · exact absurd rfl hsc
  · exact absurd rfl hlr
  · simp only [hb, Bool.false_eq_true, if_false]

/-! ## CSR instructions -/

theorem gripCsr_faults {im : Bool} {cop : RvCsr} {rd rs1 : BitVec 5} {num : BitVec 12}
    (h : csrRead c g ((s.core c).grip g) num.toNat = none ∨ ((cop = .rw ∨ rs1 ≠ 0) ∧ 0xC00 ≤ num.toNat)) :
    gripCsr s c g cop im rd rs1 num pc = s.gripExcept c g 2 (rvWord (.csr cop im rd rs1 num)) := by
  cases hr : csrRead c g ((s.core c).grip g) num.toNat with
  | none => simp only [gripCsr, hr]
  | some old =>
    obtain ⟨hw, hn⟩ := h.resolve_left (by rw [hr]; exact Option.some_ne_none old)
    have hwrites : (cop == .rw || rs1 != 0) = true := by simpa using hw
    simp only [gripCsr, hr, hwrites, hn, decide_true, Bool.and_self, if_true]

theorem gripCsr_reads {im : Bool} {cop : RvCsr} {rd rs1 : BitVec 5} {num : BitVec 12} {old : Nat} (hop : cop ≠ .rw) (hrs : rs1 = 0)
    (hr : csrRead c g ((s.core c).grip g) num.toNat = some old) :
    gripCsr s c g cop im rd rs1 num pc = s.gripRetire c g rd.toNat old pc := by
  have hwrites : (cop == .rw || rs1 != 0) = false := by simpa using And.intro hop hrs
  simp only [gripCsr, hr, hwrites, Bool.false_and, Bool.false_eq_true, if_false]

/-- What a CSR instruction writes. -/
def csrNew (cop : RvCsr) (old v : Nat) : Nat :=
  match cop with
  | .rw => v
  | .rs => old ||| v
  | .rc => old &&& (2 ^ 64 - 1 - v)

theorem gripCsr_writes {im : Bool} {cop : RvCsr} {rd rs1 : BitVec 5} {num : BitVec 12} {old : Nat} (hw : cop = .rw ∨ rs1 ≠ 0) (hn : num.toNat < 0xC00)
    (hr : csrRead c g ((s.core c).grip g) num.toNat = some old) :
    gripCsr s c g cop im rd rs1 num pc = (s.gripRetire c g rd.toNat old pc).modGrip c g (fun x =>
      csrWrite x num.toNat (csrNew cop old (if im then rs1.toNat else (s.gx c g rs1).toNat))) := by
  have hwrites : (cop == .rw || rs1 != 0) = true := by simpa using hw
  simp only [gripCsr, hr, hwrites, Nat.not_le.2 hn, decide_false, Bool.and_false, Bool.false_eq_true, if_false, if_true]
  cases cop <;> rfl

end

/-! ## The instructions -/

section
variable {s : State} {c g gid : Nat} {x : Grip} {gr : Group} {short : Bool} (h : GripActs s c g gid x gr)
include h

theorem rvStep_load (size : BitVec 2) (uns : Bool) (rd rs1 : BitVec 5) (off : BitVec 12) :
    rvStep s c g gid gr (.load size uns rd rs1 off) (nextOf x short) =
      gripDoLoad s c g gid gr (gripEa x rs1 off) (2 ^ size.toNat) uns rd.toNat (nextOf x short) := by
  rw [← h.grip]; rfl

theorem rvStep_store (size : BitVec 2) (rs1 rs2 : BitVec 5) (off : BitVec 12) :
    rvStep s c g gid gr (.store size rs1 rs2 off) (nextOf x short) =
      gripDoStore s c g gid gr (gripEa x rs1 off) (2 ^ size.toNat) (x.reg rs2.toNat).toNat (nextOf x short) := by
  rw [← h.grip]; rfl

theorem rvStep_amo (op : RvAmo) (dbl aq rl : Bool) (rd rs1 rs2 : BitVec 5) :
    rvStep s c g gid gr (.amo op dbl aq rl rd rs1 rs2) (nextOf x short) =
      gripDoAmo s c g gid gr op (aq || rl) (if dbl then 8 else 4) rd.toNat (x.reg rs1.toNat).toNat (x.reg rs2.toNat).toNat (nextOf x short) := by
  rw [← h.grip]; rfl

/-- An atomic on the data store acts at once on the state that aq and rl give. -/
theorem amo_dstore_completes {op : RvAmo} {dbl aq rl : Bool} {rd rs1 rs2 : BitVec 5} {q : Nat} {f : Grip → Grip} {v : Nat} {w : DWord}
    (ha : (x.reg rs1.toNat).toNat % (if dbl then 8 else 4) = 0)
    (hp : placeOf s c gid gr (x.reg rs1.toNat).toNat (if dbl then 8 else 4) = .dstore q)
    (hd : gripDataAmo (gripFrom s c g aq rl) c g op (if dbl then 8 else 4) rd.toNat q (x.reg rs2.toNat).toNat (nextOf x short) =
      ((gripFrom s c g aq rl).modGrip c g f).gripRetire c g rd.toNat v (nextOf x short))
    (hv : BitVec.ofNat 64 v = w) :
    GripCompletes (onGrip (gripFrom s c g aq rl) c g f) c g rd.toNat w (nextOf x short) (runsRv (.amo op dbl aq rl rd rs1 rs2) short s) :=
  runsRv_completes h ((rvStep_amo h op dbl aq rl rd rs1 rs2).trans ((gripDoAmo_dstore ha hp).trans hd)) hv

end

/-- Settles O34: an access does what the place of its address says, and a CSR instruction what its number says. -/
theorem gripMemoryCompletes : Obligations.GripMemoryCompletes := by
  intro s c g gid x gr short h
  have hx := h.grip
  refine ⟨?_, ?_, ?_, ?_, ?_, ?_, ?_, ?_, ?_, ?_, ?_, ?_, ?_⟩
  · exact fun size uns rd rs1 off v ha hh hv => runsRv_completes h ((rvStep_load h ..).trans (gripDoLoad_value ha hh hv)) rfl
  · exact fun size uns rd rs1 off ha hh => by rw [runsRv_eq h, rvStep_load h, gripDoLoad_held ha hh]
  · exact fun size rs1 rs2 off p ha hp => runsRv_completes h ((rvStep_store h ..).trans (gripDoStore_dstore ha hp)) rfl
  · intro size rs1 rs2 off p ha hp hroom
    exact runsRv_completes h ((rvStep_store h ..).trans ((gripDoStore_loc ha hp).trans (if_neg (by rw [hx]; exact Nat.not_le.2 hroom)))) rfl
  · intro size rs1 rs2 off p ha hp hfull
    rw [runsRv_eq h, rvStep_store h, gripDoStore_loc ha hp, if_pos (by rw [hx]; exact hfull)]
  · exact fun dbl aq rl rd rs1 rs2 q ha hp hb => amo_dstore_completes h ha hp (gripDataAmo_lr hb) rfl
  · exact fun dbl aq rl rd rs1 rs2 q ha hp hr => amo_dstore_completes h ha hp (gripDataAmo_sc_held hr) rfl
  · exact fun dbl aq rl rd rs1 rs2 q ha hp hr => amo_dstore_completes h ha hp (gripDataAmo_sc_lost hr) rfl
  · exact fun op dbl aq rl rd rs1 rs2 q hlr hsc ha hp hb => amo_dstore_completes h ha hp (gripDataAmo_op hlr hsc hb) rfl
  · intro op dbl aq rl rd rs1 rs2 q n ha hp hq hroom
    refine ⟨_, gripDone_gripRetire _ c g 0 rfl _, ?_⟩
    rw [runsRv_eq h, rvStep_amo h, gripDoAmo_loc ha hp hq, if_neg (by rw [hx]; exact Nat.not_le.2 hroom)]
  · intro op dbl aq rl rd rs1 rs2 q n ha hp hq hfull
    rw [runsRv_eq h, rvStep_amo h, gripDoAmo_loc ha hp hq, if_pos (by rw [hx]; exact hfull)]
  · exact fun op im rd rs1 num old hop hrs hr => runsRv_completes h (gripCsr_reads hop hrs (hx.symm ▸ hr)) rfl
  · intro op im rd rs1 num old hw hn hr
    refine ⟨_, ?_, gripDone_gripRetire _ c g _ rfl _⟩
    subst hx
    rw [runsRv_eq h]
    exact (congrArg Host.Outcome.next (gripCsr_writes hw hn hr)).trans (by cases op <;> rfl)

theorem tl_traps {s : State} {c g gid : Nat} {x : Grip} {gr : Group} (h : GripActs s c g gid x gr) (hm : x.mtvec ≠ 0) (rd rs1 rs2 : BitVec 5)
    (hn : gr.nTl ≤ (x.reg rs1.toNat).toNat) :
    GripTraps s c g 24 (x.reg rs1.toNat) (exec (.gTlwait rd rs1 rs2) s) ∧ GripTraps s c g 24 (x.reg rs1.toNat) (exec (.gTlrd rd rs1) s) := by
  obtain rfl := h.grip
  exact ⟨gripTraps_gripExcept ((runGrip_of_gripActs h _).trans (congrArg Host.Outcome.next (if_pos hn))) hm (ofNat_toNat64 _),
    gripTraps_gripExcept ((runGrip_of_gripActs h _).trans (congrArg Host.Outcome.next (if_pos hn))) hm (ofNat_toNat64 _)⟩

/-- What g.barv does. -/
theorem execGBarv_eq {s : State} {c g gid : Nat} {x : Grip} {gr : Group} (h : GripActs s c g gid x gr) (rd rs1 : BitVec 5) :
    exec (.gBarv rd rs1) s = .next (
      if gr.nBar ≤ (x.reg rs1.toNat).toNat then s.gripExcept c g 24 (x.reg rs1.toNat).toNat
      else if (gr.bar (x.reg rs1.toNat).toNat).expected = 0 then s.gripExcept c g 24 (0x100 + (x.reg rs1.toNat).toNat)
      else if sqCapacity ≤ x.storeQ.length then s
      else (s.modGrip c g (fun x' => x'.enqueue (.arrive (x.reg rs1.toNat).toNat 1))).gripNext c g rd
        (gr.bar (x.reg rs1.toNat).toNat).phase.toNat) := by
  obtain rfl := h.grip
  exact runGrip_of_gripActs h _

/-- Settles O35: the same places and numbers, where they give no value. -/
theorem gripExceptionsAreTaken : Obligations.GripExceptionsAreTaken := by
  intro s c g gid x gr short h hm
  have hx := h.grip
  have hm' : ((s.core c).grip g).mtvec ≠ 0 := hx.symm ▸ hm
  refine ⟨?_, ?_, ?_, ?_, ?_, ?_, ?_, ?_, ?_, ?_, ?_⟩
  · exact fun size uns rd rs1 off ha => runsRv_traps h ((rvStep_load h ..).trans (gripDoLoad_misaligned ha)) hm' rfl
  · exact fun size uns rd rs1 off ha hp => runsRv_traps h ((rvStep_load h ..).trans (gripDoLoad_nowhere ha hp)) hm' rfl
  · exact fun size uns rd rs1 off v ha hh hv => runsRv_traps h ((rvStep_load h ..).trans (gripDoLoad_poison ha hh hv))
      (by rw [State.grip_uncorrectable]; exact hm') rfl
  · exact fun size rs1 rs2 off ha => runsRv_traps h ((rvStep_store h ..).trans (gripDoStore_misaligned ha)) hm' rfl
  · exact fun size rs1 rs2 off ha hp => runsRv_traps h ((rvStep_store h ..).trans (gripDoStore_fault ha hp)) hm' rfl
  · exact fun op dbl aq rl rd rs1 rs2 ha => runsRv_traps h ((rvStep_amo h ..).trans (gripDoAmo_misaligned ha)) hm' (ofNat_toNat64 _)
  · exact fun op dbl aq rl rd rs1 rs2 ha hp => runsRv_traps h ((rvStep_amo h ..).trans (gripDoAmo_fault ha hp)) hm' (ofNat_toNat64 _)
  · exact fun op im rd rs1 num hn => runsRv_traps h (gripCsr_faults (hx.symm ▸ hn)) hm' rfl
  · exact fun rd rs1 rs2 hn => tl_traps h hm rd rs1 rs2 hn
  · exact fun rd rs1 hn => gripTraps_gripExcept ((execGBarv_eq h rd rs1).trans (by rw [if_pos hn])) hm' (ofNat_toNat64 _)
  · exact fun rd rs1 hn he => gripTraps_gripExcept ((execGBarv_eq h rd rs1).trans (by rw [if_neg (Nat.not_le.2 hn), if_pos he])) hm' rfl

end Sys2Proof.Machine

/-! PROOFS. The custom instructions of a grip (14 R355, R357; 10 R261; 11 R272): O36. A store queue that drains, a post and a local write leave
every grip's pc. -/

namespace Sys2Proof.Machine

/-! ## A local write can cost a grip its reservation, and nothing else -/

/-- The grips of `k` stand in `k'` too, but that some have lost their reservations. -/
def Core.KeepsGrips (k k' : Core) : Prop := ∀ n, k'.grip n = k.grip n ∨ k'.grip n = { k.grip n with resv := none }

theorem Core.KeepsGrips.refl (k : Core) : k.KeepsGrips k := fun _ => .inl rfl
theorem Core.KeepsGrips.trans {k l m : Core} (h : k.KeepsGrips l) (h' : l.KeepsGrips m) : k.KeepsGrips m := by
  intro n
  rcases h n with e | e <;> rcases h' n with e' | e' <;> rw [e', e] <;> simp
theorem Core.keepsGrips_of_grips {k k' : Core} (h : k'.grips = k.grips) : k.KeepsGrips k' := fun n => .inl (by rw [Core.grip, h]; rfl)
theorem Core.keepsGrips_foldl {α : Type} {f : Core → α → Core} (hf : ∀ (k : Core) a, k.KeepsGrips (f k a)) (l : List α) (k : Core) :
    k.KeepsGrips (l.foldl f k) := by
  induction l generalizing k with
  | nil => exact Core.KeepsGrips.refl k
  | cons a t ih => exact (hf k a).trans (ih _)

/-- A grip with no reservation stands as it was. -/
theorem Core.KeepsGrips.grip_eq {k k' : Core} (h : k.KeepsGrips k') {n : Nat} (hr : (k.grip n).resv = none) : k'.grip n = k.grip n := by
  rcases h n with e | e
  · exact e
  · rw [e, ← hr]

theorem Core.KeepsGrips.pc {k k' : Core} (h : k.KeepsGrips k') (n : Nat) : (k'.grip n).pc = (k.grip n).pc := by
  rcases h n with e | e <;> rw [e]

/-- A grip whose reservation is lost where it covers any of `n` bytes at `p`. -/
def Grip.lostResv (p n : Nat) (x : Grip) : Grip :=
  match x.resv with
  | some (a, m) => if a < p + n ∧ p < a + m then { x with resv := none } else x
  | none => x

theorem grip_dropResv (k : Core) (p n m : Nat) : (dropResv k p n).grip m = (k.grip m).lostResv p n :=
  getD_mapVal k.grips (fun _ => Grip.lostResv p n) m Grip.reset rfl

theorem keepsGrips_dropResv (k : Core) (p n : Nat) : k.KeepsGrips (dropResv k p n) := by
  intro m
  rw [grip_dropResv]
  unfold Grip.lostResv
  split
  · split
    · exact .inr rfl
    · exact .inl rfl
  · exact .inl rfl

theorem keepsGrips_localPut (k : Core) (g : Group) (a : Nat) (b : Byte) : k.KeepsGrips (localPut k g a b) := by
  unfold localPut
  split
  · exact Core.keepsGrips_of_grips rfl
  · split <;> exact Core.keepsGrips_of_grips rfl
  · exact Core.KeepsGrips.refl k

theorem keepsGrips_localUnpoison (k : Core) (g : Group) (a : Nat) : k.KeepsGrips (localUnpoison k g a) := by
  unfold localUnpoison
  split
  · exact Core.keepsGrips_of_grips rfl
  · split <;> exact Core.keepsGrips_of_grips rfl
  · exact Core.KeepsGrips.refl k

theorem keepsGrips_localWrite (k : Core) (g : Group) (bs : List (Nat × Byte)) : k.KeepsGrips (localWrite k g bs) := by
  unfold localWrite
  refine ((Core.keepsGrips_foldl (fun k p => keepsGrips_localPut k g p.1 p.2) bs k).trans
    (Core.keepsGrips_foldl (fun k a => keepsGrips_localUnpoison k g a) _ _)).trans (Core.keepsGrips_foldl ?_ _ _)
  intro k a
  split
  · exact keepsGrips_dropResv k _ _
  · exact Core.KeepsGrips.refl k

theorem keepsGrips_atomLanes (g : Group) (op n : Nat) (nat : Bool) (ls : List AtomLane) (k : Core) : k.KeepsGrips (atomLanes g op n nat ls k).1 := by
  induction ls generalizing k with
  | nil => exact Core.KeepsGrips.refl k
  | cons l t ih =>
    refine Core.KeepsGrips.trans ?_ (ih _)
    unfold atomLane
    dsimp only
    split
    · exact Core.KeepsGrips.refl k
    · exact keepsGrips_localWrite k g _

/-! ## States in which every grip's pc stands -/

/-- Every grip's pc in `t` is that in `s`. -/
def KeepsPcs (s t : State) : Prop := ∀ c g, ((t.core c).grip g).pc = ((s.core c).grip g).pc

theorem KeepsPcs.refl (s : State) : KeepsPcs s s := fun _ _ => rfl
theorem KeepsPcs.trans {s t u : State} (h : KeepsPcs s t) (k : KeepsPcs t u) : KeepsPcs s u := fun c g => (k c g).trans (h c g)
theorem KeepsPcs.ite {c : Prop} {inst : Decidable c} {s t u : State} (ht : KeepsPcs s t) (hu : KeepsPcs s u) : KeepsPcs s (if c then t else u) := by
  split
  · exact ht
  · exact hu
theorem keepsPcs_modCore (s : State) (c : Nat) (f : Core → Core) (h : ∀ k, (f k).grips = k.grips) : KeepsPcs s (s.modCore c f) :=
  fun d g => congrArg Grip.pc (s.grip_modCore c f h d g)
theorem keepsPcs_setCore (s : State) (c : Nat) {k : Core} (h : (s.core c).KeepsGrips k) : KeepsPcs s (s.setCore c k) := by
  intro d g
  by_cases e : d = c
  · subst e; rw [State.core_setCore_same]; exact h.pc g
  · rw [State.core_setCore_ne _ _ e]
theorem keepsPcs_modGrip (s : State) (c g : Nat) (f : Grip → Grip) (h : ∀ x, (f x).pc = x.pc) : KeepsPcs s (s.modGrip c g f) := by
  intro d n
  by_cases e : d = c
  · subst e
    by_cases en : n = g
    · subst en; rw [State.grip_modGrip_same, h]
    · rw [State.grip_modGrip_ne _ _ _ en]
  · rw [State.modGrip, State.core_modCore_ne _ _ e]
theorem keepsPcs_uncorrectable (s : State) (c u : Nat) : KeepsPcs s (s.uncorrectable c u) := fun d g => congrArg Grip.pc (s.grip_uncorrectable c u d g)
theorem keepsPcs_setGroup (s : State) (c n : Nat) (x : Group) : KeepsPcs s (s.setGroup c n x) := keepsPcs_modCore s c _ (fun _ => rfl)
theorem keepsPcs_modGroup (s : State) (c n : Nat) (f : Group → Group) : KeepsPcs s (s.modGroup c n f) := by
  unfold State.modGroup
  split
  · exact KeepsPcs.refl s
  · exact keepsPcs_setGroup s c n _

/-! ## A store queue that drains -/

theorem keepsPcs_performBody (s : State) (c gid : Nat) (b : SqBody) : KeepsPcs s (s.performBody c gid b).1 := by
  unfold State.performBody
  split
  · exact KeepsPcs.refl s
  next g _ =>
    split
    case h_1 => exact keepsPcs_setCore s c (keepsGrips_localWrite _ g _)
    case h_2 =>
      have hw := fun op n nat lns => keepsPcs_setCore s c (keepsGrips_atomLanes g op n nat lns (s.core c))
      dsimp only
      split
      · exact (hw _ _ _ _).trans (keepsPcs_uncorrectable _ _ _)
      · exact hw _ _ _ _
    case h_3 =>
      unfold State.arrive
      split
      · exact KeepsPcs.refl s
      · exact (keepsPcs_setGroup s c gid _).trans (keepsPcs_modCore _ c _ (fun _ => rfl))
    case h_4 => exact KeepsPcs.refl s

theorem Grip.putReg_pc (x : Grip) (r : Nat) (v : DWord) : (x.putReg r v).pc = x.pc := by rw [Grip.putReg_eq]

theorem keepsPcs_gripStruck (s : State) (c g a : Nat) : KeepsPcs s (s.gripStruck c g a) := keepsPcs_modGrip s c g _ (fun _ => rfl)

theorem keepsPcs_gripAnswer (s : State) (c g n rd : Nat) (lns : List AtomLane) (olds : List (Nat × Nat × Bool)) :
    KeepsPcs s (s.gripAnswer c g n rd lns olds) := by
  unfold State.gripAnswer
  split
  · split
    · exact keepsPcs_gripStruck s c g _
    · exact keepsPcs_modGrip s c g _ (fun x => x.putReg_pc _ _)
  · exact KeepsPcs.refl s

theorem keepsPcs_gripReserve (s : State) (c g : Nat) (gr : Group) (store : Bool) (n rd a v : Nat) :
    KeepsPcs s (s.gripReserve c g gr store n rd a v) := by
  unfold State.gripReserve
  dsimp only
  split
  · exact ((keepsPcs_setCore s c (keepsGrips_localWrite _ gr _)).ite (KeepsPcs.refl s)).trans (keepsPcs_modGrip _ c g _ (fun x => x.putReg_pc _ _))
  · split
    · exact (keepsPcs_uncorrectable s c _).trans (keepsPcs_gripStruck _ c g _)
    · exact keepsPcs_modGrip s c g _ (fun x => x.putReg_pc _ _)

theorem keepsPcs_gripPerformHead (s : State) (c g : Nat) : KeepsPcs s (s.gripPerformHead c g) := by
  have hpop : ∀ (t : State) rest, KeepsPcs t (t.modGrip c g (fun x => { x with storeQ := rest })) :=
    fun t rest => keepsPcs_modGrip t c g _ (fun _ => rfl)
  unfold State.gripPerformHead
  dsimp only
  split
  · split
    · exact ((keepsPcs_performBody s c _ _).trans (hpop _ _)).trans (keepsPcs_gripAnswer _ c g _ _ _ _)
    · exact (hpop s _).trans (keepsPcs_gripReserve _ c g _ _ _ _ _ _)
    · exact (keepsPcs_performBody s c _ _).trans (hpop _ _)
  · exact KeepsPcs.refl s

theorem keepsPcs_gripDrain (s : State) (c g : Nat) : KeepsPcs s (s.gripDrain c g) := by
  unfold State.gripDrain
  generalize ((s.core c).grip g).storeQ.length = n
  induction n generalizing s with
  | zero => exact KeepsPcs.refl s
  | succ n ih => exact (keepsPcs_gripPerformHead s c g).trans (ih _)

/-! ## What posts -/

theorem keepsPcs_postSlate (s : State) (c gid poster : Nat) (pc : DWord) (r : List DWord) : KeepsPcs s (s.postSlate c gid poster pc r).1 := by
  have htake : ∀ tl, KeepsPcs s (s.takeSeq c gid tl).1 := by
    intro tl
    unfold State.takeSeq
    split
    · exact KeepsPcs.refl s
    · exact keepsPcs_setGroup s c gid _
  unfold State.postSlate
  split
  · exact KeepsPcs.refl s
  · exact ((htake _).trans (keepsPcs_modGroup _ c _ _)).trans (keepsPcs_modCore _ c _ (fun _ => rfl))

theorem keepsPcs_putItems (s : State) (c gid : Nat) (items : List DWord) (close : Bool) : KeepsPcs s (s.putItems c gid items close).1 := by
  unfold State.putItems
  split
  · exact KeepsPcs.refl s
  · dsimp only
    split
    · exact KeepsPcs.refl s
    · exact keepsPcs_setGroup s c gid _

theorem keepsPcs_postTask {s : State} {c : Nat} {gr : Group} {a b target poster unit : Nat} {r : State × Nat}
    (h : s.postTask c gr a b target poster unit = .ok r) : KeepsPcs s r.1 := by
  unfold State.postTask at h
  extract_lets k at h
  split at h
  · cases h
  · split at h
    · cases h; exact KeepsPcs.refl s
    · cases h; exact keepsPcs_setCore s c (keepsGrips_localWrite _ gr _)

/-! ## The instructions -/

/-- A custom instruction that is done in a state that kept the grip's pc completes from there. -/
theorem gripCompletes_gripNext {s t : State} {c g v : Nat} {rd : BitVec 5} {w : DWord} {e : Host.Outcome State Fault Refusal}
    (he : e = .next (t.gripNext c g rd v)) (ht : KeepsPcs s t) (hv : BitVec.ofNat 64 v = w) :
    GripCompletes t c g rd.toNat w (((s.core c).grip g).pc + 4) e := by
  rw [← ht c g]
  exact gripCompletes_gripRetire he hv

/-- A local read, and poison, depend on the scratchpad, its marks and the warps alone. -/
theorem localRead_congr {k k' : Core} (hs : k'.scratch = k.scratch) (hw : k'.warps = k.warps) (g : Group) (a n : Nat) :
    localRead k' g a n = localRead k g a n := by
  simp only [localRead, localByte, hs, hw]
theorem localPoison_congr {k k' : Core} (hp : k'.scratchPoison = k.scratchPoison) (hw : k'.warps = k.warps) (g : Group) (a : Nat) :
    localPoison k' g a = localPoison k g a := by
  simp only [localPoison, hp, hw]

/-- The state in which a grip's tag access acts: its words' tags turned, its wait over. -/
def State.gripTagged (s : State) (c g : Nat) (ws : List Nat) (full : Bool) : State :=
  (s.modCore c (fun k => (setTags k ws full).unwait (.grip g))).modGrip c g (fun k => { k with wtag := none })

theorem keepsPcs_gripTagged (s : State) (c g : Nat) (ws : List Nat) (full : Bool) : KeepsPcs s (s.gripTagged c g ws full) :=
  (keepsPcs_modCore s c (fun k => (setTags k ws full).unwait (.grip g)) (fun _ => rfl)).trans
    (keepsPcs_modGrip _ c g (fun k => { k with wtag := none }) (fun _ => rfl))

theorem localRead_gripTagged (s : State) (c g : Nat) (ws : List Nat) (full : Bool) (gr : Group) (a n : Nat) :
    localRead ((s.gripTagged c g ws full).core c) gr a n = localRead (s.core c) gr a n :=
  localRead_congr (by simp only [State.gripTagged, State.modGrip, State.core_modCore_same]; rfl)
    (by simp only [State.gripTagged, State.modGrip, State.core_modCore_same]; rfl) gr a n
theorem localPoison_gripTagged (s : State) (c g : Nat) (ws : List Nat) (full : Bool) (gr : Group) (a : Nat) :
    localPoison ((s.gripTagged c g ws full).core c) gr a = localPoison (s.core c) gr a :=
  localPoison_congr (by simp only [State.gripTagged, State.modGrip, State.core_modCore_same]; rfl)
    (by simp only [State.gripTagged, State.modGrip, State.core_modCore_same]; rfl) gr a

theorem gripTag_acts {s : State} {c g gid a : Nat} {gr : Group} {full : Bool} {act : State → State} (ha : a % 4 = 0)
    (hok : localOk (s.core c) gid gr a 4 false = true) (hready : wordsReady ((s.gripDrain c g).core c) (tagWords gr a 4) full = true)
    (hfree : ((s.gripDrain c g).core c).untagged (tagWords gr a 4) = true)
    (hfirst : someoneFirst ((s.gripDrain c g).core c) (.grip g) (tagWords gr a 4) = false) :
    gripTag s c g gid gr a full act = act ((s.gripDrain c g).gripTagged c g (tagWords gr a 4) (!full)) := by
  simp only [gripTag, ha, hok, hready, hfree, hfirst, ne_eq, not_true, if_false, Bool.not_true, Bool.false_eq_true, Bool.not_false, Bool.and_self, if_true]
  rfl

theorem waitDone_isSome {t : Timeline} {v : Nat} (h : v ≤ t.value ∨ t.blocked = true) : ∃ b, t.waitDone v = some b := by
  unfold Timeline.waitDone
  by_cases hv : v ≤ t.value
  · exact ⟨false, if_pos hv⟩
  · refine ⟨true, ?_⟩
    rw [if_neg hv, h.resolve_left hv, if_pos (by rw [Bool.true_and, decide_eq_true_eq]; omega)]

theorem waitDone_eq_none {t : Timeline} {v : Nat} (hv : t.value < v) (hb : t.blocked = false) : t.waitDone v = none := by
  rw [Timeline.waitDone, if_neg (Nat.not_le.2 hv), hb, Bool.false_and, if_neg Bool.false_ne_true]

/-! ## A grip that fails (14 R357) -/

theorem grip_modGroup (s : State) (c n : Nat) (f : Group → Group) (g : Nat) : ((s.modGroup c n f).core c).grip g = (s.core c).grip g := by
  rw [core_modGroup]; rfl

theorem grip_faultRecord {s : State} {c g : Nat} (h : ((s.core c).grip g).resv = none) (gid seq : Nat) (pc : DWord) (e : Nat) (addr : DWord)
    (w : Nat) : ((s.faultRecord c gid seq pc e addr w).core c).grip g = (s.core c).grip g := by
  unfold State.faultRecord
  split
  · rfl
  next gr _ =>
    dsimp only
    rw [grip_modGroup]
    split
    · rw [State.core_setCore_same]; exact (keepsGrips_localWrite _ gr _).grip_eq h
    · rfl

theorem group?_faultRecord {s : State} {c gid : Nat} {gr : Group} (h : s.group? c gid = some gr) (seq : Nat) (pc : DWord) (e : Nat) (addr : DWord)
    (w : Nat) : (s.faultRecord c gid seq pc e addr w).group? c gid = some { gr with recs := gr.recs + 1 } := by
  have hw : ∀ (p : Prop) [Decidable p] bs, (if p then s.setCore c (localWrite (s.core c) gr bs) else s).group? c gid = some gr := by
    intro p _ bs
    split
    · rw [State.group?_setCore s c _ (localWrite_groups _ _ _), h]
    · exact h
  simp only [State.faultRecord, h, group?_modGroup, if_true, hw, Option.map_some]

theorem group?_modGrip (s : State) (c g : Nat) (f : Grip → Grip) (d n : Nat) : (s.modGrip c g f).group? d n = s.group? d n :=
  s.group?_modCore c (fun k => { k with grips := Tab.set k.grips g (f (k.grip g)) }) (fun _ => rfl) d n

/-- The group of a grip that failed (14 R357). -/
def Group.gripFailed (gr : Group) : Group := { gr with recs := gr.recs + 1 }.fail 0x20 0 0

/-- A grip as its failure leaves it, before its record is written. -/
def State.gripStopped (s : State) (c g : Nat) : State :=
  (s.modGrip c g (fun x => { x with run := 3, resv := none, wtag := none })).modCore c (fun k => k.unwait (.grip g))

theorem grip_gripStopped (s : State) (c g : Nat) :
    ((s.gripStopped c g).core c).grip g = { (s.core c).grip g with run := 3, resv := none, wtag := none } := by
  rw [State.gripStopped, State.grip_modCore _ c (fun k => k.unwait (.grip g)) (fun _ => rfl), State.grip_modGrip_same]

theorem group?_gripStopped (s : State) (c g d n : Nat) : (s.gripStopped c g).group? d n = s.group? d n := by
  rw [State.gripStopped, State.group?_modCore _ c (fun k => k.unwait (.grip g)) (fun _ => rfl), group?_modGrip]

theorem gripFail_eq {s : State} {c g gid : Nat} (h : ((s.core c).grip g).gid = some gid) (e : Nat) (addr : DWord) :
    s.gripFail c g e addr = ((s.gripStopped c g).faultRecord c gid 0 ((s.core c).grip g).pc e addr (0x20 * 2 ^ 56 + (0x40 + g) * 2 ^ 37)).modGroup
      c gid (fun x => x.fail 0x20 0 0) := by
  simp only [State.gripFail, h]
  rfl

theorem gEvtFail_fails {s : State} {c g gid : Nat} {x : Grip} {gr : Group} (h : GripActs s c g gid x gr) (rs1 : BitVec 5) :
    ∃ t, exec (.gEvtFail rs1) s = .next t ∧ (t.core c).grip g = { x with run := 3, resv := none, wtag := none } ∧
      t.group? c gid = some gr.gripFailed := by
  obtain rfl := h.grip
  refine ⟨_, (runGrip_of_gripActs h _).trans (congrArg Host.Outcome.next (gripFail_eq h.owner _ _)), ?_, ?_⟩
  · rw [grip_modGroup, grip_faultRecord (by rw [grip_gripStopped]), grip_gripStopped]
  · rw [group?_modGroup, if_pos rfl, group?_faultRecord ((group?_gripStopped s c g c gid).trans h.group)]
    rfl

section
variable {s : State} {c g gid : Nat} {gr : Group} (h : GripActs s c g gid ((s.core c).grip g) gr)
include h

/-- g.post posts what its image says, where neither the image nor what it says traps. -/
theorem gPost_posts {rd rs1 : BitVec 5} {r : List DWord} (hroom : ((s.gripDrain c g).core c).copyQ.length < copyCapacity)
    (hr : (localDwords ((s.gripDrain c g).core c) gr (s.gx c g rs1).toNat 16).map (BitVec.ofNat 64) = r)
    (himage : imageTrap (s.gripDrain c g) c g gid gr (s.gx c g rs1).toNat 16 = none) (hslate : slateCheck (s.gripDrain c g) c gr 0 r = none) :
    exec (.gPost rd rs1) s =
      .next (((s.gripDrain c g).postSlate c gid (0x40 + g) ((s.core c).grip g).pc r).1.gripNext c g rd
        ((s.gripDrain c g).postSlate c gid (0x40 + g) ((s.core c).grip g).pc r).2) := by
  refine (runGrip_of_gripActs h _).trans (congrArg Host.Outcome.next ?_)
  subst hr
  simp only [Nat.not_le.2 hroom, if_false, himage, hslate, keepsPcs_gripDrain s c g c g]

theorem gTlwait_eq {rd rs1 rs2 : BitVec 5} (hn : (s.gx c g rs1).toNat < gr.nTl) :
    exec (.gTlwait rd rs1 rs2) s = .next (
      if ((gr.tl (s.gx c g rs1).toNat).waitDone (s.gx c g rs2).toNat).isNone then s else s.gripNext c g rd (gr.tl (s.gx c g rs1).toNat).value) := by
  refine (runGrip_of_gripActs h _).trans (congrArg Host.Outcome.next ?_)
  simp only [Nat.not_le.2 hn, if_false]
  cases (gr.tl (s.gx c g rs1).toNat).waitDone (s.gx c g rs2).toNat <;> rfl

theorem gLdf_acts {rd rs1 : BitVec 5} {t : State} {ws : List Nat} (hws : tagWords gr (s.gx c g rs1).toNat 4 = ws)
    (ht : (s.gripDrain c g).gripTagged c g ws false = t) (ha : (s.gx c g rs1).toNat % 4 = 0)
    (hok : localOk (s.core c) gid gr (s.gx c g rs1).toNat 4 false = true) (hready : wordsReady ((s.gripDrain c g).core c) ws true = true)
    (hfree : ((s.gripDrain c g).core c).untagged ws = true) (hfirst : someoneFirst ((s.gripDrain c g).core c) (.grip g) ws = false)
    (hclean : localPoison ((s.gripDrain c g).core c) gr (s.gx c g rs1).toNat = false) :
    exec (.gLdf rd rs1) s =
      .next (t.gripNext c g rd (gripValue (ofBytes (localRead ((s.gripDrain c g).core c) gr (s.gx c g rs1).toNat 4)) 4 false)) := by
  subst hws ht
  refine (runGrip_of_gripActs h _).trans (congrArg Host.Outcome.next ?_)
  rw [gripTag_acts ha hok hready hfree hfirst]
  simp only [Bool.not_true, localPoison_gripTagged, hclean, Bool.false_eq_true, if_false, localRead_gripTagged]

theorem gSte_acts {rs1 rs2 : BitVec 5} {t : State} {ws : List Nat} (hws : tagWords gr (s.gx c g rs1).toNat 4 = ws)
    (ht : (s.gripDrain c g).gripTagged c g ws true = t) (ha : (s.gx c g rs1).toNat % 4 = 0)
    (hok : localOk (s.core c) gid gr (s.gx c g rs1).toNat 4 false = true) (hready : wordsReady ((s.gripDrain c g).core c) ws false = true)
    (hfree : ((s.gripDrain c g).core c).untagged ws = true) (hfirst : someoneFirst ((s.gripDrain c g).core c) (.grip g) ws = false) :
    exec (.gSte rs1 rs2) s =
      .next ((t.setCore c (localWrite (t.core c) gr (withAddrs (s.gx c g rs1).toNat (toBytes (s.gx c g rs2).toNat 4)))).gripNext c g 0 0) := by
  subst hws ht
  exact (runGrip_of_gripActs h _).trans (congrArg Host.Outcome.next (gripTag_acts ha hok hready hfree hfirst))

theorem gTask_posts {rd rs1 rs2 : BitVec 5} {r : State × Nat}
    (hr : (s.gripDrain c g).postTask c gr (bitsOf (s.gx c g rs1).toNat 31 0) (bitsOf (s.gx c g rs2).toNat 31 0)
      (bitsOf (s.gx c g rs2).toNat 63 32) 0xFF (4 + g) = .ok r) :
    exec (.gTask rd rs1 rs2) s = .next (r.1.gripNext c g rd r.2) := by
  refine (runGrip_of_gripActs h _).trans (congrArg Host.Outcome.next ?_)
  simp only [hr]

end

/-- Settles O36: each custom instruction's own rule, in the state that its store queue leaves where it drains. -/
theorem gripCustomCompletes : Obligations.GripCustomCompletes := by
  intro s c g gid x gr h
  obtain rfl := h.grip
  have hd := keepsPcs_gripDrain s c g
  refine ⟨?_, ?_, ?_, ?_, ?_, ?_, ?_, ?_, ?_, ?_, ?_, ?_, ?_, ?_⟩
  · exact fun rd rs1 hfull => (runGrip_of_gripActs h _).trans (congrArg Host.Outcome.next (if_pos hfull))
  · exact fun rd rs1 hroom himage hslate => gripCompletes_gripNext (gPost_posts h hroom rfl himage hslate)
      (hd.trans (keepsPcs_postSlate _ _ _ _ _ _)) rfl
  · intro rd rs1 rs2 hn hdone
    obtain ⟨b, hb⟩ := waitDone_isSome hdone
    have hgo : ¬((gr.tl (s.gx c g rs1).toNat).waitDone (s.gx c g rs2).toNat).isNone = true := by
      rw [State.gx, State.gx, hb]
      exact Bool.false_ne_true
    exact gripCompletes_gripNext ((gTlwait_eq h hn).trans (congrArg Host.Outcome.next (if_neg hgo))) (KeepsPcs.refl s) rfl
  · intro rd rs1 rs2 hn hv hb
    exact (gTlwait_eq h hn).trans (congrArg Host.Outcome.next (if_pos (by rw [State.gx, State.gx, waitDone_eq_none hv hb]; rfl)))
  · intro rd rs1 hn
    exact gripCompletes_gripNext ((runGrip_of_gripActs h _).trans (congrArg Host.Outcome.next (if_neg (Nat.not_le.2 hn)))) (KeepsPcs.refl s) rfl
  · exact fun rd rs1 ha hok hready hfree hfirst hclean =>
      gripCompletes_gripNext (gLdf_acts h rfl rfl ha hok hready hfree hfirst hclean) (hd.trans (keepsPcs_gripTagged _ c g _ _)) rfl
  · exact fun rs1 rs2 ha hok hready hfree hfirst => gripCompletes_gripNext (rd := 0) (gSte_acts h rfl rfl ha hok hready hfree hfirst)
      ((hd.trans (keepsPcs_gripTagged _ c g _ _)).trans (keepsPcs_setCore _ c (keepsGrips_localWrite _ gr _))) rfl
  · exact fun rd rs1 => gripCompletes_gripNext (runGrip_of_gripActs h _) (keepsPcs_putItems s c gid _ _) rfl
  · exact fun rd rs1 => gripCompletes_gripNext (runGrip_of_gripActs h _) (keepsPcs_putItems s c gid _ _) rfl
  · exact fun rd rs1 rs2 r hr => gripCompletes_gripNext (gTask_posts h hr) (hd.trans (keepsPcs_postTask hr)) rfl
  · intro rd rs1 hn he hroom
    have hroom' : ¬sqCapacity ≤ ((s.core c).grip g).storeQ.length := Nat.not_le.2 hroom
    exact gripCompletes_gripNext ((execGBarv_eq h rd rs1).trans (by rw [if_neg (Nat.not_le.2 hn), if_neg he, if_neg hroom']))
      (keepsPcs_modGrip s c g _ (fun _ => rfl)) rfl
  · exact fun rs1 => gripCompletes_gripNext (rd := 0) (runGrip_of_gripActs h _) (keepsPcs_modCore s c _ (fun _ => rfl)) rfl
  · exact fun rs1 => ⟨_, runGrip_of_gripActs h _, gripDone_gripRetire s c g 0 rfl _⟩
  · intro rs1
    obtain ⟨t, ht, hgrip, hgroup⟩ := gEvtFail_fails h rs1
    exact ⟨t, gr.gripFailed, ht, hgrip, hgroup, rfl, rfl, fun hz => if_pos hz⟩

end Sys2Proof.Machine
